-- ==== Sys2Proof/Word.lean ====
section
/-! DEFINITION. The plain data that the whole model is written in: words, bytes, cache lines, and the shapes in which
a register of set-up space is described (R10, R15, R16). -/

namespace Sys2Proof

/-- A 64-bit register or word. -/
abbrev Word := BitVec 64

/-- A byte. -/
abbrev Byte := BitVec 8

/-- The data of one 64-byte line, byte k in bits 8k+7 to 8k (R11). -/
abbrev Line := BitVec 512

/-- A 16-bit symbol of the memory code (R229). -/
abbrev Symbol := BitVec 16

end Sys2Proof

namespace Sys2Proof.Machine

/-- A field of a register: the register's set-up-space offset (block number times 2^28 plus the offset in the block,
R528) and the field's highest and lowest bit (R10). -/
structure Fld where
  key : Nat
  hi  : Nat
  lo  : Nat
deriving DecidableEq, Repr

/-- The access types of R16. `w1sSticky` is a W1S field that reads its value; `w1s` one that its Effect column says
reads 0. -/
inductive Acc where
  | rw | ro | w1c | w1s | w1sSticky | rws | wo
deriving DecidableEq, Repr

/-- One row of a register table: bits, access, reset value, and the values that are not reserved (none: all are legal;
R20). -/
structure FieldDesc where
  hi    : Nat
  lo    : Nat
  acc   : Acc
  reset : Nat
  legal : Option (Nat × Nat)
deriving DecidableEq, Repr

/-- A register, or an array of registers: name, block, offset of the first one, the array's dimensions (first index,
index after the last, distance in bytes; widest distance first), and its fields. -/
structure RegDesc where
  name   : String
  block  : Nat
  off    : Nat
  dims   : List (Nat × Nat × Nat)
  fields : List FieldDesc
deriving DecidableEq, Repr

end Sys2Proof.Machine
end

