-- ==== Sys2Proof/Syntax.lean ====
section
/-! DEFINITION. The commands that reach the module: one constructor for each row of spec/opcode_table.json, in the
table's order, and the types of their operands. The table gives a row no operand bits, so the operands are the model's
own: which unit the command is about, what was written or received, and what a monitor measured (log entry 3). -/

namespace Sys2Proof.Machine

/-- Who sends a request to set-up space, by the world tag it carries (R531): text-world software or the service port,
Endpaper software, or a service engine. -/
inductive Requester where
  | text
  | endpaper
  | serviceEngine
deriving DecidableEq, Repr

/-- Errors that a read of DRAM meets in the cells: the copy (0: the lower or only channel; 1: the upper channel of a
mirrored pair), the symbol (R228), and the bits that differ. -/
abbrev LineErr := List (Nat × Nat × Symbol)

/-- What execution on a wrong path does before it is discarded (R122): a load or a fetch at a virtual address, a call, a non-temporal hint for
the next load, or AGS.SB or AGS.SCRUB, behind which nothing of the path executes (R103, R104). -/
inductive WrongAcc where
  | load (va : Word)
  | fetch (va : Word)
  | call
  | ntl (n : Nat)
  | barrier
deriving DecidableEq, Repr

/-- Who sends a request to a home (R175): a tile of a module, or a channel engine or data mover of a module's I/O die. -/
inductive ReqSrc where
  | tile (module tile : Nat)
  | engine (module die : Nat)
deriving DecidableEq, Repr

/-- What an agent outside the module answers to a read of a line: its data and whether they are poison, an error, or a memory guard's
refusal (R248). -/
inductive FarAnswer where
  | data (d : Line) (psn : Bool)
  | error
  | refused
deriving DecidableEq, Repr

/-- What agents outside the module answer to reads of their memory, by line: line number for another module's memory, 2^64 plus
the line number for the external host's. -/
abbrev FarData := List (Nat × FarAnswer)

/-- The requests of R175, and the eviction of a directory entry (R181). -/
inductive ReqKind where
  | rds (resolved : Bool)
  | rdOwn
  | upg
  | zero
  | rdCur
  | wrFull (data : Line) (psn : Bool)
  | wrPart (data : Line) (mask : BitVec 64) (psn : Bool)
  | cmoClean
  | cmoFlush
  | cmoInval
  | evict
deriving DecidableEq, Repr

/-- A request at a home: its kind, sender, line number, world tag (R199), whether it leaves the L3 without the line, its non-temporal hint
(R159), the cell errors that a read of DRAM for it would meet, and the hart that sent it (384: none of this module). -/
structure HomeReq where
  kind  : ReqKind
  src   : ReqSrc
  line  : Nat
  world : Bool := false
  noL3  : Bool := false
  hint  : Nat := 0
  err   : LineErr := []
  hart  : Nat := 384
deriving DecidableEq, Repr

/-- The snoops of R176. -/
inductive SnoopKind where
  | shr | inv | kill | drop | clean | cur
deriving DecidableEq, Repr

/-- A snoop whose answer is held (R178): its kind and line, the requester that a holder of another module's line sends its data to, and
the code with which it ends a wait (R95). -/
structure HeldSnoop where
  kind : SnoopKind
  line : Nat
  req  : Option (Nat × Nat) := none
  code : Nat := 0
deriving DecidableEq, Repr

/-- A tile's request at a home of another module: its kind, line, the hart it was sent for, what has come of it (0 outstanding, 1 done,
2 an access fault, 3 a guard's refusal), and the world tag and hint with which the line will be held (R124, R159). -/
structure Ask where
  kind : ReqKind
  line : Nat
  hart : Nat
  ans  : Nat := 0
  world : Bool := false
  hint  : Nat := 0
deriving DecidableEq, Repr


/-- The arrays of a tile that keep error counts (R164). -/
inductive ArrayKind where
  | l1i | l1d | l2 | vb | l3
deriving DecidableEq, Repr

/-- What a cache or directory array reports (R163, R184): an error in data or in one tag copy that is corrected; an
uncorrectable error in one tag or entry copy; in both copies; in data; a parity error in tree bits. -/
inductive ArrayFault where
  | corrected | oneTag | bothTags | data | tree
deriving DecidableEq, Repr

/-- What a core's checker finds (R129): in a datapath or control state (retry); in a rename table, a queue or a miss buffer; in a physical
register file; in a retired store-queue entry, corrected or not; in an L1 instruction line; in the `i`-th of the core's translations; in a
predictor: table 0 to 3 the direction tables in R116's order, 4 the branch-target buffer (set × 4 + way), 5 the indirect-target buffer,
6 and 7 the return-address stack of hart 0 and of hart 1, and the entry. -/
inductive Detection where
  | logic
  | entry
  | registerFile
  | storeEntry (corrected : Bool)
  | l1i (line : Nat)
  | tlb (i : Nat)
  | predictor (table i : Nat)
deriving DecidableEq, Repr

/-- What the keep scrubber meets (R138): no error; one that it corrects; one that the core mends with a keep refresh; one that
the refresh meets too. -/
inductive KeepScrub where
  | clean | corrected | refreshed | lost
deriving DecidableEq, Repr

/-- How a link leaves link-up (R426): the partner's receivers are still detected 1 leaf later, or they are not, or Surprise Down. -/
inductive LinkLoss where
  | receivers | absent | surprise
deriving DecidableEq, Repr

/-- How a request on a root port's link ends (R422): completed, with the value of a read; poisoned; with UR, CA or a completion
timeout; with RRS. -/
inductive LinkEnd where
  | ok (v : Word)
  | poisoned
  | fails
  | rrs
deriving DecidableEq, Repr

/-- The capabilities that functions of the endpoint may have (R455). -/
inductive Capability where
  | pcie
  | powerManagement
  | aer
  | ari
  | srIov
  | serialNumber
  | readinessTime
  | dataLinkFeature
  | physical16
  | physical32
  | physical64
  | laneMargining
  | msi
  | msix
deriving DecidableEq, Repr

/-- What a host's configuration request reads or writes of a function (R454, R455, R463 to R470). The spec gives the items of a function's
configuration space, and leaves their places to the PCI Express standard: a request names the item. -/
inductive CfgItem where
  | vendorId
  | deviceId
  | classCode
  | interruptPin
  /-- Whether the function has a capability. -/
  | capability (c : Capability)
  /-- The size of BAR0 in bytes; of VF BAR0, per VF. -/
  | bar0Size
  | vfBar0Size
  | serialNumber
  | totalVfs
  | initialVfs
  | firstVfOffset
  | vfStride
  | pageSizes
  | vfDeviceId
  /-- FLR Time of Readiness Time Reporting, in microseconds. -/
  | flrTime
  | vfEnable
  | numVfs
  | busMaster
  | interruptDisable
  | interruptStatus
  /-- Max_Payload_Size, Max_Read_Request_Size and the completion timeout value, as Device Control and Device Control 2 encode them. -/
  | maxPayload
  | maxReadRequest
  | completionTimeout
  | relaxedOrdering
  /-- ASPM Control of Link Control. -/
  | aspm
  | powerState
  | pmeEnable
  | pmeStatus
  /-- Initiate Function Level Reset. -/
  | initiateFlr
deriving DecidableEq, Repr

/-- What a configuration request is answered. -/
inductive CfgAnswer where
  | value (v : Nat)
  | retry
  | unsupported
deriving DecidableEq, Repr

/-- Who sends an I/O request (R200, R459): a core of another module, by its tile; or the host, to a BAR of a function of an endpoint group, or to its
configuration space. -/
inductive IoFrom where
  | core (module tile : Nat)
  | host (group func : Nat)
  | config (group func : Nat) (item : CfgItem)
deriving DecidableEq, Repr

/-- Whether a sender exists. -/
def IoFrom.ok : IoFrom → Bool
  | .core m t => decide (m < 8 ∧ t < 216)
  | .host g f => decide (g < 2 ∧ f < 256)
  | .config g f _ => decide (g < 2 ∧ f < 256)

/-- What a self-test, a signature check or a lane finds for a request whose frame the wires bring (R555): whether a self-test passes, whether a
signature verifies, whether a value fits its register (as for a register write), and what margining answers. -/
structure WireFound where
  pass   : Bool := false
  valid  : Bool := false
  fits   : Bool := true
  margin : List Byte := []
deriving DecidableEq, Repr

/-- What passes on the wires of a service port (R553, R554): on I3C an address assignment by ENTDAA, a private write of a frame and a private
read, to a target address; on JTAG a reset of the test logic, a scan of the instruction register and a scan of `n` bits of a data register. -/
inductive PortOp where
  | assign (addr : Nat)
  | write (addr : Nat) (frame : List Byte) (found : WireFound)
  | read (addr : Nat)
  | tapReset
  | scanIr (code : Nat)
  | scanDr (n bits : Nat) (found : WireFound)
deriving DecidableEq, Repr

/-- How a reference input is found lost (R56): no rising edge of ETICK_B (or ETICK_A) for 300 ns; or the deviation of ETICK_A and of ETICK_B from
the internal oscillator over a gathering, in parts in 10^9. -/
inductive ClockLoss where
  | edges (b : Bool)
  | drift (a b : Int)
deriving DecidableEq, Repr

/-- What DDR training finds in a channel (R213): its DIMMs' number, TYPE, capacity in GiB, ranks, density in Gbit, dies in a 3DS stack (1:
none) and the highest transfer rate that they permit in units of 100 MT/s; whether all devices are x4; whether slot 0 is populated and two
DIMMs are alike; whether training succeeds; the rows and devices for which hPPR finds no hard-repair resource (R243). -/
structure SlotReport where
  chan    : Nat
  count   : Nat
  type    : Nat
  gib     : Nat
  ranks   : Nat
  density : Nat
  stack   : Nat
  rate    : Nat
  x4      : Bool
  alike   : Bool
  trained : Bool
  noHard  : List (Nat × Nat) := []
deriving DecidableEq, Repr

/-- Whether a report names a channel. -/
def SlotReport.ok (r : SlotReport) : Bool := decide (r.chan < 16 ∧ r.count ≤ 2)
end Sys2Proof.Machine

namespace Sys2Proof

open Sys2Proof.Machine

/-- The commands of the module, one for each row of the table of operations and events. -/
inductive Instr where
  /-- ETOD_MESSAGE (R54): A complete 16-byte ETOD message is received and checked; if it passes, it becomes the pending message. -/
  | etodMessage (bytes : List Byte)
  /-- ETOD_GAP_TIMEOUT (R54): More than 100 µs pass between a stop bit and the next start bit, so the incomplete message is discarded. -/
  | etodGapTimeout
  /-- EMARK_EDGE (R580): A rising edge of EMARK accepts the pending message, is judged for agreement, and the phase error is measured and removed. -/
  | emarkEdge (t distA distB : Nat) (steadyA steadyB : Bool)
  /-- PENDING_MESSAGE_EXPIRY (R54): A pending ETOD message sees no EMARK within 990 ms and is discarded without ETOD_BAD. -/
  | pendingMessageExpiry
  /-- EMARK_MISS_CHECK (R581): At 10 ms past each second the time base checks for an agreeing EMARK and updates EMARK_MISS. -/
  | emarkMissCheck (second : Nat)
  /-- INPUT_QUALIFIED (R56): A reference input has stayed within 50 ppm for 1,000 leaves, with an agreeing EMARK, and becomes qualified. -/
  | inputQualified (b : Bool) (leaves ppb : Nat)
  /-- INPUT_LOST (R56): A qualified input misses edges for 300 ns or drifts more than 20 ppm over a gathering, and is lost. -/
  | inputLost (l : ClockLoss)
  /-- HOLD_LIMIT (R58): The holdover drift bound first exceeds TB_CTL.HOLD_LIMIT, and the alarm is set. -/
  | holdLimit (t : Nat)
  /-- SLEW_COMPLETE (R60): Slewing has removed the phase error, so SLEWING clears and events stop carrying the holdover flag. -/
  | slewComplete
  /-- ACQUISITION_TIMEOUT (R63): No reference qualifies within the acquisition timeout, so the time base enters HOLDOVER and boot continues. -/
  | acquisitionTimeout
  /-- SUBSTITUTE_ENTRY (R64): TB_CTL.SRC written as 0b11 enters SUBSTITUTE and unqualifies both inputs. -/
  | substituteEntry (who : Requester) (v : Word)
  /-- SUBSTITUTE_EXIT (R64): SRC written with another value leaves SUBSTITUTE for ACQUIRING or for a bound-less HOLDOVER. -/
  | substituteExit (who : Requester) (v : Word)
  /-- ACCEPT_STEP (R61): A one written to TB_CTL.ACCEPT_STEP permits one forward step of the count. -/
  | acceptStep (who : Requester) (v : Word)
  /-- REPLICA_CHECK (R65): At each gathering edge every die replica checks itself against the full count. -/
  | replicaCheck (g : Nat) (dies : List (Nat × Int))
  /-- ARM (R71): A one written to TB_MCn_CTL.ARM posts a mode change, which becomes PENDING or REFUSED. -/
  | arm (who : Requester) (n : Nat) (v : Word)
  /-- ABORT (R73): A one written to TB_MCn_CTL.ABORT cancels a PENDING change with CAUSE ABORTED. -/
  | abort (who : Requester) (n : Nat) (v : Word)
  /-- PARTICIPANT_READY (R72): A participant reports that its shadow values are valid and its preparation is complete. -/
  | participantReady (n loc : Nat)
  /-- CUTOFF (R72): At the edge of cut-off leaf C, the slot becomes COMMITTED or, if a participant is not ready, CANCELLED. -/
  | cutoff (n : Nat)
  /-- TARGET (R72): At target leaf T every participant enters the new mode and the slot becomes DONE. -/
  | target (n : Nat)
  /-- HARDWARE_CHANGE (R76): A service engine arms a hardware change in slot 6 or 7 once a slot and its scope are free. -/
  | hardwareChange
  /-- AGW_WAIT (R95): The hart starts waiting on its reservation line until an absolute deadline. -/
  | agwWait (h raw : Nat)
  /-- AGW_WAITR (R95): The hart starts waiting on its reservation line until a deadline relative to time. -/
  | agwWaitr (h raw : Nat)
  /-- AGW_WAIT_END (R95): An ending event (LINE, INTERRUPT, DEADLINE or OTHER) ends the wait, and its code is written to rd. -/
  | agwWaitEnd (h : Nat) (reach : Bool)
  /-- AGS_SB (R103): A speculation barrier holds younger instructions until older ones have completed and resolved. -/
  | agsSb (h raw : Nat)
  /-- AGS_SCRUB (R104): The predictors named in the mask are returned to their neutral state. -/
  | agsScrub (h raw : Nat)
  /-- AGE_CALL (R105): A world call enters the hart's Endpaper with a0 to a7 and scrubs the predictors. -/
  | ageCall (h raw : Nat) (wrong : List WrongAcc)
  /-- AGE_RET (R106): The hart returns from Endpaper to the text world, registers other than a0 to a3 are zeroed, and the predictors are scrubbed. -/
  | ageRet (h raw : Nat) (wrong : List WrongAcc)
  /-- ILLEGAL_INSTRUCTION (R90): An illegal encoding raises cause 2 precisely, or cause 22 where the hypervisor extension prescribes it. -/
  | illegalInstruction (h raw : Nat) (wrong : List WrongAcc)
  /-- LOAD_STORE (R83): A scalar or vector load or store executes, misaligned accesses included. -/
  | loadStore (h raw : Nat) (drain fits : Bool) (wrong : List WrongAcc)
  /-- LR (R85): A load-reserved takes a reservation on the 64-byte line. -/
  | lr (h raw : Nat) (wrong : List WrongAcc)
  /-- SC (R85): A store-conditional succeeds or fails, and ends the reservation. -/
  | sc (h raw : Nat) (wrong : List WrongAcc)
  /-- LR_HOLD_END (R178): A snoop answer held for a constrained LR/SC sequence is released after 64 core cycles. -/
  | lrHoldEnd (h : Nat)
  /-- FLOATING_POINT_INSTRUCTION (R101): A floating-point instruction executes and accrues its flags. -/
  | floatingPointInstruction (h raw : Nat) (wrong : List WrongAcc)
  /-- AGFTE_WRITE (R99): A write to the agfte CSR sets the trap enables from the next instruction onwards. -/
  | agfteWrite (h raw : Nat) (wrong : List WrongAcc)
  /-- MHPMEVENT_WRITE (R127): A write to mhpmeventN selects an event; an unlisted code or a reserved bit clears the register. -/
  | mhpmeventWrite (h raw : Nat) (wrong : List WrongAcc)
  /-- PAUSE (R91): The hart gives its issue slots to the other hart for 40 core cycles. -/
  | pauseHint (h raw : Nat)
  /-- PREFETCH (R91): PREFETCH.I, R or W fetches a line into L1, or does nothing if the access would fault. -/
  | prefetch (h raw : Nat)
  /-- FENCE (R191): A FENCE orders the hart's accesses, including DRAM stores before a doorbell. -/
  | fence (h raw : Nat)
  /-- FENCE_I (R171): The hart's older stores reach the L1 data cache and fetch restarts. -/
  | fenceI (h raw : Nat)
  /-- CBO_ZERO (R171): A line is owned and zeroed without reading it. -/
  | cboZero (h raw : Nat) (wrong : List WrongAcc)
  /-- CBO_CLEAN (R171): Every Modified copy of a line is written back. -/
  | cboClean (h raw : Nat) (wrong : List WrongAcc)
  /-- CBO_FLUSH (R171): A line is written back and every copy is invalidated. -/
  | cboFlush (h raw : Nat) (wrong : List WrongAcc)
  /-- CBO_INVAL (R171): Every copy of a line is invalidated and Modified data is discarded, or it acts as CBO.FLUSH. -/
  | cboInval (h raw : Nat) (wrong : List WrongAcc)
  /-- WFI (R505): The hart waits for an interrupt, and its core may enter CS1. -/
  | wfi (h raw : Nat) (wrong : List WrongAcc)
  /-- INTERRUPT (R96): A pending interrupt is taken by the hart. -/
  | interrupt (h : Nat)
  /-- MSI (R136): An MSI is delivered to a hart's interrupt file, which is kept in the keep island. -/
  | msi (h file id : Nat)
  /-- DETECTION (R129): A core checker detects a fault, and the retry sequence or another action begins. -/
  | detection (c : Nat) (d : Detection) (unit array cell : Nat)
  /-- RETRY_SUCCESS (R134): Every runnable hart retires 64 instructions after a restart, so the retry attempt succeeds. -/
  | retrySuccess (c : Nat)
  /-- KEEP_SCRUB (R138): The keep scrubber reads every keep word once per gathering and corrects single-bit errors. -/
  | keepScrub (c : Nat) (k : KeepScrub)
  /-- HANG (R139): A runnable hart retires nothing for HANG leaves, and its core is declared failed. -/
  | hang (h : Nat)
  /-- CLOCK (R139): The core's clock divider or clock gate check fails, and the core is declared failed. -/
  | clockFailure (c : Nat)
  /-- POWER (R139): The core island's supply is out of range for one whole leaf, and the core is declared failed. -/
  | powerFailure (c l : Nat)
  /-- PERFORM_RETIRED_STORES (R141): Once the flush and the keep copy are done, the spare performs the retired stores of each image. -/
  | performRetiredStores (c : Nat) (bad : Bool)
  /-- CPU_SPARE_CMD_GO (R145): A planned move of a logical core to its quire's spare is started, or refused. -/
  | cpuSpareCmdGo (who : Requester) (v : Word)
  /-- ARRAY_ERROR (R163): A cache or directory array reports a corrected or uncorrectable error and responds per its array. -/
  | arrayError (t : Nat) (dir : Bool) (k : ArrayKind) (set w : Nat) (e : ArrayFault)
  /-- WAY_WALK_END (R165): The walker has visited every set and the way is retired. -/
  | wayWalkEnd (t : Nat) (k : ArrayKind)
  /-- L3_SLICE_CMD_GO (R169): Set-up software requests retirement of an L3 slice. -/
  | l3SliceCmdGo (who : Requester) (v : Word)
  /-- HANDOFF_END (R169): The directory hand-off ends, the slice's clean lines are discarded, and the slice becomes RETIRED. -/
  | handoffEnd (n : Nat)
  /-- RDS (R175): A read-shared request is ordered at the home and served from a holder, the L3 or DRAM. -/
  | rds (m t line : Nat) (world resolved noL3 : Bool) (err : LineErr)
  /-- RDOWN (R175): A read-for-ownership request invalidates other copies and grants E or M. -/
  | rdown (m t line : Nat) (world noL3 : Bool) (err : LineErr)
  /-- UPG (R175): An upgrade makes an S or F holder the sole E holder. -/
  | upg (m t line : Nat) (world : Bool)
  /-- ZERO (R175): A Zero request grants a line in M, all zero, without a data read. -/
  | zero (m t line : Nat) (world : Bool)
  /-- RDCUR (R175): A channel-engine read obtains a copy of the current data without keeping state. -/
  | rdcur (m die line : Nat) (err : LineErr)
  /-- WRFULL (R175): A channel-engine full-line write drops every copy and writes new data, clearing poison. -/
  | wrfull (m die line : Nat) (d : Line) (psn : Bool)
  /-- WRPART (R175): A channel-engine partial write invalidates copies and merges any M data first. -/
  | wrpart (m die line : Nat) (d : Line) (mask : BitVec 64) (psn : Bool) (err : LineErr)
  /-- WB (R156): A Modified line is written to its home L3 slice and to DRAM, and is acknowledged on acceptance. -/
  | wb (m t line : Nat) (d : Line) (psn keeps world : Bool)
  /-- EVN (R175): A clean eviction notice removes a holder from the directory. -/
  | evn (m t line : Nat)
  /-- CMO_CLEAN (R175): The home carries out a CBO.CLEAN request. -/
  | cmoClean (m t line : Nat) (world : Bool)
  /-- CMO_FLUSH (R175): The home carries out a CBO.FLUSH request. -/
  | cmoFlush (m t line : Nat) (world : Bool)
  /-- CMO_INVALIDATE (R175): The home carries out a CBO.INVAL request. -/
  | cmoInvalidate (m t line : Nat) (world : Bool)
  /-- IO_READ (R200): An I/O read packet reaches set-up space, doorbell space or a root-port window. -/
  | ioRead (src : IoFrom) (addr size : Nat) (world : Bool) (e : LinkEnd) (far : FarData)
  /-- IO_WRITE (R200): An I/O write packet reaches set-up space or a root-port window. -/
  | ioWrite (src : IoFrom) (addr size : Nat) (v : Word) (world : Bool) (e : LinkEnd) (fits : Bool)
  /-- SNPSHR (R176): A holder receives a shared snoop and supplies data, becoming S. -/
  | snpshr (t line rm ru : Nat)
  /-- SNPINV (R176): A holder receives an invalidating snoop, passes data as required and becomes I. -/
  | snpinv (t line : Nat) (req : Option (Nat × Nat))
  /-- SNPKILL (R176): A holder writes back any M data and becomes I. -/
  | snpkill (t line : Nat) (other : Bool)
  /-- SNPDROP (R176): A holder discards its copy and becomes I. -/
  | snpdrop (t line : Nat) (other : Bool)
  /-- SNPCLEAN (R176): An M holder writes its line back and becomes E. -/
  | snpclean (t line : Nat)
  /-- SNPCUR (R176): An M holder sends a copy of its data to the home and stays M. -/
  | snpcur (t line : Nat)
  /-- SNPSET (R184): A tile kills every line of the named slice and set in its L2 and victim buffer. -/
  | snpset (t hm n set : Nat) (homed : List Nat)
  /-- SNPSLICE (R185): A tile kills every line homed at the named slice. -/
  | snpslice (t hm n : Nat) (homed : List Nat)
  /-- DONE (R200): A done response completes a transaction at its source. -/
  | doneResponse (m u t line : Nat) (atHome : Bool)
  /-- NOT_HELD (R176): A holder answers a snoop that it no longer holds the line. -/
  | notHeld (m u line : Nat)
  /-- WB_IN_FLIGHT (R183): A former M holder answers WB in flight, and the home waits for the write-back. -/
  | wbInFlight (m u line : Nat)
  /-- ACCESS_FAULT (R44): A response reports an access fault for an unmapped address. -/
  | accessFault (t line : Nat)
  /-- GUARD_REFUSAL (R248): A response reports that a memory guard refused the request. -/
  | guardRefusal (t line : Nat)
  /-- CLEAN_DATA (R200): A data packet carrying clean line data is received. -/
  | cleanData (m u t line : Nat) (d : Line) (psn excl : Bool)
  /-- MODIFIED_DATA_PASSED_ON (R200): A data packet carrying Modified data passed on is received. -/
  | modifiedDataPassedOn (m u t line : Nat) (d : Line) (psn : Bool)
  /-- IO_READ_DATA (R200): A data packet answering an I/O read is received. -/
  | ioReadData (t addr : Nat) (v : Word)
  /-- SNOOP_TIMEOUT (R186): A snoop goes unanswered for SNOOP_TO leaves, and is resent or the holder's lines are poisoned. -/
  | snoopTimeout (line : Nat) (out : List (Nat × Nat))
  /-- PACKET_UE (R203): A packet with an uncorrectable error is discarded and resent. -/
  | packetUe (d : Nat) (v : Bool) (x y : Nat) (hdr : BitVec 128) (errs : List Nat)
  /-- DIE_LINK_MEASURE (R205): Die-link stations exchange supply and temperature each leaf and alarm or retire the link beyond its limits. -/
  | dieLinkMeasure (k l : Nat) (mv deg : Int) (replays : Nat) (fail3 : Bool)
  /-- CHANNEL_FAILURE (R217): A memory channel fails, and becomes FAILED or ALONE by its prior state. -/
  | channelFailure (k copied : Nat)
  /-- OFFLINE (R219): MC_CHAN_CMD OFFLINE takes a mirrored channel out of service, or is refused. -/
  | offline (who : Requester) (k : Nat)
  /-- ONLINE (R219): MC_CHAN_CMD ONLINE powers, identifies and trains a replaced channel, or is refused. -/
  | online (who : Requester) (k : Nat)
  /-- CHANNEL_SAFE (R219): The channel enters self-refresh, MPWRk goes low, and STATE becomes SAFE. -/
  | channelSafe (k : Nat)
  /-- POWER_GOOD (R219): The PMIC reports power good, SPD is read and checked, and training begins. -/
  | powerGood (k count type gib ranks density stack rate : Nat) (x4 : Bool)
  /-- CHANNEL_TRAINED (R219): The new channel finishes training and enters RESILVER. -/
  | channelTrained (k : Nat)
  /-- RESILVER_END (R219): The resilver copy ends, and the pair is returned to MIRRORED by a mode change. -/
  | resilverEnd (k : Nat)
  /-- SELF_REFRESH_ENTRY (R221): An idle channel enters self-refresh after SR_IDLE leaves. -/
  | selfRefreshEntry (k : Nat)
  /-- FLOOR_WRITE (R224): A write to MC_BWR_ENTRYe.FLOOR is admitted, or refused when it would exceed LIMIT. -/
  | floorWrite (who : Requester) (e floor : Nat)
  /-- WEIGHT_EFFECT (R225): Written WEIGHTs take effect on every controller at the gathering edge. -/
  | weightEffect (g : Nat)
  /-- FILL_DONE (R234): Every channel has finished the power-up fill, and FILL_DONE is set. -/
  | fillDone (l : Nat) (ks : List Nat)
  /-- SCRUB_BURST (R236): A channel's scrubber reads up to BURST lines in idle cycles of its burst leaf. -/
  | scrubBurst (k n lines : Nat) (half : Bool) (errs : List (Nat × LineErr))
  /-- SCRUB_WAKE (R236): A self-refreshing channel wakes once per gathering to scrub. -/
  | scrubWake (k g lines : Nat) (half : Bool) (errs : List (Nat × LineErr))
  /-- LAP_WARN (R238): The lap in progress runs past the ceiling, and LAP_WARN is set. -/
  | lapWarn (k : Nat)
  /-- SOFT_REPAIR (R242): A due row is buffered, repaired by sPPR, written back and listed. -/
  | softRepair (k : Nat) (resource : Bool) (time : Nat) (lines : List (Nat × LineErr))
  /-- RAW_READ (R244): A raw read returns a line's 40 symbols and the outcome the decoder would give. -/
  | rawRead (who : Requester) (copy : Nat)
  /-- RAW_WRITE (R244): A raw write stores the given 40 symbols unchanged. -/
  | rawWrite (who : Requester) (copy : Nat)
  /-- MG_LOCK (R249): A one written to MG_CTLg.LOCK locks guard g's shadows until cold reset. -/
  | mgLock (who : Requester) (g : Nat) (v : Word)
  /-- QUEUE_ENABLE (R256): A one written to ENABLE resets the indices and makes the queue RUNNING, or is refused. -/
  | queueEnable (who : Requester) (q : Nat)
  /-- QUEUE_DISABLE (R257): A zero written to ENABLE moves the queue to DRAINING or DISABLED. -/
  | queueDisable (who : Requester) (q : Nat)
  /-- RESUME (R255): RESUME undoes the recorded causes and returns a queue in ERROR to RUNNING or PAUSED. -/
  | resume (who : Requester) (q : Nat)
  /-- SQ_DOORBELL (R262): An SQ doorbell is checked and announces descriptors up to its new tail. -/
  | sqDoorbell (q : Nat) (v : Word)
  /-- CQ_DOORBELL (R262): A CQ doorbell is checked and frees completion slots. -/
  | cqDoorbell (q : Nat) (v : Word)
  /-- SHORT_DOORBELL (R261): A store of fewer than 8 bytes to doorbell space is discarded and counted. -/
  | shortDoorbell (off : Nat)
  /-- COMMAND_ACCEPTED (R267): An announced descriptor's journal entry is written to both copies, so the command is accepted. -/
  | commandAccepted (q : Nat)
  /-- JOURNAL_ALONE (R270): One journal copy is lost, and the survivor continues alone. -/
  | journalAlone (c : Nat)
  /-- JOURNAL_REBUILT (R270): A returned journal copy finishes its rebuild from the survivor. -/
  | journalRebuilt (c : Nat)
  /-- JOURNAL_LOST (R271): Both copies of an entry are lost, and the engine completes the command as JOURNAL_LOST. -/
  | journalLost (n : Nat) (engineFailed : Bool) (far : FarData)
  /-- DIE_STOPPED (R272): An I/O die stops, its queues enter STOPPED, and the survivor writes their records. -/
  | dieStopped (d : Nat)
  /-- REQUEST_ANSWERED (R274): A port request is answered by a completion or a data-link acknowledgement. -/
  | requestAnswered (id detail : Nat) (data : List Byte)
  /-- PATH_FAILED (R278): A path's condition becomes FAILED, and its affected commands are moved, re-issued or completed. -/
  | pathFailed (k t p detail : Nat)
  /-- PATH_RECOVERY_READ (R278): Once per gathering the port reads the adapter's Vendor ID; a success returns its FAILED paths to service. -/
  | pathRecoveryRead (port : Nat) (ok : Bool)
  /-- PATH_WRITE (R278): A write to CSS_SIi_TGTt_PATHp updates the path and judges its condition afresh. -/
  | pathWrite (who : Requester) (k t p : Nat) (v : Word)
  /-- CHANNEL_TIMEOUT (R281): A command's timer fires, and the command is re-issued or completes INDETERMINATE. -/
  | channelTimeout (n : Nat)
  /-- KEPT_ADDRESS_EXPIRY (R283): A kept posted-write address is released AFTER_WINDOW leaves after its command completes. -/
  | keptAddressExpiry (port : Nat)
  /-- READ (R292): A READ command moves bytes from the target to the buffer. -/
  | readCommand (q k : Nat) (far : FarData)
  /-- WRITE (R292): A WRITE command moves bytes from the buffer to the target. -/
  | writeCommand (q k : Nat) (far : FarData)
  /-- CONTROL (R293): A CONTROL command sends one write of the low bytes of CW0. -/
  | controlCommand (q : Nat)
  /-- SENSE (R293): A SENSE command sends one read and returns the data in AUX. -/
  | senseCommand (q : Nat)
  /-- INDEXED (R294): An INDEXED command gathers or scatters elements through an offset table. -/
  | indexedCommand (q k : Nat) (far : FarData)
  /-- STREAM_RECEIVE (R309): A STREAM_RECEIVE command posts a buffer for a stream. -/
  | streamReceive (q : Nat)
  /-- TRANSFORM (R295): A TRANSFORM command passes buffer data through a transform unit to the target. -/
  | transformCommand (q : Nat)
  /-- FENCE_COMMAND (R296): A FENCE descriptor holds later commands until earlier records are written. -/
  | fenceCommand (q : Nat)
  /-- FENCE_COMPLETE (R296): The commands before a fence have had their records written, so the fence completes OK. -/
  | fenceComplete (q : Nat)
  /-- QUEUE_PAUSE (R306): A one written to PAUSE makes a RUNNING queue PAUSED. -/
  | queuePause (who : Requester) (q : Nat)
  /-- QUIET (R306): Every request sent by a paused queue is answered or timed out; QUIET and INDEX are set. -/
  | quiet (q : Nat)
  /-- QUEUE_UNPAUSE (R308): A zero written to PAUSE resumes the queue at INDEX from OFFSET. -/
  | queueUnpause (who : Requester) (q : Nat)
  /-- STREAM_DATA_WRITE (R431): An adapter's posted write into the inbound stream aperture adds data to an open frame. -/
  | streamDataWrite (p st off : Nat) (data : List Byte) (psn : Bool)
  /-- STREAM_CLOSING_WRITE (R432): An adapter's closing write ends a frame, which is checked and completed or discarded. -/
  | streamClosingWrite (p st : Nat) (v : Word) (len : Nat) (relaxed : Bool)
  /-- FRAME_PLACEMENT (R311): A complete frame is placed into its stream's posted buffers, and their records are written. -/
  | framePlacement (p st : Nat)
  /-- FRAME_WAIT_TIMEOUT (R310): A complete frame waits too long for buffers and is discarded as DROP_WAIT. -/
  | frameWaitTimeout (p st : Nat)
  /-- BIND_WRITE (R317): A write to CSS_SIi_BIND binds the instance, or is refused. -/
  | bindWrite (who : Requester) (k : Nat) (v : Word)
  /-- INSTANCE_RESET (R332): An instance reset advances GEN, stops the queues and abandons requests in preparation. -/
  | instanceReset (who : Requester) (k : Nat)
  /-- INSTANCE_REMOVE (R336): A removal resets the instance, restores its registers and frees it. -/
  | instanceRemove (who : Requester) (k : Nat)
  /-- RESET_END (R332): The reset ends: RESETTING clears, queues are DISABLED, and RESET_DONE is set. -/
  | resetEnd (k : Nat) (far : FarData)
  /-- DRAW (R322): An arbitration point draws the next winner by lottery, or picks the due requester. -/
  | draw (pt : Nat) (ready : List Nat)
  /-- BUCKET_REFILL (R328): At each leaf edge every rate bucket gains its rate up to its depth. -/
  | bucketRefill (n : Nat)
  /-- RATE_WRITE (R328): A write to CSS_SIi_RATE sets new rates and refills the buckets at the next leaf edge. -/
  | rateWrite (who : Requester) (k : Nat) (v : Word)
  /-- SOCKET_MOVE (R342): A channel-engine instruction moves a value between a register or operand socket. -/
  | socketMove (l : Nat)
  /-- ALU_TRIGGER (R350): A move to an ALU trigger socket starts the selected operation. -/
  | aluTrigger (l : Nat)
  /-- MUL_TRIGGER (R350): A move to a multiplier trigger starts the multiply. -/
  | mulTrigger (l : Nat)
  /-- DIV_TRIGGER (R348): A move to DIVU or DIVS starts a divide and abandons any running one. -/
  | divTrigger (l : Nat)
  /-- DIVIDE_END (R348): A divide runs to its end and its quotient and remainder appear. -/
  | divideEnd (l : Nat)
  /-- COMPARE_TRIGGER (R344): A compare trigger sets its guard. -/
  | compareTrigger (l : Nat)
  /-- GUARDS_WRITE (R344): A move to GUARDS sets every guard without an outstanding operation. -/
  | guardsWrite (l : Nat)
  /-- LIH (R345): A move to LIH sets the high half of LI. -/
  | lih (l : Nat)
  /-- LIL (R345): A move to LIL sets the low half of LI. -/
  | lil (l : Nat)
  /-- JMP (R358): An absolute transfer with two delay slots. -/
  | jmp (l : Nat)
  /-- JREL (R358): A relative transfer with two delay slots. -/
  | jrel (l : Nat)
  /-- CALL (R358): An absolute call that sets LINK. -/
  | call (l : Nat)
  /-- CALLR (R358): A relative call that sets LINK. -/
  | callr (l : Nat)
  /-- EV_WAIT (R387): Issue stops until an enabled event line is pending. -/
  | evWait (l : Nat)
  /-- EV_RET (R385): The handler ends: the engine enters a pending line or resumes, restarting a saved divide. -/
  | evRet (l : Nat)
  /-- HALT (R364): A move to HALT raises SW_HALT. -/
  | haltEngine (l : Nat)
  /-- DS_LOAD (R352): A data-space load of a word, half-word or byte. -/
  | dsLoad (l : Nat)
  /-- DS_STORE (R352): A data-space store at DS_ADDR. -/
  | dsStore (l : Nat)
  /-- LDW_INC (R350): A post-increment word load from DS_ADDR. -/
  | ldwInc (l : Nat)
  /-- STW_INC (R350): A post-increment word store at DS_ADDR. -/
  | stwInc (l : Nat)
  /-- IS_RD (R352): A read of an instruction-space word. -/
  | isRd (l : Nat)
  /-- IO_RD (R369): An asynchronous I/O-space read starts and its guard reads 0. -/
  | ioRd (l : Nat) (far : FarData)
  /-- IO_RD_END (R369): An I/O read completes, writing data and status and setting its guard. -/
  | ioRdEnd (l n : Nat)
  /-- IO_WR (R370): A posted I/O write enters the posted buffer. -/
  | ioWr (l : Nat)
  /-- IO_WRITE_ERROR (R370): A posted write to a translated window fails, and is captured in IO_WERR or counted. -/
  | ioWriteError (l a st : Nat)
  /-- IO_WCTL (R355): A move to IO_WCTL loads a translated window. -/
  | ioWctl (l : Nat)
  /-- DM_GO (R372): An asynchronous bulk data-mover move starts. -/
  | dmGo (l : Nat)
  /-- DM_GO_END (R373): A data-mover move ends with its done prefix and status, and sets its guard. -/
  | dmGoEnd (l n st reached : Nat) (far : FarData)
  /-- RD_TAKE (R376): The program takes the ENGINE point's decision and starts the grant's beat. -/
  | rdTake (l : Nat)
  /-- RD_FETCH (R377): An asynchronous fetch of a queue's next accepted descriptor starts. -/
  | rdFetch (l : Nat)
  /-- RD_FETCH_END (R377): The descriptor and its journal entry are in the queue window and descriptor store, and the guard is set. -/
  | rdFetchEnd (l n q : Nat) (far : FarData)
  /-- RD_JNL (R377): An asynchronous write of the journal work copy to both copies starts. -/
  | rdJnl (l : Nat)
  /-- RD_JNL_END (R377): The journal write ends and sets its guard. -/
  | rdJnlEnd (l n : Nat)
  /-- RD_DONE (R377): An asynchronous completion of the current command starts, waiting for a free slot. -/
  | rdDone (l : Nat)
  /-- RD_DONE_END (R269): The home acknowledges the completion record, the journal entry is freed, and the guard is set. -/
  | rdDoneEnd (n l : Nat)
  /-- TU_GO (R410): A socket-path transform job starts. -/
  | tuGo (l : Nat)
  /-- TU_JOB_END (R410): A transform job ends, writing TU_STATn and TU_OUTn and setting its guard. -/
  | tuJobEnd (id : Nat)
  /-- EXT_POST (R382): A post to a customer socket uses one credit. -/
  | extPost (l : Nat)
  /-- EXT_RD (R382): An asynchronous read of a customer socket starts. -/
  | extRd (l : Nat)
  /-- EXT_RD_END (R382): The customer read completes and sets its guard. -/
  | extRdEnd (l n st : Nat) (data : BitVec 32)
  /-- POP (R380): A write to POP pops TIMER_Q, FRAME_Q or CTL_Q, or clears IO_WERR. -/
  | popQueue (l : Nat)
  /-- RX_SEL (R375): A write to RX_SEL selects the queue whose held frames the RX region shows. -/
  | rxSel (l : Nat)
  /-- RX_BASE (R375): A write to RX_BASE selects the part of a long frame shown at RX offset 0. -/
  | rxBase (l : Nat)
  /-- RX_POP (R375): A write to RX_POP releases the head frame after placement. -/
  | rxPop (l : Nat)
  /-- EVENT_ENTRY (R384): An enabled pending event line is entered at an instruction boundary. -/
  | eventEntry (l t : Nat)
  /-- ENGINE_MEMORY_WRITE (R368): A set-up write to a halted engine's instruction space, data space or PROG_ID, or it is refused. -/
  | engineMemoryWrite (who : Requester) (off size : Nat) (v : Word)
  /-- RUN_HALT (R388): A zero written to CE_CTLl.RUN makes the engine HALTING at the next boundary. -/
  | runHalt (who : Requester) (l : Nat)
  /-- HALTED (R388): Nothing remains outstanding, so the engine becomes HALTED. -/
  | halted (l : Nat)
  /-- RUN_START (R389): A one written to RUN restarts a halted engine at index 0 with START LOAD or RESTART. -/
  | runStart (who : Requester) (l : Nat)
  /-- HALT_HUNG (R388): An engine HALTING for more than 2 gatherings fails. -/
  | haltHung (l : Nat)
  /-- WATCHDOG (R391): A running engine issues nothing for WDOG × 65,536 cycles and fails. -/
  | watchdog (l : Nat)
  /-- ENGINE_HARDWARE_FAULT (R391): An engine fails with IS_UE, DS_UE, LOGIC or POWER. -/
  | engineHardwareFault (k cause : Nat)
  /-- SELF_TEST_END (R392): A faulted engine's self-test ends, and it becomes SPARE or FAILED. -/
  | selfTestEnd (k : Nat) (pass : Bool)
  /-- TU_BLOCK (R407): A transform unit grants and processes one block of a job. -/
  | tuBlock (u id : Nat) (storeUe : Bool) (far : FarData)
  /-- TU_DETECTION (R411): A detection in a transform unit re-runs the block, or retires the unit. -/
  | tuDetection (u id : Nat)
  /-- LINK_UP (R582): A port reaches L0 after training and enters link-up. -/
  | linkUp (p gen w : Nat)
  /-- LINK_DOWN (R426): A port leaves link-up, and paths fail with the reported cause. -/
  | linkDown (p : Nat) (loss : LinkLoss)
  /-- RECOVERY (R582): A port enters Recovery, holding requests until L0 returns. -/
  | recovery (p : Nat)
  /-- LANE_DUE (R417): A lane reaches LANE_THRESH errors or fails its check and becomes due for a swap. -/
  | laneDue (lane errs : Nat) (check : Bool)
  /-- LANE_SWAP (R417): At the swap leaf the spare takes the lane's land pairs and the port enters Recovery. -/
  | laneSwap (lane : Nat)
  /-- CORE_WINDOW_STORE (R422): A core memory store to a root-port window is sent as a posted write, or discarded. -/
  | coreWindowStore (h raw : Nat) (wrong : List WrongAcc)
  /-- CORE_WINDOW_LOAD (R422): A core memory load through a root-port window returns data or faults. -/
  | coreWindowLoad (h raw : Nat) (e : LinkEnd) (wrong : List WrongAcc)
  /-- CONFIGURATION_LOAD (R422): A core configuration load through the ECAM returns data or all ones. -/
  | configurationLoad (h raw : Nat) (e : LinkEnd) (wrong : List WrongAcc)
  /-- CONFIGURATION_STORE (R422): A core configuration store completes or faults. -/
  | configurationStore (h raw : Nat) (e : LinkEnd) (wrong : List WrongAcc)
  /-- COMPLETION_TIMEOUT (R423): A non-posted request's completion timeout expires and its tag is freed. -/
  | completionTimeout (id : Nat)
  /-- INBOUND_UR (R424): An adapter request outside the apertures is answered UR or discarded, and counted. -/
  | inboundUr (p : Nat) (posted : Bool)
  /-- ERROR_MESSAGE (R425): A root port receives ERR_COR, ERR_NONFATAL or ERR_FATAL and reads the AER header log. -/
  | errorMessage (p sev : Nat) (hdr : Option Nat)
  /-- DPC_RELEASE (R426): DPC containment ends after 10 leaves, and the link trains again. -/
  | dpcRelease (p : Nat)
  /-- TRAINING_FAILURE (R427): A training attempt misses L0 within 100 ms or finds no receiver, and the port enters BACKOFF. -/
  | trainingFailure (p : Nat) (found : Bool) (l : Nat)
  /-- BACKOFF_END (R428): The back-off wait of 2^k gatherings ends, and a new attempt starts. -/
  | backoffEnd (p : Nat)
  /-- BACKOFF_DETECTION (R428): Receiver detection in BACKOFF finds a receiver and ends the wait at once. -/
  | backoffDetection (p : Nat)
  /-- RETRAIN (R429): A one written to PRT_Pp_CMD.RETRAIN posts a retrain event for two leaves later. -/
  | retrain (who : Requester) (p : Nat)
  /-- RETRAIN_EVENT (R429): At the retrain leaf the port enters Recovery, or the event is dropped. -/
  | retrainEvent (p : Nat)
  /-- CREDIT_RETURN (R434): Customer logic returns extension credits by a posted write. -/
  | creditReturn (p : Nat) (v : BitVec 32)
  /-- EXTENSION_SIGNAL (R434): Customer logic sets event line 6 of the engines bound to the port. -/
  | extensionSignal (p : Nat)
  /-- FLIT (R441): A Broip flit is received and accepted, discarded, NAKed or triggers a retrain. -/
  | flit (j : Nat) (bytes : List Byte)
  /-- NAK (R442): On a NAK, the sender resends every unacknowledged flit after ACK. -/
  | nak (j ack : Nat)
  /-- REPLAY_TIMEOUT (R442): No ACK advances for 2 µs, so all outstanding flits are resent. -/
  | replayTimeout (j : Nat)
  /-- TRAIN (R443): A TRAIN control flit is exchanged, and the link becomes ACTIVE at an agreed width. -/
  | train (j m : Nat) (serial : Word) (link off last : Nat)
  /-- BROIP_TRAINING_TIMEOUT (R443): A Broip training attempt is not ACTIVE within 2 ms and fails. -/
  | broipTrainingTimeout (j : Nat)
  /-- BROIP_BACKOFF_END (R443): The Broip back-off wait ends, and training is tried again. -/
  | broipBackoffEnd (j : Nat)
  /-- LINK_SILENCE (R443): Four leaves pass without a good flit, so the link goes DOWN. -/
  | linkSilence (j : Nat)
  /-- RETRAIN_REQ (R444): A retrain request control flit is received. -/
  | retrainReq (j : Nat)
  /-- WIDTH_REQ (R444): A width-change request control flit is received. -/
  | widthReq (j : Nat)
  /-- GRANT (R444): A GRANT answers an outstanding request, and the retrain runs. -/
  | grant (j : Nat)
  /-- LINK_STATE (R446): A LINK_STATE message leads the partner to resend a down link's packets over surviving links. -/
  | linkState (m k last : Nat)
  /-- POST (R450): A POST message makes a partner arm a received system mode change. -/
  | post (o k cut t mods scope : Nat) (evac : Option (Nat × Nat × Bool))
  /-- VERDICT (R448): The coordinator receives a module's verdict at cut-off. -/
  | verdict (m o k cut t count loc : Nat)
  /-- COORDINATOR_DECISION (R448): At C + 1 the coordinator decides COMMIT or CANCEL and sends DECISION. -/
  | coordinatorDecision (n : Nat)
  /-- DECISION (R448): A DECISION message sets the system slot COMMITTED or CANCELLED. -/
  | decision (o k : Nat) (commit : Bool) (count loc : Nat)
  /-- DECISION_TIMEOUT (R449): With no DECISION by C + 2, the module cancels, stops its links and sets MC_SPLIT. -/
  | decisionTimeout (n : Nat)
  /-- PEER_LOST (R447): A partner isolated for LOST_TO gatherings is declared LOST. -/
  | peerLost (m : Nat)
  /-- CLEAR_LOST (R447): Writing STATE = ABSENT to BL_PEERm clears LOST. -/
  | clearLost (who : Requester) (m : Nat)
  /-- EVACUATE (R452): BL_EVAC GO with OP EVACUATE stops the harts and starts forwarding and copying to the adopter, or is refused. -/
  | evacuate (who : Requester) (v : Word) (fits : Bool)
  /-- RETURN (R453): BL_EVAC GO with OP RETURN moves an adopted window to a replacement module. -/
  | returnHome (who : Requester) (v : Word) (fits : Bool)
  /-- EVACUATION_COPY_END (R452): The evacuation copy ends, the tiles flush, and the system slot is armed. -/
  | evacuationCopyEnd (l : Nat)
  /-- EVACUATION_HANDOVER_END (R452): All SnpSlice answers are in, so held requests pass to the adopter and DEPART is sent. -/
  | evacuationHandoverEnd
  /-- DEPART (R452): A DEPART message makes partners mark the module DEPARTED without poisoning. -/
  | depart (m : Nat)
  /-- FUNCTION_LEVEL_RESET (R463): A host FLR of a VF runs the reset of its bound instance. -/
  | functionLevelReset (g n : Nat)
  /-- PF0_FLR (R464): An FLR of PF0 resets every existing VF and PF0's configuration. -/
  | pf0Flr (g : Nat)
  /-- VF_ENABLE_CLEARED (R464): The host clears VF Enable, resetting every VF. -/
  | vfEnableCleared (g : Nat) (en : Bool)
  /-- NUMVFS_LOWERED (R464): NumVFs is lowered, resetting the VFs above the new value. -/
  | numvfsLowered (g n : Nat)
  /-- CONVENTIONAL_RESET (R464): PERST#, Hot Reset or Link Disable of the active group resets PF0 and every VF. -/
  | conventionalReset (g : Nat) (perst cold : Bool)
  /-- BUS_MASTER_ENABLE_CLEARED (R465): A VF's Bus Master Enable is cleared, so its requests are withdrawn and held. -/
  | busMasterEnableCleared (g n : Nat)
  /-- BUS_MASTER_ENABLE_SET (R465): Bus Master Enable returns, and withdrawn requests are sent again. -/
  | busMasterEnableSet (g n : Nat)
  /-- D3HOT_ENTRY (R466): PF0 enters D3hot, and every VF is held. -/
  | d3hotEntry (g : Nat) (pmeEn : Bool)
  /-- D0_RETURN (R466): PF0 returns to D0, and held work continues. -/
  | d0Return (g : Nat) (pmeEn clear : Bool)
  /-- WAKE_EVENT (R467): A wake event sends PM_PME or asserts WAKE# when PME_En is set. -/
  | wakeEvent (frame : Bool)
  /-- AEP_WAKE (R467): A one written to AEP_CMD.WAKE raises a wake event. -/
  | aepWake (who : Requester)
  /-- PME_REPEAT (R467): PM_PME is sent again every 100 ms while PME_Status stays set. -/
  | pmeRepeat
  /-- L0S_ENTRY (R468): The endpoint enters L0s after 1 µs of transmit idleness. -/
  | l0sEntry (g l : Nat) (flit : Bool)
  /-- L1_ENTRY (R468): The endpoint enters L1 after L1_IDLE µs with nothing outstanding. -/
  | l1Entry (g l : Nat)
  /-- INTX_PEND_CLEAR (R469): The host clears INTX_PEND bits, which may deassert INTA. -/
  | intxPendClear (v : BitVec 256)
  /-- FAILOVER (R471): The active endpoint group fails or stays out of L0 for FO_WAIT leaves, so the groups exchange roles. -/
  | failover (f : Nat) (waited : Bool)
  /-- SWITCH (R472): A one written to AEP_CMD.SWITCH exchanges the endpoint groups, or is refused. -/
  | switchGroups (who : Requester)
  /-- HOST_COMPLETION_TIMEOUT (R462): A host-memory read times out and is re-sent, or ends in ERROR or TARGET_ERROR. -/
  | hostCompletionTimeout (q : Nat) (ring : Bool)
  /-- ENDPAPER_HANG (R480): The Endpaper watchdog reaches CALL_LIMIT, and the hart returns SERVICE_RESTARTING. -/
  | endpaperHang (h : Nat)
  /-- RESTART_MEASURED (R482): The measurement ends; on a match the hart becomes READY_INIT. -/
  | restartMeasured (h l : Nat)
  /-- GENERATE (R492): A key-service mailbox GO with OP GENERATE creates a key and its handle. -/
  | generateKey (who : Requester) (h : Nat) (arg0 : Word)
  /-- IMPORT (R492): A mailbox GO with OP IMPORT unwraps a key and issues a handle. -/
  | importKey (who : Requester) (h : Nat) (arg0 arg1 : Word)
  /-- EXPORT (R492): A mailbox GO with OP EXPORT wraps a key under the storage key. -/
  | exportKey (who : Requester) (h : Nat) (arg0 arg1 : Word)
  /-- REVOKE (R492): A mailbox GO with OP REVOKE revokes a handle by raising its EPOCH. -/
  | revokeKey (who : Requester) (h : Nat) (arg0 : Word)
  /-- KEY_SERVICE_RESULT (R492): The key service sets RESULT and clears BUSY. -/
  | keyServiceResult (h : Nat)
  /-- KEY_SERVICE_TAKEOVER (R493): SE1 takes over the key service after SE0 fails, or the service becomes absent. -/
  | keyServiceTakeover (works : Bool)
  /-- WAKE (R506): A waking event posts a core's wake reservation from CS2 or CS3. -/
  | wake (c : Nat)
  /-- LEAF_CLOSE (R496): At the edge of L − 1 the Headband controller closes leaf L and grants or slides reservations. -/
  | leafClose (l : Nat)
  /-- HOLD (R500): VRHOLDk is found asserted, and every step of the link slides to the next leaf. -/
  | hold (k : Nat)
  /-- STEP (R498): Units take their granted current steps at the leaf edge. -/
  | currentStep
  /-- HB_RESTART (R504): The checker disagrees, so granting stops and both copies restart. -/
  | hbRestart
  /-- PARK (R505): A core in CS1 for PARK_IDLE leaves enters CS2. -/
  | park (c : Nat)
  /-- GATE (R505): A core in CS2 for GATE_IDLE leaves is flushed and enters CS3. -/
  | gate (c : Nat)
  /-- LEVEL_ADJUST (R508): At each gathering edge the quire's throttle LEVEL is raised or lowered by its hottest sensor. -/
  | levelAdjust (g n t : Nat)
  /-- THERMAL_EMERGENCY (R510): A sensor at EMERG drives its quire's LEVEL to 16. -/
  | thermalEmergency (n : Nat)
  /-- THERMTRIP (R510): A sensor reaches 110 °C: every clock stops, THERMTRIP_N asserts, and the module stops. -/
  | thermtrip
  /-- DROOP (R511): A droop detector fires and stretches its domain's cycles. -/
  | droop (d t mv : Nat)
  /-- DROOP_STRETCH_END (R511): The voltage stays above the threshold for 64 cycles, and the stretch ends. -/
  | droopStretchEnd (d : Nat)
  /-- DROOP_SUMMARY (R512): At the gathering's end a droop summary record is logged for each domain that fired. -/
  | droopSummary (g : Nat)
  /-- COL_WORK_WRITE (R517): A write to the settings working copy, subject to its world and busy rules. -/
  | colWorkWrite (who : Requester) (size o : Nat) (v : Word)
  /-- STORE (R519): COL_CMD.STORE freezes the working copy and writes the older settings slot. -/
  | storeSettings (who : Requester)
  /-- STORE_END (R519): The written slot is read back; STORE_DONE or STORE_FAILED is set. -/
  | storeEnd (fails : Bool)
  /-- DISCARD (R519): COL_CMD.DISCARD reloads the working copy from the newest valid slot. -/
  | discardSettings (who : Requester)
  /-- COMMIT (R521): COL_CMD.COMMIT posts an extra lifetime commit. -/
  | commitLifetime (who : Requester)
  /-- LIFETIME_COMMIT (R521): The counters and calendar are captured and written to the older lifetime half. -/
  | lifetimeCommit (l : Nat)
  /-- REPAIR_RECORD_WRITE (R520): The older repair half is written with the unit states after a change. -/
  | repairRecordWrite
  /-- COLOPHON_COPY_FAILURE (R514): A Colophon copy stops, and the other continues alone. -/
  | colophonCopyFailure (c : Nat)
  /-- COLOPHON_REBUILT (R514): A returned Colophon copy finishes its rebuild. -/
  | colophonRebuilt (c : Nat)
  /-- EVENT_LOG_RECORD (R524): A queued event record is written to the log ring. -/
  | eventLogRecord
  /-- THERMAL_CYCLE (R522): The hottest sensor reaches 85 °C after being at or below 45 °C, and a cycle is counted. -/
  | thermalCycle (t : Nat)
  /-- AGING_MEASURE (R523): At each gathering edge each tile records its aging drift and stress. -/
  | agingMeasure (g : Nat) (ms : List (Nat × Nat × Nat × Nat))
  /-- SVC_LOCK (R536): A write to SVC_LOCK locks blocks against text-world writes. -/
  | svcLock (who : Requester) (v : Word)
  /-- REGISTER_WRITE (R20): A register write without a row of its own is judged for size, world, lock and reserved values, then applied. -/
  | registerWrite (who : Requester) (size k : Nat) (v : Word) (fits : Bool)
  /-- COLD_RESET (R544): A cold reset starts the boot sequence at step 1. -/
  | coldReset (mid se : Nat) (fuseBad : Bool) (copies : Nat)
  /-- MAIN_PG_RISE (R544): MAIN_PG rises, and the Headband controller and the rest of boot continue. -/
  | mainPgRise (cold : Bool) (dead : List Nat)
  /-- RAIL_TIMEOUT (R548): MAIN_PG does not rise within 50 ms, and boot halts. -/
  | railTimeout
  /-- BOOT_IMAGE_LOADED (R547): The boot image is read over xSPI and measured, accepted or rejected. -/
  | bootImageLoaded (sfdp : Bool) (a b : Option (List Byte))
  /-- DDR_TRAINING_DONE (R213): DDR training ends and the interleave regions are written. -/
  | ddrTrainingDone (rs : List SlotReport)
  /-- BOOT_HART_RELEASE (R545): The boot hart is released, in Endpaper or in the text world. -/
  | bootHartRelease
  /-- WARM_RESET (R550): A warm reset stops the harts, resets instances and flushes the caches. -/
  | warmReset
  /-- WARM_RESET_W3 (R550): After the flush and any running STORE, the reached blocks are reset and partner requests released. -/
  | warmResetW3 (l : Nat)
  /-- MAIN_PG_FALL (R543): MAIN_PG falls, every non-VKEEP clock stops, and MAIN_EN goes low. -/
  | mainPgFall
  /-- INFO (R558): Drufy INFO returns the identity registers and the serving engine. `wire`: what passed on the port's wires since its last
  request and before this one's frame (R553, R554). -/
  | info (p tag : Nat) (wire : List PortOp)
  /-- BOOT_STATUS (R558): Drufy BOOT_STATUS returns the boot status code. -/
  | bootStatus (p tag : Nat)
  /-- SYS_READ (R559): Drufy SYS_READ reads set-up space or DRAM of the module. -/
  | sysRead (p tag addr size : Nat)
  /-- SYS_WRITE (R559): Drufy SYS_WRITE writes set-up space or DRAM of the module. -/
  | sysWrite (p tag addr size : Nat) (v : Word) (fits : Bool)
  /-- LOG_READ (R558): Drufy LOG_READ returns up to 16 event log records. -/
  | logRead (p tag n : Nat)
  /-- JOURNAL_READ (R558): Drufy JOURNAL_READ returns one journal entry. -/
  | journalRead (p tag n : Nat)
  /-- DMI (R559): Drufy DMI reads or writes the debug module interface. -/
  | dmi (p tag addr : Nat) (data : Option Nat)
  /-- RESET_COLD (R559): Drufy RESET_COLD answers, then starts a cold reset 1 ms later. -/
  | resetCold (p tag : Nat)
  /-- RESET_WARM (R559): Drufy RESET_WARM answers, then starts a warm reset 1 ms later. -/
  | resetWarm (p tag : Nat)
  /-- MOVE (R559): Drufy MOVE starts a planned core move with REASON SERVICE. -/
  | moveCore (p tag c : Nat)
  /-- RETIRE (R559): Drufy RETIRE takes a slice, unit, engine, lane or copy out of service. -/
  | retire (p tag loc : Nat)
  /-- REQUALIFY (R563): Drufy REQUALIFY self-tests a unit and returns it to service on a pass. -/
  | requalify (p tag loc : Nat) (pass : Bool)
  /-- LOOPBACK (R562): Drufy LOOPBACK starts a loop-back test of a unit at a depth. -/
  | loopback (p tag loc arg : Nat)
  /-- LOOPBACK_END (R562): A loop-back test's duration ends; it passes or fails and the configuration is restored. -/
  | loopbackEnd (loc errors checked : Nat)
  /-- LOOP_RESULT (R562): Drufy LOOP_RESULT returns a test's state and counts. -/
  | loopResult (p tag loc : Nat)
  /-- MARGIN (R558): Drufy MARGIN runs a lane-margining command. -/
  | margin (p tag loc : Nat) (resp : List Byte)
  /-- DEBUG_CHALLENGE (R560): Drufy DEBUG_CHALLENGE returns a fresh nonce. -/
  | debugChallenge (p tag : Nat)
  /-- DEBUG_UNLOCK (R560): A verified unlock erases the key blobs, clears the key table and stores DEBUG_LOCK = 0. -/
  | debugUnlock (p tag : Nat) (valid : Bool)
  /-- ETOD_FRAMING_ERROR (R54): A stop bit of an ETOD byte reads 0, so the message in progress is incomplete, is discarded and sets ETOD_BAD. -/
  | etodFramingError
  /-- GATHERING_EDGE (R134): At each gathering edge the per-gathering counts (failed retry attempts, successful retries, way and lane error counts, link uncorrectable errors, directory evictions) return to zero. -/
  | gatheringEdge (g : Nat)
  /-- KEEP_ISLAND_SUPPLY (R138): The keep island's voltage monitor reports its supply out of range, the keep is declared lost and the core fails with KEEP_LOST. -/
  | keepIslandSupply (c : Nat)
  /-- SLICE_CONTROL_CHECK (R169): An L3 slice's tag-pipeline control checks fail, so the slice starts retirement, with SnpSlice recovery when the directory cannot hand off. -/
  | sliceControlCheck (n : Nat) (dir : Bool)
  /-- SOFT_REPAIR_END (R242): The sPPR programming time ends, the buffered lines are written back, the row is listed, ROW_REPAIR is set and the next due row may start. -/
  | softRepairEnd (k : Nat)
  /-- RAW_ACCESS_END (R244): A raw checker-test read or write ends within 2 µs, BUSY clears, RESULT and DEVICE are set, and held home requests are released. -/
  | rawAccessEnd (err : LineErr)
  /-- TICK (R383): At a leaf edge whose leaf number mod TICK is 0, event line 7 of an engine becomes pending. -/
  | tick (l n : Nat)
  /-- RECOVERY_END (R582): A port in Recovery returns to L0, and held requests and waiting core accesses are released. -/
  | recoveryEnd (p gen w : Nat)
  /-- PERST_DEASSERTION (R467): PERST# of an endpoint group is deasserted, so WAKE# is released and the group's link may train. -/
  | perstDeassertion (g : Nat)
  /-- INTERRUPT_DISABLE (R469): The host sets Interrupt Disable in PF0's Command register, so Deassert_INTA is sent. -/
  | interruptDisable (g : Nat) (v : Bool)
  /-- HB_RESTART_END (R504): The service engine finishes restarting both Headband controller copies, and granting of posted reservations resumes in their classes. -/
  | hbRestartEnd
  /-- WAKE_COMPLETE (R505): A waking core's normal wake time (0.5 µs or 8 µs, with reload from the keep) ends and it re-enters CS0, so its harts resume. -/
  | wakeComplete (c : Nat)
  /-- LIFETIME_COMMIT_END (R521): The lifetime half's write and read-back end within 64 leaves and COL_STATUS.LIFE returns to IDLE. -/
  | lifetimeCommitEnd
  /-- VKEEP_LOSS (R40): VKEEP leaves its operating range, so the service engines, time base, Colophon and Headband controller stop and the module keeps no time until power returns. -/
  | vkeepLoss
  /-- INTEGER_INSTRUCTION (R87): An integer, branch, jump, hint or vector-integer instruction executes, including the division edge results and predictor training at retirement. -/
  | integerInstruction (h raw : Nat) (wrong : List WrongAcc)
  /-- AMO (R84): An AMO or compare-and-swap executes with the line in E or M, faulting when misaligned or aimed at an I/O region. -/
  | amo (h raw : Nat) (wrong : List WrongAcc)
  /-- CSR_ACCESS (R92): A CSR instruction reads or writes an implemented CSR under its WARL rules, or raises illegal-instruction for an unimplemented one. -/
  | csrAccess (h raw : Nat) (wrong : List WrongAcc)
deriving DecidableEq, Repr

end Sys2Proof
end

