-- ==== Sys2Proof/Decode.lean ====
section
/-! DEFINITION. The decoder of command words. No row of spec/opcode_table.json gives its command any bits: the module takes
no command words, so no word spells a command (log entry 3). -/

namespace Sys2Proof

/-- The command that a word of the table's bits spells. The table gives no row bits, so there is none. -/
def decodeTableWord (_nbits _w : Nat) : Option Instr := none

end Sys2Proof
end

