-- ==== Sys2Proof/Machine/Crc.lean ====
section
/-! DEFINITION. The cyclic codes that records, slots and messages carry (R53, R440, R502, R515, R524), and the packing of
bytes (R11). -/

namespace Sys2Proof.Machine

open Sys2Proof

/-- One bit of CRC-32C: polynomial 0x1EDC6F41, reflected. -/
def crc32cBit (c : BitVec 32) : BitVec 32 :=
  if c.getLsbD 0 then (c >>> 1) ^^^ 0x82F63B78#32 else c >>> 1

/-- One byte of CRC-32C. -/
def crc32cByte (c : BitVec 32) (b : Byte) : BitVec 32 :=
  crc32cBit (crc32cBit (crc32cBit (crc32cBit (crc32cBit (crc32cBit (crc32cBit (crc32cBit (c ^^^ b.setWidth 32))))))))

/-- CRC-32C over a list of bytes. -/
def crc32c (bytes : List Byte) : BitVec 32 := ~~~ (bytes.foldl crc32cByte (BitVec.allOnes 32))

/-- One bit of CRC-64 (R439): the ECMA-182 polynomial, most significant bit first. -/
def crc64Bit (c : BitVec 64) : BitVec 64 := if c.getLsbD 63 then (c <<< 1) ^^^ 0x42F0E1EBA9EA3693#64 else c <<< 1

/-- One byte of CRC-64. -/
def crc64Byte (c : BitVec 64) (b : Byte) : BitVec 64 :=
  crc64Bit (crc64Bit (crc64Bit (crc64Bit (crc64Bit (crc64Bit (crc64Bit (crc64Bit (c ^^^ (b.setWidth 64 <<< 56)))))))))

/-- The CRC-64 of a flit: initial value all ones. -/
def crc64 (bytes : List Byte) : BitVec 64 := bytes.foldl crc64Byte (BitVec.allOnes 64)

/-- The number that bytes spell, least significant byte first (R11). -/
def leNat : List Byte → Nat
  | [] => 0
  | b :: bs => b.toNat + 256 * leNat bs

/-- A number as `n` bytes, least significant byte first (R11). -/
def leBytes : Nat → Nat → List Byte
  | 0, _ => []
  | n + 1, v => BitVec.ofNat 8 v :: leBytes n (v / 256)

end Sys2Proof.Machine
end

