-- ==== Sys2Proof/Machine/Softfloat.lean ====
section
/-! DEFINITION. Floating-point arithmetic of the three formats of R78 and R79, computed exactly and rounded once (R88, R89; IEEE 754
as the Unprivileged ISA takes it, log entry 6). Flags are numbered as in fflags: NV 16, DZ 8, OF 4, UF 2, NX 1. -/

namespace Sys2Proof.Machine

open Sys2Proof

/-- A format: bits of exponent and of fraction. -/
structure Fmt where
  eb : Nat
  mb : Nat
deriving DecidableEq, Repr

def half : Fmt := ⟨5, 10⟩
def single : Fmt := ⟨8, 23⟩
def double : Fmt := ⟨11, 52⟩

/-- The width of a format, its bias, and its least exponent of a normal number. -/
def Fmt.width (f : Fmt) : Nat := f.eb + f.mb + 1
def Fmt.bias (f : Fmt) : Nat := 2 ^ (f.eb - 1) - 1
def Fmt.emin (f : Fmt) : Int := 1 - (f.bias : Int)
/-- The exponent field of infinities and NaNs. -/
def Fmt.emax (f : Fmt) : Nat := 2 ^ f.eb - 1

/-- A number: a NaN, signalling or not; an infinity; or sign, significand and exponent, the value m × 2^e. -/
inductive Fp where
  | nan (signalling : Bool)
  | inf (neg : Bool)
  | fin (neg : Bool) (m : Nat) (e : Int)
deriving DecidableEq, Repr

/-- The canonical NaN, infinities, zeros and the greatest finite number (R88). -/
def Fmt.qnan (f : Fmt) : Nat := f.emax * 2 ^ f.mb + 2 ^ (f.mb - 1)
def Fmt.signed (f : Fmt) (neg : Bool) (v : Nat) : Nat := v + if neg then 2 ^ (f.eb + f.mb) else 0
def Fmt.infinity (f : Fmt) (neg : Bool) : Nat := f.signed neg (f.emax * 2 ^ f.mb)
def Fmt.zero (f : Fmt) (neg : Bool) : Nat := f.signed neg 0
def Fmt.greatest (f : Fmt) (neg : Bool) : Nat := f.signed neg (f.emax * 2 ^ f.mb - 1)

/-- What bits of a format stand for. -/
def Fmt.decode (f : Fmt) (v : Nat) : Fp :=
  let neg := v.testBit (f.eb + f.mb)
  let x := v / 2 ^ f.mb % 2 ^ f.eb
  let m := v % 2 ^ f.mb
  if x = f.emax then (if m = 0 then .inf neg else .nan (!m.testBit (f.mb - 1)))
  else if x = 0 then .fin neg m (f.emin - f.mb)
  else .fin neg (m + 2 ^ f.mb) ((x : Int) - f.bias - f.mb)

/-- How many bits a number has. -/
def bitLength (n : Nat) : Nat := if n = 0 then 0 else Nat.log2 n + 1

/-- Whether rounding mode `rm` raises a magnitude: 0 RNE, 1 RTZ, 2 RDN, 3 RUP, 4 RMM; 6 to odd. `odd`: of the last bit kept; `half`: the bit
below it; `rest`: anything under that. -/
def roundUp (rm : Nat) (neg odd half rest : Bool) : Bool :=
  match rm with
  | 0 => half && (rest || odd)
  | 2 => neg && (half || rest)
  | 3 => !neg && (half || rest)
  | 4 => half
  | 6 => !odd && (half || rest)
  | _ => false

/-- m × 2^e, and a sticky part below it, rounded to a multiple of 2^q: the multiple and whether it is inexact. -/
def roundAt (rm : Nat) (neg : Bool) (m : Nat) (e q : Int) (sticky : Bool) : Nat × Bool :=
  if q ≤ e then (m * 2 ^ (e - q).toNat, sticky)
  else
    let k := (q - e).toNat
    let n := m / 2 ^ k
    let hb := m.testBit (k - 1)
    let rest := sticky || decide (m % 2 ^ (k - 1) ≠ 0)
    (n + (if roundUp rm neg (n.testBit 0) hb rest then 1 else 0), hb || rest)

/-- Round m × 2^e, m not 0, to a format: bits and flags. Tininess is detected after rounding. -/
def Fmt.round (f : Fmt) (rm : Nat) (neg : Bool) (m : Nat) (e : Int) (sticky : Bool) : Nat × Nat :=
  let p := f.mb + 1
  let top : Int := e + bitLength m - p
  let low : Int := f.emin - f.mb
  let q := max top low
  let (n, inexact) := roundAt rm neg m e q sticky
  let (u, _) := roundAt rm neg m e top sticky
  let tiny := decide ((top + bitLength u : Int) - 1 < f.emin)
  let x : Int := if n < 2 ^ f.mb then 0 else q - low + 1
  let (n1, x1) := if n = 2 ^ p then (2 ^ f.mb, x + 1) else (n, x)
  if (f.emax : Int) ≤ x1 then
    let toInf := roundUp rm neg true true true || decide (rm = 0 ∨ rm = 4)
    (if toInf ∧ rm ≠ 6 then f.infinity neg else f.greatest neg, 5)
  else
    let fields := if x1 = 0 then n1 else x1.toNat * 2 ^ f.mb + (n1 - 2 ^ f.mb)
    (f.signed neg fields, (if inexact then 1 else 0) + if tiny && inexact then 2 else 0)

/-- Round an exact value; a zero takes the sign given. -/
def Fmt.exact (f : Fmt) (rm : Nat) (neg : Bool) (m : Nat) (e : Int) : Nat × Nat :=
  if m = 0 then (f.zero neg, 0) else f.round rm neg m e false

/-- The result for operands with a NaN among them: canonical (R88), NV for a signalling one. -/
def Fmt.nans (f : Fmt) (l : List Fp) : Option (Nat × Nat) :=
  if l.any (fun x => match x with | .nan _ => true | _ => false) then
    some (f.qnan, if l.contains (.nan true) then 16 else 0)
  else none

/-- The value of a finite number as a signed significand at exponent `e`, not above its own. -/
def scaled (neg : Bool) (m : Nat) (e0 e : Int) : Int :=
  let v : Int := (m * 2 ^ (e0 - e).toNat : Nat)
  if neg then -v else v

/-- The exact sum of two finite numbers, rounded; a zero sum of unlike signs is −0 only when rounding down. -/
def Fmt.sum (f : Fmt) (rm : Nat) (a b : Bool × Nat × Int) : Nat × Nat :=
  let e := min a.2.2 b.2.2
  let v := scaled a.1 a.2.1 a.2.2 e + scaled b.1 b.2.1 b.2.2 e
  if v = 0 then
    (f.zero (if a.2.1 = 0 ∧ b.2.1 = 0 ∧ a.1 = b.1 then a.1 else decide (rm = 2)), 0)
  else f.exact rm (decide (v < 0)) v.natAbs e

/-- Addition. -/
def Fmt.add (f : Fmt) (rm a b : Nat) : Nat × Nat :=
  let x := f.decode a
  let y := f.decode b
  match f.nans [x, y] with
  | some r => r
  | none =>
    match x, y with
    | .inf s, .inf t => if s = t then (f.infinity s, 0) else (f.qnan, 16)
    | .inf s, _ => (f.infinity s, 0)
    | _, .inf t => (f.infinity t, 0)
    | .fin s m e, .fin t n g => f.sum rm (s, m, e) (t, n, g)
    | _, _ => (f.qnan, 0)

/-- The sign bit inverted. -/
def Fmt.neg (f : Fmt) (a : Nat) : Nat := a ^^^ 2 ^ (f.eb + f.mb)

/-- Subtraction. -/
def Fmt.sub (f : Fmt) (rm a b : Nat) : Nat × Nat := f.add rm a (f.neg b)

/-- Multiplication. -/
def Fmt.mul (f : Fmt) (rm a b : Nat) : Nat × Nat :=
  let x := f.decode a
  let y := f.decode b
  match f.nans [x, y] with
  | some r => r
  | none =>
    match x, y with
    | .inf s, .inf t => (f.infinity (s != t), 0)
    | .inf s, .fin t n _ => if n = 0 then (f.qnan, 16) else (f.infinity (s != t), 0)
    | .fin s m _, .inf t => if m = 0 then (f.qnan, 16) else (f.infinity (s != t), 0)
    | .fin s m e, .fin t n g => f.exact rm (s != t) (m * n) (e + g)
    | _, _ => (f.qnan, 0)

/-- a × b + c, rounded once. -/
def Fmt.fma (f : Fmt) (rm a b c : Nat) : Nat × Nat :=
  let x := f.decode a
  let y := f.decode b
  let z := f.decode c
  let zeroInf := match x, y with
    | .inf _, .fin _ n _ => decide (n = 0)
    | .fin _ m _, .inf _ => decide (m = 0)
    | _, _ => false
  match f.nans [x, y, z] with
  | some r => if zeroInf then (f.qnan, 16) else r
  | none =>
    if zeroInf then (f.qnan, 16)
    else
      match x, y, z with
      | .fin s m e, .fin t n g, .fin u k h => f.sum rm (s != t, m * n, e + g) (u, k, h)
      | .fin _ _ _, .fin _ _ _, .inf u => (f.infinity u, 0)
      | .inf s, .inf t, .inf u => if (s != t) = u then (f.infinity u, 0) else (f.qnan, 16)
      | .inf s, .fin t _ _, .inf u => if (s != t) = u then (f.infinity u, 0) else (f.qnan, 16)
      | .fin s _ _, .inf t, .inf u => if (s != t) = u then (f.infinity u, 0) else (f.qnan, 16)
      | .inf s, .inf t, _ => (f.infinity (s != t), 0)
      | .inf s, .fin t _ _, _ => (f.infinity (s != t), 0)
      | .fin s _ _, .inf t, _ => (f.infinity (s != t), 0)
      | _, _, _ => (f.qnan, 0)

/-- Division. -/
def Fmt.div (f : Fmt) (rm a b : Nat) : Nat × Nat :=
  let x := f.decode a
  let y := f.decode b
  match f.nans [x, y] with
  | some r => r
  | none =>
    match x, y with
    | .inf _, .inf _ => (f.qnan, 16)
    | .inf s, .fin t _ _ => (f.infinity (s != t), 0)
    | .fin s _ _, .inf t => (f.zero (s != t), 0)
    | .fin s m e, .fin t n g =>
      if n = 0 then (if m = 0 then (f.qnan, 16) else (f.infinity (s != t), 8))
      else if m = 0 then (f.zero (s != t), 0)
      else
        let k := 2 * f.mb + 8
        f.round rm (s != t) (m * 2 ^ k / n) (e - g - k) (decide (m * 2 ^ k % n ≠ 0))
    | _, _ => (f.qnan, 0)

/-- Square root. -/
def Fmt.sqrt (f : Fmt) (rm a : Nat) : Nat × Nat :=
  let x := f.decode a
  match f.nans [x] with
  | some r => r
  | none =>
    match x with
    | .inf s => if s then (f.qnan, 16) else (f.infinity false, 0)
    | .fin s m e =>
      if m = 0 then (f.zero s, 0)
      else if s then (f.qnan, 16)
      else
        let e1 := e - e % 2
        let n := m * 2 ^ (e % 2).toNat * 2 ^ (2 * f.mb + 8)
        let r := Nat.sqrt n
        f.round rm false r (e1 / 2 - (f.mb + 4)) (decide (r * r ≠ n))
    | _ => (f.qnan, 0)

/-- Less, equal, and whether an operand is a NaN: the order of the values. -/
def Fmt.less (f : Fmt) (a b : Nat) : Bool :=
  match f.decode a, f.decode b with
  | .inf s, .inf t => s && !t
  | .inf s, .fin _ _ _ => s
  | .fin _ _ _, .inf t => !t
  | .fin s m e, .fin t n g =>
    let x := min e g
    decide (scaled s m e x < scaled t n g x)
  | _, _ => false
def Fmt.equal (f : Fmt) (a b : Nat) : Bool :=
  match f.decode a, f.decode b with
  | .inf s, .inf t => s == t
  | .fin s m e, .fin t n g =>
    let x := min e g
    decide (scaled s m e x = scaled t n g x)
  | _, _ => false
def Fmt.isNan (f : Fmt) (a : Nat) : Bool := match f.decode a with | .nan _ => true | _ => false
def Fmt.isSnan (f : Fmt) (a : Nat) : Bool := match f.decode a with | .nan s => s | _ => false

/-- A comparison: 0 FLE, 1 FLT, 2 FEQ; the quiet forms raise NV for signalling NaNs only. -/
def Fmt.compare (f : Fmt) (op : Nat) (quiet : Bool) (a b : Nat) : Bool × Nat :=
  let nan := f.isNan a || f.isNan b
  let snan := f.isSnan a || f.isSnan b
  let r := match op with
    | 0 => f.less a b || f.equal a b
    | 1 => f.less a b
    | _ => f.equal a b
  (r && !nan, if snan || (nan && !quiet) then 16 else 0)

/-- Minimum or maximum: of the numbers, or (FMINM, FMAXM) a NaN where an operand is one; −0 is below +0. -/
def Fmt.minmax (f : Fmt) (max strict : Bool) (a b : Nat) : Nat × Nat :=
  let nv := if f.isSnan a || f.isSnan b then 16 else 0
  let below := f.less a b || (f.equal a b && a.testBit (f.eb + f.mb))
  if f.isNan a ∧ f.isNan b then (f.qnan, nv)
  else if strict && (f.isNan a || f.isNan b) then (f.qnan, nv)
  else if f.isNan a then (b, nv)
  else if f.isNan b then (a, nv)
  else (if below != max then a else b, nv)

/-- FCLASS. -/
def Fmt.classify (f : Fmt) (a : Nat) : Nat :=
  match f.decode a with
  | .nan true => 0x100
  | .nan false => 0x200
  | .inf s => if s then 1 else 0x80
  | .fin s m _ =>
    if m = 0 then (if s then 8 else 0x10)
    else if m < 2 ^ f.mb then (if s then 4 else 0x20)
    else (if s then 2 else 0x40)

/-- From one format to another. -/
def Fmt.convert (f g : Fmt) (rm a : Nat) : Nat × Nat :=
  match f.decode a with
  | .nan s => (g.qnan, if s then 16 else 0)
  | .inf s => (g.infinity s, 0)
  | .fin s m e => g.exact rm s m e

/-- From an integer. -/
def Fmt.ofInt (f : Fmt) (rm : Nat) (v : Int) : Nat × Nat := f.exact rm (decide (v < 0)) v.natAbs 0

/-- To an integer of `w` bits: the value, saturated, and flags; a NaN gives the greatest value. -/
def Fmt.toInt (f : Fmt) (rm w : Nat) (sgn : Bool) (a : Nat) : Int × Nat :=
  let lo : Int := if sgn then -(2 ^ (w - 1) : Nat) else 0
  let hi : Int := if sgn then (2 ^ (w - 1) : Nat) - 1 else (2 ^ w : Nat) - 1
  match f.decode a with
  | .nan _ => (hi, 16)
  | .inf s => (if s then lo else hi, 16)
  | .fin s m e =>
    let (n, inexact) := roundAt rm s m e 0 false
    let v : Int := if s then -(n : Int) else n
    if v < lo then (lo, 16) else if hi < v then (hi, 16) else (v, if inexact then 1 else 0)

/-- To an integral value of the format (FROUND, FROUNDNX). -/
def Fmt.integral (f : Fmt) (rm : Nat) (nx : Bool) (a : Nat) : Nat × Nat :=
  match f.decode a with
  | .nan s => (f.qnan, if s then 16 else 0)
  | .inf _ => (a, 0)
  | .fin s m e =>
    if m = 0 ∨ 0 ≤ e then (a, 0)
    else
      let (n, inexact) := roundAt rm s m e 0 false
      ((f.exact 0 s n 0).1, if nx && inexact then 1 else 0)

/-- FCVTMOD.W.D: rounded towards zero, modulo 2^32; the flags of the conversion to a word. -/
def fcvtmod (a : Nat) : Int × Nat :=
  match double.decode a with
  | .fin s m e =>
    let n := (roundAt 1 s m e 0 false).1
    let v : Int := if s then -(n : Int) else n
    let r := v % (2 ^ 32 : Nat)
    ((if r < (2 ^ 31 : Nat) then r else r - (2 ^ 32 : Nat)), (double.toInt 1 32 true a).2)
  | _ => (0, 16)

/-- The 7-bit estimate of 1/x for a significand by its 7 leading fraction bits: the reciprocal of the middle of the interval, rounded. -/
def recip7 (i : Nat) : Nat := (2 ^ 17 + (257 + 2 * i)) / (2 * (257 + 2 * i)) - 128

/-- The 7-bit estimate of 1/√x, by the last exponent bit and the 6 leading fraction bits. -/
def rsqrt7 (i : Nat) : Nat := (Nat.sqrt (2 ^ 25 / (if i < 64 then 2 * (129 + 2 * i) else 129 + 2 * (i - 64))) + 1) / 2 - 128

/-- Exponent field and fraction of a number that is not 0, a subnormal one normalised. -/
def Fmt.normal (f : Fmt) (a : Nat) : Int × Nat :=
  let x := a / 2 ^ f.mb % 2 ^ f.eb
  let m := a % 2 ^ f.mb
  if x ≠ 0 then (x, m)
  else
    let lz := f.mb - bitLength m
    (-(lz : Int), m * 2 ^ (lz + 1) % 2 ^ f.mb)

/-- VFRSQRT7. -/
def Fmt.rsqrtEst (f : Fmt) (a : Nat) : Nat × Nat :=
  match f.decode a with
  | .nan s => (f.qnan, if s then 16 else 0)
  | .inf s => if s then (f.qnan, 16) else (f.zero false, 0)
  | .fin s m _ =>
    if m = 0 then (f.infinity s, 8)
    else if s then (f.qnan, 16)
    else
      let (x, n) := f.normal a
      let i := (x % 2).toNat * 64 + n / 2 ^ (f.mb - 6)
      ((((3 * (f.bias : Int) - 1 - x) / 2).toNat) * 2 ^ f.mb + rsqrt7 i * 2 ^ (f.mb - 7), 0)

/-- VFREC7. -/
def Fmt.recipEst (f : Fmt) (rm : Nat) (a : Nat) : Nat × Nat :=
  match f.decode a with
  | .nan s => (f.qnan, if s then 16 else 0)
  | .inf s => (f.zero s, 0)
  | .fin s m _ =>
    if m = 0 then (f.infinity s, 8)
    else
      let (x, n) := f.normal a
      if x < -1 then
        (if rm = 1 ∨ (rm = 2 ∧ s = false) ∨ (rm = 3 ∧ s = true) then f.greatest s else f.infinity s, 5)
      else
        let y : Int := 2 * (f.bias : Int) - 1 - x
        let g := recip7 (n / 2 ^ (f.mb - 7)) * 2 ^ (f.mb - 7)
        if 0 < y then (f.signed s (y.toNat * 2 ^ f.mb + g), 0)
        else if y = 0 then (f.signed s (g / 2 + 2 ^ (f.mb - 1)), 0)
        else (f.signed s ((g / 2 + 2 ^ (f.mb - 1)) / 2), 0)

end Sys2Proof.Machine
end

