-- ==== Sys2Proof/Machine/Hash.lean ====
section
/-! DEFINITION. The hash functions of the transform units (R403): SHA-256, SHA-384 and SHA-512 as FIPS 180-4 and SHA3-256 as FIPS 202
state them. -/

namespace Sys2Proof.Machine

open Sys2Proof

/-- The number that bytes spell, most significant first. -/
def beNat (l : List Byte) : Nat := l.foldl (fun a b => a * 256 + b.toNat) 0

/-- A number as n bytes, most significant first. -/
def beBytes (n v : Nat) : List Byte := (List.range n).map (fun k => BitVec.ofNat 8 (v / 2 ^ (8 * (n - 1 - k))))

/-- A list cut into pieces of n; `fuel` bounds their number. -/
def chunksOf {α : Type} (n : Nat) : Nat → List α → List (List α)
  | 0, _ => []
  | fuel + 1, l => if l.isEmpty then [] else l.take n :: chunksOf n fuel (l.drop n)

/-- A message with the padding of FIPS 180-4, for blocks of n bytes with a length field of m bytes. -/
def shaPad (n m : Nat) (msg : List Byte) : List Byte :=
  let z := (2 * n - 1 - m - msg.length % n) % n
  msg ++ [0x80] ++ List.replicate z 0 ++ beBytes m (8 * msg.length)

/-- The constants of SHA-256. -/
def sha256K : List (BitVec 32) :=
  [0x428A2F98, 0x71374491, 0xB5C0FBCF, 0xE9B5DBA5, 0x3956C25B, 0x59F111F1, 0x923F82A4, 0xAB1C5ED5,
   0xD807AA98, 0x12835B01, 0x243185BE, 0x550C7DC3, 0x72BE5D74, 0x80DEB1FE, 0x9BDC06A7, 0xC19BF174] ++
  [0xE49B69C1, 0xEFBE4786, 0x0FC19DC6, 0x240CA1CC, 0x2DE92C6F, 0x4A7484AA, 0x5CB0A9DC, 0x76F988DA,
   0x983E5152, 0xA831C66D, 0xB00327C8, 0xBF597FC7, 0xC6E00BF3, 0xD5A79147, 0x06CA6351, 0x14292967] ++
  [0x27B70A85, 0x2E1B2138, 0x4D2C6DFC, 0x53380D13, 0x650A7354, 0x766A0ABB, 0x81C2C92E, 0x92722C85,
   0xA2BFE8A1, 0xA81A664B, 0xC24B8B70, 0xC76C51A3, 0xD192E819, 0xD6990624, 0xF40E3585, 0x106AA070] ++
  [0x19A4C116, 0x1E376C08, 0x2748774C, 0x34B0BCB5, 0x391C0CB3, 0x4ED8AA4A, 0x5B9CCA4F, 0x682E6FF3,
   0x748F82EE, 0x78A5636F, 0x84C87814, 0x8CC70208, 0x90BEFFFA, 0xA4506CEB, 0xBEF9A3F7, 0xC67178F2]

/-- The constants of SHA-384 and SHA-512. -/
def sha512K : List (BitVec 64) :=
  [0x428A2F98D728AE22, 0x7137449123EF65CD, 0xB5C0FBCFEC4D3B2F, 0xE9B5DBA58189DBBC, 0x3956C25BF348B538, 0x59F111F1B605D019,
   0x923F82A4AF194F9B, 0xAB1C5ED5DA6D8118, 0xD807AA98A3030242, 0x12835B0145706FBE, 0x243185BE4EE4B28C, 0x550C7DC3D5FFB4E2,
   0x72BE5D74F27B896F, 0x80DEB1FE3B1696B1, 0x9BDC06A725C71235, 0xC19BF174CF692694] ++
  [0xE49B69C19EF14AD2, 0xEFBE4786384F25E3, 0x0FC19DC68B8CD5B5, 0x240CA1CC77AC9C65, 0x2DE92C6F592B0275, 0x4A7484AA6EA6E483,
   0x5CB0A9DCBD41FBD4, 0x76F988DA831153B5, 0x983E5152EE66DFAB, 0xA831C66D2DB43210, 0xB00327C898FB213F, 0xBF597FC7BEEF0EE4,
   0xC6E00BF33DA88FC2, 0xD5A79147930AA725, 0x06CA6351E003826F, 0x142929670A0E6E70] ++
  [0x27B70A8546D22FFC, 0x2E1B21385C26C926, 0x4D2C6DFC5AC42AED, 0x53380D139D95B3DF, 0x650A73548BAF63DE, 0x766A0ABB3C77B2A8,
   0x81C2C92E47EDAEE6, 0x92722C851482353B, 0xA2BFE8A14CF10364, 0xA81A664BBC423001, 0xC24B8B70D0F89791, 0xC76C51A30654BE30,
   0xD192E819D6EF5218, 0xD69906245565A910, 0xF40E35855771202A, 0x106AA07032BBD1B8] ++
  [0x19A4C116B8D2D0C8, 0x1E376C085141AB53, 0x2748774CDF8EEB99, 0x34B0BCB5E19B48A8, 0x391C0CB3C5C95A63, 0x4ED8AA4AE3418ACB,
   0x5B9CCA4F7763E373, 0x682E6FF3D6B2B8A3, 0x748F82EE5DEFB2FC, 0x78A5636F43172F60, 0x84C87814A1F0AB72, 0x8CC702081A6439EC,
   0x90BEFFFA23631E28, 0xA4506CEBDE82BDE9, 0xBEF9A3F7B2C67915, 0xC67178F2E372532B] ++
  [0xCA273ECEEA26619C, 0xD186B8C721C0C207, 0xEADA7DD6CDE0EB1E, 0xF57D4F7FEE6ED178, 0x06F067AA72176FBA, 0x0A637DC5A2C898A6,
   0x113F9804BEF90DAE, 0x1B710B35131C471B, 0x28DB77F523047D84, 0x32CAAB7B40C72493, 0x3C9EBE0A15C9BEBC, 0x431D67C49C100D4C,
   0x4CC5D4BECB3E42B6, 0x597F299CFC657E2A, 0x5FCB6FAB3AD6FAEC, 0x6C44198C4A475817]

/-- The initial value of SHA-256. -/
def sha256H : List (BitVec 32) :=
  [0x6A09E667, 0xBB67AE85, 0x3C6EF372, 0xA54FF53A, 0x510E527F, 0x9B05688C, 0x1F83D9AB, 0x5BE0CD19]

/-- The initial value of SHA-384. -/
def sha384H : List (BitVec 64) :=
  [0xCBBB9D5DC1059ED8, 0x629A292A367CD507, 0x9159015A3070DD17, 0x152FECD8F70E5939, 0x67332667FFC00B31, 0x8EB44A8768581511,
   0xDB0C2E0D64F98FA7, 0x47B5481DBEFA4FA4]

/-- The initial value of SHA-512. -/
def sha512H : List (BitVec 64) :=
  [0x6A09E667F3BCC908, 0xBB67AE8584CAA73B, 0x3C6EF372FE94F82B, 0xA54FF53A5F1D36F1, 0x510E527FADE682D1, 0x9B05688C2B3E6C1F,
   0x1F83D9ABFB41BD6B, 0x5BE0CD19137E2179]

/-- The rotation amounts of a SHA-2 function: Σ0, Σ1, σ0, σ1; the last of σ0 and σ1 is a shift. -/
structure ShaRot where
  a : Nat × Nat × Nat
  b : Nat × Nat × Nat
  c : Nat × Nat × Nat
  d : Nat × Nat × Nat
deriving DecidableEq, Repr

/-- SHA-256's. -/
def sha256Rot : ShaRot := ⟨(2, 13, 22), (6, 11, 25), (7, 18, 3), (17, 19, 10)⟩

/-- SHA-384's and SHA-512's. -/
def sha512Rot : ShaRot := ⟨(28, 34, 39), (14, 18, 41), (1, 8, 7), (19, 61, 6)⟩

/-- Three rotations, XORed. -/
def shaBig {w : Nat} (r : Nat × Nat × Nat) (x : BitVec w) : BitVec w := x.rotateRight r.1 ^^^ x.rotateRight r.2.1 ^^^ x.rotateRight r.2.2

/-- Two rotations and a shift, XORed. -/
def shaSmall {w : Nat} (r : Nat × Nat × Nat) (x : BitVec w) : BitVec w := x.rotateRight r.1 ^^^ x.rotateRight r.2.1 ^^^ (x >>> r.2.2)

/-- The message schedule: the words so far, newest first, with n more. -/
def shaSchedule {w : Nat} (r : ShaRot) : Nat → List (BitVec w) → List (BitVec w)
  | 0, ws => ws
  | n + 1, ws =>
    let g (k : Nat) : BitVec w := ws.getD (k - 1) 0
    shaSchedule r n ((shaSmall r.d (g 2) + g 7 + shaSmall r.c (g 15) + g 16) :: ws)

/-- One round on the eight working variables. -/
def shaRound {w : Nat} (r : ShaRot) (v : List (BitVec w)) (kw : BitVec w × BitVec w) : List (BitVec w) :=
  match v with
  | [a, b, c, d, e, f, g, h] =>
    let t1 := h + shaBig r.b e + ((e &&& f) ^^^ (~~~e &&& g)) + kw.1 + kw.2
    let t2 := shaBig r.a a + ((a &&& b) ^^^ (a &&& c) ^^^ (b &&& c))
    [t1 + t2, a, b, c, d + t1, e, f, g]
  | _ => v

/-- One block. -/
def shaBlock {w : Nat} (r : ShaRot) (ks h : List (BitVec w)) (block : List Byte) : List (BitVec w) :=
  let ws := (chunksOf (w / 8) 16 block).map (fun b => BitVec.ofNat w (beNat b))
  let all := (shaSchedule r (ks.length - 16) ws.reverse).reverse
  let v := (ks.zip all).foldl (shaRound r) h
  List.zipWith (fun a b => a + b) h v

/-- A SHA-2 digest, before it is cut short. -/
def sha2 {w : Nat} (r : ShaRot) (ks h : List (BitVec w)) (msg : List Byte) : List Byte :=
  let n := 2 * w
  let p := shaPad n (n / 8) msg
  (((chunksOf n (p.length / n) p).foldl (shaBlock r ks) h).map (fun x => beBytes (w / 8) x.toNat)).flatten

def sha256 (msg : List Byte) : List Byte := sha2 sha256Rot sha256K sha256H msg
def sha384 (msg : List Byte) : List Byte := (sha2 sha512Rot sha512K sha384H msg).take 48
def sha512 (msg : List Byte) : List Byte := sha2 sha512Rot sha512K sha512H msg

/-- The bits rc(0) to rc(n − 1) of FIPS 202 (algorithm 5), from the register R with R[0] in bit 0. -/
def keccakBits : Nat → BitVec 8 → List Bool
  | 0, _ => []
  | n + 1, r => r.getLsbD 0 :: keccakBits n ((r <<< 1) ^^^ (if r.msb then 0x71 else 0))

/-- The round constants of Keccak-f[1600]: bit 2^j − 1 of the one for round i is rc(j + 7i). -/
def keccakRc : List (BitVec 64) :=
  (chunksOf 7 24 (keccakBits 168 1)).map (fun bits => bits.zipIdx.foldl (fun w b => if b.1 then w ||| (1#64 <<< (2 ^ b.2 - 1)) else w) 0)

/-- The lanes (x, y) in the order of the step ρ, from its lane t on, with their rotations (t + 1)(t + 2)/2. -/
def keccakWalk : Nat → Nat → Nat → Nat → List (Nat × Nat)
  | 0, _, _, _ => []
  | n + 1, t, x, y => (x + 5 * y, (t + 1) * (t + 2) / 2 % 64) :: keccakWalk n (t + 1) y ((2 * x + 3 * y) % 5)

/-- The rotation of lane x + 5y in the step ρ; that of lane 0 is none. -/
def keccakRot : List Nat :=
  let walk := keccakWalk 24 0 1 0
  (List.range 25).map (fun i => ((walk.find? (fun e => decide (e.1 = i))).map (·.2)).getD 0)

/-- One round of Keccak-f[1600] on 25 lanes, lane x + 5y. -/
def keccakRound (a : List (BitVec 64)) (rc : BitVec 64) : List (BitVec 64) :=
  let at_ (l : List (BitVec 64)) (x y : Nat) : BitVec 64 := l.getD (x % 5 + 5 * (y % 5)) 0
  let c := (List.range 5).map (fun x => at_ a x 0 ^^^ at_ a x 1 ^^^ at_ a x 2 ^^^ at_ a x 3 ^^^ at_ a x 4)
  let d := (List.range 5).map (fun x => c.getD ((x + 4) % 5) 0 ^^^ (c.getD ((x + 1) % 5) 0).rotateLeft 1)
  let t := (List.range 25).map (fun i => (a.getD i 0 ^^^ d.getD (i % 5) 0).rotateLeft (keccakRot.getD i 0))
  let b := (List.range 25).map (fun i => at_ t (i % 5 + 3 * (i / 5)) (i % 5))
  let n := (List.range 25).map (fun i => at_ b i (i / 5) ^^^ (~~~at_ b (i + 1) (i / 5) &&& at_ b (i + 2) (i / 5)))
  (n.headD 0 ^^^ rc) :: n.drop 1

/-- Keccak-f[1600]. -/
def keccakF (a : List (BitVec 64)) : List (BitVec 64) := keccakRc.foldl keccakRound a

/-- SHA3-256. -/
def sha3 (msg : List Byte) : List Byte :=
  let n := 136
  let z := n - 1 - msg.length % n
  let p := if z = 0 then msg ++ [0x86] else msg ++ [0x06] ++ List.replicate (z - 1) 0 ++ [0x80]
  let out := (chunksOf n (p.length / n) p).foldl (fun a block =>
    let ws := (chunksOf 8 17 block).map (fun b => BitVec.ofNat 64 (leNat b))
    keccakF ((List.range 25).map (fun i => a.getD i 0 ^^^ ws.getD i 0))) (List.replicate 25 0)
  ((out.take 4).map (fun x => leBytes 8 x.toNat)).flatten

end Sys2Proof.Machine
end

