-- ==== Sys2Proof/Machine/Cipher.lean ====
section
/-! DEFINITION. The ciphers of the transform units (R401, R402): AES as FIPS 197 states it, GCM as NIST SP 800-38D and XTS as IEEE Std
1619 do. -/

namespace Sys2Proof.Machine

open Sys2Proof

/-- The S-box of AES. -/
def aesSbox : List Byte :=
  [0x63, 0x7C, 0x77, 0x7B, 0xF2, 0x6B, 0x6F, 0xC5, 0x30, 0x01, 0x67, 0x2B, 0xFE, 0xD7, 0xAB, 0x76,
   0xCA, 0x82, 0xC9, 0x7D, 0xFA, 0x59, 0x47, 0xF0, 0xAD, 0xD4, 0xA2, 0xAF, 0x9C, 0xA4, 0x72, 0xC0] ++
  [0xB7, 0xFD, 0x93, 0x26, 0x36, 0x3F, 0xF7, 0xCC, 0x34, 0xA5, 0xE5, 0xF1, 0x71, 0xD8, 0x31, 0x15,
   0x04, 0xC7, 0x23, 0xC3, 0x18, 0x96, 0x05, 0x9A, 0x07, 0x12, 0x80, 0xE2, 0xEB, 0x27, 0xB2, 0x75] ++
  [0x09, 0x83, 0x2C, 0x1A, 0x1B, 0x6E, 0x5A, 0xA0, 0x52, 0x3B, 0xD6, 0xB3, 0x29, 0xE3, 0x2F, 0x84,
   0x53, 0xD1, 0x00, 0xED, 0x20, 0xFC, 0xB1, 0x5B, 0x6A, 0xCB, 0xBE, 0x39, 0x4A, 0x4C, 0x58, 0xCF] ++
  [0xD0, 0xEF, 0xAA, 0xFB, 0x43, 0x4D, 0x33, 0x85, 0x45, 0xF9, 0x02, 0x7F, 0x50, 0x3C, 0x9F, 0xA8,
   0x51, 0xA3, 0x40, 0x8F, 0x92, 0x9D, 0x38, 0xF5, 0xBC, 0xB6, 0xDA, 0x21, 0x10, 0xFF, 0xF3, 0xD2] ++
  [0xCD, 0x0C, 0x13, 0xEC, 0x5F, 0x97, 0x44, 0x17, 0xC4, 0xA7, 0x7E, 0x3D, 0x64, 0x5D, 0x19, 0x73,
   0x60, 0x81, 0x4F, 0xDC, 0x22, 0x2A, 0x90, 0x88, 0x46, 0xEE, 0xB8, 0x14, 0xDE, 0x5E, 0x0B, 0xDB] ++
  [0xE0, 0x32, 0x3A, 0x0A, 0x49, 0x06, 0x24, 0x5C, 0xC2, 0xD3, 0xAC, 0x62, 0x91, 0x95, 0xE4, 0x79,
   0xE7, 0xC8, 0x37, 0x6D, 0x8D, 0xD5, 0x4E, 0xA9, 0x6C, 0x56, 0xF4, 0xEA, 0x65, 0x7A, 0xAE, 0x08] ++
  [0xBA, 0x78, 0x25, 0x2E, 0x1C, 0xA6, 0xB4, 0xC6, 0xE8, 0xDD, 0x74, 0x1F, 0x4B, 0xBD, 0x8B, 0x8A,
   0x70, 0x3E, 0xB5, 0x66, 0x48, 0x03, 0xF6, 0x0E, 0x61, 0x35, 0x57, 0xB9, 0x86, 0xC1, 0x1D, 0x9E] ++
  [0xE1, 0xF8, 0x98, 0x11, 0x69, 0xD9, 0x8E, 0x94, 0x9B, 0x1E, 0x87, 0xE9, 0xCE, 0x55, 0x28, 0xDF,
   0x8C, 0xA1, 0x89, 0x0D, 0xBF, 0xE6, 0x42, 0x68, 0x41, 0x99, 0x2D, 0x0F, 0xB0, 0x54, 0xBB, 0x16]

/-- The S-box applied to a byte. -/
def aesSub (b : Byte) : Byte := aesSbox.getD b.toNat 0

/-- Its inverse. -/
def aesInvSub (b : Byte) : Byte := BitVec.ofNat 8 (aesSbox.findIdx (fun x => decide (x = b)))

/-- Multiplication by x in GF(2^8). -/
def aesXtime (b : Byte) : Byte := (b <<< 1) ^^^ (if b.getLsbD 7 then 0x1B else 0)

/-- Multiplication in GF(2^8) by a constant below 16. -/
def aesMul (c : Nat) (b : Byte) : Byte :=
  let b2 := aesXtime b
  let b4 := aesXtime b2
  let b8 := aesXtime b4
  (if c.testBit 0 then b else 0) ^^^ (if c.testBit 1 then b2 else 0) ^^^ (if c.testBit 2 then b4 else 0) ^^^ (if c.testBit 3 then b8 else 0)

/-- Bytes XORed, as far as the shorter list goes. -/
def xorBytes (a b : List Byte) : List Byte := List.zipWith (fun x y => x ^^^ y) a b

/-- The key schedule: the words so far, newest first, with n more; `k` words in the key, `i` the number of the next word. -/
def aesExpand (k : Nat) : Nat → Nat → Byte → List (List Byte) → List (List Byte)
  | 0, _, _, ws => ws
  | n + 1, i, rc, ws =>
    let t := ws.headD []
    let old := ws.getD (k - 1) []
    if i % k = 0 then
      let u := (t.rotateLeft 1).map aesSub
      aesExpand k n (i + 1) (aesXtime rc) (xorBytes old (xorBytes u [rc, 0, 0, 0]) :: ws)
    else if 6 < k ∧ i % k = 4 then aesExpand k n (i + 1) rc (xorBytes old (t.map aesSub) :: ws)
    else aesExpand k n (i + 1) rc (xorBytes old t :: ws)

/-- The round keys of a key of 16 or 32 bytes. -/
def aesKeys (key : List Byte) : List (List Byte) :=
  let k := key.length / 4
  let ws := (aesExpand k (4 * (k + 7) - k) k 1 (chunksOf 4 k key).reverse).reverse
  (chunksOf 4 (k + 7) ws).map (·.flatten)

/-- ShiftRows: byte r + 4c of the state comes from column c + r. -/
def aesShiftRows (s : List Byte) : List Byte := (List.range 16).map (fun i => s.getD ((i % 4 + 4 * ((i / 4 + i % 4) % 4))) 0)

/-- Its inverse. -/
def aesInvShiftRows (s : List Byte) : List Byte := (List.range 16).map (fun i => s.getD ((i % 4 + 4 * ((i / 4 + 4 - i % 4) % 4))) 0)

/-- MixColumns with the coefficients of one row. -/
def aesMix (co : List Nat) (s : List Byte) : List Byte :=
  (List.range 16).map (fun i =>
    (List.range 4).foldl (fun a j => a ^^^ aesMul (co.getD ((j + 4 - i % 4) % 4) 0) (s.getD (i / 4 * 4 + j) 0)) 0)

/-- The cipher on one block of 16 bytes. -/
def aesEncrypt (keys : List (List Byte)) (block : List Byte) : List Byte :=
  let first := xorBytes block (keys.headD [])
  let mid := (keys.drop 1).dropLast.foldl (fun s k => xorBytes (aesMix [2, 3, 1, 1] (aesShiftRows (s.map aesSub))) k) first
  xorBytes (aesShiftRows (mid.map aesSub)) (keys.getLastD [])

/-- The inverse cipher. -/
def aesDecrypt (keys : List (List Byte)) (block : List Byte) : List Byte :=
  let ks := keys.reverse
  let first := xorBytes block (ks.headD [])
  let mid := (ks.drop 1).dropLast.foldl (fun s k => aesMix [14, 11, 13, 9] (xorBytes ((aesInvShiftRows s).map aesInvSub) k)) first
  xorBytes ((aesInvShiftRows mid).map aesInvSub) (ks.getLastD [])

/-! ### GCM (R401) -/

/-- Multiplication in GF(2^128) as GCM numbers its bits: the first bit of a block is bit 127. -/
def ghashMul (x y : BitVec 128) : BitVec 128 :=
  ((List.range 128).foldl (fun (acc : BitVec 128 × BitVec 128) i =>
    (if x.getLsbD (127 - i) then acc.1 ^^^ acc.2 else acc.1,
      (acc.2 >>> 1) ^^^ (if acc.2.getLsbD 0 then (0xE1#128 <<< 120) else 0))) (0, y)).1

/-- A block as a number, most significant byte first. -/
def blockNum (b : List Byte) : BitVec 128 := BitVec.ofNat 128 (beNat (b ++ List.replicate (16 - b.length) 0))

/-- GHASH of a list of bytes cut into blocks, the last filled with zeros, onto a value. -/
def ghash (h y : BitVec 128) (bytes : List Byte) : BitVec 128 :=
  (chunksOf 16 (bytes.length / 16 + 1) bytes).foldl (fun a b => ghashMul (a ^^^ blockNum b) h) y

/-- The counter block number n of a message. -/
def gcmCounter (iv : List Byte) (n : Nat) : List Byte := iv ++ beBytes 4 n

/-- Counter mode from counter 2 (GCTR on the text of a message). -/
def gcmText (keys : List (List Byte)) (iv text : List Byte) : List Byte :=
  ((chunksOf 16 (text.length / 16 + 1) text).zipIdx.map (fun b => xorBytes b.1 (aesEncrypt keys (gcmCounter iv (b.2 + 2))))).flatten

/-- The tag over additional data and ciphertext. -/
def gcmTag (keys : List (List Byte)) (iv aad text : List Byte) : List Byte :=
  let h := blockNum (aesEncrypt keys (List.replicate 16 0))
  let y := ghash h (ghash h (ghash h 0 aad) text) (beBytes 8 (8 * aad.length) ++ beBytes 8 (8 * text.length))
  xorBytes (beBytes 16 y.toNat) (aesEncrypt keys (gcmCounter iv 1))

/-! ### XTS (R402) -/

/-- Multiplication of a tweak by α: bytes least significant first. -/
def xtsAlpha (t : BitVec 128) : BitVec 128 := (t <<< 1) ^^^ (if t.getLsbD 127 then 0x87 else 0)

/-- The blocks of one data unit under a tweak; `fuel` bounds their number. -/
def xtsBlocks (enc : Bool) (keys : List (List Byte)) : Nat → BitVec 128 → List Byte → List Byte
  | 0, _, _ => []
  | fuel + 1, t, l =>
    if l.isEmpty then []
    else
      let tb := leBytes 16 t.toNat
      let x := xorBytes (l.take 16) tb
      xorBytes (if enc then aesEncrypt keys x else aesDecrypt keys x) tb ++ xtsBlocks enc keys fuel (xtsAlpha t) (l.drop 16)

/-- Data units of `n` bytes from tweak T, processed with a pair of keys. -/
def xts (enc : Bool) (pair : List Byte) (tweak : BitVec 128) (n : Nat) (data : List Byte) : List Byte :=
  let k1 := aesKeys (pair.take (pair.length / 2))
  let k2 := aesKeys (pair.drop (pair.length / 2))
  ((chunksOf n (data.length / n + 1) data).zipIdx.map (fun u =>
    xtsBlocks enc k1 (n / 16) (BitVec.ofNat 128 (leNat (aesEncrypt k2 (leBytes 16 (tweak + BitVec.ofNat 128 u.2).toNat)))) u.1)).flatten

end Sys2Proof.Machine
end

