-- ==== Sys2Proof/Machine/Isa.lean ====
section
/-! DEFINITION. Instruction words (R78, R79, R90 to R94): their fields, the 32-bit instructions that the compressed ones stand for,
and the class of every encoding. The encodings of the standards are the standards' own (log entry 6). -/

namespace Sys2Proof.Machine

open Sys2Proof

/-! ### Fields -/

/-- Bits hi to lo of an instruction. -/
def ib (w hi lo : Nat) : Nat := w / 2 ^ lo % 2 ^ (hi + 1 - lo)

/-- A value of `n` bits with its sign. -/
def sgn (n v : Nat) : Int := if v % 2 ^ n < 2 ^ (n - 1) then (v % 2 ^ n : Nat) else (v % 2 ^ n : Nat) - (2 ^ n : Nat)

def iOp (w : Nat) : Nat := ib w 6 0
def iRd (w : Nat) : Nat := ib w 11 7
def iF3 (w : Nat) : Nat := ib w 14 12
def iRs1 (w : Nat) : Nat := ib w 19 15
def iRs2 (w : Nat) : Nat := ib w 24 20
def iF7 (w : Nat) : Nat := ib w 31 25
def iF12 (w : Nat) : Nat := ib w 31 20
def immI (w : Nat) : Int := sgn 12 (ib w 31 20)
def immS (w : Nat) : Int := sgn 12 (ib w 31 25 * 32 + ib w 11 7)
def immB (w : Nat) : Int := sgn 13 (ib w 31 31 * 4096 + ib w 7 7 * 2048 + ib w 30 25 * 32 + ib w 11 8 * 2)
def immU (w : Nat) : Int := sgn 32 (ib w 31 12 * 4096)
def immJ (w : Nat) : Int := sgn 21 (ib w 31 31 * 2 ^ 20 + ib w 19 12 * 4096 + ib w 20 20 * 2048 + ib w 30 21 * 2)

/-! ### Making words -/

def mkI (op f3 rd rs1 : Nat) (imm : Int) : Nat := op + rd * 2 ^ 7 + f3 * 2 ^ 12 + rs1 * 2 ^ 15 + (imm % 4096).toNat * 2 ^ 20
def mkR (op f3 f7 rd rs1 rs2 : Nat) : Nat := op + rd * 2 ^ 7 + f3 * 2 ^ 12 + rs1 * 2 ^ 15 + rs2 * 2 ^ 20 + f7 * 2 ^ 25
def mkS (op f3 rs1 rs2 imm : Nat) : Nat :=
  op + imm % 32 * 2 ^ 7 + f3 * 2 ^ 12 + rs1 * 2 ^ 15 + rs2 * 2 ^ 20 + imm / 32 % 128 * 2 ^ 25
def mkU (op rd : Nat) (imm : Int) : Nat := op + rd * 2 ^ 7 + (imm % 2 ^ 20).toNat * 2 ^ 12
def mkB (f3 rs1 rs2 : Nat) (imm : Int) : Nat :=
  let i := (imm % 8192).toNat
  0x63 + ib i 11 11 * 2 ^ 7 + ib i 4 1 * 2 ^ 8 + f3 * 2 ^ 12 + rs1 * 2 ^ 15 + rs2 * 2 ^ 20 + ib i 10 5 * 2 ^ 25 + ib i 12 12 * 2 ^ 31
def mkJ (rd : Nat) (imm : Int) : Nat :=
  let i := (imm % 2 ^ 21).toNat
  0x6F + rd * 2 ^ 7 + ib i 19 12 * 2 ^ 12 + ib i 11 11 * 2 ^ 20 + ib i 10 1 * 2 ^ 21 + ib i 20 20 * 2 ^ 31

/-! ### Compressed instructions (C, Zcb, Zcmop) -/

/-- Quadrant 0. -/
def expand0 (c : Nat) : Option Nat :=
  let rd := 8 + ib c 4 2
  let rs := 8 + ib c 9 7
  let w := ib c 5 5 * 64 + ib c 12 10 * 8 + ib c 6 6 * 4
  let d := ib c 6 5 * 64 + ib c 12 10 * 8
  match ib c 15 13 with
  | 0 =>
    let i := ib c 10 7 * 64 + ib c 12 11 * 16 + ib c 5 5 * 8 + ib c 6 6 * 4
    if i = 0 then none else some (mkI 0x13 0 rd 2 i)
  | 1 => some (mkI 0x07 3 rd rs d)
  | 2 => some (mkI 0x03 2 rd rs w)
  | 3 => some (mkI 0x03 3 rd rs d)
  | 4 =>
    let u := ib c 5 5 * 2 + ib c 6 6
    (match ib c 12 10 with
    | 0 => some (mkI 0x03 4 rd rs u)
    | 1 => some (mkI 0x03 (if c.testBit 6 then 1 else 5) rd rs (ib c 5 5 * 2))
    | 2 => some (mkS 0x23 0 rs rd u)
    | 3 => if c.testBit 6 then none else some (mkS 0x23 1 rs rd (ib c 5 5 * 2))
    | _ => none)
  | 5 => some (mkS 0x27 3 rs rd d)
  | 6 => some (mkS 0x23 2 rs rd w)
  | _ => some (mkS 0x23 3 rs rd d)

/-- Quadrant 1. -/
def expand1 (c : Nat) : Option Nat :=
  let rd := ib c 11 7
  let rp := 8 + ib c 9 7
  let r2 := 8 + ib c 4 2
  let imm := sgn 6 (ib c 12 12 * 32 + ib c 6 2)
  let sh := ib c 12 12 * 32 + ib c 6 2
  let j := sgn 12 (ib c 12 12 * 2048 + ib c 8 8 * 1024 + ib c 10 9 * 256 + ib c 6 6 * 128 + ib c 7 7 * 64 + ib c 2 2 * 32 +
    ib c 11 11 * 16 + ib c 5 3 * 2)
  let b := sgn 9 (ib c 12 12 * 256 + ib c 6 5 * 64 + ib c 2 2 * 32 + ib c 11 10 * 8 + ib c 4 3 * 2)
  match ib c 15 13 with
  | 0 => some (mkI 0x13 0 rd rd imm)
  | 1 => if rd = 0 then none else some (mkI 0x1B 0 rd rd imm)
  | 2 => some (mkI 0x13 0 rd 0 imm)
  | 3 =>
    if rd = 2 then
      let i := sgn 10 (ib c 12 12 * 512 + ib c 4 3 * 128 + ib c 5 5 * 64 + ib c 2 2 * 32 + ib c 6 6 * 16)
      if i = 0 then none else some (mkI 0x13 0 2 2 i)
    else if imm = 0 then (if rd % 2 = 1 ∧ rd < 16 then some 0x13 else none)
    else some (mkU 0x37 rd imm)
  | 4 =>
    (match ib c 11 10 with
    | 0 => some (mkI 0x13 5 rp rp sh)
    | 1 => some (mkI 0x13 5 rp rp (0x400 + sh))
    | 2 => some (mkI 0x13 7 rp rp imm)
    | _ =>
      match ib c 12 12, ib c 6 5 with
      | 0, 0 => some (mkR 0x33 0 0x20 rp rp r2)
      | 0, 1 => some (mkR 0x33 4 0 rp rp r2)
      | 0, 2 => some (mkR 0x33 6 0 rp rp r2)
      | 0, _ => some (mkR 0x33 7 0 rp rp r2)
      | _, 0 => some (mkR 0x3B 0 0x20 rp rp r2)
      | _, 1 => some (mkR 0x3B 0 0 rp rp r2)
      | _, 2 => some (mkR 0x33 0 1 rp rp r2)
      | _, _ =>
        match ib c 4 2 with
        | 0 => some (mkI 0x13 7 rp rp 255)
        | 1 => some (mkI 0x13 1 rp rp 0x604)
        | 2 => some (mkR 0x3B 4 4 rp rp 0)
        | 3 => some (mkI 0x13 1 rp rp 0x605)
        | 4 => some (mkR 0x3B 0 4 rp rp 0)
        | 5 => some (mkI 0x13 4 rp rp (-1))
        | _ => none)
  | 5 => some (mkJ 0 j)
  | 6 => some (mkB 0 rp 0 b)
  | _ => some (mkB 1 rp 0 b)

/-- Quadrant 2. C.MV to x0 is a HINT that does nothing (R91), and no NTL. -/
def expand2 (c : Nat) : Option Nat :=
  let rd := ib c 11 7
  let rs2 := ib c 6 2
  let d := ib c 4 2 * 64 + ib c 12 12 * 32 + ib c 6 5 * 8
  let w := ib c 3 2 * 64 + ib c 12 12 * 32 + ib c 6 4 * 4
  let sd := ib c 9 7 * 64 + ib c 12 10 * 8
  let sw := ib c 8 7 * 64 + ib c 12 9 * 4
  match ib c 15 13 with
  | 0 => some (mkI 0x13 1 rd rd (ib c 12 12 * 32 + ib c 6 2 : Nat))
  | 1 => some (mkI 0x07 3 rd 2 d)
  | 2 => if rd = 0 then none else some (mkI 0x03 2 rd 2 w)
  | 3 => if rd = 0 then none else some (mkI 0x03 3 rd 2 d)
  | 4 =>
    if c.testBit 12 then
      (if rs2 ≠ 0 then some (mkR 0x33 0 0 rd rd rs2) else if rd = 0 then some 0x00100073 else some (mkI 0x67 0 1 rd 0))
    else if rs2 ≠ 0 then some (if rd = 0 then 0x13 else mkR 0x33 0 0 rd 0 rs2) else if rd = 0 then none else some (mkI 0x67 0 0 rd 0)
  | 5 => some (mkS 0x27 3 2 rs2 sd)
  | 6 => some (mkS 0x23 2 2 rs2 sw)
  | _ => some (mkS 0x23 3 2 rs2 sd)

/-- An instruction as fetched: the 32-bit word it stands for and its length in bytes; none for an encoding of no instruction. -/
def instruction (raw : Nat) : Option (Nat × Nat) :=
  match raw % 4 with
  | 0 => (expand0 (raw % 65536)).map (·, 2)
  | 1 => (expand1 (raw % 65536)).map (·, 2)
  | 2 => (expand2 (raw % 65536)).map (·, 2)
  | _ => if raw / 4 % 8 = 7 then none else some (raw % 2 ^ 32, 4)

/-- The bits that xtval holds for an instruction (R90). -/
def rawBits (raw : Nat) : Nat := if raw % 4 = 3 then raw % 2 ^ 32 else raw % 65536

end Sys2Proof.Machine
end

