-- ==== Sys2Proof/Machine/Alu.lean ====
section
/-! DEFINITION. What the integer instructions compute (R78, R79, R87, R91): the base instructions, M, Zba, Zbb, Zbs, Zbc, Zicond and
Zkn. None: the encoding is of no instruction. -/

namespace Sys2Proof.Machine

open Sys2Proof

/-- An integer as a word. -/
def word (v : Int) : Word := BitVec.ofInt 64 v

/-- A 32-bit result, sign-extended. -/
def wordW (v : BitVec 32) : Word := v.signExtend 64

/-- The low half of a word. -/
def low32 (a : Word) : BitVec 32 := a.setWidth 32

/-- Carry-less product. -/
def clmulFull (a b : BitVec 64) : BitVec 128 :=
  (List.range 64).foldl (fun acc i => if b.getLsbD i then acc ^^^ (a.setWidth 128 <<< i) else acc) 0

/-- Bytes of a word, least significant first, and back. -/
def wordBytes (a : Word) : List Byte := (List.range 8).map (fun i => (a >>> (8 * i)).setWidth 8)
def bytesWord (l : List Byte) : Word := l.foldr (fun b acc => (acc <<< 8) ||| b.setWidth 64) 0

/-- The bits of a byte reversed. -/
def revByte (b : Byte) : Byte := BitVec.ofNat 8 ((List.range 8).foldl (fun a i => if b.getLsbD i then a + 2 ^ (7 - i) else a) 0)

/-- Leading zeros, trailing zeros and ones of `n` bits. -/
def countLz (n v : Nat) : Nat := if v = 0 then n else n - 1 - Nat.log2 v
def countTz (n v : Nat) : Nat := ((List.range n).find? (fun i => v.testBit i)).getD n
def countOnes (n v : Nat) : Nat := ((List.range n).filter (fun i => v.testBit i)).length

/-- Division of signed and unsigned values of `n` bits, with the edge results of R87. -/
def divS (n : Nat) (a b : Int) : Int := if b = 0 then -1 else if a = -(2 ^ (n - 1) : Nat) ∧ b = -1 then a else a.tdiv b
def remS (n : Nat) (a b : Int) : Int := if b = 0 then a else if a = -(2 ^ (n - 1) : Nat) ∧ b = -1 then 0 else a.tmod b
def divU (n a b : Nat) : Nat := if b = 0 then 2 ^ n - 1 else a / b
def remU (a b : Nat) : Nat := if b = 0 then a else a % b

/-- A column of AES's MixColumns, and two of them side by side. -/
def mixCol (co : List Nat) (l : List Byte) : List Byte := (aesMix co (l ++ List.replicate 12 0)).take 4
def mixTwo (co : List Nat) (l : List Byte) : List Byte := mixCol co (l.take 4) ++ mixCol co (l.drop 4)

/-- The half round of AES64: the low columns of the shifted state rs2:rs1, and the substitution. -/
def aesHalf (enc : Bool) (a b : Word) : List Byte :=
  let s := wordBytes a ++ wordBytes b
  if enc then ((aesShiftRows s).take 8).map aesSub else ((aesInvShiftRows s).take 8).map aesInvSub

/-- AES64KS1I. -/
def aesKs1 (a : Word) (r : Nat) : Word :=
  let t : BitVec 32 := (a >>> 32).setWidth 32
  let u := if r = 10 then t else t.rotateRight 8
  let v := bytesWord (((wordBytes (u.setWidth 64)).take 4).map aesSub)
  let rc := [1, 2, 4, 8, 0x10, 0x20, 0x40, 0x80, 0x1B, 0x36, 0].getD r 0
  let x := v ^^^ BitVec.ofNat 64 rc
  (x <<< 32) ||| x

/-- XPERM: elements of `n` bits of `a` looked up by those of `b`. -/
def xperm (n : Nat) (a b : Word) : Word :=
  (List.range (64 / n)).foldl (fun acc i =>
    let k := ib b.toNat (n * i + n - 1) (n * i)
    if k < 64 / n then acc ||| BitVec.ofNat 64 (ib a.toNat (n * k + n - 1) (n * k) * 2 ^ (n * i)) else acc) 0

/-- Register forms of 64 bits (OP). -/
def rvAluOp (f7 f3 : Nat) (a b : Word) : Option Word :=
  let sh := b.toNat % 64
  match f7, f3 with
  | 0, 0 => some (a + b)
  | 0, 1 => some (a <<< sh)
  | 0, 2 => some (if a.slt b then 1 else 0)
  | 0, 3 => some (if a.ult b then 1 else 0)
  | 0, 4 => some (a ^^^ b)
  | 0, 5 => some (a >>> sh)
  | 0, 6 => some (a ||| b)
  | 0, 7 => some (a &&& b)
  | 0x20, 0 => some (a - b)
  | 0x20, 5 => some (a.sshiftRight sh)
  | 0x20, 4 => some (~~~(a ^^^ b))
  | 0x20, 6 => some (a ||| ~~~b)
  | 0x20, 7 => some (a &&& ~~~b)
  | 1, 0 => some (a * b)
  | 1, 1 => some (word (a.toInt * b.toInt / (2 ^ 64 : Nat)))
  | 1, 2 => some (word (a.toInt * (b.toNat : Int) / (2 ^ 64 : Nat)))
  | 1, 3 => some (BitVec.ofNat 64 (a.toNat * b.toNat / 2 ^ 64))
  | 1, 4 => some (word (divS 64 a.toInt b.toInt))
  | 1, 5 => some (BitVec.ofNat 64 (divU 64 a.toNat b.toNat))
  | 1, 6 => some (word (remS 64 a.toInt b.toInt))
  | 1, 7 => some (BitVec.ofNat 64 (remU a.toNat b.toNat))
  | 4, 4 => some (b <<< 32 ||| (low32 a).setWidth 64)
  | 4, 7 => some (BitVec.ofNat 64 (b.toNat % 256 * 256 + a.toNat % 256))
  | 5, 1 => some ((clmulFull a b).setWidth 64)
  | 5, 2 => some ((clmulFull a b >>> 63).setWidth 64)
  | 5, 3 => some ((clmulFull a b >>> 64).setWidth 64)
  | 5, 4 => some (if a.slt b then a else b)
  | 5, 5 => some (if a.ult b then a else b)
  | 5, 6 => some (if a.slt b then b else a)
  | 5, 7 => some (if a.ult b then b else a)
  | 7, 5 => some (if b = 0 then 0 else a)
  | 7, 7 => some (if b = 0 then a else 0)
  | 0x10, 2 => some ((a <<< 1) + b)
  | 0x10, 4 => some ((a <<< 2) + b)
  | 0x10, 6 => some ((a <<< 3) + b)
  | 0x14, 1 => some (a ||| (1 : Word) <<< sh)
  | 0x14, 2 => some (xperm 4 a b)
  | 0x14, 4 => some (xperm 8 a b)
  | 0x24, 1 => some (a &&& ~~~((1 : Word) <<< sh))
  | 0x24, 5 => some ((a >>> sh) &&& 1)
  | 0x34, 1 => some (a ^^^ (1 : Word) <<< sh)
  | 0x30, 1 => some (a.rotateLeft sh)
  | 0x30, 5 => some (a.rotateRight sh)
  | 0x19, 0 => some (bytesWord (aesHalf true a b))
  | 0x1B, 0 => some (bytesWord (mixTwo [2, 3, 1, 1] (aesHalf true a b)))
  | 0x1D, 0 => some (bytesWord (aesHalf false a b))
  | 0x1F, 0 => some (bytesWord (mixTwo [14, 11, 13, 9] (aesHalf false a b)))
  | 0x3F, 0 =>
    let w0 := (a >>> 32) ^^^ (low32 b).setWidth 64
    some (((w0 ^^^ (b >>> 32)) <<< 32) ||| w0)
  | _, _ => none

/-- Register forms of 32 bits (OP-32). -/
def rvAluOpW (f7 f3 rs2 : Nat) (a b : Word) : Option Word :=
  let x := low32 a
  let y := low32 b
  let sh := b.toNat % 32
  let ux : Word := x.setWidth 64
  match f7, f3 with
  | 0, 0 => some (wordW (x + y))
  | 0, 1 => some (wordW (x <<< sh))
  | 0, 5 => some (wordW (x >>> sh))
  | 0x20, 0 => some (wordW (x - y))
  | 0x20, 5 => some (wordW (x.sshiftRight sh))
  | 1, 0 => some (wordW (x * y))
  | 1, 4 => some (wordW (BitVec.ofInt 32 (divS 32 x.toInt y.toInt)))
  | 1, 5 => some (wordW (BitVec.ofNat 32 (divU 32 x.toNat y.toNat)))
  | 1, 6 => some (wordW (BitVec.ofInt 32 (remS 32 x.toInt y.toInt)))
  | 1, 7 => some (wordW (BitVec.ofNat 32 (remU x.toNat y.toNat)))
  | 4, 0 => some (ux + b)
  | 4, 4 => some (if rs2 = 0 then BitVec.ofNat 64 (a.toNat % 65536) else wordW (BitVec.ofNat 32 (y.toNat % 65536 * 65536 + x.toNat % 65536)))
  | 0x10, 2 => some ((ux <<< 1) + b)
  | 0x10, 4 => some ((ux <<< 2) + b)
  | 0x10, 6 => some ((ux <<< 3) + b)
  | 0x30, 1 => some (wordW (x.rotateLeft sh))
  | 0x30, 5 => some (wordW (x.rotateRight sh))
  | _, _ => none

/-- The immediate forms under funct3 001: shifts and one-operand instructions. -/
def aluImm1 (f12 : Nat) (a : Word) : Option Word :=
  let sh := f12 % 64
  match f12 / 64 with
  | 0 => some (a <<< sh)
  | 0x0A => some (a ||| (1 : Word) <<< sh)
  | 0x12 => some (a &&& ~~~((1 : Word) <<< sh))
  | 0x1A => some (a ^^^ (1 : Word) <<< sh)
  | _ =>
    let x := low32 a
    match f12 with
    | 0x600 => some (BitVec.ofNat 64 (countLz 64 a.toNat))
    | 0x601 => some (BitVec.ofNat 64 (countTz 64 a.toNat))
    | 0x602 => some (BitVec.ofNat 64 (countOnes 64 a.toNat))
    | 0x604 => some ((a.setWidth 8 : BitVec 8).signExtend 64)
    | 0x605 => some ((a.setWidth 16 : BitVec 16).signExtend 64)
    | 0x100 => some (wordW (shaBig sha256Rot.a x))
    | 0x101 => some (wordW (shaBig sha256Rot.b x))
    | 0x102 => some (wordW (shaSmall sha256Rot.c x))
    | 0x103 => some (wordW (shaSmall sha256Rot.d x))
    | 0x104 => some (shaBig sha512Rot.a a)
    | 0x105 => some (shaBig sha512Rot.b a)
    | 0x106 => some (shaSmall sha512Rot.c a)
    | 0x107 => some (shaSmall sha512Rot.d a)
    | 0x300 => some (bytesWord (mixTwo [14, 11, 13, 9] (wordBytes a)))
    | _ => if 0x310 ≤ f12 ∧ f12 ≤ 0x31A then some (aesKs1 a (f12 - 0x310)) else none

/-- The immediate forms under funct3 101. -/
def aluImm5 (f12 : Nat) (a : Word) : Option Word :=
  let sh := f12 % 64
  match f12 / 64 with
  | 0 => some (a >>> sh)
  | 0x10 => some (a.sshiftRight sh)
  | 0x12 => some ((a >>> sh) &&& 1)
  | 0x18 => some (a.rotateRight sh)
  | _ =>
    match f12 with
    | 0x287 => some (bytesWord ((wordBytes a).map (fun b => if b = 0 then 0 else 0xFF)))
    | 0x6B8 => some (bytesWord (wordBytes a).reverse)
    | 0x687 => some (bytesWord ((wordBytes a).map revByte))
    | _ => none

/-- OP-IMM. -/
def aluImm (w : Nat) (a : Word) : Option Word :=
  let i := word (immI w)
  match iF3 w with
  | 0 => some (a + i)
  | 1 => aluImm1 (iF12 w) a
  | 2 => some (if a.slt i then 1 else 0)
  | 3 => some (if a.ult i then 1 else 0)
  | 4 => some (a ^^^ i)
  | 5 => aluImm5 (iF12 w) a
  | 6 => some (a ||| i)
  | _ => some (a &&& i)

/-- OP-IMM-32. -/
def aluImmW (w : Nat) (a : Word) : Option Word :=
  let x := low32 a
  let sh := iRs2 w
  match iF3 w, iF7 w with
  | 0, _ => some (wordW (x + BitVec.ofInt 32 (immI w)))
  | 1, 0 => some (wordW (x <<< sh))
  | 5, 0 => some (wordW (x >>> sh))
  | 5, 0x20 => some (wordW (x.sshiftRight sh))
  | 5, 0x30 => some (wordW (x.rotateRight sh))
  | 1, f7 =>
    if f7 / 2 = 2 then some ((x.setWidth 64 : Word) <<< (iF12 w % 64))
    else
      match iF12 w with
      | 0x600 => some (BitVec.ofNat 64 (countLz 32 x.toNat))
      | 0x601 => some (BitVec.ofNat 64 (countTz 32 x.toNat))
      | 0x602 => some (BitVec.ofNat 64 (countOnes 32 x.toNat))
      | _ => none
  | _, _ => none

/-- Whether a branch is taken; none for a reserved funct3. -/
def branchTaken (f3 : Nat) (a b : Word) : Option Bool :=
  match f3 with
  | 0 => some (a == b)
  | 1 => some (a != b)
  | 4 => some (a.slt b)
  | 5 => some (!a.slt b)
  | 6 => some (a.ult b)
  | 7 => some (!a.ult b)
  | _ => none

end Sys2Proof.Machine
end

