-- ==== Sys2Proof/Config.lean ====
section
/-! DEFINITION. What the spec leaves open: every constant here has no body, so nothing that is proved can rest on its
value. A meaning applies one to the counter `State.free`, which it then advances, or to the operands the value depends
on. -/

namespace Sys2Proof

/-- A 64-bit value that the spec does not state, fresh at each draw (log entry 4). -/
opaque Config.freeWord : Nat → Word

/-- The DRAM row (slot, rank, bank group, bank and row as one number) that line `l` of channel `k` lies in: the spec names
rows (R241) and gives no layout of them (log entry 5). -/
opaque Config.rowOf (k l : Nat) : Nat

/-- The DIMM slot and rank, as slot × 4 + rank, that line `l` of channel `k` lies in (R521; log entry 5). -/
opaque Config.rankOf (k l : Nat) : Nat

/-- The rate, in lines per leaf, of the journal mirror (0) or Colophon mirror (1) traffic that a compute die carries for a
retired bridge (R223 states no figure; log entry 4). -/
opaque Config.mirrorRate (which : Nat) : Nat

/-- The raw DEFLATE stream that the compressor produces for an input under HUFF (R400 fixes that it is one function of them, and not
which; log entry 4). -/
opaque Config.deflate (huff : Nat) (input : List Byte) : List Byte

/-- The keyed permutation under which a key handle is encrypted (R409 names none; log entry 4). -/
opaque Config.handlePerm (key : BitVec 128) : Equiv.Perm Word

/-- Word k of the standard channel program (R390), which the spec does not list (log entry 4). -/
opaque Config.standardWord (k : Nat) : BitVec 32

/-- The 36 payload bytes of an event log record (R526 names its values and not their places; log entry 4). -/
opaque Config.payload (type : Nat) (values : List Nat) : BitVec 288

/-- The devices that syndromes of an UNCORRECTABLE outcome name, bit d for device d (R233; log entry 62). -/
opaque Config.suspects (syndromes : List Symbol) : BitVec 10

/-- How a row of a repair list is written in its 16 bytes of the repair record (R520 gives no layout; log entry 4). -/
opaque Config.repairRow : Equiv.Perm (Word × Word)

/-- The module storage key (R491), which the key service derives from the fused secret, ENDP_MEAS_IMAGE and ENDP_DEBUG in a way
that the spec does not give (log entry 4). -/
opaque Config.storageKey (measure : List Word) (debug : Word) : BitVec 256

/-- The place, as die × 64 + 8x + y, of a unit that R28 gives no stop of a compute die, or of a home in another module, whose table only that
module has (R199; log entry 59). -/
opaque Config.farPlace (key : Nat) : Nat

/-- The TAG of a transaction, by the unit that has opened it and its line: the source's transaction number (R199; log entry 59). -/
opaque Config.packetTag (opener line : Nat) : BitVec 8

/-- The operands of a CONTROL flit's message, bits 127:8 of its slot (R439 gives OP's place alone; log entry 33). -/
opaque Config.controlBits (op : Nat) (args : List Nat) : BitVec 120

/-- The space of a router's buffer in flits, beyond one whole packet (R197 gives no size; log entry 59). -/
opaque Config.routerSpace : Nat

/-- The CRC-32 of a group of eight flits on a die link (R204 names no polynomial; log entry 59). -/
opaque Config.groupCrc (flits : List (BitVec 256)) : BitVec 32

/-- Where in an instance's half of a staging buffer the data of a command's request lie, or the data of a frame (R315): the spec does not say
(log entry 69). `owner`: the command's place in the order of acceptance, or 2^63 and the port and stream of the frame; `off`: the offset of the data. -/
opaque Config.stagingSpot (owner off : Nat) : Nat

/-- The STATUS that a program's own record carries in place of a value that R285 does not list (log entry 70). -/
opaque Config.ownStatus (record : BitVec 256) : Nat

end Sys2Proof
end

