-- ==== Sys2Proof/Machine/Code.lean ====
section
/-! DEFINITION. The line code of the memory controllers (R228 to R232): a Reed-Solomon code over GF(2^16), its poison
encoding and the outcome of decoding a line. -/

namespace Sys2Proof.Machine

open Sys2Proof

/-- Multiply by α: the field polynomial is x^16 + x^12 + x^3 + x + 1 (R229). -/
def gfTimesAlpha (a : Symbol) : Symbol :=
  if a.getLsbD 15 then (a <<< 1) ^^^ 0x100B#16 else a <<< 1

/-- α to the power `n`. -/
def gfAlpha : Nat → Symbol
  | 0 => 1
  | n + 1 => gfTimesAlpha (gfAlpha n)

/-- The product of two field elements, over the lowest `n` bits of the second. -/
def gfMulBits (a b : Symbol) : Nat → Symbol
  | 0 => 0
  | n + 1 =>
    let r := gfTimesAlpha (gfMulBits a b n)
    if b.getLsbD (15 - n) then r ^^^ a else r

/-- The product in GF(2^16). -/
def gfMul (a b : Symbol) : Symbol := gfMulBits a b 16

/-- The square-and-multiply chain a^(2^n - 1). -/
def gfChain (a : Symbol) : Nat → Symbol
  | 0 => 1
  | n + 1 => gfMul (gfMul (gfChain a n) (gfChain a n)) a

/-- The inverse a^(2^16 - 2): the square of a^(2^15 - 1). -/
def gfInv (a : Symbol) : Symbol := gfMul (gfChain a 15) (gfChain a 15)

/-- The coefficients of g(x) = (x + α^0) … (x + α^7), the highest power first, without the leading 1 (R229). -/
def genPoly : List Symbol :=
  ((List.range 8).foldl
    (fun (p : List Symbol) i =>
      List.zipWith (· ^^^ ·) (p ++ [0]) (0 :: p.map (fun c => gfMul c (gfAlpha i)))) [1]).drop 1

/-- One step of the division by g(x): the remainder (x^7 first) after one more data symbol. -/
def remStep (rem : List Symbol) (c : Symbol) : List Symbol :=
  let fb := rem.headD 0 ^^^ c
  List.zipWith (· ^^^ ·) (rem.drop 1 ++ [0]) (genPoly.map (fun g => gfMul fb g))

/-- The eight check symbols of 32 data symbols (R229). -/
def encodeChecks (data : List Symbol) : List Symbol := data.foldl remStep (List.replicate 8 0)

/-- The 32 data symbols of a line: symbol k holds bytes 2k and 2k + 1 (R228). -/
def lineSymbols (d : Line) : List Symbol := (List.range 32).map (fun k => (d >>> (16 * k)).setWidth 16)

/-- A line from its data symbols. -/
def lineOfSymbols (l : List Symbol) : Line :=
  l.foldr (fun s acc => (acc <<< 16) ||| s.setWidth 512) 0

/-- Syndrome S_i of a word that differs from a codeword by `e`, a list of (symbol, difference) (R229: a codeword's own
syndromes are zero, and symbol s stands at x^(39 - s)). -/
def syndrome (e : List (Nat × Symbol)) (i : Nat) : Symbol :=
  e.foldl (fun acc p => acc ^^^ gfMul p.2 (gfAlpha (i * (39 - p.1)))) 0

/-- All eight syndromes. -/
def syndromes (e : List (Nat × Symbol)) : List Symbol := (List.range 8).map (syndrome e)

/-- The check symbols Q_0 to Q_7 of the poison encoding (R230). -/
def poisonChecks : List Symbol := [0x2D1B, 0x7E4A, 0x51C3, 0x0F96, 0xA83D, 0xC672, 0x39E8, 0x945F]

/-- The poison encoding as a difference from the codeword of all-zero data. -/
def poisonDiff : List (Nat × Symbol) := (poisonChecks.zipIdx 32).map (fun p => (p.2, p.1))

/-- The syndromes S_P of the poison encoding (R230). -/
def poisonSyndromes : List Symbol := syndromes poisonDiff

/-- The coefficients of the polynomial whose roots are the positions of the given symbols, highest power first with the
leading 1. -/
def locator (ss : List Nat) : List Symbol :=
  ss.foldl (fun p s =>
    List.zipWith (· ^^^ ·) (p ++ [0]) (0 :: p.map (fun c => gfMul c (gfAlpha (39 - s))))) [1]

/-- The sum of products of two lists. -/
def gfDot (a b : List Symbol) : Symbol := (List.zipWith gfMul a b).foldl (· ^^^ ·) 0

/-- Whether syndromes are those of an error confined to the four symbols of device `d` (R231): they satisfy the recurrence
of the device's locator. -/
def deviceSyndrome (S : List Symbol) (d : Nat) : Bool :=
  let loc := (locator [4 * d, 4 * d + 1, 4 * d + 2, 4 * d + 3]).reverse
  (List.range 4).all (fun i => decide (gfDot loc (S.drop i) = 0))

/-- The device that syndromes other than zero belong to as a one-device error, if any. -/
def oneDevice (S : List Symbol) : Option Nat :=
  if S.all (fun x => decide (x = 0)) then none else (List.range 10).find? (deviceSyndrome S)

/-- The error values of a one-device error: symbol and difference. -/
def deviceError (S : List Symbol) (d : Nat) : List (Nat × Symbol) :=
  (List.range 4).map (fun j =>
    let s := 4 * d + j
    let rest := ((List.range 4).filter (· ≠ j)).map (fun m => 4 * d + m)
    let p := (locator rest).reverse
    let x := gfAlpha (39 - s)
    let den := gfDot p [1, x, gfMul x x, gfMul x (gfMul x x)]
    (s, gfMul (gfDot p S) (gfInv den)))

/-- The outcomes of R231: CORRECTED names the device and the error; POISON tells whether a device error was found. -/
inductive LineOutcome where
  | clean
  | corrected (device : Nat) (fix : List (Nat × Symbol))
  | poison (deviceError : Bool)
  | uncorrectable
deriving DecidableEq, Repr

/-- The outcome of decoding a word that differs from a codeword by `e` (R231, rows in their order). -/
def decodeDiff (e : List (Nat × Symbol)) : LineOutcome :=
  let S := syndromes e
  if S.all (fun x => decide (x = 0)) then .clean
  else
    let T := List.zipWith (· ^^^ ·) S poisonSyndromes
    match oneDevice S, oneDevice T with
    | some _, some _ => .uncorrectable
    | some d, none => .corrected d (deviceError S d)
    | none, some _ => .poison true
    | none, none => if T.all (fun x => decide (x = 0)) then .poison false else .uncorrectable

/-- The devices that an UNCORRECTABLE outcome names (R233): the two that could each have caused it, on a line of data and on a poisoned one,
and otherwise an open set, as no rule says which devices such syndromes point at (DESIGN CHOICE, log entry 62). -/
def suspects (e : List (Nat × Symbol)) : BitVec 10 :=
  let S := syndromes e
  match oneDevice S, oneDevice (List.zipWith (· ^^^ ·) S poisonSyndromes) with
  | some a, some b => BitVec.ofNat 10 (2 ^ a ||| 2 ^ b)
  | _, _ => Config.suspects S

/-- The outcome's number in SCR_TEST_CTL.RESULT. -/
def LineOutcome.code : LineOutcome → Nat
  | .clean => 0
  | .corrected _ _ => 1
  | .poison _ => 2
  | .uncorrectable => 3

/-- Differences applied to the data symbols of a line. -/
def applyDiff (d : Line) (e : List (Nat × Symbol)) : Line :=
  e.foldl (fun acc p => if p.1 < 32 then acc ^^^ BitVec.shiftLeft (p.2.setWidth 512) (16 * p.1) else acc) d

end Sys2Proof.Machine
end

