-- ==== Sys2Proof/Machine/Table.lean ====
section
/-! DEFINITION. Sparse tables: a list of (number, value) pairs in one canonical form, numbers strictly rising and no
entry equal to what an unlisted number reads as. Every array of the machine is held in one. -/

namespace Sys2Proof.Machine

/-- A sparse array: the entries that differ from what an unlisted number reads as. -/
abbrev Table (α : Type) := List (Nat × α)

/-- The value at number `k`; `d` is what an unlisted number reads as. -/
def Table.get {α : Type} (d : α) : Table α → Nat → α
  | [], _ => d
  | (j, v) :: t, k => if j = k then v else Table.get d t k

/-- The table without number `k`. -/
def Table.erase {α : Type} : Table α → Nat → Table α
  | [], _ => []
  | (j, v) :: t, k => if j = k then Table.erase t k else (j, v) :: Table.erase t k

/-- The table with one entry put in before the first greater number. -/
def Table.insert {α : Type} : Table α → Nat → α → Table α
  | [], k, v => [(k, v)]
  | (j, w) :: t, k, v => if k < j then (k, v) :: (j, w) :: t else (j, w) :: Table.insert t k v

/-- The table with number `k` reading `v`. Writing what an unlisted number reads as removes the entry. -/
def Table.set {α : Type} [DecidableEq α] (d : α) (t : Table α) (k : Nat) (v : α) : Table α :=
  if v = d then Table.erase t k else Table.insert (Table.erase t k) k v

/-- Change one entry. -/
def Table.modify {α : Type} [DecidableEq α] (d : α) (t : Table α) (k : Nat) (f : α → α) : Table α :=
  Table.set d t k (f (Table.get d t k))

/-- The numbers rise strictly, all of them above `lo` (no bound: none). -/
def Table.rising {α : Type} : Option Nat → Table α → Bool
  | _, [] => true
  | none, (k, _) :: t => Table.rising (some k) t
  | some lo, (k, _) :: t => decide (lo < k) && Table.rising (some k) t

/-- The canonical form: numbers strictly rising, and no entry equal to what its number reads as unlisted. -/
def Table.wf {α : Type} [DecidableEq α] (d : Nat → α) (t : Table α) : Bool :=
  Table.rising none t && t.all (fun e => decide (e.2 ≠ d e.1))

end Sys2Proof.Machine
end

