-- ==== Sys2Proof/Machine/State.lean ====
section
/-! DEFINITION. The state of the module: every register, store, queue, counter, mode and pin that the spec gives it, as
plain data. A field's default value is its value at reset. The registers of set-up space stand in ONE sparse file, `regs`;
every other structure holds state that no register shows. -/

namespace Sys2Proof.Machine

open Sys2Proof

/-- The reasons for which the machine stops with a fault. The spec describes no condition in which the module as a whole
has no next state: a fault of a unit is an alarm, a status or a trap of one hart, and a stopped module (R510, R543) still
answers a cold reset. -/
inductive Fault where
  /-- Raised by no command; the type must have a value. Safe: no run ends in it. -/
  | neverRaised
deriving DecidableEq, Repr

/-- The reasons for which a command has no meaning in the model. -/
inductive Refusal where
  /-- Raised by the dispatch for a command that the model gives no meaning. Safe: nothing is claimed of it. -/
  | notModelled (mnemonic : String)
deriving DecidableEq, Repr

/-- A packed location code of a unit (R22, R77): module, die, quire, tile, unit. -/
structure Loc where
  module : Nat := 0
  die    : Nat := 0
  quire  : Nat := 9
  tile   : Nat := 0
  unit   : Nat := 0
  array  : Nat := 0
  cell   : Nat := 0
deriving DecidableEq, Repr

/-- A record waiting to be written to the event log (R524): its type (R526), the time count and the holdover flag of its
event, its location with the number of fields given (R525), and its payload as numbers in the order of R526. -/
structure LogRecord where
  type    : Nat
  time    : Word
  hold    : Bool
  late    : Bool
  source  : Bool
  loc     : Loc
  fields  : Nat
  payload : List Nat
deriving DecidableEq, Repr

/-- What fires at a leaf, beside the cut-off and target leaves that the mode-change slots hold themselves (R67). -/
inductive LeafKind where
  | retrain (p : Nat)
  | laneSwap (j : Nat)
  | broipRetrain (j : Nat)
  | lifetimeCommit
  | warmReset
  | coldReset
deriving DecidableEq, Repr

/-- A posted leaf-scheduled event: its leaf, and what fires (R67). -/
structure LeafEvent where
  leaf  : Nat
  kind  : LeafKind
deriving DecidableEq, Repr

/-- What a flit of a module link carries (R439): a packet of this module, as in `Emission.packet`; a packet forwarded for another
module, slot by slot; or a control message, OP and operands. -/
inductive LinkMsg where
  | packet (cls op dmod unit src addr : Nat) (world psn : Bool) (data : Option Line) (len : Nat := 64) (inst : Option Nat := none)
  | raw (slots : List (BitVec 128))
  | control (op : Nat) (args : List Nat)
deriving DecidableEq, Repr

/-- What a host's read of a BAR is answered: a value, Unsupported Request, or Completer Abort (R459). -/
inductive BarAnswer where
  | value (v : Word)
  | unsupported
  | abort
deriving DecidableEq, Repr

/-- What leaves the module, or what a requester is answered (the model's own record, oldest first). -/
inductive Emission where
  /-- A read of set-up space or of a window was answered with a value. -/
  | regRead (offset : Nat) (v : Word)
  /-- A mesh or module-link packet (R199, R200): class, OP, destination module, the unit there that it is for, the unit that sends it, address,
  world, poison, data, the number of bytes that they or a read are of, and the instance of channel-subsystem traffic. A unit is a tile, 216 + d for
  the data mover of I/O die d, 220 + d for its service engine, 222 for another, 255 for the home or block of the address, or 256 + h for home
  slice h. -/
  | packet (cls op dmod unit src addr : Nat) (world psn : Bool) (data : Option Line) (len : Nat := 64) (inst : Option Nat := none)
  /-- A flit on module link `link` (R439): SEQ, ACK, TYPE, what it carries, and its 256 bytes. -/
  | flit (link seq ack type : Nat) (msg : Option LinkMsg) (bytes : List Byte)
  /-- The populated part of a DRAM window has been copied to module `dmod`, from offset `base` of its window (R452). -/
  | window (dmod base : Nat)
  /-- A message on forecast link k (R502). -/
  | forecast (link : Nat) (msg : BitVec 128)
  /-- A request on a root port's link (R274, R420): port, whether it is a write, link address, length, Relaxed Ordering, the
  data of a write, and whether they are poisoned. -/
  | tlp (port : Nat) (write : Bool) (addr len : Nat) (relaxed : Bool) (data : List Byte) (psn : Bool)
  /-- An Unsupported Request answer to an adapter's request on a root port (R424). -/
  | unsupported (port : Nat)
  /-- A request on the attach endpoint's link (R460): the function, whether it is a write, host address, length, Relaxed Ordering, data. -/
  | host (func : Nat) (write : Bool) (addr len : Nat) (relaxed : Bool) (data : List Byte)
  /-- The answer to a host's configuration request to a function of an endpoint group (R455, R463). -/
  | config (group func : Nat) (item : CfgItem) (answer : CfgAnswer)
  /-- A message of endpoint group `group`: 0 PM_PME, 1 Assert_INTA, 2 Deassert_INTA (R467, R469). -/
  | epMessage (group kind : Nat)
  /-- A configuration request on a root port's link (R421): port, whether it is a write, Type 0 or 1 with the bus, device and function
  (ECAM offset bits 27 to 12), register, length, and the data of a write. -/
  | cfg (port : Nat) (write : Bool) (id reg len : Nat) (v : Word)
  /-- A response frame of service port `port` is ready (R555); the I3C target announces it by an in-band interrupt with the byte 0xD1 (R553). -/
  | drufy (port : Nat) (frame : List Byte)
  /-- What the I3C target of a service port answers a private read: a frame, or none for NACK (R553). -/
  | i3c (port : Nat) (frame : Option (List Byte))
  /-- What a scan of a data register of a service port's test access port shifts out: the number of bits, and the bits (R554). -/
  | jtag (port n bits : Nat)
  /-- The answer to a host's read of a BAR. -/
  | bar (func off : Nat) (a : BarAnswer)
deriving DecidableEq, Repr

/-- A checked ETOD message that waits for its EMARK (R53, R54), with the count at its last stop bit. -/
structure EtodMsg where
  markLeaf : Nat
  utc      : Nat
  flags    : Nat
  at_      : Nat
deriving DecidableEq, Repr

/-- What the time base knows beside its registers (R54 to R64). -/
structure TimeBase where
  /-- The pending ETOD message (R54). -/
  pendingMsg : Option EtodMsg := none
  /-- Whether an EMARK has agreed with ETICK_A since it last became unqualified (R56). -/
  agreedA    : Bool := false
  /-- The same of ETICK_B. -/
  agreedB    : Bool := false
  /-- The leaf of the last agreeing EMARK (R581). -/
  lastAgree  : Option Nat := none
  /-- The count at which the present unbroken lock began (R58). -/
  lockSince  : Option Nat := none
  /-- The count at which the present holdover began (R58). -/
  holdSince  : Nat := 0
  /-- Whether the lock before the present holdover had lasted 600 s (R58). -/
  longLock   : Bool := false
  /-- Whether the present holdover was entered from SUBSTITUTE and claims no bound (R58, R64). -/
  noBound    : Bool := false
  /-- Whether HOLD_LIMIT was already exceeded in the present holdover (R58: first exceeds). -/
  overLimit  : Bool := false
  /-- The phase error that the present slew removes, in units (R60). -/
  slewError  : Nat := 0
  /-- The count at which the present slew began. -/
  slewSince  : Nat := 0
  /-- Whether the present slew follows a return from HOLDOVER (R60). -/
  slewFlag   : Bool := false
  /-- Whether an error that may not be stepped keeps the time base in HOLDOVER until cold reset (R61). -/
  stuck      : Bool := false
  /-- The leaf from which the 1,000 leaves of R56 are counted for ETICK_A: the end of SUBSTITUTE (R64) or of its last missing edges. A load of the
  count moves it with the count (R61), below zero too. -/
  freshA     : Int := 0
  /-- The same of ETICK_B. -/
  freshB     : Int := 0
  /-- The leaves before and after the count's forward step (R61): events of the leaves between fire with the holdover flag (R62). -/
  skipped    : Option (Nat × Nat) := none
  /-- Whether the event that fires now was scheduled for a skipped leaf (R62). -/
  forced     : Bool := false
deriving DecidableEq, Repr

/-- A change of configuration that the service engines make through slot 6 or 7 (R76), and what takes effect at T. -/
inductive HwChange where
  /-- No hardware change: the slot takes its shadows. -/
  | none
  /-- Takeovers of logical cores by the spares of their quires (R141, R144). -/
  | takeover (cores : List Nat)
  /-- Tile `t` (0 to 215) is back in service as its quire's spare (R563). -/
  | spareReturn (t : Nat)
  /-- Slice `n` leaves the home table (R169). -/
  | slice (n : Nat)
  /-- New routes of compute or I/O dies (R208). -/
  | mesh (dies : List Nat)
  /-- New STATEs of channels (R217, R219): channel and STATE. -/
  | channels (sets : List (Nat × Nat))
  /-- New GRANTs of the bandwidth registry, for a derated bandwidth and a resilver copy entry (R227). -/
  | grants (d k : Nat)
  /-- Logical engine `l` takes physical engine `k`; `fault`: after a fault, and otherwise for a service MOVE (R393). -/
  | engine (l k : Nat) (fault : Bool)
  /-- The address maps of an evacuation change (R452): the evacuated module and its host, and whether home returns. -/
  | evacuate (e host : Nat) (back : Bool)
  /-- A partner's change, posted by module `origin` from its slot `slot` (R450); `evac`: the change of decoders that it carries. -/
  | posted (origin slot scope c t modules : Nat) (evac : Option (Nat × Nat × Bool))
  /-- Ports enter or leave a loop-back test (R562): port, CFG and loop-back depth. -/
  | loop (sets : List (Nat × Word × Nat))
deriving DecidableEq, Repr

/-- A hardware change that waits for a slot and its scope: the first leaf in which it may be armed. -/
structure Waiting where
  notBefore : Nat
  change    : HwChange
deriving DecidableEq, Repr

/-- A participant of a mode change: its location packed as NR_LOC packs it (R77), and whether it has reported ready. -/
structure Participant where
  loc   : Nat
  ready : Bool := false
deriving DecidableEq, Repr

/-- What a mode-change slot holds beside its registers: its participants (R70) and, for a hardware change, what it
changes (R76). -/
structure Slot where
  participants : List Participant := []
  change       : HwChange := .none
  /-- The shadow registers whose values the change takes (R70). -/
  shadows      : List Nat := []
  /-- The cut-off and target leaves and the SCOPE with which it was armed (R71). -/
  cut          : Nat := 0
  target       : Nat := 0
  scope        : Nat := 0
  /-- Of a system slot: MODULES, and the originating module and slot where the service engines posted it (R448, R450). -/
  modules      : Nat := 0
  origin       : Option (Nat × Nat) := none
  /-- Whether the module has given its verdict at C (R448). -/
  judged       : Bool := false
  /-- The verdicts that the coordinator has received: module, NR_COUNT, NR_LOC. -/
  verdicts     : List (Nat × Nat × Nat) := []
deriving DecidableEq, Repr

/-! ### Harts and cores -/

/-- What a hart is doing (R95, R114, R505). -/
inductive RunState where
  /-- Not released since reset, or stopped by a warm reset. -/
  | held
  | running
  /-- Waiting in AGW.WAIT or AGW.WAITR until a deadline; the code goes to `rd`. -/
  | agw (deadline rd : Nat)
  /-- The reservation of such a wait is lost: the code that its end writes to `rd`, unless a higher event comes with it (R95). -/
  | agwLost (code deadline rd : Nat)
  | wfi
  /-- Its issue slots are given away by PAUSE. -/
  | paused
  | debug
  /-- Stopped for good: the logical core is LOST (R151). -/
  | stopped
deriving DecidableEq, Repr

/-- An interrupt file (R538). -/
structure IntFile where
  delivery  : Word := 0
  threshold : Word := 0
  pend      : BitVec 256 := 0
  enable    : BitVec 256 := 0
deriving DecidableEq, Repr

/-- A retired store that memory has not yet seen (R136, R137): physical address, byte mask, attributes (bit 0: the world),
data. -/
structure RetiredStore where
  addr  : Nat
  mask  : BitVec 32
  attrs : BitVec 32
  data  : BitVec 256
deriving DecidableEq, Repr

/-- Where the answer of an access goes once it has come (R133): nowhere (a store), an integer register (from `n` bytes, sign-extended or
not), a floating-point register, or a field of an element of a vector register group; `more`: fields of the element follow. -/
inductive IoDest where
  | store
  | int (rd n : Nat) (signed : Bool)
  | fp (rd n : Nat)
  | vec (bits reg elem field : Nat) (more : Bool)
deriving DecidableEq, Repr

/-- An access of a hart to an I/O region of another module (R133, R200): its address, size, kind, what has come of it (0 with data, 2 an
access fault, 3 a guard's refusal), where its answer goes, and the bytes of its instruction; none: a part of one that goes on. -/
structure IoAsk where
  addr  : Nat
  size  : Nat
  write : Bool
  ans   : Option (Nat × Word) := none
  dest  : IoDest := .store
  len   : Option Nat := none
deriving DecidableEq, Repr

/-- The architectural state of a hart (R137), and what its pipeline holds for it alone. -/
structure Hart where
  /-- x1 to x31. -/
  x      : Table Word := []
  f      : Table Word := []
  v      : Table (BitVec 256) := []
  /-- The CSRs by address: the text bank, and the Endpaper bank at 0x1000 plus the address (R475). -/
  csr    : Table Word := []
  pc     : Word := 0
  /-- 0 U, 1 S, 3 M. -/
  priv   : Nat := 3
  virt   : Bool := false
  /-- Whether the hart is in the Endpaper world. -/
  world  : Bool := false
  run    : RunState := .held
  /-- The line reserved by LR (R85). -/
  resv   : Option Nat := none
  /-- Whether the reservation stands in a constrained LR/SC sequence (R178). -/
  constrained : Bool := false
  /-- Instructions executed since the LR of such a sequence, the LR among them (R85: at most 16). -/
  lrSpan : Nat := 0
  stores : List RetiredStore := []
  /-- The interrupt files: 0 M-level, 1 S-level, 2 to 8 guest (R538). -/
  files  : Table IntFile := []
  /-- The pending non-temporal hint (R159): 0 none, 1 P1, 2 PALL, 3 S1, 4 ALL. -/
  ntl    : Nat := 0
  /-- The last 64 branch outcomes, the latest in bit 0 (R116). -/
  ghr    : Word := 0
  /-- The return-address stack, newest first, at most 32 (R119). -/
  ras    : List Word := []
  /-- The path history that indexes the indirect-target buffer (R118). -/
  path   : BitVec 16 := 0
  /-- The memory-dependence predictor: the loads, by address, that it holds behind older stores (R125). -/
  mdp    : List Word := []
  /-- Whether nothing older that could fail was left when a barrier completed, and no branch, jump or possible trap has come since (R103). -/
  resolved : Bool := false
  /-- Stores retired since the last barrier (R103, R125). -/
  fresh  : Nat := 0
  /-- The text-world privilege mode to which AGE.RET returns (R106). -/
  retPriv : Nat := 0
  /-- The text-world pc to which it returns. -/
  retPc : Word := 0
  /-- Leaf edges counted by the Endpaper watchdog (R480): the leaf of entry, and leaves not counted. -/
  enterLeaf : Nat := 0
  skipLeaves : Nat := 0
  /-- Instructions retired since the last restart, at most 64 (R134). -/
  sinceRetry : Nat := 0
  /-- Whether the hart was in debug mode when its core was LOST (R137). -/
  keptDebug : Bool := false
  /-- The leaf in which an instruction last retired (R139 HANG). -/
  lastRetire : Nat := 0
  /-- The access to another module's I/O region that is outstanding or answered. -/
  io : Option IoAsk := none
  /-- Whether its oldest instruction waits for something outside the core (R139 HANG). -/
  waitsOut : Bool := false
  /-- The AMO, SC or compare-and-swap, by its 32 bits, whose line has been asked for: the access must never be repeated (R133). -/
  atomic : Option Nat := none
  /-- Misses of the L3 for the hart's requests that its counters have still to count (R127, event 0x14). -/
  l3Miss : Nat := 0
  /-- Fields of the present vector segment already transferred. -/
  fields : Nat := 0
deriving DecidableEq, Repr

/-- Why a logical core is in a takeover, and how far it has come (R141). -/
structure Takeover where
  /-- The tile left and the tile taken, within the quire. -/
  src    : Nat
  dst    : Nat
  reason : Nat
  /-- The leaf D of the declaration. -/
  leaf   : Nat
  /-- Steps 3 to 5 are done: the failed tile is flushed and the retired stores are performed. -/
  ready  : Bool := false
  /-- Whether the failed tile's router is out of service (R149). -/
  routerOut : Bool := false
deriving DecidableEq, Repr

/-- An entry of the branch-target buffer: its partial tag and the target (R118). -/
structure BtbEntry where
  tag    : Nat
  target : Word
deriving DecidableEq, Repr

/-- A translation that a core's TLBs hold (R115): the context that it was made for (world, virtualization, translation mode, ASID, VMID, privilege, the kind
of access, and the SUM and MXR bits in force), the virtual page and the physical one. -/
structure TlbEntry where
  world : Bool
  virt  : Bool
  priv  : Nat
  mode  : Nat
  asid  : Nat
  vmid  : Nat
  acc   : Nat
  bits  : Nat
  page  : Nat
  frame : Nat
deriving DecidableEq, Repr

/-- A logical core's own state beside its registers: predictors (R116 to R119), retry (R134, R135), takeover (R141). -/
structure Core where
  base    : Table Nat := []
  short   : Table Nat := []
  long    : Table Nat := []
  chooser : Table Nat := []
  /-- How often the short and the long history table have been right, by chooser counter (R116). -/
  rightShort : Table Nat := []
  rightLong  : Table Nat := []
  /-- The branch-target buffer by set × 4 + way, and the indirect-target buffer's targets by slot. -/
  btb     : Table (Option BtbEntry) := []
  itb     : Table (Option Word) := []
  /-- The translations that the TLBs hold (R115). -/
  tlb     : List TlbEntry := []
  /-- Successful retries in this gathering (R135). -/
  good    : Nat := 0
  /-- Whether a retry attempt is running, and whether it is serial (R134). -/
  retrying : Bool := false
  serial   : Bool := false
  /-- Whether RETRY_WARN was reached in this gathering (R135). -/
  warned   : Bool := false
  /-- Whether a retry waits for the answer of an access that may not be repeated (R133). -/
  retryDue : Bool := false
  /-- Array entries that gave one uncorrectable error in this gathering (R139, ARRAY_HARD). -/
  hardOnce : List (Nat × Nat × Nat) := []
  /-- Whether its keep's images are lost, so that no takeover can copy them (R145, R149). -/
  keepLost : Bool := false
  /-- Whether an image in the keep has an uncorrectable error (R149). -/
  keepBad  : Bool := false
  takeover : Option Takeover := none
  /-- Writes to CPU_SPEC_CTLc that a takeover holds until its leaf T, oldest first (R141 step 7). -/
  heldSpec : List (Requester × Word) := []
deriving DecidableEq, Repr

/-! ### Current steps -/

/-- What a current step is for (R495, R505, R508, R141, R393, R411). -/
inductive StepWhat where
  /-- Logical core `c` wakes from CS2 or CS3. -/
  | wake (c : Nat)
  /-- Logical core `c` enters CS2. -/
  | park (c : Nat)
  /-- The spare tile of logical core `c`'s quire starts, for its takeover. -/
  | spare (c : Nat)
  /-- The clock of quire `n` rises (LEVEL falls) or falls by 100 MHz. -/
  | level (n : Nat) (up : Bool)
  /-- Physical engine `k`'s island is powered, or gated. -/
  | engine (k : Nat) (up : Bool)
  /-- Transform unit `u` is powered, or gated. -/
  | tu (u : Nat) (up : Bool)
  /-- Lane group `j` is powered, or gated. -/
  | lanes (j : Nat) (up : Bool)
  /-- Channel `k` leaves or enters ABSENT, SAFE or EXCLUDED: its step on VDDQ (0) or VUNC (1). -/
  | channel (k part : Nat) (up : Bool)
deriving DecidableEq, Repr

/-- A reservation (R496): rail, direction, amount in units of 0.25 A, class, the leaf it is accepted for, whether it has slid
under R496, and whether a message has forecast it (R502 SLID). -/
structure Reservation where
  rail   : Nat
  up     : Bool
  amount : Nat
  cls    : Nat
  leaf   : Nat
  what   : StepWhat
  slid   : Bool := false
  told   : Bool := false
deriving DecidableEq, Repr

/-- The firings of one droop domain in this gathering (R512): count, first and last time, deepest undershoot in mV. -/
structure DroopRun where
  firings : Nat := 0
  first   : Nat := 0
  last    : Nat := 0
  deepest : Nat := 0
deriving DecidableEq, Repr

/-- The Headband controller beside its registers (R494 to R512). -/
structure Headband where
  /-- Whether the controller has started (R544 step 4): before it, links send RESET messages. -/
  started : Bool := false
  /-- Whether its copies disagree and it grants nothing (R504). -/
  frozen  : Bool := false
  /-- Reservations posted and not yet granted, in the order of posting. -/
  queue   : List Reservation := []
  /-- Reservations granted for a leaf and not yet taken. -/
  granted : List Reservation := []
  /-- Steps taken that their units still wait for: what, and the time count. -/
  taken   : List (StepWhat × Nat) := []
  /-- The last leaf closed. -/
  closed  : Nat := 0
  /-- The leaf last held, by link. -/
  heldAt  : Table Nat := []
  /-- The set points of VCOREk with the leaves that they were reached at, newest first (R509). -/
  vid     : Table (List (Nat × Nat)) := []
  /-- Unforecast changes counted (R503). -/
  unforecast : Nat := 0
  /-- Amounts that leave a rail's reserved total at the next leaf closed (R503). -/
  drop    : Table Nat := []
  /-- The leaf in which a core entered its sleep state (R505). -/
  csSince : Table Nat := []
  /-- The quires in a thermal emergency (R510). -/
  emergency : List Nat := []
  /-- The droop domains whose cycles are stretched: quires 0 to 23, then dies as 24 + d (R511). -/
  stretched : List Nat := []
  /-- The droop firings of this gathering, by domain. -/
  droops  : Table DroopRun := []
  /-- Whether the hottest sensor has been at or below 45 °C since the last thermal cycle (R522). -/
  cold    : Bool := true
deriving DecidableEq, Repr
/-! ### Caches, directory slices and homes -/

/-- The state of a held line (R173). -/
inductive LineState where
  | modified | exclusive | forwarder | shared
deriving DecidableEq, Repr

/-- A line held in an array (R154, R162): its number (physical address / 64), state, data, poison, world tag, the mark of R159 that it
skips the victim buffer, and in the victim buffer its entry's number. In an L1 data cache, `modified` says that the copy is newer than
the L2's. -/
structure CLine where
  line   : Nat
  st     : LineState
  data   : Line
  poison : Bool := false
  world  : Bool := false
  skip   : Bool := false
  slot   : Nat := 0
deriving DecidableEq, Repr

/-- A set-associative array: its lines by set × 16 + way, and the tree bits b[1] to b[15] of each set (R157). -/
structure Arr where
  lines : Table (Option CLine) := []
  tree  : Table Nat := []
deriving DecidableEq, Repr

/-- What the ways of one tile's arrays have reported in this gathering, and which ways are being walked (R164, R165). -/
structure WayState where
  /-- Corrected errors of each way in this gathering: array number × 16 + way. -/
  corrected : Table Nat := []
  /-- Entries that gave one uncorrectable error in this gathering: array, way, set. -/
  once      : List (ArrayKind × Nat × Nat) := []
  /-- The ways being walked, at most one for each array. -/
  walking   : List (ArrayKind × Nat) := []
  /-- Triggers that wait for a walk to end. -/
  waiting   : List (ArrayKind × Nat) := []
deriving DecidableEq, Repr

/-- The caches of one tile (R153). -/
structure Tile where
  l1i  : Arr := {}
  l1d  : Arr := {}
  l2   : Arr := {}
  /-- The victim buffer, oldest entry first (R160). -/
  vb   : List CLine := []
  /-- Write-backs on their way to a home of another module (R183): line, data, poison. -/
  wbs  : List (Nat × Line × Bool) := []
  /-- Requests outstanding at homes of other modules. -/
  asks : List Ask := []
  /-- Lines that a home has granted after a wait, and that the access that waits has not yet found: it is no hit (R157, R159). -/
  arrived : List Nat := []
  /-- Snoops whose answer a constrained LR/SC sequence holds (R178). -/
  held : List HeldSnoop := []
  ways : WayState := {}
deriving DecidableEq, Repr

/-- A directory entry (R179). `owned`: one holder in E or M. `quires` and `modules` are the vectors of a COARSE entry. -/
structure DirEntry where
  line    : Nat
  owned   : Bool
  coarse  : Bool := false
  holders : List (Nat × Nat) := []
  quires  : Nat := 0
  modules : Nat := 0
  fwd     : Option (Nat × Nat) := none
  /-- COARSE: the tiles that have been given the line since one alone held it; none: since it became COARSE none has. It tells a late EvN or
  Upg from one of a holder (R183). -/
  since   : Option (List (Nat × Nat)) := none
deriving DecidableEq, Repr

/-- A transaction at a home that waits for answers (R182): the request, the holders still to answer, what a holder has
sent (data, poison, modified), and the requests that wait behind it. -/
structure HomeTxn where
  line  : Nat
  req   : HomeReq
  await : List (Nat × Nat)
  got   : Option (Line × Bool × Bool) := none
  queue : List HomeReq := []
  /-- A holder has passed its data to the requester in another module itself. -/
  passed : Bool := false
  /-- The holders that answered that their write-back is on its way (R183). -/
  flying : List (Nat × Nat) := []
  /-- The awaited holders whose write-back has arrived before their answer (R183). -/
  landed : List (Nat × Nat) := []
  /-- Whether a Forwarder answered that it no longer holds the line (R183). -/
  lapsed : Bool := false
  /-- The leaf in which its snoops were last sent (R186). -/
  since  : Nat := 0
deriving DecidableEq, Repr

/-- What waits at a home until it can be taken (R181 to R185): a request, or a directory entry that another slice has handed over; `behind`:
the line whose eviction it waits for. -/
inductive Stalled where
  | request (behind : Option Nat) (r : HomeReq)
  | entry (behind : Option Nat) (e : DirEntry)
deriving DecidableEq, Repr

/-- A directory recovery that runs (R184, R185): the slice that its snoops name, the set of it or (none) the slice as a whole with the
home table's indices that it had, and the tiles of other modules still to answer. -/
structure Recovery where
  slice   : Nat
  set     : Option Nat
  indices : List Nat := []
  await   : List (Nat × Nat)
  /-- The leaf in which its snoops were last sent (R186). -/
  since   : Nat := 0
deriving DecidableEq, Repr

/-- An L3 slice and its directory slice (R153, R179). -/
structure Slice where
  l3      : Arr := {}
  dir     : Table (Option DirEntry) := []
  dirTree : Table Nat := []
  txns    : List HomeTxn := []
  /-- What waits in the router's input buffers, in arrival order (R182). -/
  stalled : List Stalled := []
  ways    : WayState := {}
  /-- Directory evictions in this gathering (L3_COH_CTL.DIR_WARN). -/
  evicts  : Nat := 0
  /-- Whether the directory slice's control checks have failed (R185). -/
  dirBad  : Bool := false
  /-- The home-table entries that a retiring slice has handed over (R169 step 6). -/
  moved   : Nat := 0
deriving DecidableEq, Repr

/-! ### Writes of the data movers (R192, R300) -/

/-- A data mover's write of bytes of one line, until its home has answered. -/
structure EngWrite where
  /-- The I/O die of the mover. -/
  die     : Nat
  line    : Nat
  data    : Line
  mask    : BitVec 64
  psn     : Bool
  /-- The instance for which it is made (R199, R319). -/
  inst    : Option Nat := none
  /-- The queue that the write is of, if it is of one. -/
  queue   : Option Nat := none
  /-- The command that it is of, by its place in the order of acceptance, and the runs of its data that it completes: offset and length. -/
  part    : Option (Nat × List (Nat × Nat)) := none
  /-- The data-mover move that it is of: engine, guard, and position in the data (R372); with 0 for the guard, the posted write of the engine's
  I/O-space unit at that I/O address (R370). -/
  move    : Option (Nat × Nat × Nat) := none
  /-- An ordered write: it is issued once every earlier write of its queue is acknowledged. -/
  ordered : Bool := false
  sent    : Bool := false
  /-- Answers that are still to come, and the worst so far as a status of R356. -/
  left    : Nat := 1
  status  : Nat := 0
deriving DecidableEq, Repr

/-! ### The mesh -/

/-- A packet on its way over the mesh: its header flit and its data flits (R199, R201), the die that it is for or leaves the module by, on virtual
channel 1 whether it routes x first (R207), the mesh cycle in which it last moved, and its number in the order of sending. -/
structure Flight where
  hdr    : BitVec 128
  data   : List (BitVec 256) := []
  exit   : Nat
  turned : Option Bool := none
  moved  : Nat := 0
  no     : Nat := 0
deriving DecidableEq, Repr

/-- What routing maps know: the retired mesh links by the keys of their registers, the retired die links by bit, and the tile routers out of
service (R206, R208). -/
structure MapSet where
  links : Table Word := []
  dead  : Nat := 0
  out   : List Nat := []
deriving DecidableEq, Repr

/-- What the routers and stations know beside their registers (R203, R205, R208). -/
structure Mesh where
  /-- Tile routers out of service, by tile number. -/
  routersOut : List Nat := []
  /-- Uncorrectable errors of each mesh link in this gathering, by link number (die × 128 + 64 for V + 8y + x). -/
  errors : Table Nat := []
  /-- The leaf at whose edge a die link was first measured beyond the retiring limits (R205). -/
  beyond : Table (Option Nat) := []
  /-- The routing maps in force. -/
  maps : MapSet := {}
  /-- The maps of a change that is COMMITTED, as they stood at its edge of leaf C (R208). -/
  staged : Option MapSet := none
  /-- The leaf in which a link or router stopped whose change of maps has not reached T (R208); and whether another has stopped since that change
  was COMMITTED. -/
  stopped : Option Nat := none
  stopsOn : Bool := false
  /-- Mesh cycles counted: the grants rotate by them (R197). -/
  cycle : Nat := 0
  /-- The packets sent so far. -/
  launched : Nat := 0
  /-- The packets that have not left their senders (R197), each with its place: (64 × die + stop) × 2 + local port, or 128 × die on an I/O die. -/
  sources : List (Nat × Flight) := []
  /-- The routers' buffers (R197): number (((64 × die + stop) × 6 + input port) × 4 + class) × 2 + virtual channel. -/
  buffers : Table (List Flight) := []
  /-- The crossing FIFOs of the die links (R204): number ((2 × link + direction) × 2 + station) × 4 + class; direction 1 towards the link's first
  die, station 0 the sending one. -/
  fifos : Table (List Flight) := []
  /-- The last whole packet that a router has taken from a mesh link in each class, by its number (R208 step 2): at (2 × link number + 1 towards the
  link's lower end) × 4 + class. -/
  taken : Table (Option Nat) := []
  /-- The replay buffers (R204): the last flits that crossed, at most 256, by 2 × link + direction. -/
  replay : Table (List (BitVec 256)) := []
  /-- The flits that have crossed, and with them the place in the group of eight, by 2 × link + direction. -/
  crossed : Table Nat := []
deriving DecidableEq, Repr

/-! ### Memory channels and stored data -/

/-- A raw access that runs (R244): the line (physical address / 64), its channel and line there, whether it writes, and the data and
check symbols to be written. -/
structure RawAccess where
  line    : Nat
  chan    : Nat
  place   : Nat
  copy    : Nat
  write   : Bool
  data    : Line
  checks  : BitVec 128
deriving DecidableEq, Repr

/-- One row of a channel's row tracker (R241): the row, the device, and the corrected outcomes counted. -/
structure TrackedRow where
  row    : Nat
  device : Nat
  count  : Nat
deriving DecidableEq, Repr

/-- A soft repair in progress (R242): the row and device, and the lines held in the buffer (line number in the channel,
data, poison). -/
structure SoftRepair where
  row    : Nat
  device : Nat
  lines  : List (Nat × Line × BitVec 128)
deriving DecidableEq, Repr

/-- A line of a pair whose second copy is not read yet (R239): the errors that the first read met, and the write that waits for the line, with
its poison. -/
structure HalfScrub where
  errs  : List (Nat × Symbol)
  write : Option (Line × Bool) := none
deriving DecidableEq, Repr

/-- What a memory controller holds beside its registers (R219, R221, R237, R241). -/
structure Channel where
  /-- The channel has failed, and its STATE changes at the leaf T of a mode change (R217). -/
  failing   : Bool := false
  /-- The channel leaves service under OFFLINE and is on its way to SAFE (R219). -/
  leaving   : Bool := false
  /-- The output MPWRk (R218). -/
  mpwr      : Bool := false
  /-- The first line that reads as poison since a resilver's source failed (R217), and the lines written since. -/
  voidFrom  : Option Nat := none
  voidDone  : List Nat := []
  /-- The next line of the scrubber's walk (R237). -/
  scrubNext : Nat := 0
  /-- The leaf after that of the last burst, and the gathering after that of the last wake for scrubbing (R236). -/
  burstAt   : Nat := 0
  wakeAt    : Nat := 0
  /-- The line of a pair whose second copy is still to be read (R239), held at the primary. -/
  half      : Option HalfScrub := none
  /-- The count at which the lap in progress began (R238). -/
  lapStart  : Nat := 0
  /-- The row tracker, oldest first (R241). -/
  tracker   : List TrackedRow := []
  /-- Rows due for repair, in order (R241). -/
  due       : List (Nat × Nat) := []
  /-- The soft repair in progress (R242). -/
  repair    : Option SoftRepair := none
  /-- The repair list of the Colophon: row and device (R243). -/
  repairs   : List (Nat × Nat) := []
  /-- The leaf of the last request (R221). -/
  lastReq   : Nat := 0
  /-- Capacity of one DIMM in GiB, ranks, density in Gbit, and the highest transfer rate its SPD permits, as trained (R213). -/
  dimmGib   : Nat := 0
  ranks     : Nat := 0
  density   : Nat := 0
  maxRate   : Nat := 0
  /-- Dies in a 3DS stack of its DIMMs (R211). -/
  stack     : Nat := 1
deriving DecidableEq, Repr

/-! ### The channel subsystem -/

/-- An entry of the in-flight journal (R268) with its descriptor (R377), and what the serving engine knows of the command. -/
structure JEntry where
  /-- The place of the command in the order of acceptance, over all instances. -/
  seq      : Nat
  queue    : Nat
  index    : Nat
  gen      : Nat
  /-- 0 ACCEPTED, 1 SENDING, 2 WAITING, 3 HELD, 4 COMPLETING. -/
  state    : Nat := 0
  orphan   : Bool := false
  /-- Its record is written again by the engine that took its queue over, which then frees the entry (R269). -/
  again    : Bool := false
  path     : Nat := 0
  attempts : Nat := 0
  idem     : Bool := false
  rbc      : Bool := false
  timed    : Bool := false
  p        : Bool := false
  mark     : Nat := 0
  deadline : Nat := 0
  slot     : Nat := 0
  record   : BitVec 256 := 0
  /-- The descriptor, D0 in the lowest bits, once it has been read. -/
  desc     : Option Line := none
  /-- Bytes of the command whose requests are sent. -/
  sent     : Nat := 0
  /-- Ranges answered beyond the mark: offset and length. -/
  done     : List (Nat × Nat) := []
  /-- At least one request of the command left the device (R334). -/
  left     : Bool := false
  /-- The read-back of R275: 0 not due, 1 sent, 2 answered. -/
  back     : Nat := 0
  /-- The link address after the last byte whose write was sent (R275). -/
  lastEnd  : Nat := 0
  /-- Poison was read and carried on. -/
  poison   : Bool := false
  /-- The status and DETAIL with which the command ends once its requests are answered. -/
  fail     : Option (Nat × Nat) := none
  aux      : Word := 0
  /-- The leaf at which the command's timer fires (R281). -/
  timer    : Option Nat := none
  /-- The command has sent on its path and stays on it (R277), until it is re-issued or moved, or its queue resumes. -/
  onPath   : Bool := false
  /-- The first request of its present issue has taken its command token (R328). -/
  issued   : Bool := false
  /-- The cause of the last re-issue (R285 OK_REISSUED). -/
  cause    : Nat := 0
  /-- The outcome is decided: STATUS, DETAIL and BYTES of the record. -/
  out      : Option (Nat × Nat × Nat) := none
  /-- The outcome that the command has once its writes to system memory are acknowledged (R192). -/
  later    : Option (Nat × Nat × Nat) := none
  /-- The buffers of one frame, by their places in the order of acceptance: their records follow one another (R311). -/
  group    : List Nat := []
  /-- Blocks of a TRANSFORM sent to a port: the output position after each, and the input bytes it stands for. -/
  blocks   : List (Nat × Nat) := []
  /-- The transform job has ended: whether it left input over. -/
  jobDone  : Option Bool := none
  /-- The record that a channel program has given (R377, RD_DONE). -/
  own      : Option (BitVec 256) := none
  /-- SOF and EOF of a STREAM_RECEIVE's record, as bits 0 and 1. -/
  marks    : Nat := 0
  /-- The predecessor in the chain (R302), by its place in the order of acceptance, until its record is acknowledged. -/
  pred     : Option Nat := none
deriving DecidableEq, Repr

/-- A TYPE 1 record (R283). -/
structure AfterRec where
  status : Nat
  detail : Nat
  aux    : Word
  index  : Nat
  tag    : Word
  bytes  : Nat
  path   : Nat
  /-- The command, by its place in the order of acceptance. -/
  seq    : Nat
deriving DecidableEq, Repr

/-- A record that waits for a completion slot (R265): a command's, by its journal entry, or one of TYPE 1. -/
inductive OutRec where
  | cmd (entry : Nat)
  | after (r : AfterRec)
deriving DecidableEq, Repr

/-- What the ring and doorbell unit knows of a queue beside its registers. -/
structure Queue where
  /-- The index of the next announced descriptor to be accepted (R267). -/
  next     : Nat := 0
  /-- Records that wait for a slot, in the order in which the commands finished. -/
  out      : List OutRec := []
  /-- The record that is written and whose write is not acknowledged (R263, R269). -/
  flying   : Option OutRec := none
  /-- The last descriptor read, where it has CHAIN = 1: its place in the order of acceptance. -/
  chain    : Option Nat := none
  /-- Predecessors whose records are acknowledged: their places, and whether they keep their chains whole (R303). -/
  ended    : List (Nat × Bool) := []
  /-- The gathering of the last program fault at a command of the queue (R392). -/
  fault    : Option Nat := none
  /-- The journal entry of the current command in the queue window (R378). -/
  cur      : Option Nat := none
  /-- Work copies of the queue window: STATE, PATH, ATTEMPTS, MARK, and the record. -/
  wState   : Nat := 0
  wPath    : Nat := 0
  wAttempts : Nat := 0
  wMark    : Nat := 0
  wRecord  : BitVec 256 := 0
  /-- The command that the queue window shows, as it was when it was fetched. -/
  wEntry   : Option JEntry := none
  /-- Fetched commands that a restart presents again (R377). -/
  again    : List Nat := []
deriving DecidableEq, Repr

/-- A request that has left for a port and is not answered (R274, R333). `fate`: 0 it counts for its command, 1 the command was
re-issued, 2 the command completed INDETERMINATE, 3 it is answered and its data are kept until they can be written (R282, R321, R328). -/
structure PortReq where
  id    : Nat
  entry : Nat
  seq   : Nat
  gen   : Nat
  queue : Nat
  index : Nat
  tag   : Word
  port  : Nat
  path  : Nat
  write : Bool
  addr  : Nat
  off   : Nat
  len   : Nat
  back  : Bool := false
  fate  : Nat := 0
  /-- BYTES of the command's record, once it is written. -/
  bytes : Nat := 0
  /-- The leaf in which it left, and whether its tag was freed by the port's completion timeout (R423). -/
  leaf  : Nat := 0
  freed : Bool := false
  /-- The I/O die whose half of the instance's staging share holds its data (R315), and the data kept there once it is answered. -/
  die   : Nat := 0
  data  : List Byte := []
deriving DecidableEq, Repr

/-- The address of a posted write that its root port keeps (R283). -/
structure Kept where
  addr  : Nat
  len   : Nat
  seq   : Nat
  gen   : Nat
  queue : Nat
  index : Nat
  tag   : Word
  path  : Nat
  /-- The leaf in which the command completed, and BYTES of its record. -/
  ended : Option (Nat × Nat) := none
deriving DecidableEq, Repr

/-- A frame of a stream in staging (R310, R431): its bytes by offset, and what it met. -/
structure Frame where
  port     : Nat
  stream   : Nat
  bytes    : Table Nat := []
  /-- Lines of the frame that hold poisoned bytes. -/
  poison   : List Nat := []
  /-- Data reached offset 196,608 or beyond. -/
  long     : Bool := false
  /-- Bytes of it in the staging half on the die where its port is not (R315). -/
  across   : Nat := 0
  /-- The frame is complete: its length, its queue and the leaf of its closing write. -/
  closed   : Option (Nat × Nat × Nat) := none
deriving DecidableEq, Repr

/-- What an instance's reset has under way (R332, R337). -/
structure InstState where
  /-- The leaf X of the running reset, and the holdover flag in it. -/
  leafX   : Nat := 0
  hold    : Bool := false
  /-- A held reset is, or is merged with, a removal. -/
  heldRemove : Bool := false
deriving DecidableEq, Repr

/-- A token bucket pair (R328): bytes and commands, and whether a write refills them at the next leaf edge. -/
structure Bucket where
  bytes : Nat := 0
  cmds  : Nat := 0
  fill  : Bool := false
deriving DecidableEq, Repr

/-- A grant of an arbitration point (R322, R324): the instance and queue drawn, and the beats it may still take. -/
structure Grant where
  inst  : Nat
  queue : Nat
  beats : Nat
deriving DecidableEq, Repr

/-! ### Channel engines -/

/-- A result on its way to its socket: the engine cycle from which it is seen, the socket, the value (R347). -/
structure Delayed where
  at_    : Nat
  socket : Nat
  value  : BitVec 32
deriving DecidableEq, Repr


/-- A divide that runs (R348, R386): the cycle of its trigger, its kind, its operands. -/
structure Divide where
  at_    : Nat
  signed : Bool
  a      : BitVec 32
  b      : BitVec 32
deriving DecidableEq, Repr

/-- A translated window (R355). -/
structure IoWindow where
  valid : Bool := false
  host  : Bool := false
  base  : Nat := 0
  inst  : Nat := 0
deriving DecidableEq, Repr

/-- An asynchronous operation outstanding on a guard (R344), with what it took at its trigger. -/
inductive AsyncOp where
  /-- An I/O read: its status and data (R356, R357). -/
  | ioRead (status : Nat) (data : BitVec 32)
  /-- A data-mover move with the windows of its trigger, the bytes moved so far, and whether poison was among them (R355, R372). -/
  | move (src dst len mode queue : Nat) (windows : Table IoWindow) (done : Nat) (poison : Bool)
  | fetch (queue : Nat)
  /-- A write of the journal work copy: the entry, STATE, PATH, ATTEMPTS and MARK. -/
  | journal (queue : Nat) (entry : Option Nat) (state path attempts mark : Nat)
  /-- A completion: the entry and its place in the order of acceptance. -/
  | complete (queue : Nat) (cmd : Option (Nat × Nat))
  | transform (job : Nat)
  | extRead (socket : Nat)
  /-- A data-mover move whose last request has left: its bytes and status, while writes of it are not acknowledged. -/
  | moved (bytes status : Nat)
deriving DecidableEq, Repr

/-- A logical channel engine (R339 to R395). The die's program store holds the same instruction words (R368). -/
structure Engine where
  /-- The sockets of kinds R, O and S, by number. -/
  sockets : Table (BitVec 32) := []
  /-- Results not yet seen, in the order of their triggers. -/
  delayed : List Delayed := []
  /-- The guards in force: g1 in bit 0. -/
  guards  : BitVec 3 := 7
  /-- Guards set by compare triggers and writes to GUARDS, not yet seen: cycle, guard 1 to 3, value (R344). -/
  gDelay  : List (Nat × Nat × Bool) := []
  /-- The asynchronous operations outstanding, by guard. -/
  async   : Table (Option AsyncOp) := []
  divide  : Option Divide := none
  /-- The divide that an event has interrupted, with its k (R386). -/
  saved   : Option (Divide × Nat) := none
  /-- The index of the next instruction. -/
  pc      : Nat := 0
  /-- Delay slots that still have to issue, the index after them, whether they are annulled, whether the transfer is an EV_RET,
  and its issue cycle (R359, R385). -/
  slots   : Nat := 0
  target  : Nat := 0
  annul   : Bool := false
  isRet   : Bool := false
  retAt   : Nat := 0
  /-- The engine cycle at which the next instruction issues, since the engine last started. -/
  cycle   : Nat := 0
  /-- Issue has stopped after EV_WAIT (R387). -/
  waiting : Bool := false
  /-- Whether a handler runs, and the resume index. -/
  inEvent : Bool := false
  resume  : Nat := 0
  /-- The line whose entry has begun, until the handler's first instruction issues (R384). -/
  entering : Option Nat := none
  /-- EV_PEND. -/
  pend    : BitVec 8 := 0
  /-- Instruction space: the words written since the standard channel program was loaded (R390), whose words are not listed. -/
  imem    : Table (Option (BitVec 32)) := []
  dmem    : Table Byte := []
  windows : Table IoWindow := []
  /-- RD_NEXT (R376), and the queue of the latest RD_TAKE (R392). -/
  rdNext  : BitVec 32 := 0
  taken   : Option Nat := none
  /-- The queue of a decision that the standard channel program has taken, until it issues its request (R326). -/
  beat    : Option Nat := none
  /-- Posted writes to host memory that wait while bus mastering is withdrawn (R282): instance, I/O address, address and value. -/
  posted  : List (Nat × Nat × Nat × BitVec 32) := []
  /-- The engine window (R380). -/
  tick    : Nat := 0
  timerQ  : List (Nat × Nat) := []
  frameQ  : List Nat := []
  ctlQ    : List Nat := []
  /-- Queues that wait for room in FRAME_Q and CTL_Q, in the order of their events. -/
  frameWait : List Nat := []
  ctlWait : List Nat := []
  /-- The fault code or hardware cause that START shows after a TAKEOVER. -/
  pred    : Nat := 0
  ioWerr  : BitVec 32 := 0
  ioWerrA : BitVec 32 := 0
  /-- Whether an instruction word or PROG_ID was written since the halt (R389). -/
  loaded  : Bool := false
  /-- A one was written to RUN while HALTING (R389). -/
  runHeld : Bool := false
  /-- The leaf in which HALTING began (R388). -/
  haltAt  : Nat := 0
  /-- The physical engine that a takeover goes to (R393), and whether a program fault is its cause (R392). -/
  spare   : Option Nat := none
  progFault : Bool := false
deriving DecidableEq, Repr

/-! ### Transform units -/

/-- A job of a transform unit (R405 to R411). -/
structure TuJob where
  id     : Nat
  die    : Nat
  inst   : Nat
  queue  : Nat
  /-- The journal entry and place of a TRANSFORM; or the engine and guard of a socket job. -/
  entry  : Option (Nat × Nat) := none
  socket : Option (Nat × Nat) := none
  j0     : Word
  j1     : Word
  j2     : Word
  j3     : Word
  /-- Where the input comes from and the output goes, and the instance whose function's host memory it is, where it is. -/
  src    : Nat
  srcHost : Option Nat
  dst    : Nat
  dstHost : Option Nat
  len    : Nat
  /-- The status of R356 or code of R412 that the job ends with, once it is known. -/
  fail   : Option Nat := none
  /-- The unit it is bound to, while it has its slot. -/
  unit   : Option Nat := none
  /-- Input bytes read, in blocks run, and output bytes written. -/
  used   : Nat := 0
  made   : Nat := 0
  /-- Its last block has run: whether input was left over, and the check value. -/
  ended  : Option (Bool × Nat) := none
  /-- A detection has run the present block again. -/
  rerun  : Bool := false
  /-- The input read so far, and how much of it is of the block that is still to run (R407). -/
  input  : List Byte := []
  ahead  : Nat := 0
deriving DecidableEq, Repr

/-- An entry of the key table (R409): KIND 0 AES-128, 1 AES-256, 2 XTS-AES-128, 3 XTS-AES-256. -/
structure KeyEntry where
  kind  : Nat := 0
  inst  : Nat := 0
  epoch : Nat := 0
  valid : Bool := false
  key   : List Byte := []
deriving DecidableEq, Repr

/-! ### Ports, links and the endpoint -/

/-- A write of an adapter into the inbound stream aperture that waits in its port's receive buffer (R310, R431, R432): data of a stream at an
offset, and whether they are poisoned; or a closing write with its value, its length and the Relaxed Ordering attribute. -/
inductive Inbound where
  | data (stream off : Nat) (bytes : List Byte) (psn : Bool)
  | close (stream : Nat) (value : Word) (len : Nat) (relaxed : Bool)
deriving DecidableEq, Repr

/-- What a port's link knows beside its registers (R419, R425 to R428, R436). -/
structure Port where
  /-- The leaf in which the present wait or attempt began. -/
  since  : Nat := 0
  /-- Whether the last training attempt found a receiver. -/
  found  : Bool := false
  /-- Whether the port has ever reached L0. -/
  everUp : Bool := false
  /-- Error messages whose header reads wait for L0: leaf, and the address that the log will give (R425). -/
  msgs   : List (Nat × Option Nat) := []
  /-- The loop-back depth in force (R436). -/
  depth  : Nat := 0
  /-- Writes for which there was no room in staging, in the order of arrival (R310). -/
  inbox  : List Inbound := []
deriving DecidableEq, Repr

/-- What a module link knows beside its registers (R440 to R446). -/
structure BLink where
  /-- The next SEQ to be used, and the SEQ expected next. -/
  next     : Nat := 0
  expect   : Nat := 0
  /-- Flits sent and not acknowledged, oldest first: SEQ and content. -/
  unacked  : List (Nat × LinkMsg) := []
  /-- What waits to be sent: for room in the replay buffer, or for the end of a retrain. -/
  queue    : List LinkMsg := []
  /-- A NAK is sent, and the expected flit has not come since. -/
  naked    : Bool := false
  /-- How often the oldest flit has been resent. -/
  resends  : Nat := 0
  /-- The count at which an ACK last advanced, or the oldest flit was sent. -/
  ackAt    : Nat := 0
  /-- Flits accepted since an ACK was last sent. -/
  told     : Nat := 0
  /-- Slots of receive buffer freed since a flit last returned them, by message class (R439). -/
  freed    : Table Nat := []
  /-- The partner's serial and disabled lanes, from training. -/
  serial   : Option Word := none
  disabled : Nat := 0
  /-- The request outstanding: 2 RETRAIN_REQ, 3 WIDTH_REQ; 0 none. -/
  asked    : Nat := 0
  /-- A request withdrawn, to be sent again. -/
  again    : Nat := 0
  /-- PAYLOAD flits are stopped. -/
  halted   : Bool := false
  /-- The count at which the present attempt or wait began, and the leaf of the last good flit. -/
  since    : Nat := 0
  lastGood : Nat := 0
deriving DecidableEq, Repr

/-- What a group of the attach endpoint holds of its PF0 and its link (R454, R464 to R470). -/
structure EpGroup where
  vfEn     : Bool := false
  numVfs   : Nat := 0
  /-- The D-state: 0 D0, 3 D3hot, 2 D3cold. -/
  dstate   : Nat := 0
  pmeEn    : Bool := false
  pmeStatus : Bool := false
  /-- The leaf of the last PM_PME. -/
  pmeAt    : Nat := 0
  /-- Interrupt Disable of the Command register. -/
  intOff   : Bool := false
  /-- PERST# is asserted, and WAKE# is asserted. -/
  perst    : Bool := false
  wake     : Bool := false
  /-- The link's idle state: 0 none, 1 L0s, 2 L1. -/
  idle     : Nat := 0
  /-- ASPM Control: bit 0 L0s, bit 1 L1. -/
  aspm     : Nat := 0
  /-- Max_Payload_Size and the completion timeout value of PF0, as the standard encodes them (R454). -/
  mps      : Nat := 0
  timeout  : Nat := 0
  /-- The leaf in which the group left L0. -/
  leftL0   : Nat := 0
deriving DecidableEq, Repr

/-- A VF's registers in one group. -/
structure VfCfg where
  bme   : Bool := false
  irqEn : Word := 0
  /-- Max_Read_Request_Size, as the standard encodes it, and Enable Relaxed Ordering (R460; log entry 63). -/
  mrrs  : Nat := 2
  relax : Bool := true
deriving DecidableEq, Repr

/-! ### The Colophon, the service engines and boot -/

/-- The Colophon (R513 to R527): its two copies of 8 MiB, by copy × 2^20 + word, the settings working copy (R517) and the
settings that the last cold reset loaded (R516), as words of a slot. -/
structure Colophon where
  mram   : Table Word := []
  work   : Table Word := []
  image  : Table Word := []
  /-- The settings slot that a STORE is writing (R519). -/
  target : Option Nat := none
  /-- The lifetime half that a commit is writing (R521). -/
  half   : Option Nat := none
  /-- Leaves of powered time counted since the last cold reset, up to leaf `poweredTo` (R521). -/
  powered   : Nat := 0
  poweredTo : Nat := 0
  /-- The leaf, plus one, of the last commit that the gathering's number called for (R521). -/
  commitAt  : Nat := 0
deriving DecidableEq, Repr

/-- A loop-back test (R562): its unit, depth and end; 0 RUNNING, 1 PASS, 2 FAIL; errors and what was checked. -/
structure LoopTest where
  loc     : Loc
  depth   : Nat
  until_  : Nat
  state   : Nat := 0
  errors  : Nat := 0
  checked : Nat := 0
  /-- The spare engine that runs the test program (R562), which the test gives back at its end. -/
  spare   : Option Nat := none
  /-- TB_CTL.SRC before a test of the time base. -/
  src     : Nat := 0
  /-- The configuration of the ports before the test: port, CFG and loop-back depth; and their PATTERN. -/
  saved   : List (Nat × Word × Nat) := []
  pattern : Nat := 0
deriving DecidableEq, Repr

/-- What ends a request of a service port that is not answered at once: the unlock store, before and while it runs (R560), or the mode
change that makes tile `t` its quire's spare (R563). -/
inductive OwedFor where
  | unlockWaits
  | unlockStore
  | spare (t : Nat)
deriving DecidableEq, Repr

/-- A request of a service port that is outstanding (R556): OP, TAG, and what ends it. -/
structure Owed where
  op   : Nat
  tag  : Nat
  what : OwedFor
deriving DecidableEq, Repr

/-- What a service port's I3C target and test access port hold (R553, R554): the dynamic address, the response that is ready and not yet read, the
instruction register (IDCODE after a reset of the test logic), the words of a frame shifted in so far as bytes, and the word that drives the
die's lands. -/
structure Wires where
  dynamic  : Option Nat := none
  response : List Byte := []
  ir       : Nat := 1
  shifted  : List Byte := []
  lands    : Nat := 0
deriving DecidableEq, Repr

/-- What the service engines hold (R141, R482, R493, R546 to R563). -/
structure Service where
  /-- The service ports' wires. -/
  wires    : Table Wires := []
  /-- Service engines out of service. -/
  out      : List Nat := []
  /-- The engine that runs the key service; none: the service is absent (R493). -/
  keySe    : Option Nat := some 0
  /-- Results that the key service has still to give, by logical hart: RESULT, and OUT where it is written (R492). -/
  ksWait   : Table (Option (Nat × Option Word)) := []
  /-- The leaves of a hart's Endpaper restarts, newest first (R484). -/
  restarts : Table (List Nat) := []
  /-- The nonce of the last challenge (R560). -/
  nonce    : Option (BitVec 256) := none
  /-- Loop-back tests. -/
  tests    : List LoopTest := []
  /-- The boot image in the staging buffer of IOD0 (R547). -/
  staged   : List Byte := []
  /-- Whether the harts other than the boot hart wait for its AGE.RET (R545). -/
  othersHeld : Bool := false
  /-- The leaf at which the running warm reset began (R550). -/
  warmAt   : Option Nat := none
  /-- The partners declared LOST while a warm reset runs, whose loss is handled after W3 (R551). -/
  lostLater : List Nat := []
  /-- Warm or cold resets that the Drufy commands start 1 ms after their response (R559): the leaf, and whether cold. -/
  resetAt  : Option (Nat × Bool) := none
  /-- The debug module's registers by DMI address (R559), and of hart h at 0x1000 + h: bit 0 its halt is requested, bit 1 it has been reset,
  bit 2 it has resumed. -/
  dm       : Table (BitVec 32) := []
  /-- The outstanding request of each service port (R556). -/
  owed     : Table (Option Owed) := []
  /-- Units that return to service at the next cold reset (R563): the word of the repair record, the bits to be replaced, their values. -/
  mend     : List (Nat × Word × Word) := []
deriving DecidableEq, Repr

/-- The whole state of the module. -/
structure State where
  /-- Waiting commands, first in, first out. -/
  pending : List Instr := []
  /-- The registers of set-up space, by offset (R528). -/
  regs : Table Word := []
  /-- The spare tile that the fuses of a quire name, by quire (R48); 8 where none is listed. -/
  spareFuse : Table Nat := []
  /-- What has left the module on its links, lanes and pins, or was answered to a requester, oldest first (the model's
  own field). -/
  sent : List Emission := []
  /-- How many free values have been drawn (the model's own field). -/
  free : Nat := 0
  /-- Posted leaf-scheduled events (R67). -/
  posted : List LeafEvent := []
  /-- The last leaf, plus one, in which a channel timeout or a lifetime commit has fired: no scrub burst fires in it any more (R67). -/
  lateRow : Nat := 0
  /-- The time base (ch. System Time). -/
  tb : TimeBase := {}
  /-- By how many units each die's replica of the count differs from it, until its reload at the next leaf edge (R61, R65). -/
  replicas : Table Int := []
  /-- The mode-change slots (R70). -/
  slots : Table Slot := []
  /-- Hardware changes that wait for a slot or a scope, in the order they became ready (R76). -/
  waiting : List Waiting := []
  /-- Shadow registers with a pending value (R70). -/
  dirty : List Nat := []
  /-- Whether the service engines have released a core since cold reset (R61). -/
  released : Bool := false
  /-- Records waiting for the event log, oldest first, at most 1,024 (R524). -/
  logQueue : List LogRecord := []
  /-- From which leaf each bit of SVC_LOCK holds (R536): bit b in entry b; 0: not set. -/
  lockFrom : Table Nat := []
  /-- Whether THERMTRIP or a supply has stopped the module (R510, R543). -/
  stopped : Bool := false
  /-- The I/O dies that have stopped as a whole: 0, 1 (R272). -/
  deadDies : List Nat := []
  /-- Whether VKEEP is out of its range, so that nothing runs at all (R40). -/
  off : Bool := false
  /-- The output MAIN_EN, and the input MAIN_PG as the module has taken it (R542, R543). -/
  mainEn : Bool := false
  mainPg : Bool := false
  /-- The count with which the last cold reset began (R63, R544). -/
  bootAt : Nat := 0
  /-- Requests of partner modules that the homes hold during a warm reset (R550). -/
  heldReqs : List HomeReq := []
  /-- The harts of the module: hart h of logical core c is number 2c + h (R82). -/
  harts : Table Hart := []
  /-- The logical cores. -/
  cores : Table Core := []
  /-- The Headband controller (ch. Power Rails and Current Step Scheduling). -/
  hb : Headband := {}
  /-- The output THERMTRIP_N: whether it is asserted (R510). -/
  thermtrip : Bool := false
  /-- The caches of the tiles, by physical tile number s = 9 × Qn + t (R26). -/
  tiles : Table Tile := []
  /-- The L3 and directory slices, by the same number. -/
  slices : Table Slice := []
  /-- The directory recoveries that run. -/
  recoveries : List Recovery := []
  /-- The answers to RdCur requests of this module's engines that no engine has taken yet (R176, R177): engine e's for a line at key
  32 × line + e, and 16 more for an Endpaper read. -/
  curCopies : Table (Option (Line × Bool)) := []
  /-- The reads of engines that the command under way found still waiting at their homes (R182), or behind a write of the same engine (R357). Empty
  between commands. -/
  stuck : List HomeReq := []
  /-- The writes of the data movers that wait or are not acknowledged (R192), oldest first. -/
  writes : List EngWrite := []
  /-- The mesh (ch. Mesh, Packets and Crossings). -/
  mesh : Mesh := {}
  /-- The raw access in progress (R244). -/
  raw : Option RawAccess := none
  /-- The data bytes stored in DRAM: byte o of channel k stands at address k × 2^41 + o. What no cell lists is zero (the
  fill of R234). -/
  dram : List Host.Cell := []
  /-- The difference between the check symbols stored with a line and those of its data, symbol 32 + j in bits 16j + 15 to
  16j (R228, R230); zero: a codeword. Keyed by channel × 2^35 + line in the channel. -/
  checks : Table (BitVec 128) := []
  /-- The memory controllers (R46). -/
  channels : Table Channel := []
  /-- The WEIGHTs in effect, by entry of the bandwidth registry (R225). -/
  weights : Table Nat := []
  /-- The count at which the power-up fill began (R234). -/
  fillStart : Nat := 0
  /-- Registry entries whose GRANT follows FLOOR at the next leaf edge (R224). -/
  floorsDue : List Nat := []
  /-- The words of registers written in this leaf that stay in force until the next leaf edge (R320, R328). -/
  held : Table (Option Word) := []
  /-- The lifetime counters since manufacture (R521): the count at byte o, bit b of the lifetime half is entry 64 × o + b. -/
  life : Table Nat := []
  /-- The in-flight journal with the descriptor store, by entry number (R268, R377). -/
  journal : Table (Option JEntry) := []
  /-- The next place in the order of acceptance. -/
  seqNext : Nat := 0
  /-- The queues. -/
  queues : Table Queue := []
  /-- The requests outstanding at the ports, oldest first. -/
  reqs : List PortReq := []
  /-- The number of the next request. -/
  reqNext : Nat := 0
  /-- The kept addresses of the root ports, by lead port, oldest first (R283). -/
  kept : Table (List Kept) := []
  /-- Reports held against commands that have not completed: the command's place, and the record (R283). -/
  reports : List (Nat × AfterRec) := []
  /-- Commands and causes that have had a TYPE 1 record (R283). -/
  afterDone : List (Nat × Nat) := []
  /-- Paths whose underlying condition is FAILED, by the offset of their register, and with which DETAIL (R278). -/
  pathBad : Table (Option Nat) := []
  /-- Consecutive requests left unanswered on a path, by the offset of its register (R278). -/
  cto : Table Nat := []
  /-- Frames in staging, in the order in which they began (R310). -/
  frames : List Frame := []
  /-- The instances' resets. -/
  insts : Table InstState := []
  /-- The token buckets, by die × 256 + instance (R328). -/
  buckets : Table Bucket := []
  /-- The leaf, plus one, at whose edge the buckets last gained their rates. -/
  bucketAt : Nat := 0
  /-- The shift registers of the arbitration points (R322): physical engine k at k, the data mover of die d at 272 + d, port p
  at 274 + p, transform unit u at 402 + u. -/
  lfsr : Table (BitVec 32) := []
  /-- Draws lost in a row (R323), by point × 256 + instance. -/
  losses : Table Nat := []
  /-- The queue served last (R325), by point × 256 + instance. -/
  lastQueue : Table Nat := []
  /-- The grants in progress, by point. -/
  grants : Table (Option Grant) := []
  /-- The logical channel engines. -/
  engines : Table Engine := []
  /-- The queue and base that the RX region of a port window shows, by engine × 128 + port (R375). -/
  rxSel : Table (Nat × Nat) := []
  /-- EXT_CREDIT of a port (R434). -/
  extCredit : Table Nat := []
  /-- Self-tests of physical engines under way: the engine, and the logical engine that waits for it where no spare exists (R392,
  R395). -/
  selfTests : List (Nat × Option Nat) := []
  /-- The jobs of the transform units, in the order of their triggers (R405). -/
  jobs : List TuJob := []
  /-- The number of the next job. -/
  jobNext : Nat := 0
  /-- The key table (R409). -/
  keys : Table KeyEntry := []
  /-- The handle key (R409). -/
  handleKey : BitVec 128 := 0
  /-- The boot-status code (R544, R547, R548). -/
  boot : Nat := 0x0010
  /-- The ports, by lead port. -/
  ports : Table Port := []
  /-- The gathering, plus one, in which the spare last took a lane's lands (R419), by lane. -/
  laneSwap : Table Nat := []
  /-- The module links. -/
  blinks : Table BLink := []
  /-- Messages that found no permitted link: destination module, and message (R438). -/
  blWaiting : List (Nat × LinkMsg) := []
  /-- The leaf in which a partner became ISOLATED (R447). -/
  peerSince : Table Nat := []
  /-- The module that homes another's window, plus one, where it is not that module itself (R452). -/
  decoders : Table Nat := []
  /-- The two groups of the attach endpoint: 0 P0 to P7, 1 P64 to P71. -/
  ep : Table EpGroup := []
  /-- The VFs' registers, by group × 256 + n. -/
  vfs : Table VfCfg := []
  /-- INTX_PEND (R457), and whether INTA stands asserted. -/
  intxPend : BitVec 256 := 0
  intxOn : Bool := false
  /-- Whether the standby group is in use (R470). -/
  standby : Bool := false
  /-- Host completion timeouts in a row, by instance (R462). -/
  hostTries : Table Nat := []
  /-- The Colophon. -/
  col : Colophon := {}
  /-- The service engines. -/
  svc : Service := {}
deriving DecidableEq, Repr

/-- The module right after reset: PORST_N released, boot code 0x0010 (R544), every field at its default above. -/
def State.reset : State := {}

end Sys2Proof.Machine
end

