-- ==== Sys2Proof/Machine/Packet.lean ====
section
/-! DEFINITION. Packets (R199 to R201): the header flit and the data flits; the stops of a compute die's mesh (R28, R29), the route from stop to
stop (R195, R196, R207), and the die-link station that a packet for another die takes (R31, R196, R206). -/

namespace Sys2Proof.Machine

open Sys2Proof

/-! ### The header flit (R199) -/

/-- The fields of a header flit, from the highest bits to the lowest. -/
structure Header where
  next   : Nat
  dmod   : Nat
  ddie   : Nat
  dx     : Nat
  dy     : Nat
  dport  : Nat
  smod   : Nat
  sdie   : Nat
  sx     : Nat
  sy     : Nat
  sport  : Nat
  cls    : Nat
  vc     : Nat
  op     : Nat
  tag    : Nat
  world  : Nat
  iv     : Nat
  inst   : Nat
  psn    : Nat
  ndata  : Nat
  offset : Nat
  len    : Nat
  zero   : Nat
  addr   : Nat
deriving DecidableEq, Repr

/-- The fields in the order of the layout, each with its width. -/
def Header.fields (h : Header) : List (Nat × Nat) :=
  [(3, h.next), (3, h.dmod), (3, h.ddie), (3, h.dx), (3, h.dy), (2, h.dport), (3, h.smod), (3, h.sdie), (3, h.sx), (3, h.sy), (2, h.sport),
   (2, h.cls), (1, h.vc), (6, h.op), (8, h.tag), (1, h.world), (1, h.iv), (8, h.inst), (1, h.psn), (2, h.ndata), (6, h.offset), (6, h.len),
   (3, h.zero), (52, h.addr)]

/-- The 128 bits of a header. -/
def Header.bits (h : Header) : BitVec 128 := BitVec.ofNat 128 (h.fields.foldl (fun a f => a * 2 ^ f.1 + f.2 % 2 ^ f.1) 0)

/-- The header that 128 bits hold. -/
def Header.of (b : BitVec 128) : Header :=
  let f (hi lo : Nat) : Nat := b.toNat / 2 ^ lo % 2 ^ (hi + 1 - lo)
  { next := f 127 125, dmod := f 124 122, ddie := f 121 119, dx := f 118 116, dy := f 115 113, dport := f 112 111, smod := f 110 108
    sdie := f 107 105, sx := f 104 102, sy := f 101 99, sport := f 98 97, cls := f 96 95, vc := f 94 94, op := f 93 88, tag := f 87 80
    world := f 79 79, iv := f 78 78, inst := f 77 70, psn := f 69 69, ndata := f 68 67, offset := f 66 61, len := f 60 55, zero := f 54 52
    addr := f 51 0 }

/-- Whether a message is one of R200. -/
def knownOp (cls op : Nat) : Bool :=
  if cls = 0 then decide (op ≤ 0x0B ∨ (0x10 ≤ op ∧ op ≤ 0x12)) else if cls = 1 then decide (op ≤ 7) else if cls = 2 then decide (op ≤ 4)
  else decide (op ≤ 2)

/-- Whether NEXT, DPORT, NDATA or OP holds a reserved value (R200). -/
def Header.reserved (h : Header) : Bool := decide (6 ≤ h.next ∨ 2 ≤ h.dport ∨ h.ndata = 3) || !knownOp h.cls h.op

/-- The data flits that carry bytes `off` to `off + n - 1` of a line: both halves, or the one that holds them all (R201). -/
def dataFlits (d : Line) (off n : Nat) : List (BitVec 256) :=
  let half (k : Nat) : BitVec 256 := (d >>> (256 * k)).setWidth 256
  if n < 64 ∧ off / 32 = (off + n - 1) / 32 then [half (off / 32)] else [half 0, half 1]

/-! ### Stops (R28, R29) -/

/-- The ten stops of a compute die that are no tile routers, as 8y + x. -/
def plainStops : List Nat := [0, 7, 56, 63, 24, 39, 2, 5, 58, 61]

/-- The tile router index of a stop, if it is one. -/
def routerIndex (st : Nat) : Option Nat :=
  if plainStops.contains st then none else some (st - (plainStops.filter (fun x => decide (x < st))).length)

/-- The stop of tile router index i. -/
def routerStop (i : Nat) : Nat := ((List.range 64).filter (fun st => !plainStops.contains st)).getD i 0

/-- The dies that a die link joins (R31, MESH_DLINKk_STATUS). -/
def linkDies (k : Nat) : List Nat :=
  if k < 4 then [k, (k + 1) % 4] else if k < 20 then [(k - 4) / 4, 4 + (k - 4) / 2 % 2] else [4, 5]

/-- The stop of die link k's station on compute die d. -/
def stationStop (d k : Nat) : Nat :=
  if k < 4 then (if k = d then 39 else 24) else ([2, 5, 58, 61] : List Nat).getD (k % 4) 0

/-- Where a packet starts or ends: module, die, stop and local port (R199). -/
structure MeshEnd where
  module : Nat
  die    : Nat
  x      : Nat
  y      : Nat
  port   : Nat
deriving DecidableEq, Repr

/-- Number of a stop of a compute die. -/
def MeshEnd.stop (e : MeshEnd) : Nat := 8 * e.y + e.x

/-- Number of an end. -/
def MeshEnd.no (e : MeshEnd) : Nat := (((e.module * 8 + e.die) * 64 + e.stop) * 4) + e.port

/-- A tile's router: its core at local port 0, its home slice at local port 1 (log entry 59). -/
def tileEnd (m t port : Nat) : MeshEnd := ⟨m, t / 54, routerStop (t % 54) % 8, routerStop (t % 54) / 8, port⟩

/-- A place that the spec does not give: of a unit on an I/O die, of a block, or of another module's home (log entry 59). -/
def openEnd (m die key port : Nat) : MeshEnd := ⟨m, die, Config.farPlace key / 8 % 8, Config.farPlace key % 8, port⟩

/-- The die of a home or block whose place the spec does not give. -/
def openDie (key : Nat) : Nat := Config.farPlace key / 64 % 6

/-- A unit of module m, as packets name it; a home or block by the address. -/
def unitEnd (m u addr : Nat) : MeshEnd :=
  if u < 216 then tileEnd m u 0
  else if 256 ≤ u then tileEnd m (u - 256) 1
  else if u < 222 then openEnd m (4 + (u - 216) % 4) u 0
  else
    let key := 2 ^ 53 * (m + 1) + (if u = 255 then addr else u)
    openEnd m (openDie key) key 1

/-! ### Routes (R195, R196, R207) -/

/-- A die's mesh with its links out of use, as bit sets by 8y + x of the lower end: horizontal, vertical; and the stops out of
service. -/
structure DieMesh where
  h   : Nat
  v   : Nat
  out : List Nat
deriving DecidableEq, Repr

/-- The stop one hop away in a direction: 0 north, 1 east, 2 south, 3 west. -/
def hop (st dir : Nat) : Nat := if dir = 0 then st + 8 else if dir = 1 then st + 1 else if dir = 2 then st - 8 else st - 1

/-- Whether the link of a stop in a direction is in use: inside the mesh, not retired, and neither end out of service. -/
def DieMesh.open (m : DieMesh) (st dir : Nat) : Bool :=
  let x := st % 8
  let y := st / 8
  if (dir = 0 ∧ y = 7) ∨ (dir = 1 ∧ x = 7) ∨ (dir = 2 ∧ y = 0) ∨ (dir = 3 ∧ x = 0) then false
  else
    let n := hop st dir
    let lower := min st n
    let bit := if dir = 1 ∨ dir = 3 then m.h.testBit lower else m.v.testBit lower
    !bit && !m.out.contains st && !m.out.contains n

/-- The dimension-order direction from a stop to a destination: in x first, or in y first; none on arrival. -/
def dirTo (xFirst : Bool) (st dst : Nat) : Option Nat :=
  let dx : Option Nat := if st % 8 < dst % 8 then some 1 else if dst % 8 < st % 8 then some 3 else none
  let dy : Option Nat := if st / 8 < dst / 8 then some 0 else if dst / 8 < st / 8 then some 2 else none
  if xFirst then (match dx with
    | some d => some d
    | none => dy)
  else (match dy with
    | some d => some d
    | none => dx)

/-- The direction that a packet takes at a stop, and its order from there: none on virtual channel 0; on virtual channel 1, whether it routes x
first (R196, R207). No direction: it has arrived, or nothing leads on. -/
def DieMesh.next (m : DieMesh) (st dst : Nat) (turned : Option Bool) : Option (Nat × Option Bool) :=
  match dirTo (turned.getD true) st dst with
  | none => none
  | some d =>
    if m.open st d then some (d, turned)
    else if turned.isSome then none
    else
      let inX := decide (d = 1 ∨ d = 3)
      let first : Nat × Bool :=
        if inX && decide (st / 8 ≠ dst / 8) then ((dirTo false st dst).getD 0, false)
        else if inX then ((if st / 8 = 7 then 2 else 0), true)
        else ((if st % 8 = 7 then 3 else 1), false)
      if m.open st first.1 then some (first.1, some first.2) else none

/-- The channels that a packet takes, each as (stop, direction, virtual channel), and whether it arrives. -/
def walkRoute (m : DieMesh) (dst : Nat) : Nat → Nat → Option Bool → List (Nat × Nat × Nat) × Bool
  | 0, _, _ => ([], false)
  | fuel + 1, st, turned =>
    if st = dst then ([], true)
    else
      match m.next st dst turned with
      | none => ([], false)
      | some (d, t) =>
        let (r, ok) := walkRoute m dst fuel (hop st d) t
        ((st, d, if t.isSome then 1 else 0) :: r, ok)

/-! ### Between dies (R31, R196, R206) -/

/-- Whether every ring link that leads from compute die d to compute die e, ring-next or ring-prev, is in service; `dead`: the die links that
the maps in force know as retired, by bit. -/
def ringOpen (dead d e : Nat) (next : Bool) : Bool :=
  (List.range (if next then (e + 4 - d) % 4 else (d + 4 - e) % 4)).all (fun i =>
    !dead.testBit (if next then (d + i) % 4 else (d + 7 - i) % 4))

/-- The die link that a packet takes at compute die d towards compute die e: ring-next when e is one or two ring links ahead, else ring-prev
(R196); the other way round where a link of that way is retired (R206). -/
def ringLink (dead d e : Nat) : Nat :=
  let next := decide ((e + 4 - d) % 4 ≤ 2)
  let way := if !ringOpen dead d e next && ringOpen dead d e (!next) then !next else next
  if way then d else (d + 3) % 4

/-- Whether compute die d has a link in service to I/O die i. -/
def ioOpen (dead d i : Nat) : Bool := !dead.testBit (4 + 4 * d + 2 * i) || !dead.testBit (5 + 4 * d + 2 * i)

/-- The die link that a packet takes at compute die d towards die e, with address bit 12 (R196): where a link of a pair is retired, the other;
where both are, the way to the ring-next die's, or to the ring-prev die's (R206). -/
def dieLinkTo (dead d e bit12 : Nat) : Nat :=
  if e < 4 then ringLink dead d e
  else
    let i := e - 4
    let k := 4 + 4 * d + 2 * i + bit12
    let other := 4 + 4 * d + 2 * i + (1 - bit12)
    if !dead.testBit k then k
    else if !dead.testBit other then other
    else ringLink dead d (if ioOpen dead ((d + 1) % 4) i then (d + 1) % 4 else (d + 3) % 4)

/-- The die link that a packet takes at I/O die i towards compute die e, with address bit 12 (R34, R206): of the pair, or where both are retired
of the ring-next die's pair, or of the ring-prev die's. -/
def ioLinkTo (dead i e bit12 : Nat) : Nat :=
  let d := if ioOpen dead e i then e else if ioOpen dead ((e + 1) % 4) i then (e + 1) % 4 else (e + 3) % 4
  let k := 4 + 4 * d + 2 * i + bit12
  if dead.testBit k then 4 + 4 * d + 2 * i + (1 - bit12) else k

/-- The compute die by which a packet goes from one I/O die to the other: the first with links to both (R32; log entry 59). -/
def midDie (dead : Nat) : Nat := ((List.range 4).find? (fun e => ioOpen dead e 0 && ioOpen dead e 1)).getD 0

end Sys2Proof.Machine
end

