-- ==== Sys2Proof/Machine/CsrList.lean ====
section
/-! DEFINITION. The implemented CSRs of a hart by address (R78 to R82, R99), and those that a hart image stores (R537). The
spec names the standards that define them; their addresses are the standards' (log entry 6). -/

namespace Sys2Proof.Machine

/-- The numbers from `a` on, `n` of them. -/
def upFrom (a n : Nat) : List Nat := (List.range n).map (a + ·)

/-- The CSRs of the text bank that a hart image stores, in ascending address. -/
def storedCsrs : List Nat :=
  [0x001, 0x002, 0x003, 0x008, 0x009, 0x00A, 0x00F, 0x100, 0x104, 0x105, 0x106, 0x10A] ++ upFrom 0x10C 4 ++
  [0x140, 0x141, 0x142, 0x143, 0x144, 0x14D, 0x150, 0x151, 0x15C, 0x180] ++
  [0x200, 0x204, 0x205, 0x240, 0x241, 0x242, 0x243, 0x244, 0x24D, 0x250, 0x251, 0x25C, 0x280] ++
  [0x300, 0x302, 0x303, 0x304, 0x305, 0x306, 0x308, 0x309, 0x30A] ++ upFrom 0x30C 4 ++ [0x320] ++ upFrom 0x323 29 ++
  [0x340, 0x341, 0x342, 0x343, 0x344, 0x34A, 0x34B, 0x350, 0x351, 0x35C] ++ (List.range 8).map (fun i => 0x3A0 + 2 * i) ++
  upFrom 0x3B0 64 ++
  [0x600, 0x602, 0x603, 0x604, 0x605, 0x606, 0x607, 0x608, 0x609, 0x60A] ++ upFrom 0x60C 4 ++
  [0x643, 0x644, 0x645, 0x646, 0x647, 0x64A, 0x680, 0x747, 0x7A0, 0x7A1, 0x7A2, 0x7A3, 0x7A4, 0x7B0, 0x7B1, 0x7B2, 0x7B3] ++
  [0x8C0, 0xB00, 0xB02] ++ upFrom 0xB03 29 ++ [0xC20, 0xC21, 0xDA0, 0xDB0, 0xE12, 0xEB0, 0xFB0]

/-- The Endpaper bank (R475), in ascending address. -/
def endpaperCsrs : List Nat :=
  [0x003, 0x008, 0x300, 0x305, 0x340, 0x341, 0x342, 0x343] ++ (List.range 8).map (fun i => 0x3A0 + 2 * i) ++ upFrom 0x3B0 64 ++
  [0x8C0, 0xC20, 0xC21]

/-- The CSRs that are shared between the banks, constant, or a view of another (R475, R537). -/
def sharedCsrs : List Nat :=
  [0x001, 0x002, 0x301, 0xF11, 0xF12, 0xF13, 0xF14, 0xF15, 0xC00, 0xC01, 0xC02, 0xC22, 0xB00, 0xB02, 0x015] ++ upFrom 0xB03 29 ++
  upFrom 0xC03 29 ++ [0x320] ++ upFrom 0x323 29

/-- Whether the text world has a CSR. -/
def textCsr (a : Nat) : Bool := storedCsrs.contains a || sharedCsrs.contains a

/-- Whether the Endpaper world has a CSR. -/
def endpaperCsr (a : Nat) : Bool := endpaperCsrs.contains a || sharedCsrs.contains a

/-- Slot i of the CSR area: the bank and the address, as CPU_KEEP_CSRi names them (R537). -/
def keepCsr (i : Nat) : Option (Bool × Nat) :=
  if i < storedCsrs.length then some (false, storedCsrs.getD i 0)
  else if i < storedCsrs.length + endpaperCsrs.length then some (true, endpaperCsrs.getD (i - storedCsrs.length) 0)
  else none

end Sys2Proof.Machine
end

