-- ==== Sys2Proof/Machine/Registers.lean ====
section
/-!
DEFINITION. The registers of set-up space: their offsets (R528, R540), their fields (the register tables of the chapters),
each field's access type (R16), its reset value (R17) and the values that R20 does not call reserved.
A register is named as the manual names it, with its indices as arguments; a field is `REGISTER.FIELD`.
-/

namespace Sys2Proof.Machine

/-- TB_CTL, block TB, offset 0x0 (R540). -/
abbrev TB_CTL : Nat := 0 * 0x10000000 + 0x0
abbrev TB_CTL.SRC : Fld := ⟨TB_CTL, 11, 10⟩
abbrev TB_CTL.PREF : Fld := ⟨TB_CTL, 9, 9⟩
abbrev TB_CTL.ACCEPT_STEP : Fld := ⟨TB_CTL, 8, 8⟩
abbrev TB_CTL.HOLD_LIMIT : Fld := ⟨TB_CTL, 7, 4⟩

/-- TB_STATUS, block TB, offset 0x8 (R540). -/
abbrev TB_STATUS : Nat := 0 * 0x10000000 + 0x8
abbrev TB_STATUS.EMARK_MISS : Fld := ⟨TB_STATUS, 39, 32⟩
abbrev TB_STATUS.PHASE_ERR : Fld := ⟨TB_STATUS, 31, 16⟩
abbrev TB_STATUS.EVER_LOCKED : Fld := ⟨TB_STATUS, 7, 7⟩
abbrev TB_STATUS.B_QUAL : Fld := ⟨TB_STATUS, 6, 6⟩
abbrev TB_STATUS.A_QUAL : Fld := ⟨TB_STATUS, 5, 5⟩
abbrev TB_STATUS.SLEWING : Fld := ⟨TB_STATUS, 4, 4⟩
abbrev TB_STATUS.STATE : Fld := ⟨TB_STATUS, 2, 0⟩

/-- TB_COUNT, block TB, offset 0x10 (R540). -/
abbrev TB_COUNT : Nat := 0 * 0x10000000 + 0x10
abbrev TB_COUNT.COUNT : Fld := ⟨TB_COUNT, 63, 0⟩

/-- TB_HOLD, block TB, offset 0x18 (R540). -/
abbrev TB_HOLD : Nat := 0 * 0x10000000 + 0x18
abbrev TB_HOLD.BOUND : Fld := ⟨TB_HOLD, 63, 32⟩
abbrev TB_HOLD.ELAPSED : Fld := ⟨TB_HOLD, 31, 0⟩

/-- TB_UTC, block TB, offset 0x20 (R540). -/
abbrev TB_UTC : Nat := 0 * 0x10000000 + 0x20
abbrev TB_UTC.LEAP_SUB : Fld := ⟨TB_UTC, 18, 18⟩
abbrev TB_UTC.LEAP_ADD : Fld := ⟨TB_UTC, 17, 17⟩
abbrev TB_UTC.VALID : Fld := ⟨TB_UTC, 16, 16⟩
abbrev TB_UTC.OFFSET : Fld := ⟨TB_UTC, 15, 0⟩

/-- TB_ALARM, block TB, offset 0x28 (R540). -/
abbrev TB_ALARM : Nat := 0 * 0x10000000 + 0x28
abbrev TB_ALARM.REPLICA : Fld := ⟨TB_ALARM, 9, 9⟩
abbrev TB_ALARM.CFG_ERR : Fld := ⟨TB_ALARM, 8, 8⟩
abbrev TB_ALARM.FAR : Fld := ⟨TB_ALARM, 7, 7⟩
abbrev TB_ALARM.HOLD_LIMIT : Fld := ⟨TB_ALARM, 6, 6⟩
abbrev TB_ALARM.HOLDOVER : Fld := ⟨TB_ALARM, 5, 5⟩
abbrev TB_ALARM.ETOD_BAD : Fld := ⟨TB_ALARM, 4, 4⟩
abbrev TB_ALARM.EMARK_MISS : Fld := ⟨TB_ALARM, 3, 3⟩
abbrev TB_ALARM.PREEMPT : Fld := ⟨TB_ALARM, 2, 2⟩
abbrev TB_ALARM.B_LOST : Fld := ⟨TB_ALARM, 1, 1⟩
abbrev TB_ALARM.A_LOST : Fld := ⟨TB_ALARM, 0, 0⟩

/-- TB_MCn_TARGET, block TB, offset 0x100 (R540). -/
abbrev TB_MCn_TARGET (n : Nat) : Nat := 0 * 0x10000000 + 0x100 + n * 0x20
abbrev TB_MCn_TARGET.TARGET (n : Nat) : Fld := ⟨(TB_MCn_TARGET n), 55, 0⟩

/-- TB_MCn_CUTOFF, block TB, offset 0x108 (R540). -/
abbrev TB_MCn_CUTOFF (n : Nat) : Nat := 0 * 0x10000000 + 0x108 + n * 0x20
abbrev TB_MCn_CUTOFF.CUTOFF (n : Nat) : Fld := ⟨(TB_MCn_CUTOFF n), 55, 0⟩

/-- TB_MCn_CTL, block TB, offset 0x110 (R540). -/
abbrev TB_MCn_CTL (n : Nat) : Nat := 0 * 0x10000000 + 0x110 + n * 0x20
abbrev TB_MCn_CTL.ABORT (n : Nat) : Fld := ⟨(TB_MCn_CTL n), 17, 17⟩
abbrev TB_MCn_CTL.ARM (n : Nat) : Fld := ⟨(TB_MCn_CTL n), 16, 16⟩
abbrev TB_MCn_CTL.SCOPE (n : Nat) : Fld := ⟨(TB_MCn_CTL n), 12, 0⟩

/-- TB_MCn_STATUS, block TB, offset 0x118 (R540). -/
abbrev TB_MCn_STATUS (n : Nat) : Nat := 0 * 0x10000000 + 0x118 + n * 0x20
abbrev TB_MCn_STATUS.H (n : Nat) : Fld := ⟨(TB_MCn_STATUS n), 61, 61⟩
abbrev TB_MCn_STATUS.NR_COUNT (n : Nat) : Fld := ⟨(TB_MCn_STATUS n), 60, 48⟩
abbrev TB_MCn_STATUS.NR_LOC (n : Nat) : Fld := ⟨(TB_MCn_STATUS n), 39, 16⟩
abbrev TB_MCn_STATUS.CAUSE (n : Nat) : Fld := ⟨(TB_MCn_STATUS n), 7, 4⟩
abbrev TB_MCn_STATUS.STATE (n : Nat) : Fld := ⟨(TB_MCn_STATUS n), 3, 0⟩

/-- HB_CTL, block HB, offset 0x0 (R540). -/
abbrev HB_CTL : Nat := 1 * 0x10000000 + 0x0
abbrev HB_CTL.HOLD_WARN : Fld := ⟨HB_CTL, 39, 32⟩
abbrev HB_CTL.DROOP_MV : Fld := ⟨HB_CTL, 31, 24⟩
abbrev HB_CTL.GATE_IDLE : Fld := ⟨HB_CTL, 23, 8⟩
abbrev HB_CTL.PARK_IDLE : Fld := ⟨HB_CTL, 7, 0⟩

/-- HB_ALARM, block HB, offset 0x8 (R540). -/
abbrev HB_ALARM : Nat := 1 * 0x10000000 + 0x8
abbrev HB_ALARM.HB_RESTART : Fld := ⟨HB_ALARM, 8, 8⟩
abbrev HB_ALARM.THERM_EMERG : Fld := ⟨HB_ALARM, 7, 7⟩
abbrev HB_ALARM.THROTTLE : Fld := ⟨HB_ALARM, 6, 6⟩
abbrev HB_ALARM.CAP : Fld := ⟨HB_ALARM, 5, 5⟩
abbrev HB_ALARM.UNFORECAST : Fld := ⟨HB_ALARM, 4, 4⟩
abbrev HB_ALARM.DROOP : Fld := ⟨HB_ALARM, 3, 3⟩
abbrev HB_ALARM.HOLD_LONG : Fld := ⟨HB_ALARM, 2, 2⟩
abbrev HB_ALARM.HOLD : Fld := ⟨HB_ALARM, 1, 1⟩
abbrev HB_ALARM.CFG_ERR : Fld := ⟨HB_ALARM, 0, 0⟩

/-- HB_THERM, block HB, offset 0x10 (R540). -/
abbrev HB_THERM : Nat := 1 * 0x10000000 + 0x10
abbrev HB_THERM.EMERG : Fld := ⟨HB_THERM, 23, 16⟩
abbrev HB_THERM.HYST : Fld := ⟨HB_THERM, 11, 8⟩
abbrev HB_THERM.THROTTLE : Fld := ⟨HB_THERM, 7, 0⟩

/-- HB_RAILr, block HB, offset 0x100 (R540). -/
abbrev HB_RAILr (r : Nat) : Nat := 1 * 0x10000000 + 0x100 + r * 0x8
abbrev HB_RAILr.RESERVED (r : Nat) : Fld := ⟨(HB_RAILr r), 63, 48⟩
abbrev HB_RAILr.IMAX (r : Nat) : Fld := ⟨(HB_RAILr r), 47, 32⟩
abbrev HB_RAILr.STEP_MAX (r : Nat) : Fld := ⟨(HB_RAILr r), 15, 8⟩

/-- HB_LINKk_STATUS, block HB, offset 0x200 (R540). -/
abbrev HB_LINKk_STATUS (k : Nat) : Nat := 1 * 0x10000000 + 0x200 + k * 0x8
abbrev HB_LINKk_STATUS.HELD (k : Nat) : Fld := ⟨(HB_LINKk_STATUS k), 63, 32⟩
abbrev HB_LINKk_STATUS.RUN (k : Nat) : Fld := ⟨(HB_LINKk_STATUS k), 31, 16⟩
abbrev HB_LINKk_STATUS.HOLD (k : Nat) : Fld := ⟨(HB_LINKk_STATUS k), 0, 0⟩

/-- HB_QSTATUSn, block HB, offset 0x400 (R540). -/
abbrev HB_QSTATUSn (n : Nat) : Nat := 1 * 0x10000000 + 0x400 + n * 0x8
abbrev HB_QSTATUSn.DROOPS (n : Nat) : Fld := ⟨(HB_QSTATUSn n), 63, 48⟩
abbrev HB_QSTATUSn.TMAX (n : Nat) : Fld := ⟨(HB_QSTATUSn n), 47, 40⟩
abbrev HB_QSTATUSn.LEVEL (n : Nat) : Fld := ⟨(HB_QSTATUSn n), 36, 32⟩
abbrev HB_QSTATUSn.FREQ (n : Nat) : Fld := ⟨(HB_QSTATUSn n), 31, 16⟩
abbrev HB_QSTATUSn.CS (n : Nat) : Fld := ⟨(HB_QSTATUSn n), 15, 0⟩

/-- HB_DIEd_DROOPS, block HB, offset 0x500 (R540). -/
abbrev HB_DIEd_DROOPS (d : Nat) : Nat := 1 * 0x10000000 + 0x500 + d * 0x8
abbrev HB_DIEd_DROOPS.DROOPS (d : Nat) : Fld := ⟨(HB_DIEd_DROOPS d), 31, 0⟩

/-- HB_VCURVEd_w, block HB, offset 0x600 (R540). -/
abbrev HB_VCURVEd_w (d w : Nat) : Nat := 1 * 0x10000000 + 0x600 + d * 0x20 + w * 0x8
abbrev HB_VCURVEd_w.VID (d w : Nat) : Fld := ⟨(HB_VCURVEd_w d w), 63, 0⟩

/-- CPU_RAS_CTL, block CPU, offset 0x0 (R540). -/
abbrev CPU_RAS_CTL : Nat := 2 * 0x10000000 + 0x0
abbrev CPU_RAS_CTL.HANG : Fld := ⟨CPU_RAS_CTL, 15, 8⟩
abbrev CPU_RAS_CTL.RETRY_WARN : Fld := ⟨CPU_RAS_CTL, 7, 0⟩

/-- CPU_RAS_ALARM, block CPU, offset 0x8 (R540). -/
abbrev CPU_RAS_ALARM : Nat := 2 * 0x10000000 + 0x8
abbrev CPU_RAS_ALARM.PREEMPT : Fld := ⟨CPU_RAS_ALARM, 6, 6⟩
abbrev CPU_RAS_ALARM.CMD_REFUSED : Fld := ⟨CPU_RAS_ALARM, 5, 5⟩
abbrev CPU_RAS_ALARM.LOST : Fld := ⟨CPU_RAS_ALARM, 4, 4⟩
abbrev CPU_RAS_ALARM.TAKEOVER : Fld := ⟨CPU_RAS_ALARM, 3, 3⟩
abbrev CPU_RAS_ALARM.KEEP_CE : Fld := ⟨CPU_RAS_ALARM, 2, 2⟩
abbrev CPU_RAS_ALARM.RETRY_WARN : Fld := ⟨CPU_RAS_ALARM, 1, 1⟩
abbrev CPU_RAS_ALARM.CFG_ERR : Fld := ⟨CPU_RAS_ALARM, 0, 0⟩

/-- CPU_SPARE_CMD, block CPU, offset 0x10 (R540). -/
abbrev CPU_SPARE_CMD : Nat := 2 * 0x10000000 + 0x10
abbrev CPU_SPARE_CMD.GO : Fld := ⟨CPU_SPARE_CMD, 31, 31⟩
abbrev CPU_SPARE_CMD.LCORE : Fld := ⟨CPU_SPARE_CMD, 7, 0⟩

/-- CPU_CACHE_CTL, block CPU, offset 0x18 (R540). -/
abbrev CPU_CACHE_CTL : Nat := 2 * 0x10000000 + 0x18
abbrev CPU_CACHE_CTL.L2_THRESH : Fld := ⟨CPU_CACHE_CTL, 15, 8⟩
abbrev CPU_CACHE_CTL.L1_THRESH : Fld := ⟨CPU_CACHE_CTL, 7, 0⟩

/-- CPU_CACHE_ALARM, block CPU, offset 0x20 (R540). -/
abbrev CPU_CACHE_ALARM : Nat := 2 * 0x10000000 + 0x20
abbrev CPU_CACHE_ALARM.VB_OFF : Fld := ⟨CPU_CACHE_ALARM, 3, 3⟩
abbrev CPU_CACHE_ALARM.VB_RET : Fld := ⟨CPU_CACHE_ALARM, 2, 2⟩
abbrev CPU_CACHE_ALARM.L2_RET : Fld := ⟨CPU_CACHE_ALARM, 1, 1⟩
abbrev CPU_CACHE_ALARM.L1_RET : Fld := ⟨CPU_CACHE_ALARM, 0, 0⟩

/-- CPU_SPARE_MAPn, block CPU, offset 0x100 (R540). -/
abbrev CPU_SPARE_MAPn (n : Nat) : Nat := 2 * 0x10000000 + 0x100 + n * 0x8
abbrev CPU_SPARE_MAPn.FAILED (n : Nat) : Fld := ⟨(CPU_SPARE_MAPn n), 48, 40⟩
abbrev CPU_SPARE_MAPn.SPARE (n : Nat) : Fld := ⟨(CPU_SPARE_MAPn n), 35, 32⟩
abbrev CPU_SPARE_MAPn.LC (n : Nat) : Fld := ⟨(CPU_SPARE_MAPn n), 31, 0⟩

/-- CPU_CORE_STATUSc, block CPU, offset 0x1000 (R540). -/
abbrev CPU_CORE_STATUSc (c : Nat) : Nat := 2 * 0x10000000 + 0x1000 + c * 0x8
abbrev CPU_CORE_STATUSc.RETRIES (c : Nat) : Fld := ⟨(CPU_CORE_STATUSc c), 63, 32⟩
abbrev CPU_CORE_STATUSc.TILE (c : Nat) : Fld := ⟨(CPU_CORE_STATUSc c), 23, 20⟩
abbrev CPU_CORE_STATUSc.REASON (c : Nat) : Fld := ⟨(CPU_CORE_STATUSc c), 15, 12⟩
abbrev CPU_CORE_STATUSc.FAILS (c : Nat) : Fld := ⟨(CPU_CORE_STATUSc c), 11, 10⟩
abbrev CPU_CORE_STATUSc.WARN (c : Nat) : Fld := ⟨(CPU_CORE_STATUSc c), 9, 9⟩
abbrev CPU_CORE_STATUSc.UNPROT (c : Nat) : Fld := ⟨(CPU_CORE_STATUSc c), 8, 8⟩
abbrev CPU_CORE_STATUSc.STATE (c : Nat) : Fld := ⟨(CPU_CORE_STATUSc c), 2, 0⟩

/-- CPU_SPEC_CTLc, block CPU, offset 0x2000 (R540). -/
abbrev CPU_SPEC_CTLc (c : Nat) : Nat := 2 * 0x10000000 + 0x2000 + c * 0x8
abbrev CPU_SPEC_CTLc.SAFE_MISS_ENDP (c : Nat) : Fld := ⟨(CPU_SPEC_CTLc c), 4, 4⟩
abbrev CPU_SPEC_CTLc.SAFE_MISS_TEXT (c : Nat) : Fld := ⟨(CPU_SPEC_CTLc c), 3, 3⟩
abbrev CPU_SPEC_CTLc.SSB_OFF (c : Nat) : Fld := ⟨(CPU_SPEC_CTLc c), 2, 2⟩
abbrev CPU_SPEC_CTLc.SCRUB_ATP (c : Nat) : Fld := ⟨(CPU_SPEC_CTLc c), 1, 1⟩
abbrev CPU_SPEC_CTLc.SCRUB_TRAP (c : Nat) : Fld := ⟨(CPU_SPEC_CTLc c), 0, 0⟩

/-- CPU_CACHE_RETs, block CPU, offset 0x3000 (R540). -/
abbrev CPU_CACHE_RETs (s : Nat) : Nat := 2 * 0x10000000 + 0x3000 + s * 0x8
abbrev CPU_CACHE_RETs.VB (s : Nat) : Fld := ⟨(CPU_CACHE_RETs s), 47, 32⟩
abbrev CPU_CACHE_RETs.L2 (s : Nat) : Fld := ⟨(CPU_CACHE_RETs s), 31, 16⟩
abbrev CPU_CACHE_RETs.L1I (s : Nat) : Fld := ⟨(CPU_CACHE_RETs s), 15, 8⟩
abbrev CPU_CACHE_RETs.L1D (s : Nat) : Fld := ⟨(CPU_CACHE_RETs s), 7, 0⟩

/-- CPU_KEEP_CSRi, block CPU, offset 0x8000 (R540). -/
abbrev CPU_KEEP_CSRi (i : Nat) : Nat := 2 * 0x10000000 + 0x8000 + i * 0x8
abbrev CPU_KEEP_CSRi.VALID (i : Nat) : Fld := ⟨(CPU_KEEP_CSRi i), 63, 63⟩
abbrev CPU_KEEP_CSRi.BANK (i : Nat) : Fld := ⟨(CPU_KEEP_CSRi i), 12, 12⟩
abbrev CPU_KEEP_CSRi.CSR (i : Nat) : Fld := ⟨(CPU_KEEP_CSRi i), 11, 0⟩

/-- L3_RAS_CTL, block L3, offset 0x0 (R540). -/
abbrev L3_RAS_CTL : Nat := 3 * 0x10000000 + 0x0
abbrev L3_RAS_CTL.SLICE_LIMIT : Fld := ⟨L3_RAS_CTL, 11, 8⟩
abbrev L3_RAS_CTL.WAY_THRESH : Fld := ⟨L3_RAS_CTL, 7, 0⟩

/-- L3_RAS_ALARM, block L3, offset 0x8 (R540). -/
abbrev L3_RAS_ALARM : Nat := 3 * 0x10000000 + 0x8
abbrev L3_RAS_ALARM.CMD_REFUSED : Fld := ⟨L3_RAS_ALARM, 4, 4⟩
abbrev L3_RAS_ALARM.SLICE_RETIRED : Fld := ⟨L3_RAS_ALARM, 3, 3⟩
abbrev L3_RAS_ALARM.SLICE_RETIRING : Fld := ⟨L3_RAS_ALARM, 2, 2⟩
abbrev L3_RAS_ALARM.WAY_RET : Fld := ⟨L3_RAS_ALARM, 1, 1⟩
abbrev L3_RAS_ALARM.CFG_ERR : Fld := ⟨L3_RAS_ALARM, 0, 0⟩

/-- L3_SLICE_CMD, block L3, offset 0x10 (R540). -/
abbrev L3_SLICE_CMD : Nat := 3 * 0x10000000 + 0x10
abbrev L3_SLICE_CMD.GO : Fld := ⟨L3_SLICE_CMD, 31, 31⟩
abbrev L3_SLICE_CMD.SLICE : Fld := ⟨L3_SLICE_CMD, 7, 0⟩

/-- L3_COH_CTL, block L3, offset 0x18 (R540). -/
abbrev L3_COH_CTL : Nat := 3 * 0x10000000 + 0x18
abbrev L3_COH_CTL.DIR_WARN : Fld := ⟨L3_COH_CTL, 31, 16⟩
abbrev L3_COH_CTL.SNOOP_TO : Fld := ⟨L3_COH_CTL, 7, 0⟩

/-- L3_COH_ALARM, block L3, offset 0x20 (R540). -/
abbrev L3_COH_ALARM : Nat := 3 * 0x10000000 + 0x20
abbrev L3_COH_ALARM.MODULE_LOST : Fld := ⟨L3_COH_ALARM, 3, 3⟩
abbrev L3_COH_ALARM.DIR_RECOVER : Fld := ⟨L3_COH_ALARM, 2, 2⟩
abbrev L3_COH_ALARM.SNOOP_TO : Fld := ⟨L3_COH_ALARM, 1, 1⟩
abbrev L3_COH_ALARM.DIR_WARN : Fld := ⟨L3_COH_ALARM, 0, 0⟩

/-- L3_SLICE_STATUSs, block L3, offset 0x1000 (R540). -/
abbrev L3_SLICE_STATUSs (s : Nat) : Nat := 3 * 0x10000000 + 0x1000 + s * 0x8
abbrev L3_SLICE_STATUSs.CE_COUNT (s : Nat) : Fld := ⟨(L3_SLICE_STATUSs s), 63, 48⟩
abbrev L3_SLICE_STATUSs.ENTRIES (s : Nat) : Fld := ⟨(L3_SLICE_STATUSs s), 43, 32⟩
abbrev L3_SLICE_STATUSs.WAYS_RET (s : Nat) : Fld := ⟨(L3_SLICE_STATUSs s), 27, 16⟩
abbrev L3_SLICE_STATUSs.STATE (s : Nat) : Fld := ⟨(L3_SLICE_STATUSs s), 2, 0⟩

/-- L3_DIR_STATUSs, block L3, offset 0x2000 (R540). -/
abbrev L3_DIR_STATUSs (s : Nat) : Nat := 3 * 0x10000000 + 0x2000 + s * 0x8
abbrev L3_DIR_STATUSs.EVICT (s : Nat) : Fld := ⟨(L3_DIR_STATUSs s), 63, 32⟩
abbrev L3_DIR_STATUSs.RECOVER (s : Nat) : Fld := ⟨(L3_DIR_STATUSs s), 31, 16⟩
abbrev L3_DIR_STATUSs.BUSY (s : Nat) : Fld := ⟨(L3_DIR_STATUSs s), 7, 0⟩

/-- L3_HOME_TABLEj, block L3, offset 0x4000 (R540). -/
abbrev L3_HOME_TABLEj (j : Nat) : Nat := 3 * 0x10000000 + 0x4000 + j * 0x8
abbrev L3_HOME_TABLEj.SLICES (j : Nat) : Fld := ⟨(L3_HOME_TABLEj j), 63, 0⟩

/-- L3_HOME_SHADOWj, block L3, offset 0x6000 (R540). -/
abbrev L3_HOME_SHADOWj (j : Nat) : Nat := 3 * 0x10000000 + 0x6000 + j * 0x8
abbrev L3_HOME_SHADOWj.SLICES (j : Nat) : Fld := ⟨(L3_HOME_SHADOWj j), 63, 0⟩

/-- MESH_CTL, block MESH, offset 0x0 (R540). -/
abbrev MESH_CTL : Nat := 4 * 0x10000000 + 0x0
abbrev MESH_CTL.UE_LIMIT : Fld := ⟨MESH_CTL, 3, 0⟩

/-- MESH_ALARM, block MESH, offset 0x8 (R540). -/
abbrev MESH_ALARM : Nat := 4 * 0x10000000 + 0x8
abbrev MESH_ALARM.XLIMIT : Fld := ⟨MESH_ALARM, 5, 5⟩
abbrev MESH_ALARM.XDIFF : Fld := ⟨MESH_ALARM, 4, 4⟩
abbrev MESH_ALARM.ROUTER_RET : Fld := ⟨MESH_ALARM, 3, 3⟩
abbrev MESH_ALARM.LINK_RET : Fld := ⟨MESH_ALARM, 2, 2⟩
abbrev MESH_ALARM.LINK_UE : Fld := ⟨MESH_ALARM, 1, 1⟩
abbrev MESH_ALARM.CFG_ERR : Fld := ⟨MESH_ALARM, 0, 0⟩

/-- MESH_RET_Hd, block MESH, offset 0x100 (R540). -/
abbrev MESH_RET_Hd (d : Nat) : Nat := 4 * 0x10000000 + 0x100 + d * 0x10
abbrev MESH_RET_Hd.RET (d : Nat) : Fld := ⟨(MESH_RET_Hd d), 63, 0⟩

/-- MESH_RET_Vd, block MESH, offset 0x108 (R540). -/
abbrev MESH_RET_Vd (d : Nat) : Nat := 4 * 0x10000000 + 0x108 + d * 0x10
abbrev MESH_RET_Vd.RET (d : Nat) : Fld := ⟨(MESH_RET_Vd d), 63, 0⟩

/-- MESH_LINKSd, block MESH, offset 0x140 (R540). -/
abbrev MESH_LINKSd (d : Nat) : Nat := 4 * 0x10000000 + 0x140 + d * 0x8
abbrev MESH_LINKSd.UE (d : Nat) : Fld := ⟨(MESH_LINKSd d), 63, 32⟩
abbrev MESH_LINKSd.CE (d : Nat) : Fld := ⟨(MESH_LINKSd d), 31, 0⟩

/-- MESH_DLINKk_STATUS, block MESH, offset 0x200 (R540). -/
abbrev MESH_DLINKk_STATUS (k : Nat) : Nat := 4 * 0x10000000 + 0x200 + k * 0x8
abbrev MESH_DLINKk_STATUS.REPLAYS (k : Nat) : Fld := ⟨(MESH_DLINKk_STATUS k), 63, 48⟩
abbrev MESH_DLINKk_STATUS.TDIFF (k : Nat) : Fld := ⟨(MESH_DLINKk_STATUS k), 39, 32⟩
abbrev MESH_DLINKk_STATUS.VDIFF (k : Nat) : Fld := ⟨(MESH_DLINKk_STATUS k), 31, 16⟩
abbrev MESH_DLINKk_STATUS.STATE (k : Nat) : Fld := ⟨(MESH_DLINKk_STATUS k), 1, 0⟩

/-- MC_CTL, block MC, offset 0x0 (R540). -/
abbrev MC_CTL : Nat := 5 * 0x10000000 + 0x0
abbrev MC_CTL.DERATE : Fld := ⟨MC_CTL, 15, 8⟩
abbrev MC_CTL.SR_IDLE : Fld := ⟨MC_CTL, 7, 0⟩

/-- MC_ALARM, block MC, offset 0x8 (R540). -/
abbrev MC_ALARM : Nat := 5 * 0x10000000 + 0x8
abbrev MC_ALARM.COPY_PAUSED : Fld := ⟨MC_ALARM, 9, 9⟩
abbrev MC_ALARM.SHED_SCALE : Fld := ⟨MC_ALARM, 8, 8⟩
abbrev MC_ALARM.SHED_SURPLUS : Fld := ⟨MC_ALARM, 7, 7⟩
abbrev MC_ALARM.BWR_REFUSED : Fld := ⟨MC_ALARM, 6, 6⟩
abbrev MC_ALARM.RESILVER_DONE : Fld := ⟨MC_ALARM, 5, 5⟩
abbrev MC_ALARM.MIR_ALONE : Fld := ⟨MC_ALARM, 4, 4⟩
abbrev MC_ALARM.CH_FAIL : Fld := ⟨MC_ALARM, 3, 3⟩
abbrev MC_ALARM.ILV_BAD : Fld := ⟨MC_ALARM, 2, 2⟩
abbrev MC_ALARM.CMD_REFUSED : Fld := ⟨MC_ALARM, 1, 1⟩
abbrev MC_ALARM.CFG_ERR : Fld := ⟨MC_ALARM, 0, 0⟩

/-- MC_CHAN_CMD, block MC, offset 0x10 (R540). -/
abbrev MC_CHAN_CMD : Nat := 5 * 0x10000000 + 0x10
abbrev MC_CHAN_CMD.GO : Fld := ⟨MC_CHAN_CMD, 31, 31⟩
abbrev MC_CHAN_CMD.OP : Fld := ⟨MC_CHAN_CMD, 9, 8⟩
abbrev MC_CHAN_CMD.CHAN : Fld := ⟨MC_CHAN_CMD, 3, 0⟩

/-- MC_BWR_TOTAL, block MC, offset 0x18 (R540). -/
abbrev MC_BWR_TOTAL : Nat := 5 * 0x10000000 + 0x18
abbrev MC_BWR_TOTAL.DERATED : Fld := ⟨MC_BWR_TOTAL, 47, 32⟩
abbrev MC_BWR_TOTAL.ADMITTED : Fld := ⟨MC_BWR_TOTAL, 31, 16⟩
abbrev MC_BWR_TOTAL.LIMIT : Fld := ⟨MC_BWR_TOTAL, 15, 0⟩

/-- MC_CHk_STATUS, block MC, offset 0x100 (R540). -/
abbrev MC_CHk_STATUS (k : Nat) : Nat := 5 * 0x10000000 + 0x100 + k * 0x8
abbrev MC_CHk_STATUS.CAP (k : Nat) : Fld := ⟨(MC_CHk_STATUS k), 47, 32⟩
abbrev MC_CHk_STATUS.RATE (k : Nat) : Fld := ⟨(MC_CHk_STATUS k), 31, 24⟩
abbrev MC_CHk_STATUS.SR (k : Nat) : Fld := ⟨(MC_CHk_STATUS k), 12, 12⟩
abbrev MC_CHk_STATUS.DIMMS (k : Nat) : Fld := ⟨(MC_CHk_STATUS k), 11, 10⟩
abbrev MC_CHk_STATUS.TYPE (k : Nat) : Fld := ⟨(MC_CHk_STATUS k), 9, 8⟩
abbrev MC_CHk_STATUS.PRIMARY (k : Nat) : Fld := ⟨(MC_CHk_STATUS k), 4, 4⟩
abbrev MC_CHk_STATUS.STATE (k : Nat) : Fld := ⟨(MC_CHk_STATUS k), 3, 0⟩

/-- MC_ILVr, block MC, offset 0x200 (R540). -/
abbrev MC_ILVr (r : Nat) : Nat := 5 * 0x10000000 + 0x200 + r * 0x10
abbrev MC_ILVr.VALID (r : Nat) : Fld := ⟨(MC_ILVr r), 63, 63⟩
abbrev MC_ILVr.MIR (r : Nat) : Fld := ⟨(MC_ILVr r), 62, 62⟩
abbrev MC_ILVr.WAYS (r : Nat) : Fld := ⟨(MC_ILVr r), 58, 56⟩
abbrev MC_ILVr.FIRST (r : Nat) : Fld := ⟨(MC_ILVr r), 55, 52⟩
abbrev MC_ILVr.SIZE (r : Nat) : Fld := ⟨(MC_ILVr r), 31, 16⟩
abbrev MC_ILVr.BASE (r : Nat) : Fld := ⟨(MC_ILVr r), 15, 0⟩

/-- MC_ILVr_SHADOW, block MC, offset 0x208 (R540). -/
abbrev MC_ILVr_SHADOW (r : Nat) : Nat := 5 * 0x10000000 + 0x208 + r * 0x10
abbrev MC_ILVr_SHADOW.VALID (r : Nat) : Fld := ⟨(MC_ILVr_SHADOW r), 63, 63⟩
abbrev MC_ILVr_SHADOW.MIR (r : Nat) : Fld := ⟨(MC_ILVr_SHADOW r), 62, 62⟩
abbrev MC_ILVr_SHADOW.WAYS (r : Nat) : Fld := ⟨(MC_ILVr_SHADOW r), 58, 56⟩
abbrev MC_ILVr_SHADOW.FIRST (r : Nat) : Fld := ⟨(MC_ILVr_SHADOW r), 55, 52⟩
abbrev MC_ILVr_SHADOW.SIZE (r : Nat) : Fld := ⟨(MC_ILVr_SHADOW r), 31, 16⟩
abbrev MC_ILVr_SHADOW.BASE (r : Nat) : Fld := ⟨(MC_ILVr_SHADOW r), 15, 0⟩

/-- MC_BWR_ENTRYe, block MC, offset 0x1000 (R540). -/
abbrev MC_BWR_ENTRYe (e : Nat) : Nat := 5 * 0x10000000 + 0x1000 + e * 0x8
abbrev MC_BWR_ENTRYe.WEIGHT (e : Nat) : Fld := ⟨(MC_BWR_ENTRYe e), 55, 48⟩
abbrev MC_BWR_ENTRYe.GRANT (e : Nat) : Fld := ⟨(MC_BWR_ENTRYe e), 47, 32⟩
abbrev MC_BWR_ENTRYe.FLOOR (e : Nat) : Fld := ⟨(MC_BWR_ENTRYe e), 15, 0⟩

/-- MG_ALARM, block MG, offset 0x0 (R540). -/
abbrev MG_ALARM : Nat := 6 * 0x10000000 + 0x0
abbrev MG_ALARM.DENIED_WRITE : Fld := ⟨MG_ALARM, 2, 2⟩
abbrev MG_ALARM.REFUSED : Fld := ⟨MG_ALARM, 1, 1⟩
abbrev MG_ALARM.CFG_ERR : Fld := ⟨MG_ALARM, 0, 0⟩

/-- MG_FAULT, block MG, offset 0x8 (R540). -/
abbrev MG_FAULT : Nat := 6 * 0x10000000 + 0x8
abbrev MG_FAULT.VALID : Fld := ⟨MG_FAULT, 63, 63⟩
abbrev MG_FAULT.GUARD : Fld := ⟨MG_FAULT, 62, 60⟩
abbrev MG_FAULT.WORLD : Fld := ⟨MG_FAULT, 59, 59⟩
abbrev MG_FAULT.WRITE : Fld := ⟨MG_FAULT, 58, 58⟩
abbrev MG_FAULT.LINE : Fld := ⟨MG_FAULT, 51, 6⟩

/-- MG_CTLg, block MG, offset 0x1000 (R540). -/
abbrev MG_CTLg (g : Nat) : Nat := 6 * 0x10000000 + 0x1000 + g * 0x1000
abbrev MG_CTLg.LOCK (g : Nat) : Fld := ⟨(MG_CTLg g), 8, 8⟩
abbrev MG_CTLg.DEF_SHADOW (g : Nat) : Fld := ⟨(MG_CTLg g), 7, 4⟩
abbrev MG_CTLg.DEF (g : Nat) : Fld := ⟨(MG_CTLg g), 3, 0⟩

/-- MG_RBASEg_n, block MG, offset 0x1100 (R540). -/
abbrev MG_RBASEg_n (g n : Nat) : Nat := 6 * 0x10000000 + 0x1100 + g * 0x1000 + n * 0x20
abbrev MG_RBASEg_n.EN (g n : Nat) : Fld := ⟨(MG_RBASEg_n g n), 63, 63⟩
abbrev MG_RBASEg_n.PERM (g n : Nat) : Fld := ⟨(MG_RBASEg_n g n), 55, 52⟩
abbrev MG_RBASEg_n.BASE (g n : Nat) : Fld := ⟨(MG_RBASEg_n g n), 51, 12⟩

/-- MG_RBASEg_n_SHADOW, block MG, offset 0x1110 (R540). -/
abbrev MG_RBASEg_n_SHADOW (g n : Nat) : Nat := 6 * 0x10000000 + 0x1110 + g * 0x1000 + n * 0x20
abbrev MG_RBASEg_n_SHADOW.EN (g n : Nat) : Fld := ⟨(MG_RBASEg_n_SHADOW g n), 63, 63⟩
abbrev MG_RBASEg_n_SHADOW.PERM (g n : Nat) : Fld := ⟨(MG_RBASEg_n_SHADOW g n), 55, 52⟩
abbrev MG_RBASEg_n_SHADOW.BASE (g n : Nat) : Fld := ⟨(MG_RBASEg_n_SHADOW g n), 51, 12⟩

/-- MG_RLIMg_n, block MG, offset 0x1108 (R540). -/
abbrev MG_RLIMg_n (g n : Nat) : Nat := 6 * 0x10000000 + 0x1108 + g * 0x1000 + n * 0x20
abbrev MG_RLIMg_n.LIMIT (g n : Nat) : Fld := ⟨(MG_RLIMg_n g n), 51, 12⟩

/-- MG_RLIMg_n_SHADOW, block MG, offset 0x1118 (R540). -/
abbrev MG_RLIMg_n_SHADOW (g n : Nat) : Nat := 6 * 0x10000000 + 0x1118 + g * 0x1000 + n * 0x20
abbrev MG_RLIMg_n_SHADOW.LIMIT (g n : Nat) : Fld := ⟨(MG_RLIMg_n_SHADOW g n), 51, 12⟩

/-- SCR_CTL, block SCR, offset 0x0 (R540). -/
abbrev SCR_CTL : Nat := 7 * 0x10000000 + 0x0
abbrev SCR_CTL.LAP_CEIL : Fld := ⟨SCR_CTL, 63, 48⟩
abbrev SCR_CTL.EN : Fld := ⟨SCR_CTL, 16, 16⟩
abbrev SCR_CTL.BURST : Fld := ⟨SCR_CTL, 15, 8⟩
abbrev SCR_CTL.PERIOD : Fld := ⟨SCR_CTL, 7, 4⟩
abbrev SCR_CTL.ROW_THRESH : Fld := ⟨SCR_CTL, 3, 0⟩

/-- SCR_ALARM, block SCR, offset 0x8 (R540). -/
abbrev SCR_ALARM : Nat := 7 * 0x10000000 + 0x8
abbrev SCR_ALARM.TEST_REFUSED : Fld := ⟨SCR_ALARM, 8, 8⟩
abbrev SCR_ALARM.ROW_FULL : Fld := ⟨SCR_ALARM, 7, 7⟩
abbrev SCR_ALARM.ROW_REPAIR : Fld := ⟨SCR_ALARM, 6, 6⟩
abbrev SCR_ALARM.DIVERGE : Fld := ⟨SCR_ALARM, 5, 5⟩
abbrev SCR_ALARM.LAP_WARN : Fld := ⟨SCR_ALARM, 4, 4⟩
abbrev SCR_ALARM.FILL_DONE : Fld := ⟨SCR_ALARM, 3, 3⟩
abbrev SCR_ALARM.UE : Fld := ⟨SCR_ALARM, 2, 2⟩
abbrev SCR_ALARM.CE : Fld := ⟨SCR_ALARM, 1, 1⟩
abbrev SCR_ALARM.CFG_ERR : Fld := ⟨SCR_ALARM, 0, 0⟩

/-- SCR_FILL_STATUS, block SCR, offset 0x10 (R540). -/
abbrev SCR_FILL_STATUS : Nat := 7 * 0x10000000 + 0x10
abbrev SCR_FILL_STATUS.DONE : Fld := ⟨SCR_FILL_STATUS, 47, 32⟩
abbrev SCR_FILL_STATUS.ELAPSED : Fld := ⟨SCR_FILL_STATUS, 31, 8⟩
abbrev SCR_FILL_STATUS.STATE : Fld := ⟨SCR_FILL_STATUS, 1, 0⟩

/-- SCR_CHk_STATUS, block SCR, offset 0x100 (R540). -/
abbrev SCR_CHk_STATUS (k : Nat) : Nat := 7 * 0x10000000 + 0x100 + k * 0x10
abbrev SCR_CHk_STATUS.LAST_LAP (k : Nat) : Fld := ⟨(SCR_CHk_STATUS k), 63, 32⟩
abbrev SCR_CHk_STATUS.PROGRESS (k : Nat) : Fld := ⟨(SCR_CHk_STATUS k), 31, 24⟩
abbrev SCR_CHk_STATUS.ROWS (k : Nat) : Fld := ⟨(SCR_CHk_STATUS k), 23, 16⟩
abbrev SCR_CHk_STATUS.REPAIRING (k : Nat) : Fld := ⟨(SCR_CHk_STATUS k), 0, 0⟩

/-- SCR_CHk_COUNTS, block SCR, offset 0x108 (R540). -/
abbrev SCR_CHk_COUNTS (k : Nat) : Nat := 7 * 0x10000000 + 0x108 + k * 0x10
abbrev SCR_CHk_COUNTS.CE (k : Nat) : Fld := ⟨(SCR_CHk_COUNTS k), 63, 32⟩
abbrev SCR_CHk_COUNTS.UE (k : Nat) : Fld := ⟨(SCR_CHk_COUNTS k), 31, 16⟩
abbrev SCR_CHk_COUNTS.DIVERGE (k : Nat) : Fld := ⟨(SCR_CHk_COUNTS k), 15, 0⟩

/-- SCR_TEST_ADDR, block SCR, offset 0x800 (R540). -/
abbrev SCR_TEST_ADDR : Nat := 7 * 0x10000000 + 0x800
abbrev SCR_TEST_ADDR.LINE : Fld := ⟨SCR_TEST_ADDR, 51, 6⟩

/-- SCR_TEST_CTL, block SCR, offset 0x808 (R540). -/
abbrev SCR_TEST_CTL : Nat := 7 * 0x10000000 + 0x808
abbrev SCR_TEST_CTL.GO : Fld := ⟨SCR_TEST_CTL, 31, 31⟩
abbrev SCR_TEST_CTL.RESULT : Fld := ⟨SCR_TEST_CTL, 17, 16⟩
abbrev SCR_TEST_CTL.DEVICE : Fld := ⟨SCR_TEST_CTL, 15, 12⟩
abbrev SCR_TEST_CTL.BUSY : Fld := ⟨SCR_TEST_CTL, 11, 11⟩
abbrev SCR_TEST_CTL.COPY : Fld := ⟨SCR_TEST_CTL, 9, 9⟩
abbrev SCR_TEST_CTL.OP : Fld := ⟨SCR_TEST_CTL, 8, 8⟩

/-- SCR_TEST_DATAi, block SCR, offset 0x810 (R540). -/
abbrev SCR_TEST_DATAi (i : Nat) : Nat := 7 * 0x10000000 + 0x810 + i * 0x8
abbrev SCR_TEST_DATAi.DATA (i : Nat) : Fld := ⟨(SCR_TEST_DATAi i), 63, 0⟩

/-- SCR_TEST_CHECKj, block SCR, offset 0x850 (R540). -/
abbrev SCR_TEST_CHECKj (j : Nat) : Nat := 7 * 0x10000000 + 0x850 + j * 0x8
abbrev SCR_TEST_CHECKj.CHECK (j : Nat) : Fld := ⟨(SCR_TEST_CHECKj j), 63, 0⟩

/-- CSS_CTL, block CSS, offset 0x0 (R540). -/
abbrev CSS_CTL : Nat := 8 * 0x10000000 + 0x0
abbrev CSS_CTL.AFTER_WINDOW : Fld := ⟨CSS_CTL, 31, 16⟩
abbrev CSS_CTL.CTO_LIMIT : Fld := ⟨CSS_CTL, 15, 8⟩
abbrev CSS_CTL.REISSUE : Fld := ⟨CSS_CTL, 3, 0⟩

/-- CSS_ALARM, block CSS, offset 0x8 (R540). -/
abbrev CSS_ALARM : Nat := 8 * 0x10000000 + 0x8
abbrev CSS_ALARM.ENABLE_REFUSED : Fld := ⟨CSS_ALARM, 11, 11⟩
abbrev CSS_ALARM.DIE_STOPPED : Fld := ⟨CSS_ALARM, 10, 10⟩
abbrev CSS_ALARM.COMMANDS_LOST : Fld := ⟨CSS_ALARM, 9, 9⟩
abbrev CSS_ALARM.JOURNAL_REBUILT : Fld := ⟨CSS_ALARM, 8, 8⟩
abbrev CSS_ALARM.JOURNAL_ALONE : Fld := ⟨CSS_ALARM, 7, 7⟩
abbrev CSS_ALARM.AFTER_OVERFLOW : Fld := ⟨CSS_ALARM, 6, 6⟩
abbrev CSS_ALARM.AFTER : Fld := ⟨CSS_ALARM, 5, 5⟩
abbrev CSS_ALARM.PATH_FAILED : Fld := ⟨CSS_ALARM, 4, 4⟩
abbrev CSS_ALARM.INDETERMINATE : Fld := ⟨CSS_ALARM, 3, 3⟩
abbrev CSS_ALARM.QUEUE_ERROR : Fld := ⟨CSS_ALARM, 2, 2⟩
abbrev CSS_ALARM.BUSY_WRITE : Fld := ⟨CSS_ALARM, 1, 1⟩
abbrev CSS_ALARM.CFG_ERR : Fld := ⟨CSS_ALARM, 0, 0⟩

/-- CSS_JOURNAL, block CSS, offset 0x10 (R540). -/
abbrev CSS_JOURNAL : Nat := 8 * 0x10000000 + 0x10
abbrev CSS_JOURNAL.IN_USE : Fld := ⟨CSS_JOURNAL, 51, 32⟩
abbrev CSS_JOURNAL.REBUILD : Fld := ⟨CSS_JOURNAL, 31, 24⟩
abbrev CSS_JOURNAL.COPY1 : Fld := ⟨CSS_JOURNAL, 3, 2⟩
abbrev CSS_JOURNAL.COPY0 : Fld := ⟨CSS_JOURNAL, 1, 0⟩

/-- CSS_ARB_CTL, block CSS, offset 0x18 (R540). -/
abbrev CSS_ARB_CTL : Nat := 8 * 0x10000000 + 0x18
abbrev CSS_ARB_CTL.BURST_MOVER : Fld := ⟨CSS_ARB_CTL, 22, 16⟩
abbrev CSS_ARB_CTL.BURST_PORT : Fld := ⟨CSS_ARB_CTL, 14, 8⟩
abbrev CSS_ARB_CTL.BURST_ENGINE : Fld := ⟨CSS_ARB_CTL, 6, 0⟩

/-- CSS_INST_ALARM, block CSS, offset 0x20 (R540). -/
abbrev CSS_INST_ALARM : Nat := 8 * 0x10000000 + 0x20
abbrev CSS_INST_ALARM.CMD_REFUSED : Fld := ⟨CSS_INST_ALARM, 4, 4⟩
abbrev CSS_INST_ALARM.UNREPORTED : Fld := ⟨CSS_INST_ALARM, 3, 3⟩
abbrev CSS_INST_ALARM.REMOVED : Fld := ⟨CSS_INST_ALARM, 2, 2⟩
abbrev CSS_INST_ALARM.RESET_DONE : Fld := ⟨CSS_INST_ALARM, 1, 1⟩
abbrev CSS_INST_ALARM.BIND_REFUSED : Fld := ⟨CSS_INST_ALARM, 0, 0⟩

/-- CSS_SIi_TGTt_PATHp, block CSS, offset 0x200000 (R540). -/
abbrev CSS_SIi_TGTt_PATHp (i t p : Nat) : Nat := 8 * 0x10000000 + 0x200000 + i * 0x200 + t * 0x20 + p * 0x8
abbrev CSS_SIi_TGTt_PATHp.STATE (i t p : Nat) : Fld := ⟨(CSS_SIi_TGTt_PATHp i t p), 63, 62⟩
abbrev CSS_SIi_TGTt_PATHp.RETIRE (i t p : Nat) : Fld := ⟨(CSS_SIi_TGTt_PATHp i t p), 61, 61⟩
abbrev CSS_SIi_TGTt_PATHp.VALID (i t p : Nat) : Fld := ⟨(CSS_SIi_TGTt_PATHp i t p), 60, 60⟩
abbrev CSS_SIi_TGTt_PATHp.PORT (i t p : Nat) : Fld := ⟨(CSS_SIi_TGTt_PATHp i t p), 44, 38⟩
abbrev CSS_SIi_TGTt_PATHp.OFFSET (i t p : Nat) : Fld := ⟨(CSS_SIi_TGTt_PATHp i t p), 37, 0⟩

/-- CSS_Pp_STRMs, block CSS, offset 0x400000 (R540). -/
abbrev CSS_Pp_STRMs (p s : Nat) : Nat := 8 * 0x10000000 + 0x400000 + p * 0x800 + s * 0x8
abbrev CSS_Pp_STRMs.VALID (p s : Nat) : Fld := ⟨(CSS_Pp_STRMs p s), 63, 63⟩
abbrev CSS_Pp_STRMs.DROP_UNBOUND (p s : Nat) : Fld := ⟨(CSS_Pp_STRMs p s), 55, 48⟩
abbrev CSS_Pp_STRMs.DROP_WAIT (p s : Nat) : Fld := ⟨(CSS_Pp_STRMs p s), 47, 40⟩
abbrev CSS_Pp_STRMs.DROP_LONG (p s : Nat) : Fld := ⟨(CSS_Pp_STRMs p s), 39, 32⟩
abbrev CSS_Pp_STRMs.DROP_PATH (p s : Nat) : Fld := ⟨(CSS_Pp_STRMs p s), 31, 24⟩
abbrev CSS_Pp_STRMs.QUEUE (p s : Nat) : Fld := ⟨(CSS_Pp_STRMs p s), 13, 0⟩

/-- CSS_SIi_BIND, block CSS, offset 0x800000 (R540). -/
abbrev CSS_SIi_BIND (i : Nat) : Nat := 8 * 0x10000000 + 0x800000 + i * 0x100
abbrev CSS_SIi_BIND.WINEN (i : Nat) : Fld := ⟨(CSS_SIi_BIND i), 16, 16⟩
abbrev CSS_SIi_BIND.KIND (i : Nat) : Fld := ⟨(CSS_SIi_BIND i), 9, 8⟩
abbrev CSS_SIi_BIND.FUNC (i : Nat) : Fld := ⟨(CSS_SIi_BIND i), 7, 0⟩

/-- CSS_SIi_CTL, block CSS, offset 0x800008 (R540). -/
abbrev CSS_SIi_CTL (i : Nat) : Nat := 8 * 0x10000000 + 0x800008 + i * 0x100
abbrev CSS_SIi_CTL.REMOVE (i : Nat) : Fld := ⟨(CSS_SIi_CTL i), 1, 1⟩
abbrev CSS_SIi_CTL.RESET (i : Nat) : Fld := ⟨(CSS_SIi_CTL i), 0, 0⟩

/-- CSS_SIi_STATUS, block CSS, offset 0x800010 (R540). -/
abbrev CSS_SIi_STATUS (i : Nat) : Nat := 8 * 0x10000000 + 0x800010 + i * 0x100
abbrev CSS_SIi_STATUS.REPORTED (i : Nat) : Fld := ⟨(CSS_SIi_STATUS i), 42, 32⟩
abbrev CSS_SIi_STATUS.GEN (i : Nat) : Fld := ⟨(CSS_SIi_STATUS i), 15, 8⟩
abbrev CSS_SIi_STATUS.PENDING (i : Nat) : Fld := ⟨(CSS_SIi_STATUS i), 2, 2⟩
abbrev CSS_SIi_STATUS.REMOVING (i : Nat) : Fld := ⟨(CSS_SIi_STATUS i), 1, 1⟩
abbrev CSS_SIi_STATUS.RESETTING (i : Nat) : Fld := ⟨(CSS_SIi_STATUS i), 0, 0⟩

/-- CSS_SIi_TICKETS, block CSS, offset 0x800018 (R540). -/
abbrev CSS_SIi_TICKETS (i : Nat) : Nat := 8 * 0x10000000 + 0x800018 + i * 0x100
abbrev CSS_SIi_TICKETS.TU (i : Nat) : Fld := ⟨(CSS_SIi_TICKETS i), 31, 24⟩
abbrev CSS_SIi_TICKETS.PORT (i : Nat) : Fld := ⟨(CSS_SIi_TICKETS i), 23, 16⟩
abbrev CSS_SIi_TICKETS.MOVER (i : Nat) : Fld := ⟨(CSS_SIi_TICKETS i), 15, 8⟩
abbrev CSS_SIi_TICKETS.ENGINE (i : Nat) : Fld := ⟨(CSS_SIi_TICKETS i), 7, 0⟩

/-- CSS_SIi_TICKETS_SHADOW, block CSS, offset 0x800020 (R540). -/
abbrev CSS_SIi_TICKETS_SHADOW (i : Nat) : Nat := 8 * 0x10000000 + 0x800020 + i * 0x100
abbrev CSS_SIi_TICKETS_SHADOW.TU (i : Nat) : Fld := ⟨(CSS_SIi_TICKETS_SHADOW i), 31, 24⟩
abbrev CSS_SIi_TICKETS_SHADOW.PORT (i : Nat) : Fld := ⟨(CSS_SIi_TICKETS_SHADOW i), 23, 16⟩
abbrev CSS_SIi_TICKETS_SHADOW.MOVER (i : Nat) : Fld := ⟨(CSS_SIi_TICKETS_SHADOW i), 15, 8⟩
abbrev CSS_SIi_TICKETS_SHADOW.ENGINE (i : Nat) : Fld := ⟨(CSS_SIi_TICKETS_SHADOW i), 7, 0⟩

/-- CSS_SIi_RATE, block CSS, offset 0x800028 (R540). -/
abbrev CSS_SIi_RATE (i : Nat) : Nat := 8 * 0x10000000 + 0x800028 + i * 0x100
abbrev CSS_SIi_RATE.CMD_DEPTH (i : Nat) : Fld := ⟨(CSS_SIi_RATE i), 63, 48⟩
abbrev CSS_SIi_RATE.CMD_RATE (i : Nat) : Fld := ⟨(CSS_SIi_RATE i), 47, 32⟩
abbrev CSS_SIi_RATE.BYTE_DEPTH (i : Nat) : Fld := ⟨(CSS_SIi_RATE i), 31, 16⟩
abbrev CSS_SIi_RATE.BYTE_RATE (i : Nat) : Fld := ⟨(CSS_SIi_RATE i), 15, 0⟩

/-- CSS_SIi_RPT, block CSS, offset 0x800030 (R540). -/
abbrev CSS_SIi_RPT (i : Nat) : Nat := 8 * 0x10000000 + 0x800030 + i * 0x100
abbrev CSS_SIi_RPT.BASE (i : Nat) : Fld := ⟨(CSS_SIi_RPT i), 51, 12⟩
abbrev CSS_SIi_RPT.VALID (i : Nat) : Fld := ⟨(CSS_SIi_RPT i), 0, 0⟩

/-- CSS_SIi_COUNTS, block CSS, offset 0x800038 (R540). -/
abbrev CSS_SIi_COUNTS (i : Nat) : Nat := 8 * 0x10000000 + 0x800038 + i * 0x100
abbrev CSS_SIi_COUNTS.LATE_DISCARD (i : Nat) : Fld := ⟨(CSS_SIi_COUNTS i), 63, 32⟩
abbrev CSS_SIi_COUNTS.UNREPORTED (i : Nat) : Fld := ⟨(CSS_SIi_COUNTS i), 31, 24⟩
abbrev CSS_SIi_COUNTS.AFTER_DISCARD (i : Nat) : Fld := ⟨(CSS_SIi_COUNTS i), 23, 16⟩
abbrev CSS_SIi_COUNTS.FRAMES_DROPPED (i : Nat) : Fld := ⟨(CSS_SIi_COUNTS i), 15, 0⟩

/-- CSS_SIi_WINw_BASE, block CSS, offset 0x800040 (R540). -/
abbrev CSS_SIi_WINw_BASE (i w : Nat) : Nat := 8 * 0x10000000 + 0x800040 + i * 0x100 + w * 0x10
abbrev CSS_SIi_WINw_BASE.EN (i w : Nat) : Fld := ⟨(CSS_SIi_WINw_BASE i w), 63, 63⟩
abbrev CSS_SIi_WINw_BASE.BASE (i w : Nat) : Fld := ⟨(CSS_SIi_WINw_BASE i w), 51, 12⟩

/-- CSS_SIi_WINw_LIMIT, block CSS, offset 0x800048 (R540). -/
abbrev CSS_SIi_WINw_LIMIT (i w : Nat) : Nat := 8 * 0x10000000 + 0x800048 + i * 0x100 + w * 0x10
abbrev CSS_SIi_WINw_LIMIT.LIMIT (i w : Nat) : Fld := ⟨(CSS_SIi_WINw_LIMIT i w), 51, 12⟩

/-- CSS_Qq_SQBASE, block CSS, offset 0x1000000 (R540). -/
abbrev CSS_Qq_SQBASE (q : Nat) : Nat := 8 * 0x10000000 + 0x1000000 + q * 0x40
abbrev CSS_Qq_SQBASE.BASE (q : Nat) : Fld := ⟨(CSS_Qq_SQBASE q), 63, 12⟩
abbrev CSS_Qq_SQBASE.HOST (q : Nat) : Fld := ⟨(CSS_Qq_SQBASE q), 0, 0⟩

/-- CSS_Qq_CQBASE, block CSS, offset 0x1000008 (R540). -/
abbrev CSS_Qq_CQBASE (q : Nat) : Nat := 8 * 0x10000000 + 0x1000008 + q * 0x40
abbrev CSS_Qq_CQBASE.BASE (q : Nat) : Fld := ⟨(CSS_Qq_CQBASE q), 63, 12⟩
abbrev CSS_Qq_CQBASE.HOST (q : Nat) : Fld := ⟨(CSS_Qq_CQBASE q), 0, 0⟩

/-- CSS_Qq_CTL, block CSS, offset 0x1000010 (R540). -/
abbrev CSS_Qq_CTL (q : Nat) : Nat := 8 * 0x10000000 + 0x1000010 + q * 0x40
abbrev CSS_Qq_CTL.TIMEOUT (q : Nat) : Fld := ⟨(CSS_Qq_CTL q), 59, 48⟩
abbrev CSS_Qq_CTL.ENGINE (q : Nat) : Fld := ⟨(CSS_Qq_CTL q), 47, 40⟩
abbrev CSS_Qq_CTL.CQ_LOG (q : Nat) : Fld := ⟨(CSS_Qq_CTL q), 36, 32⟩
abbrev CSS_Qq_CTL.SQ_LOG (q : Nat) : Fld := ⟨(CSS_Qq_CTL q), 28, 24⟩
abbrev CSS_Qq_CTL.RESUME (q : Nat) : Fld := ⟨(CSS_Qq_CTL q), 1, 1⟩
abbrev CSS_Qq_CTL.ENABLE (q : Nat) : Fld := ⟨(CSS_Qq_CTL q), 0, 0⟩

/-- CSS_Qq_STATUS, block CSS, offset 0x1000018 (R540). -/
abbrev CSS_Qq_STATUS (q : Nat) : Nat := 8 * 0x10000000 + 0x1000018 + q * 0x40
abbrev CSS_Qq_STATUS.CQ_TAIL (q : Nat) : Fld := ⟨(CSS_Qq_STATUS q), 63, 48⟩
abbrev CSS_Qq_STATUS.SQ_HEAD (q : Nat) : Fld := ⟨(CSS_Qq_STATUS q), 47, 32⟩
abbrev CSS_Qq_STATUS.CAUSES (q : Nat) : Fld := ⟨(CSS_Qq_STATUS q), 25, 21⟩
abbrev CSS_Qq_STATUS.INFLIGHT (q : Nat) : Fld := ⟨(CSS_Qq_STATUS q), 20, 10⟩
abbrev CSS_Qq_STATUS.PHASE (q : Nat) : Fld := ⟨(CSS_Qq_STATUS q), 9, 9⟩
abbrev CSS_Qq_STATUS.ERR_CAUSE (q : Nat) : Fld := ⟨(CSS_Qq_STATUS q), 7, 4⟩
abbrev CSS_Qq_STATUS.STATE (q : Nat) : Fld := ⟨(CSS_Qq_STATUS q), 2, 0⟩

/-- CSS_Qq_PTRS, block CSS, offset 0x1000020 (R540). -/
abbrev CSS_Qq_PTRS (q : Nat) : Nat := 8 * 0x10000000 + 0x1000020 + q * 0x40
abbrev CSS_Qq_PTRS.CQ_HEAD (q : Nat) : Fld := ⟨(CSS_Qq_PTRS q), 63, 48⟩
abbrev CSS_Qq_PTRS.SQ_TAIL (q : Nat) : Fld := ⟨(CSS_Qq_PTRS q), 47, 32⟩
abbrev CSS_Qq_PTRS.DB_DISCARD (q : Nat) : Fld := ⟨(CSS_Qq_PTRS q), 31, 16⟩
abbrev CSS_Qq_PTRS.AFTER_DROP (q : Nat) : Fld := ⟨(CSS_Qq_PTRS q), 15, 8⟩
abbrev CSS_Qq_PTRS.LOST (q : Nat) : Fld := ⟨(CSS_Qq_PTRS q), 7, 0⟩

/-- CSS_Qq_PAUSE, block CSS, offset 0x1000028 (R540). -/
abbrev CSS_Qq_PAUSE (q : Nat) : Nat := 8 * 0x10000000 + 0x1000028 + q * 0x40
abbrev CSS_Qq_PAUSE.INDEX (q : Nat) : Fld := ⟨(CSS_Qq_PAUSE q), 63, 48⟩
abbrev CSS_Qq_PAUSE.OFFSET (q : Nat) : Fld := ⟨(CSS_Qq_PAUSE q), 47, 16⟩
abbrev CSS_Qq_PAUSE.QUIET (q : Nat) : Fld := ⟨(CSS_Qq_PAUSE q), 1, 1⟩
abbrev CSS_Qq_PAUSE.PAUSE (q : Nat) : Fld := ⟨(CSS_Qq_PAUSE q), 0, 0⟩

/-- CE_ALARM, block CE, offset 0x0 (R540). -/
abbrev CE_ALARM : Nat := 9 * 0x10000000 + 0x0
abbrev CE_ALARM.PREEMPT : Fld := ⟨CE_ALARM, 6, 6⟩
abbrev CE_ALARM.NO_SPARE : Fld := ⟨CE_ALARM, 5, 5⟩
abbrev CE_ALARM.TAKEOVER : Fld := ⟨CE_ALARM, 4, 4⟩
abbrev CE_ALARM.HW_FAULT : Fld := ⟨CE_ALARM, 3, 3⟩
abbrev CE_ALARM.PROG_FAULT : Fld := ⟨CE_ALARM, 2, 2⟩
abbrev CE_ALARM.LOAD_REFUSED : Fld := ⟨CE_ALARM, 1, 1⟩
abbrev CE_ALARM.CFG_ERR : Fld := ⟨CE_ALARM, 0, 0⟩

/-- CE_CTLl, block CE, offset 0x1000 (R540). -/
abbrev CE_CTLl (l : Nat) : Nat := 9 * 0x10000000 + 0x1000 + l * 0x20
abbrev CE_CTLl.EXT_EN (l : Nat) : Fld := ⟨(CE_CTLl l), 39, 39⟩
abbrev CE_CTLl.EXT_PORT (l : Nat) : Fld := ⟨(CE_CTLl l), 38, 32⟩
abbrev CE_CTLl.WDOG (l : Nat) : Fld := ⟨(CE_CTLl l), 15, 8⟩
abbrev CE_CTLl.RUN (l : Nat) : Fld := ⟨(CE_CTLl l), 0, 0⟩

/-- CE_STATUSl, block CE, offset 0x1008 (R540). -/
abbrev CE_STATUSl (l : Nat) : Nat := 9 * 0x10000000 + 0x1008 + l * 0x20
abbrev CE_STATUSl.PHYS (l : Nat) : Fld := ⟨(CE_STATUSl l), 56, 48⟩
abbrev CE_STATUSl.FAULT_CODE (l : Nat) : Fld := ⟨(CE_STATUSl l), 47, 40⟩
abbrev CE_STATUSl.HW_CAUSE (l : Nat) : Fld := ⟨(CE_STATUSl l), 39, 36⟩
abbrev CE_STATUSl.START (l : Nat) : Fld := ⟨(CE_STATUSl l), 17, 16⟩
abbrev CE_STATUSl.STATE (l : Nat) : Fld := ⟨(CE_STATUSl l), 2, 0⟩

/-- CE_FAULTl, block CE, offset 0x1010 (R540). -/
abbrev CE_FAULTl (l : Nat) : Nat := 9 * 0x10000000 + 0x1010 + l * 0x20
abbrev CE_FAULTl.VALID (l : Nat) : Fld := ⟨(CE_FAULTl l), 63, 63⟩
abbrev CE_FAULTl.INDEX (l : Nat) : Fld := ⟨(CE_FAULTl l), 61, 48⟩
abbrev CE_FAULTl.WORD (l : Nat) : Fld := ⟨(CE_FAULTl l), 31, 0⟩

/-- CE_PROGl, block CE, offset 0x1018 (R540). -/
abbrev CE_PROGl (l : Nat) : Nat := 9 * 0x10000000 + 0x1018 + l * 0x20
abbrev CE_PROGl.PROG_ID (l : Nat) : Fld := ⟨(CE_PROGl l), 31, 0⟩

/-- CE_PHYSk, block CE, offset 0x4000 (R540). -/
abbrev CE_PHYSk (k : Nat) : Nat := 9 * 0x10000000 + 0x4000 + k * 0x8
abbrev CE_PHYSk.LOGICAL (k : Nat) : Fld := ⟨(CE_PHYSk k), 15, 8⟩
abbrev CE_PHYSk.STATE (k : Nat) : Fld := ⟨(CE_PHYSk k), 2, 0⟩

/-- TU_ALARM, block TU, offset 0x0 (R540). -/
abbrev TU_ALARM : Nat := 10 * 0x10000000 + 0x0
abbrev TU_ALARM.STORE_UE : Fld := ⟨TU_ALARM, 5, 5⟩
abbrev TU_ALARM.NO_UNIT : Fld := ⟨TU_ALARM, 4, 4⟩
abbrev TU_ALARM.UNIT_RETIRED : Fld := ⟨TU_ALARM, 3, 3⟩
abbrev TU_ALARM.UNIT_FAULT : Fld := ⟨TU_ALARM, 2, 2⟩
abbrev TU_ALARM.KEY_REJECT : Fld := ⟨TU_ALARM, 1, 1⟩
abbrev TU_ALARM.CFG_ERR : Fld := ⟨TU_ALARM, 0, 0⟩

/-- TU_STATUSu, block TU, offset 0x100 (R540). -/
abbrev TU_STATUSu (u : Nat) : Nat := 10 * 0x10000000 + 0x100 + u * 0x8
abbrev TU_STATUSu.BLOCKS (u : Nat) : Fld := ⟨(TU_STATUSu u), 63, 32⟩
abbrev TU_STATUSu.FAULTS (u : Nat) : Fld := ⟨(TU_STATUSu u), 31, 24⟩
abbrev TU_STATUSu.JOBS (u : Nat) : Fld := ⟨(TU_STATUSu u), 15, 8⟩
abbrev TU_STATUSu.STATE (u : Nat) : Fld := ⟨(TU_STATUSu u), 1, 0⟩

/-- PRT_CTL, block PRT, offset 0x0 (R540). -/
abbrev PRT_CTL : Nat := 11 * 0x10000000 + 0x0
abbrev PRT_CTL.LANE_THRESH : Fld := ⟨PRT_CTL, 23, 16⟩
abbrev PRT_CTL.BACKOFF_MAX : Fld := ⟨PRT_CTL, 11, 8⟩
abbrev PRT_CTL.CTO : Fld := ⟨PRT_CTL, 7, 0⟩

/-- PRT_ALARM, block PRT, offset 0x8 (R540). -/
abbrev PRT_ALARM : Nat := 11 * 0x10000000 + 0x8
abbrev PRT_ALARM.INBOUND_UR : Fld := ⟨PRT_ALARM, 11, 11⟩
abbrev PRT_ALARM.FRAME_ERR : Fld := ⟨PRT_ALARM, 10, 10⟩
abbrev PRT_ALARM.CORE_FAULT : Fld := ⟨PRT_ALARM, 9, 9⟩
abbrev PRT_ALARM.TRAIN_FAIL : Fld := ⟨PRT_ALARM, 8, 8⟩
abbrev PRT_ALARM.LANE_EXTERNAL : Fld := ⟨PRT_ALARM, 7, 7⟩
abbrev PRT_ALARM.LANE_NO_SPARE : Fld := ⟨PRT_ALARM, 6, 6⟩
abbrev PRT_ALARM.LANE_SPARED : Fld := ⟨PRT_ALARM, 5, 5⟩
abbrev PRT_ALARM.WIDTH_DEGRADED : Fld := ⟨PRT_ALARM, 4, 4⟩
abbrev PRT_ALARM.SPEED_DEGRADED : Fld := ⟨PRT_ALARM, 3, 3⟩
abbrev PRT_ALARM.CFG_MISMATCH : Fld := ⟨PRT_ALARM, 2, 2⟩
abbrev PRT_ALARM.LINK_DOWN : Fld := ⟨PRT_ALARM, 1, 1⟩
abbrev PRT_ALARM.CFG_ERR : Fld := ⟨PRT_ALARM, 0, 0⟩

/-- PRT_Gj_LANES, block PRT, offset 0x100 (R540). -/
abbrev PRT_Gj_LANES (j : Nat) : Nat := 11 * 0x10000000 + 0x100 + j * 0x8
abbrev PRT_Gj_LANES.DISABLED (j : Nat) : Fld := ⟨(PRT_Gj_LANES j), 15, 8⟩
abbrev PRT_Gj_LANES.SPARE_USED (j : Nat) : Fld := ⟨(PRT_Gj_LANES j), 7, 7⟩
abbrev PRT_Gj_LANES.SPARE_FAILED (j : Nat) : Fld := ⟨(PRT_Gj_LANES j), 6, 6⟩
abbrev PRT_Gj_LANES.SPARE_POS (j : Nat) : Fld := ⟨(PRT_Gj_LANES j), 2, 0⟩

/-- PRT_Gj_ERR, block PRT, offset 0x300 (R540). -/
abbrev PRT_Gj_ERR (j : Nat) : Nat := 11 * 0x10000000 + 0x300 + j * 0x8
abbrev PRT_Gj_ERR.ERR (j : Nat) : Fld := ⟨(PRT_Gj_ERR j), 63, 0⟩

/-- PRT_Pp_CFG, block PRT, offset 0x1000 (R540). -/
abbrev PRT_Pp_CFG (p : Nat) : Nat := 11 * 0x10000000 + 0x1000 + p * 0x40
abbrev PRT_Pp_CFG.MRRS (p : Nat) : Fld := ⟨(PRT_Pp_CFG p), 31, 28⟩
abbrev PRT_Pp_CFG.MAXGEN (p : Nat) : Fld := ⟨(PRT_Pp_CFG p), 27, 24⟩
abbrev PRT_Pp_CFG.MODE (p : Nat) : Fld := ⟨(PRT_Pp_CFG p), 18, 16⟩
abbrev PRT_Pp_CFG.WIDTH (p : Nat) : Fld := ⟨(PRT_Pp_CFG p), 10, 8⟩
abbrev PRT_Pp_CFG.MPS (p : Nat) : Fld := ⟨(PRT_Pp_CFG p), 3, 3⟩
abbrev PRT_Pp_CFG.DPC (p : Nat) : Fld := ⟨(PRT_Pp_CFG p), 2, 2⟩
abbrev PRT_Pp_CFG.ECRC (p : Nat) : Fld := ⟨(PRT_Pp_CFG p), 1, 1⟩
abbrev PRT_Pp_CFG.L1EN (p : Nat) : Fld := ⟨(PRT_Pp_CFG p), 0, 0⟩

/-- PRT_Pp_CFG_SHADOW, block PRT, offset 0x1008 (R540). -/
abbrev PRT_Pp_CFG_SHADOW (p : Nat) : Nat := 11 * 0x10000000 + 0x1008 + p * 0x40
abbrev PRT_Pp_CFG_SHADOW.MRRS (p : Nat) : Fld := ⟨(PRT_Pp_CFG_SHADOW p), 31, 28⟩
abbrev PRT_Pp_CFG_SHADOW.MAXGEN (p : Nat) : Fld := ⟨(PRT_Pp_CFG_SHADOW p), 27, 24⟩
abbrev PRT_Pp_CFG_SHADOW.MODE (p : Nat) : Fld := ⟨(PRT_Pp_CFG_SHADOW p), 18, 16⟩
abbrev PRT_Pp_CFG_SHADOW.WIDTH (p : Nat) : Fld := ⟨(PRT_Pp_CFG_SHADOW p), 10, 8⟩
abbrev PRT_Pp_CFG_SHADOW.MPS (p : Nat) : Fld := ⟨(PRT_Pp_CFG_SHADOW p), 3, 3⟩
abbrev PRT_Pp_CFG_SHADOW.DPC (p : Nat) : Fld := ⟨(PRT_Pp_CFG_SHADOW p), 2, 2⟩
abbrev PRT_Pp_CFG_SHADOW.ECRC (p : Nat) : Fld := ⟨(PRT_Pp_CFG_SHADOW p), 1, 1⟩
abbrev PRT_Pp_CFG_SHADOW.L1EN (p : Nat) : Fld := ⟨(PRT_Pp_CFG_SHADOW p), 0, 0⟩

/-- PRT_Pp_STATUS, block PRT, offset 0x1010 (R540). -/
abbrev PRT_Pp_STATUS (p : Nat) : Nat := 11 * 0x10000000 + 0x1010 + p * 0x40
abbrev PRT_Pp_STATUS.ERR_MSGS (p : Nat) : Fld := ⟨(PRT_Pp_STATUS p), 63, 32⟩
abbrev PRT_Pp_STATUS.BACKOFF_K (p : Nat) : Fld := ⟨(PRT_Pp_STATUS p), 19, 16⟩
abbrev PRT_Pp_STATUS.GEN (p : Nat) : Fld := ⟨(PRT_Pp_STATUS p), 15, 12⟩
abbrev PRT_Pp_STATUS.NWIDTH (p : Nat) : Fld := ⟨(PRT_Pp_STATUS p), 11, 9⟩
abbrev PRT_Pp_STATUS.PRESENT (p : Nat) : Fld := ⟨(PRT_Pp_STATUS p), 8, 8⟩
abbrev PRT_Pp_STATUS.STATE (p : Nat) : Fld := ⟨(PRT_Pp_STATUS p), 2, 0⟩

/-- PRT_Pp_MBASE, block PRT, offset 0x1018 (R540). -/
abbrev PRT_Pp_MBASE (p : Nat) : Nat := 11 * 0x10000000 + 0x1018 + p * 0x40
abbrev PRT_Pp_MBASE.MBASE (p : Nat) : Fld := ⟨(PRT_Pp_MBASE p), 63, 12⟩

/-- PRT_Pp_TXBASE, block PRT, offset 0x1020 (R540). -/
abbrev PRT_Pp_TXBASE (p : Nat) : Nat := 11 * 0x10000000 + 0x1020 + p * 0x40
abbrev PRT_Pp_TXBASE.TXBASE (p : Nat) : Fld := ⟨(PRT_Pp_TXBASE p), 63, 17⟩

/-- PRT_Pp_EXT_BASE, block PRT, offset 0x1028 (R540). -/
abbrev PRT_Pp_EXT_BASE (p : Nat) : Nat := 11 * 0x10000000 + 0x1028 + p * 0x40
abbrev PRT_Pp_EXT_BASE.EXT_BASE (p : Nat) : Fld := ⟨(PRT_Pp_EXT_BASE p), 63, 9⟩

/-- PRT_Pp_LOOP, block PRT, offset 0x1030 (R540). -/
abbrev PRT_Pp_LOOP (p : Nat) : Nat := 11 * 0x10000000 + 0x1030 + p * 0x40
abbrev PRT_Pp_LOOP.ERRS (p : Nat) : Fld := ⟨(PRT_Pp_LOOP p), 63, 32⟩
abbrev PRT_Pp_LOOP.PATTERN (p : Nat) : Fld := ⟨(PRT_Pp_LOOP p), 5, 4⟩
abbrev PRT_Pp_LOOP.DEPTH (p : Nat) : Fld := ⟨(PRT_Pp_LOOP p), 2, 0⟩

/-- PRT_Pp_CMD, block PRT, offset 0x1038 (R540). -/
abbrev PRT_Pp_CMD (p : Nat) : Nat := 11 * 0x10000000 + 0x1038 + p * 0x40
abbrev PRT_Pp_CMD.RETRAIN (p : Nat) : Fld := ⟨(PRT_Pp_CMD p), 0, 0⟩

/-- PRT_Pp_COUNTS, block PRT, offset 0x4000 (R540). -/
abbrev PRT_Pp_COUNTS (p : Nat) : Nat := 11 * 0x10000000 + 0x4000 + p * 0x8
abbrev PRT_Pp_COUNTS.FRAME_ERR (p : Nat) : Fld := ⟨(PRT_Pp_COUNTS p), 63, 48⟩
abbrev PRT_Pp_COUNTS.INBOUND_UR (p : Nat) : Fld := ⟨(PRT_Pp_COUNTS p), 47, 32⟩
abbrev PRT_Pp_COUNTS.RETRAINS (p : Nat) : Fld := ⟨(PRT_Pp_COUNTS p), 31, 16⟩
abbrev PRT_Pp_COUNTS.CORE_DISCARD (p : Nat) : Fld := ⟨(PRT_Pp_COUNTS p), 15, 0⟩

/-- BL_CTL, block BL, offset 0x0 (R540). -/
abbrev BL_CTL : Nat := 12 * 0x10000000 + 0x0
abbrev BL_CTL.LOST_TO : Fld := ⟨BL_CTL, 15, 8⟩
abbrev BL_CTL.REPLAY_LIMIT : Fld := ⟨BL_CTL, 3, 0⟩

/-- BL_ALARM, block BL, offset 0x8 (R540). -/
abbrev BL_ALARM : Nat := 12 * 0x10000000 + 0x8
abbrev BL_ALARM.EVAC_DONE : Fld := ⟨BL_ALARM, 11, 11⟩
abbrev BL_ALARM.EVAC_REFUSED : Fld := ⟨BL_ALARM, 10, 10⟩
abbrev BL_ALARM.MC_SPLIT : Fld := ⟨BL_ALARM, 9, 9⟩
abbrev BL_ALARM.PEER_LOST : Fld := ⟨BL_ALARM, 8, 8⟩
abbrev BL_ALARM.ROUTE_ERR : Fld := ⟨BL_ALARM, 7, 7⟩
abbrev BL_ALARM.REPLAY : Fld := ⟨BL_ALARM, 6, 6⟩
abbrev BL_ALARM.NO_WIDTH : Fld := ⟨BL_ALARM, 5, 5⟩
abbrev BL_ALARM.WIDTH_REDUCED : Fld := ⟨BL_ALARM, 4, 4⟩
abbrev BL_ALARM.MID_CLASH : Fld := ⟨BL_ALARM, 3, 3⟩
abbrev BL_ALARM.TRAIN_FAIL : Fld := ⟨BL_ALARM, 2, 2⟩
abbrev BL_ALARM.LINK_DOWN : Fld := ⟨BL_ALARM, 1, 1⟩
abbrev BL_ALARM.CFG_ERR : Fld := ⟨BL_ALARM, 0, 0⟩

/-- BL_EVAC, block BL, offset 0x10 (R540). -/
abbrev BL_EVAC : Nat := 12 * 0x10000000 + 0x10
abbrev BL_EVAC.ABASE : Fld := ⟨BL_EVAC, 63, 48⟩
abbrev BL_EVAC.RATE : Fld := ⟨BL_EVAC, 47, 32⟩
abbrev BL_EVAC.GO : Fld := ⟨BL_EVAC, 31, 31⟩
abbrev BL_EVAC.OP : Fld := ⟨BL_EVAC, 28, 28⟩
abbrev BL_EVAC.PEER : Fld := ⟨BL_EVAC, 26, 24⟩
abbrev BL_EVAC.STATE : Fld := ⟨BL_EVAC, 19, 16⟩
abbrev BL_EVAC.PROGRESS : Fld := ⟨BL_EVAC, 15, 8⟩

/-- BL_MC_SYSn, block BL, offset 0x40 (R540). -/
abbrev BL_MC_SYSn (n : Nat) : Nat := 12 * 0x10000000 + 0x40 + n * 0x8
abbrev BL_MC_SYSn.MODULES (n : Nat) : Fld := ⟨(BL_MC_SYSn n), 7, 0⟩

/-- BL_PEERm, block BL, offset 0x100 (R540). -/
abbrev BL_PEERm (m : Nat) : Nat := 12 * 0x10000000 + 0x100 + m * 0x8
abbrev BL_PEERm.STATE (m : Nat) : Fld := ⟨(BL_PEERm m), 63, 61⟩
abbrev BL_PEERm.VIA_EN (m : Nat) : Fld := ⟨(BL_PEERm m), 40, 40⟩
abbrev BL_PEERm.VIA (m : Nat) : Fld := ⟨(BL_PEERm m), 38, 36⟩
abbrev BL_PEERm.LINKS (m : Nat) : Fld := ⟨(BL_PEERm m), 31, 0⟩

/-- BL_Lj_STATUS, block BL, offset 0x200 (R540). -/
abbrev BL_Lj_STATUS (j : Nat) : Nat := 12 * 0x10000000 + 0x200 + j * 0x8
abbrev BL_Lj_STATUS.REPLAYS (j : Nat) : Fld := ⟨(BL_Lj_STATUS j), 63, 48⟩
abbrev BL_Lj_STATUS.PEER_MOD (j : Nat) : Fld := ⟨(BL_Lj_STATUS j), 42, 40⟩
abbrev BL_Lj_STATUS.PEER_LINK (j : Nat) : Fld := ⟨(BL_Lj_STATUS j), 36, 32⟩
abbrev BL_Lj_STATUS.BACKOFF_K (j : Nat) : Fld := ⟨(BL_Lj_STATUS j), 19, 16⟩
abbrev BL_Lj_STATUS.WIDTH (j : Nat) : Fld := ⟨(BL_Lj_STATUS j), 11, 9⟩
abbrev BL_Lj_STATUS.STATE (j : Nat) : Fld := ⟨(BL_Lj_STATUS j), 2, 0⟩

/-- AEP_CTL, block AEP, offset 0x0 (R540). -/
abbrev AEP_CTL : Nat := 13 * 0x10000000 + 0x0
abbrev AEP_CTL.L1_IDLE : Fld := ⟨AEP_CTL, 39, 32⟩
abbrev AEP_CTL.FO_WAIT : Fld := ⟨AEP_CTL, 31, 16⟩
abbrev AEP_CTL.HRETRY : Fld := ⟨AEP_CTL, 11, 8⟩
abbrev AEP_CTL.STANDBY_EN : Fld := ⟨AEP_CTL, 0, 0⟩

/-- AEP_ALARM, block AEP, offset 0x8 (R540). -/
abbrev AEP_ALARM : Nat := 13 * 0x10000000 + 0x8
abbrev AEP_ALARM.SWITCH_REFUSED : Fld := ⟨AEP_ALARM, 7, 7⟩
abbrev AEP_ALARM.FAILOVER : Fld := ⟨AEP_ALARM, 6, 6⟩
abbrev AEP_ALARM.WAKE_SENT : Fld := ⟨AEP_ALARM, 5, 5⟩
abbrev AEP_ALARM.HOST_TIMEOUT : Fld := ⟨AEP_ALARM, 4, 4⟩
abbrev AEP_ALARM.BME_HELD : Fld := ⟨AEP_ALARM, 3, 3⟩
abbrev AEP_ALARM.FLR : Fld := ⟨AEP_ALARM, 2, 2⟩
abbrev AEP_ALARM.LINK_DOWN : Fld := ⟨AEP_ALARM, 1, 1⟩
abbrev AEP_ALARM.CFG_ERR : Fld := ⟨AEP_ALARM, 0, 0⟩

/-- AEP_STATUS, block AEP, offset 0x10 (R540). -/
abbrev AEP_STATUS : Nat := 13 * 0x10000000 + 0x10
abbrev AEP_STATUS.NUMVFS : Fld := ⟨AEP_STATUS, 23, 16⟩
abbrev AEP_STATUS.VF_EN : Fld := ⟨AEP_STATUS, 15, 15⟩
abbrev AEP_STATUS.PME_EN : Fld := ⟨AEP_STATUS, 12, 12⟩
abbrev AEP_STATUS.DSTATE : Fld := ⟨AEP_STATUS, 11, 10⟩
abbrev AEP_STATUS.STBY_L0 : Fld := ⟨AEP_STATUS, 9, 9⟩
abbrev AEP_STATUS.ACT_L0 : Fld := ⟨AEP_STATUS, 8, 8⟩
abbrev AEP_STATUS.ACTIVE : Fld := ⟨AEP_STATUS, 1, 1⟩
abbrev AEP_STATUS.MODE : Fld := ⟨AEP_STATUS, 0, 0⟩

/-- AEP_CMD, block AEP, offset 0x18 (R540). -/
abbrev AEP_CMD : Nat := 13 * 0x10000000 + 0x18
abbrev AEP_CMD.WAKE : Fld := ⟨AEP_CMD, 1, 1⟩
abbrev AEP_CMD.SWITCH : Fld := ⟨AEP_CMD, 0, 0⟩

/-- AEP_VFn_STATUS, block AEP, offset 0x100 (R540). -/
abbrev AEP_VFn_STATUS (n : Nat) : Nat := 13 * 0x10000000 + 0x100 + n * 0x8
abbrev AEP_VFn_STATUS.DISCARD (n : Nat) : Fld := ⟨(AEP_VFn_STATUS n), 63, 32⟩
abbrev AEP_VFn_STATUS.INST (n : Nat) : Fld := ⟨(AEP_VFn_STATUS n), 15, 8⟩
abbrev AEP_VFn_STATUS.FLR (n : Nat) : Fld := ⟨(AEP_VFn_STATUS n), 2, 2⟩
abbrev AEP_VFn_STATUS.BME (n : Nat) : Fld := ⟨(AEP_VFn_STATUS n), 1, 1⟩
abbrev AEP_VFn_STATUS.EXISTS (n : Nat) : Fld := ⟨(AEP_VFn_STATUS n), 0, 0⟩

/-- ENDP_CTL, block ENDP, offset 0x0 (R540). -/
abbrev ENDP_CTL : Nat := 14 * 0x10000000 + 0x0
abbrev ENDP_CTL.RESTART_LIMIT : Fld := ⟨ENDP_CTL, 19, 16⟩
abbrev ENDP_CTL.CALL_LIMIT : Fld := ⟨ENDP_CTL, 11, 0⟩

/-- ENDP_ALARM, block ENDP, offset 0x8 (R540). -/
abbrev ENDP_ALARM : Nat := 14 * 0x10000000 + 0x8
abbrev ENDP_ALARM.NO_IMAGE : Fld := ⟨ENDP_ALARM, 9, 9⟩
abbrev ENDP_ALARM.KEY_ABSENT : Fld := ⟨ENDP_ALARM, 8, 8⟩
abbrev ENDP_ALARM.MEASURE_MISMATCH : Fld := ⟨ENDP_ALARM, 7, 7⟩
abbrev ENDP_ALARM.DISABLED : Fld := ⟨ENDP_ALARM, 6, 6⟩
abbrev ENDP_ALARM.RESTARTED : Fld := ⟨ENDP_ALARM, 5, 5⟩
abbrev ENDP_ALARM.CRASH : Fld := ⟨ENDP_ALARM, 4, 4⟩
abbrev ENDP_ALARM.HANG : Fld := ⟨ENDP_ALARM, 3, 3⟩
abbrev ENDP_ALARM.DENIED_WRITE : Fld := ⟨ENDP_ALARM, 1, 1⟩
abbrev ENDP_ALARM.CFG_ERR : Fld := ⟨ENDP_ALARM, 0, 0⟩

/-- ENDP_DEBUG, block ENDP, offset 0x10 (R540). -/
abbrev ENDP_DEBUG : Nat := 14 * 0x10000000 + 0x10
abbrev ENDP_DEBUG.LOCKED : Fld := ⟨ENDP_DEBUG, 4, 4⟩
abbrev ENDP_DEBUG.ENDP_NINV : Fld := ⟨ENDP_DEBUG, 3, 3⟩
abbrev ENDP_DEBUG.ENDP_INV : Fld := ⟨ENDP_DEBUG, 2, 2⟩
abbrev ENDP_DEBUG.TEXT_NINV : Fld := ⟨ENDP_DEBUG, 1, 1⟩
abbrev ENDP_DEBUG.TEXT_INV : Fld := ⟨ENDP_DEBUG, 0, 0⟩

/-- ENDP_REGION, block ENDP, offset 0x18 (R540). -/
abbrev ENDP_REGION : Nat := 14 * 0x10000000 + 0x18
abbrev ENDP_REGION.BASE : Fld := ⟨ENDP_REGION, 51, 12⟩
abbrev ENDP_REGION.HART_AREA : Fld := ⟨ENDP_REGION, 7, 0⟩

/-- ENDP_MEAS_BOOTk, block ENDP, offset 0x100 (R540). -/
abbrev ENDP_MEAS_BOOTk (k : Nat) : Nat := 14 * 0x10000000 + 0x100 + k * 0x8
abbrev ENDP_MEAS_BOOTk.DIGEST (k : Nat) : Fld := ⟨(ENDP_MEAS_BOOTk k), 63, 0⟩

/-- ENDP_MEAS_IMAGEk, block ENDP, offset 0x140 (R540). -/
abbrev ENDP_MEAS_IMAGEk (k : Nat) : Nat := 14 * 0x10000000 + 0x140 + k * 0x8
abbrev ENDP_MEAS_IMAGEk.DIGEST (k : Nat) : Fld := ⟨(ENDP_MEAS_IMAGEk k), 63, 0⟩

/-- ENDP_HARTn_STATUS, block ENDP, offset 0x1000 (R540). -/
abbrev ENDP_HARTn_STATUS (n : Nat) : Nat := 14 * 0x10000000 + 0x1000 + n * 0x8
abbrev ENDP_HARTn_STATUS.RESTARTS (n : Nat) : Fld := ⟨(ENDP_HARTn_STATUS n), 63, 32⟩
abbrev ENDP_HARTn_STATUS.LAST_CAUSE (n : Nat) : Fld := ⟨(ENDP_HARTn_STATUS n), 9, 8⟩
abbrev ENDP_HARTn_STATUS.STATE (n : Nat) : Fld := ⟨(ENDP_HARTn_STATUS n), 2, 0⟩

/-- ENDP_KSn_OP, block ENDP, offset 0x8000 (R540). -/
abbrev ENDP_KSn_OP (n : Nat) : Nat := 14 * 0x10000000 + 0x8000 + n * 0x40
abbrev ENDP_KSn_OP.OP (n : Nat) : Fld := ⟨(ENDP_KSn_OP n), 2, 0⟩

/-- ENDP_KSn_ARG0, block ENDP, offset 0x8008 (R540). -/
abbrev ENDP_KSn_ARG0 (n : Nat) : Nat := 14 * 0x10000000 + 0x8008 + n * 0x40
abbrev ENDP_KSn_ARG0.ARG (n : Nat) : Fld := ⟨(ENDP_KSn_ARG0 n), 63, 0⟩

/-- ENDP_KSn_ARG1, block ENDP, offset 0x8010 (R540). -/
abbrev ENDP_KSn_ARG1 (n : Nat) : Nat := 14 * 0x10000000 + 0x8010 + n * 0x40
abbrev ENDP_KSn_ARG1.ARG (n : Nat) : Fld := ⟨(ENDP_KSn_ARG1 n), 63, 0⟩

/-- ENDP_KSn_CTL, block ENDP, offset 0x8020 (R540). -/
abbrev ENDP_KSn_CTL (n : Nat) : Nat := 14 * 0x10000000 + 0x8020 + n * 0x40
abbrev ENDP_KSn_CTL.GO (n : Nat) : Fld := ⟨(ENDP_KSn_CTL n), 31, 31⟩
abbrev ENDP_KSn_CTL.BUSY (n : Nat) : Fld := ⟨(ENDP_KSn_CTL n), 8, 8⟩
abbrev ENDP_KSn_CTL.RESULT (n : Nat) : Fld := ⟨(ENDP_KSn_CTL n), 2, 0⟩

/-- ENDP_KSn_OUT, block ENDP, offset 0x8028 (R540). -/
abbrev ENDP_KSn_OUT (n : Nat) : Nat := 14 * 0x10000000 + 0x8028 + n * 0x40
abbrev ENDP_KSn_OUT.OUT (n : Nat) : Fld := ⟨(ENDP_KSn_OUT n), 63, 0⟩

/-- COL_CTL, block COL, offset 0x0 (R540). -/
abbrev COL_CTL : Nat := 15 * 0x10000000 + 0x0
abbrev COL_CTL.AGE_WARN : Fld := ⟨COL_CTL, 15, 0⟩

/-- COL_ALARM, block COL, offset 0x8 (R540). -/
abbrev COL_ALARM : Nat := 15 * 0x10000000 + 0x8
abbrev COL_ALARM.AGE_WARN : Fld := ⟨COL_ALARM, 14, 14⟩
abbrev COL_ALARM.LOG_DROP : Fld := ⟨COL_ALARM, 13, 13⟩
abbrev COL_ALARM.NO_LIFE : Fld := ⟨COL_ALARM, 12, 12⟩
abbrev COL_ALARM.NO_REPAIR : Fld := ⟨COL_ALARM, 11, 11⟩
abbrev COL_ALARM.NO_SETTINGS : Fld := ⟨COL_ALARM, 10, 10⟩
abbrev COL_ALARM.SETTING_BAD : Fld := ⟨COL_ALARM, 9, 9⟩
abbrev COL_ALARM.COPY_REBUILT : Fld := ⟨COL_ALARM, 8, 8⟩
abbrev COL_ALARM.COPY_ALONE : Fld := ⟨COL_ALARM, 7, 7⟩
abbrev COL_ALARM.STORE_FAILED : Fld := ⟨COL_ALARM, 6, 6⟩
abbrev COL_ALARM.STORE_DONE : Fld := ⟨COL_ALARM, 5, 5⟩
abbrev COL_ALARM.CMD_REFUSED : Fld := ⟨COL_ALARM, 4, 4⟩
abbrev COL_ALARM.BUSY_WRITE : Fld := ⟨COL_ALARM, 3, 3⟩
abbrev COL_ALARM.DENIED_WRITE : Fld := ⟨COL_ALARM, 2, 2⟩
abbrev COL_ALARM.CFG_ERR : Fld := ⟨COL_ALARM, 0, 0⟩

/-- COL_CMD, block COL, offset 0x10 (R540). -/
abbrev COL_CMD : Nat := 15 * 0x10000000 + 0x10
abbrev COL_CMD.COMMIT : Fld := ⟨COL_CMD, 2, 2⟩
abbrev COL_CMD.DISCARD : Fld := ⟨COL_CMD, 1, 1⟩
abbrev COL_CMD.STORE : Fld := ⟨COL_CMD, 0, 0⟩

/-- COL_STATUS, block COL, offset 0x18 (R540). -/
abbrev COL_STATUS : Nat := 15 * 0x10000000 + 0x18
abbrev COL_STATUS.SEQ : Fld := ⟨COL_STATUS, 63, 32⟩
abbrev COL_STATUS.PRELOAD_BAD : Fld := ⟨COL_STATUS, 31, 16⟩
abbrev COL_STATUS.LIFE : Fld := ⟨COL_STATUS, 8, 8⟩
abbrev COL_STATUS.STORE : Fld := ⟨COL_STATUS, 7, 7⟩
abbrev COL_STATUS.SLOT : Fld := ⟨COL_STATUS, 6, 6⟩
abbrev COL_STATUS.COPY1 : Fld := ⟨COL_STATUS, 3, 2⟩
abbrev COL_STATUS.COPY0 : Fld := ⟨COL_STATUS, 1, 0⟩

/-- COL_LOG_STATUS, block COL, offset 0x20 (R540). -/
abbrev COL_LOG_STATUS : Nat := 15 * 0x10000000 + 0x20
abbrev COL_LOG_STATUS.DROPPED : Fld := ⟨COL_LOG_STATUS, 63, 48⟩
abbrev COL_LOG_STATUS.NEXT : Fld := ⟨COL_LOG_STATUS, 47, 32⟩
abbrev COL_LOG_STATUS.LAST_SEQ : Fld := ⟨COL_LOG_STATUS, 31, 0⟩

/-- SVC_IDENT0, block SVC, offset 0x0 (R540). -/
abbrev SVC_IDENT0 : Nat := 16 * 0x10000000 + 0x0
abbrev SVC_IDENT0.SERIAL : Fld := ⟨SVC_IDENT0, 63, 0⟩

/-- SVC_IDENT1, block SVC, offset 0x8 (R540). -/
abbrev SVC_IDENT1 : Nat := 16 * 0x10000000 + 0x8
abbrev SVC_IDENT1.MODULE : Fld := ⟨SVC_IDENT1, 18, 16⟩
abbrev SVC_IDENT1.GRADE : Fld := ⟨SVC_IDENT1, 11, 10⟩
abbrev SVC_IDENT1.STEP : Fld := ⟨SVC_IDENT1, 9, 8⟩

/-- SVC_ALARM, block SVC, offset 0x10 (R540). -/
abbrev SVC_ALARM : Nat := 16 * 0x10000000 + 0x10
abbrev SVC_ALARM.LOCKED_WRITE : Fld := ⟨SVC_ALARM, 2, 2⟩
abbrev SVC_ALARM.BAD_ACCESS : Fld := ⟨SVC_ALARM, 1, 1⟩
abbrev SVC_ALARM.CFG_ERR : Fld := ⟨SVC_ALARM, 0, 0⟩

/-- SVC_LOCK, block SVC, offset 0x18 (R540). -/
abbrev SVC_LOCK : Nat := 16 * 0x10000000 + 0x18
abbrev SVC_LOCK.LOCK : Fld := ⟨SVC_LOCK, 15, 0⟩

/-- SVC_BAD_ADDR, block SVC, offset 0x20 (R540). -/
abbrev SVC_BAD_ADDR : Nat := 16 * 0x10000000 + 0x20
abbrev SVC_BAD_ADDR.VALID : Fld := ⟨SVC_BAD_ADDR, 63, 63⟩
abbrev SVC_BAD_ADDR.ADDR : Fld := ⟨SVC_BAD_ADDR, 51, 0⟩

/-- The register descriptions of block TB (R540, R15). -/
def regDescsTB : List RegDesc := [
  ⟨"TB_CTL", 0, 0 * 0x10000000 + 0x0, [],
    [⟨11, 10, .rw, 0, none⟩, ⟨9, 9, .rw, 0, none⟩, ⟨8, 8, .w1sSticky, 0, none⟩, ⟨7, 4, .rw, 4, some (1, 15)⟩]⟩,
  ⟨"TB_STATUS", 0, 0 * 0x10000000 + 0x8, [],
    [⟨39, 32, .ro, 0, none⟩, ⟨31, 16, .ro, 0, none⟩, ⟨7, 7, .ro, 0, none⟩, ⟨6, 6, .ro, 0, none⟩, ⟨5, 5, .ro, 0, none⟩, ⟨4, 4, .ro, 0, none⟩, ⟨2, 0, .ro, 0, none⟩]⟩,
  ⟨"TB_COUNT", 0, 0 * 0x10000000 + 0x10, [],
    [⟨63, 0, .ro, 0, none⟩]⟩,
  ⟨"TB_HOLD", 0, 0 * 0x10000000 + 0x18, [],
    [⟨63, 32, .ro, 4294967295, none⟩, ⟨31, 0, .ro, 0, none⟩]⟩,
  ⟨"TB_UTC", 0, 0 * 0x10000000 + 0x20, [],
    [⟨18, 18, .ro, 0, none⟩, ⟨17, 17, .ro, 0, none⟩, ⟨16, 16, .ro, 0, none⟩, ⟨15, 0, .ro, 0, none⟩]⟩,
  ⟨"TB_ALARM", 0, 0 * 0x10000000 + 0x28, [],
    [⟨9, 9, .w1c, 0, none⟩, ⟨8, 8, .w1c, 0, none⟩, ⟨7, 7, .w1c, 0, none⟩, ⟨6, 6, .w1c, 0, none⟩, ⟨5, 5, .w1c, 0, none⟩, ⟨4, 4, .w1c, 0, none⟩, ⟨3, 3, .w1c, 0, none⟩, ⟨2, 2, .w1c, 0, none⟩, ⟨1, 1, .w1c, 0, none⟩, ⟨0, 0, .w1c, 0, none⟩]⟩,
  ⟨"TB_MCn_TARGET", 0, 0 * 0x10000000 + 0x100, [(0, 8, 0x20)],
    [⟨55, 0, .rw, 0, none⟩]⟩,
  ⟨"TB_MCn_CUTOFF", 0, 0 * 0x10000000 + 0x108, [(0, 8, 0x20)],
    [⟨55, 0, .rw, 0, none⟩]⟩,
  ⟨"TB_MCn_CTL", 0, 0 * 0x10000000 + 0x110, [(0, 8, 0x20)],
    [⟨17, 17, .w1s, 0, none⟩, ⟨16, 16, .w1s, 0, none⟩, ⟨12, 0, .rw, 0, none⟩]⟩,
  ⟨"TB_MCn_STATUS", 0, 0 * 0x10000000 + 0x118, [(0, 8, 0x20)],
    [⟨61, 61, .ro, 0, none⟩, ⟨60, 48, .ro, 0, none⟩, ⟨39, 16, .ro, 0, none⟩, ⟨7, 4, .ro, 0, none⟩, ⟨3, 0, .ro, 0, none⟩]⟩]

/-- The register descriptions of block HB (R540, R15). -/
def regDescsHB : List RegDesc := [
  ⟨"HB_CTL", 1, 1 * 0x10000000 + 0x0, [],
    [⟨39, 32, .rw, 16, some (1, 255)⟩, ⟨31, 24, .rw, 30, some (10, 60)⟩, ⟨23, 8, .rw, 1024, none⟩, ⟨7, 0, .rw, 16, none⟩]⟩,
  ⟨"HB_ALARM", 1, 1 * 0x10000000 + 0x8, [],
    [⟨8, 8, .w1c, 0, none⟩, ⟨7, 7, .w1c, 0, none⟩, ⟨6, 6, .w1c, 0, none⟩, ⟨5, 5, .w1c, 0, none⟩, ⟨4, 4, .w1c, 0, none⟩, ⟨3, 3, .w1c, 0, none⟩, ⟨2, 2, .w1c, 0, none⟩, ⟨1, 1, .w1c, 0, none⟩, ⟨0, 0, .w1c, 0, none⟩]⟩,
  ⟨"HB_THERM", 1, 1 * 0x10000000 + 0x10, [],
    [⟨23, 16, .rw, 100, some (80, 105)⟩, ⟨11, 8, .rw, 4, some (1, 15)⟩, ⟨7, 0, .rw, 92, some (70, 100)⟩]⟩,
  ⟨"HB_RAILr", 1, 1 * 0x10000000 + 0x100, [(0, 12, 0x8)],
    [⟨63, 48, .ro, 0, none⟩, ⟨47, 32, .rw, 4, none⟩, ⟨15, 8, .rw, 40, some (5, 120)⟩]⟩,
  ⟨"HB_LINKk_STATUS", 1, 1 * 0x10000000 + 0x200, [(0, 4, 0x8)],
    [⟨63, 32, .ro, 0, none⟩, ⟨31, 16, .ro, 0, none⟩, ⟨0, 0, .ro, 0, none⟩]⟩,
  ⟨"HB_QSTATUSn", 1, 1 * 0x10000000 + 0x400, [(0, 24, 0x8)],
    [⟨63, 48, .ro, 0, none⟩, ⟨47, 40, .ro, 0, none⟩, ⟨36, 32, .ro, 0, none⟩, ⟨31, 16, .ro, 0, none⟩, ⟨15, 0, .ro, 0, none⟩]⟩,
  ⟨"HB_DIEd_DROOPS", 1, 1 * 0x10000000 + 0x500, [(0, 6, 0x8)],
    [⟨31, 0, .ro, 0, none⟩]⟩,
  ⟨"HB_VCURVEd_w", 1, 1 * 0x10000000 + 0x600, [(0, 4, 0x20), (0, 3, 0x8)],
    [⟨63, 0, .ro, 0, none⟩]⟩]

/-- The register descriptions of block CPU (R540, R15). -/
def regDescsCPU : List RegDesc := [
  ⟨"CPU_RAS_CTL", 2, 2 * 0x10000000 + 0x0, [],
    [⟨15, 8, .rw, 64, some (16, 192)⟩, ⟨7, 0, .rw, 16, none⟩]⟩,
  ⟨"CPU_RAS_ALARM", 2, 2 * 0x10000000 + 0x8, [],
    [⟨6, 6, .w1c, 0, none⟩, ⟨5, 5, .w1c, 0, none⟩, ⟨4, 4, .w1c, 0, none⟩, ⟨3, 3, .w1c, 0, none⟩, ⟨2, 2, .w1c, 0, none⟩, ⟨1, 1, .w1c, 0, none⟩, ⟨0, 0, .w1c, 0, none⟩]⟩,
  ⟨"CPU_SPARE_CMD", 2, 2 * 0x10000000 + 0x10, [],
    [⟨31, 31, .w1s, 0, none⟩, ⟨7, 0, .rw, 0, none⟩]⟩,
  ⟨"CPU_CACHE_CTL", 2, 2 * 0x10000000 + 0x18, [],
    [⟨15, 8, .rw, 8, some (1, 255)⟩, ⟨7, 0, .rw, 8, some (1, 255)⟩]⟩,
  ⟨"CPU_CACHE_ALARM", 2, 2 * 0x10000000 + 0x20, [],
    [⟨3, 3, .w1c, 0, none⟩, ⟨2, 2, .w1c, 0, none⟩, ⟨1, 1, .w1c, 0, none⟩, ⟨0, 0, .w1c, 0, none⟩]⟩,
  ⟨"CPU_SPARE_MAPn", 2, 2 * 0x10000000 + 0x100, [(0, 24, 0x8)],
    [⟨48, 40, .ro, 0, none⟩, ⟨35, 32, .ro, 8, none⟩, ⟨31, 0, .ro, 1985229328, none⟩]⟩,
  ⟨"CPU_CORE_STATUSc", 2, 2 * 0x10000000 + 0x1000, [(0, 192, 0x8)],
    [⟨63, 32, .ro, 0, none⟩, ⟨23, 20, .ro, 0, none⟩, ⟨15, 12, .ro, 0, none⟩, ⟨11, 10, .ro, 0, none⟩, ⟨9, 9, .ro, 0, none⟩, ⟨8, 8, .ro, 0, none⟩, ⟨2, 0, .ro, 0, none⟩]⟩,
  ⟨"CPU_SPEC_CTLc", 2, 2 * 0x10000000 + 0x2000, [(0, 192, 0x8)],
    [⟨4, 4, .rw, 0, none⟩, ⟨3, 3, .rw, 0, none⟩, ⟨2, 2, .rw, 0, none⟩, ⟨1, 1, .rw, 0, none⟩, ⟨0, 0, .rw, 0, none⟩]⟩,
  ⟨"CPU_CACHE_RETs", 2, 2 * 0x10000000 + 0x3000, [(0, 216, 0x8)],
    [⟨47, 32, .ro, 0, none⟩, ⟨31, 16, .ro, 0, none⟩, ⟨15, 8, .ro, 0, none⟩, ⟨7, 0, .ro, 0, none⟩]⟩,
  ⟨"CPU_KEEP_CSRi", 2, 2 * 0x10000000 + 0x8000, [(0, 768, 0x8)],
    [⟨63, 63, .ro, 0, none⟩, ⟨12, 12, .ro, 0, none⟩, ⟨11, 0, .ro, 0, none⟩]⟩]

/-- The register descriptions of block L3 (R540, R15). -/
def regDescsL3 : List RegDesc := [
  ⟨"L3_RAS_CTL", 3, 3 * 0x10000000 + 0x0, [],
    [⟨11, 8, .rw, 4, some (1, 11)⟩, ⟨7, 0, .rw, 8, some (1, 255)⟩]⟩,
  ⟨"L3_RAS_ALARM", 3, 3 * 0x10000000 + 0x8, [],
    [⟨4, 4, .w1c, 0, none⟩, ⟨3, 3, .w1c, 0, none⟩, ⟨2, 2, .w1c, 0, none⟩, ⟨1, 1, .w1c, 0, none⟩, ⟨0, 0, .w1c, 0, none⟩]⟩,
  ⟨"L3_SLICE_CMD", 3, 3 * 0x10000000 + 0x10, [],
    [⟨31, 31, .w1s, 0, none⟩, ⟨7, 0, .rw, 0, none⟩]⟩,
  ⟨"L3_COH_CTL", 3, 3 * 0x10000000 + 0x18, [],
    [⟨31, 16, .rw, 1024, none⟩, ⟨7, 0, .rw, 8, some (2, 64)⟩]⟩,
  ⟨"L3_COH_ALARM", 3, 3 * 0x10000000 + 0x20, [],
    [⟨3, 3, .w1c, 0, none⟩, ⟨2, 2, .w1c, 0, none⟩, ⟨1, 1, .w1c, 0, none⟩, ⟨0, 0, .w1c, 0, none⟩]⟩,
  ⟨"L3_SLICE_STATUSs", 3, 3 * 0x10000000 + 0x1000, [(0, 216, 0x8)],
    [⟨63, 48, .ro, 0, none⟩, ⟨43, 32, .ro, 0, none⟩, ⟨27, 16, .ro, 0, none⟩, ⟨2, 0, .ro, 0, none⟩]⟩,
  ⟨"L3_DIR_STATUSs", 3, 3 * 0x10000000 + 0x2000, [(0, 216, 0x8)],
    [⟨63, 32, .ro, 0, none⟩, ⟨31, 16, .ro, 0, none⟩, ⟨7, 0, .ro, 0, none⟩]⟩,
  ⟨"L3_HOME_TABLEj", 3, 3 * 0x10000000 + 0x4000, [(0, 512, 0x8)],
    [⟨63, 0, .ro, 0, none⟩]⟩,
  ⟨"L3_HOME_SHADOWj", 3, 3 * 0x10000000 + 0x6000, [(0, 512, 0x8)],
    [⟨63, 0, .ro, 0, none⟩]⟩]

/-- The register descriptions of block MESH (R540, R15). -/
def regDescsMESH : List RegDesc := [
  ⟨"MESH_CTL", 4, 4 * 0x10000000 + 0x0, [],
    [⟨3, 0, .rw, 3, some (1, 15)⟩]⟩,
  ⟨"MESH_ALARM", 4, 4 * 0x10000000 + 0x8, [],
    [⟨5, 5, .w1c, 0, none⟩, ⟨4, 4, .w1c, 0, none⟩, ⟨3, 3, .w1c, 0, none⟩, ⟨2, 2, .w1c, 0, none⟩, ⟨1, 1, .w1c, 0, none⟩, ⟨0, 0, .w1c, 0, none⟩]⟩,
  ⟨"MESH_RET_Hd", 4, 4 * 0x10000000 + 0x100, [(0, 4, 0x10)],
    [⟨63, 0, .ro, 0, none⟩]⟩,
  ⟨"MESH_RET_Vd", 4, 4 * 0x10000000 + 0x108, [(0, 4, 0x10)],
    [⟨63, 0, .ro, 0, none⟩]⟩,
  ⟨"MESH_LINKSd", 4, 4 * 0x10000000 + 0x140, [(0, 4, 0x8)],
    [⟨63, 32, .ro, 0, none⟩, ⟨31, 0, .ro, 0, none⟩]⟩,
  ⟨"MESH_DLINKk_STATUS", 4, 4 * 0x10000000 + 0x200, [(0, 21, 0x8)],
    [⟨63, 48, .ro, 0, none⟩, ⟨39, 32, .ro, 0, none⟩, ⟨31, 16, .ro, 0, none⟩, ⟨1, 0, .ro, 0, none⟩]⟩]

/-- The register descriptions of block MC (R540, R15). -/
def regDescsMC : List RegDesc := [
  ⟨"MC_CTL", 5, 5 * 0x10000000 + 0x0, [],
    [⟨15, 8, .rw, 80, some (50, 100)⟩, ⟨7, 0, .rw, 16, none⟩]⟩,
  ⟨"MC_ALARM", 5, 5 * 0x10000000 + 0x8, [],
    [⟨9, 9, .w1c, 0, none⟩, ⟨8, 8, .w1c, 0, none⟩, ⟨7, 7, .w1c, 0, none⟩, ⟨6, 6, .w1c, 0, none⟩, ⟨5, 5, .w1c, 0, none⟩, ⟨4, 4, .w1c, 0, none⟩, ⟨3, 3, .w1c, 0, none⟩, ⟨2, 2, .w1c, 0, none⟩, ⟨1, 1, .w1c, 0, none⟩, ⟨0, 0, .w1c, 0, none⟩]⟩,
  ⟨"MC_CHAN_CMD", 5, 5 * 0x10000000 + 0x10, [],
    [⟨31, 31, .w1s, 0, none⟩, ⟨9, 8, .rw, 0, some (0, 1)⟩, ⟨3, 0, .rw, 0, none⟩]⟩,
  ⟨"MC_BWR_TOTAL", 5, 5 * 0x10000000 + 0x18, [],
    [⟨47, 32, .ro, 0, none⟩, ⟨31, 16, .ro, 0, none⟩, ⟨15, 0, .ro, 0, none⟩]⟩,
  ⟨"MC_CHk_STATUS", 5, 5 * 0x10000000 + 0x100, [(0, 16, 0x8)],
    [⟨47, 32, .ro, 0, none⟩, ⟨31, 24, .ro, 0, none⟩, ⟨12, 12, .ro, 0, none⟩, ⟨11, 10, .ro, 0, none⟩, ⟨9, 8, .ro, 0, none⟩, ⟨4, 4, .ro, 0, none⟩, ⟨3, 0, .ro, 0, none⟩]⟩,
  ⟨"MC_ILVr", 5, 5 * 0x10000000 + 0x200, [(0, 4, 0x10)],
    [⟨63, 63, .ro, 0, none⟩, ⟨62, 62, .ro, 0, none⟩, ⟨58, 56, .ro, 0, none⟩, ⟨55, 52, .ro, 0, none⟩, ⟨31, 16, .ro, 0, none⟩, ⟨15, 0, .ro, 0, none⟩]⟩,
  ⟨"MC_ILVr_SHADOW", 5, 5 * 0x10000000 + 0x208, [(0, 4, 0x10)],
    [⟨63, 63, .rw, 0, none⟩, ⟨62, 62, .rw, 0, none⟩, ⟨58, 56, .rw, 0, some (0, 4)⟩, ⟨55, 52, .rw, 0, none⟩, ⟨31, 16, .rw, 0, none⟩, ⟨15, 0, .rw, 0, none⟩]⟩,
  ⟨"MC_BWR_ENTRYe", 5, 5 * 0x10000000 + 0x1000, [(0, 451, 0x8)],
    [⟨55, 48, .rw, 1, none⟩, ⟨47, 32, .ro, 0, none⟩, ⟨15, 0, .rw, 0, none⟩]⟩]

/-- The register descriptions of block MG (R540, R15). -/
def regDescsMG : List RegDesc := [
  ⟨"MG_ALARM", 6, 6 * 0x10000000 + 0x0, [],
    [⟨2, 2, .w1c, 0, none⟩, ⟨1, 1, .w1c, 0, none⟩, ⟨0, 0, .w1c, 0, none⟩]⟩,
  ⟨"MG_FAULT", 6, 6 * 0x10000000 + 0x8, [],
    [⟨63, 63, .w1c, 0, none⟩, ⟨62, 60, .ro, 0, none⟩, ⟨59, 59, .ro, 0, none⟩, ⟨58, 58, .ro, 0, none⟩, ⟨51, 6, .ro, 0, none⟩]⟩,
  ⟨"MG_CTLg", 6, 6 * 0x10000000 + 0x1000, [(0, 7, 0x1000)],
    [⟨8, 8, .w1sSticky, 0, none⟩, ⟨7, 4, .rw, 15, none⟩, ⟨3, 0, .ro, 15, none⟩]⟩,
  ⟨"MG_RBASEg_n", 6, 6 * 0x10000000 + 0x1100, [(0, 7, 0x1000), (0, 32, 0x20)],
    [⟨63, 63, .ro, 0, none⟩, ⟨55, 52, .ro, 0, none⟩, ⟨51, 12, .ro, 0, none⟩]⟩,
  ⟨"MG_RBASEg_n_SHADOW", 6, 6 * 0x10000000 + 0x1110, [(0, 7, 0x1000), (0, 32, 0x20)],
    [⟨63, 63, .rw, 0, none⟩, ⟨55, 52, .rw, 0, none⟩, ⟨51, 12, .rw, 0, none⟩]⟩,
  ⟨"MG_RLIMg_n", 6, 6 * 0x10000000 + 0x1108, [(0, 7, 0x1000), (0, 32, 0x20)],
    [⟨51, 12, .ro, 0, none⟩]⟩,
  ⟨"MG_RLIMg_n_SHADOW", 6, 6 * 0x10000000 + 0x1118, [(0, 7, 0x1000), (0, 32, 0x20)],
    [⟨51, 12, .rw, 0, none⟩]⟩]

/-- The register descriptions of block SCR (R540, R15). -/
def regDescsSCR : List RegDesc := [
  ⟨"SCR_CTL", 7, 7 * 0x10000000 + 0x0, [],
    [⟨63, 48, .rw, 1288, some (1, 65535)⟩, ⟨16, 16, .rw, 1, none⟩, ⟨15, 8, .rw, 16, some (1, 64)⟩, ⟨7, 4, .rw, 4, some (1, 15)⟩, ⟨3, 0, .rw, 4, none⟩]⟩,
  ⟨"SCR_ALARM", 7, 7 * 0x10000000 + 0x8, [],
    [⟨8, 8, .w1c, 0, none⟩, ⟨7, 7, .w1c, 0, none⟩, ⟨6, 6, .w1c, 0, none⟩, ⟨5, 5, .w1c, 0, none⟩, ⟨4, 4, .w1c, 0, none⟩, ⟨3, 3, .w1c, 0, none⟩, ⟨2, 2, .w1c, 0, none⟩, ⟨1, 1, .w1c, 0, none⟩, ⟨0, 0, .w1c, 0, none⟩]⟩,
  ⟨"SCR_FILL_STATUS", 7, 7 * 0x10000000 + 0x10, [],
    [⟨47, 32, .ro, 0, none⟩, ⟨31, 8, .ro, 0, none⟩, ⟨1, 0, .ro, 0, none⟩]⟩,
  ⟨"SCR_CHk_STATUS", 7, 7 * 0x10000000 + 0x100, [(0, 16, 0x10)],
    [⟨63, 32, .ro, 0, none⟩, ⟨31, 24, .ro, 0, none⟩, ⟨23, 16, .ro, 0, none⟩, ⟨0, 0, .ro, 0, none⟩]⟩,
  ⟨"SCR_CHk_COUNTS", 7, 7 * 0x10000000 + 0x108, [(0, 16, 0x10)],
    [⟨63, 32, .ro, 0, none⟩, ⟨31, 16, .ro, 0, none⟩, ⟨15, 0, .ro, 0, none⟩]⟩,
  ⟨"SCR_TEST_ADDR", 7, 7 * 0x10000000 + 0x800, [],
    [⟨51, 6, .rw, 0, none⟩]⟩,
  ⟨"SCR_TEST_CTL", 7, 7 * 0x10000000 + 0x808, [],
    [⟨31, 31, .w1s, 0, none⟩, ⟨17, 16, .ro, 0, none⟩, ⟨15, 12, .ro, 0, none⟩, ⟨11, 11, .ro, 0, none⟩, ⟨9, 9, .rw, 0, none⟩, ⟨8, 8, .rw, 0, none⟩]⟩,
  ⟨"SCR_TEST_DATAi", 7, 7 * 0x10000000 + 0x810, [(0, 8, 0x8)],
    [⟨63, 0, .rw, 0, none⟩]⟩,
  ⟨"SCR_TEST_CHECKj", 7, 7 * 0x10000000 + 0x850, [(0, 2, 0x8)],
    [⟨63, 0, .rw, 0, none⟩]⟩]

/-- The register descriptions of block CSS (R540, R15). -/
def regDescsCSS : List RegDesc := [
  ⟨"CSS_CTL", 8, 8 * 0x10000000 + 0x0, [],
    [⟨31, 16, .rw, 4096, some (64, 65535)⟩, ⟨15, 8, .rw, 2, some (1, 16)⟩, ⟨3, 0, .rw, 3, some (0, 8)⟩]⟩,
  ⟨"CSS_ALARM", 8, 8 * 0x10000000 + 0x8, [],
    [⟨11, 11, .w1c, 0, none⟩, ⟨10, 10, .w1c, 0, none⟩, ⟨9, 9, .w1c, 0, none⟩, ⟨8, 8, .w1c, 0, none⟩, ⟨7, 7, .w1c, 0, none⟩, ⟨6, 6, .w1c, 0, none⟩, ⟨5, 5, .w1c, 0, none⟩, ⟨4, 4, .w1c, 0, none⟩, ⟨3, 3, .w1c, 0, none⟩, ⟨2, 2, .w1c, 0, none⟩, ⟨1, 1, .w1c, 0, none⟩, ⟨0, 0, .w1c, 0, none⟩]⟩,
  ⟨"CSS_JOURNAL", 8, 8 * 0x10000000 + 0x10, [],
    [⟨51, 32, .ro, 0, none⟩, ⟨31, 24, .ro, 0, none⟩, ⟨3, 2, .ro, 0, none⟩, ⟨1, 0, .ro, 0, none⟩]⟩,
  ⟨"CSS_ARB_CTL", 8, 8 * 0x10000000 + 0x18, [],
    [⟨22, 16, .rw, 16, some (1, 64)⟩, ⟨14, 8, .rw, 8, some (1, 64)⟩, ⟨6, 0, .rw, 4, some (1, 64)⟩]⟩,
  ⟨"CSS_INST_ALARM", 8, 8 * 0x10000000 + 0x20, [],
    [⟨4, 4, .w1c, 0, none⟩, ⟨3, 3, .w1c, 0, none⟩, ⟨2, 2, .w1c, 0, none⟩, ⟨1, 1, .w1c, 0, none⟩, ⟨0, 0, .w1c, 0, none⟩]⟩,
  ⟨"CSS_SIi_TGTt_PATHp", 8, 8 * 0x10000000 + 0x200000, [(0, 256, 0x200), (1, 16, 0x20), (0, 4, 0x8)],
    [⟨63, 62, .ro, 0, none⟩, ⟨61, 61, .rw, 0, none⟩, ⟨60, 60, .rw, 0, none⟩, ⟨44, 38, .rw, 0, none⟩, ⟨37, 0, .rw, 0, none⟩]⟩,
  ⟨"CSS_Pp_STRMs", 8, 8 * 0x10000000 + 0x400000, [(0, 128, 0x800), (0, 256, 0x8)],
    [⟨63, 63, .rw, 0, none⟩, ⟨55, 48, .ro, 0, none⟩, ⟨47, 40, .ro, 0, none⟩, ⟨39, 32, .ro, 0, none⟩, ⟨31, 24, .ro, 0, none⟩, ⟨13, 0, .rw, 0, none⟩]⟩,
  ⟨"CSS_SIi_BIND", 8, 8 * 0x10000000 + 0x800000, [(0, 256, 0x100)],
    [⟨16, 16, .rw, 1, none⟩, ⟨9, 8, .rw, 0, some (0, 2)⟩, ⟨7, 0, .rw, 0, none⟩]⟩,
  ⟨"CSS_SIi_CTL", 8, 8 * 0x10000000 + 0x800008, [(0, 256, 0x100)],
    [⟨1, 1, .w1s, 0, none⟩, ⟨0, 0, .w1s, 0, none⟩]⟩,
  ⟨"CSS_SIi_STATUS", 8, 8 * 0x10000000 + 0x800010, [(0, 256, 0x100)],
    [⟨42, 32, .ro, 0, none⟩, ⟨15, 8, .ro, 0, none⟩, ⟨2, 2, .ro, 0, none⟩, ⟨1, 1, .ro, 0, none⟩, ⟨0, 0, .ro, 0, none⟩]⟩,
  ⟨"CSS_SIi_TICKETS", 8, 8 * 0x10000000 + 0x800018, [(0, 256, 0x100)],
    [⟨31, 24, .ro, 16, none⟩, ⟨23, 16, .ro, 16, none⟩, ⟨15, 8, .ro, 16, none⟩, ⟨7, 0, .ro, 16, none⟩]⟩,
  ⟨"CSS_SIi_TICKETS_SHADOW", 8, 8 * 0x10000000 + 0x800020, [(0, 256, 0x100)],
    [⟨31, 24, .rw, 16, none⟩, ⟨23, 16, .rw, 16, none⟩, ⟨15, 8, .rw, 16, none⟩, ⟨7, 0, .rw, 16, none⟩]⟩,
  ⟨"CSS_SIi_RATE", 8, 8 * 0x10000000 + 0x800028, [(0, 256, 0x100)],
    [⟨63, 48, .rw, 0, none⟩, ⟨47, 32, .rw, 0, none⟩, ⟨31, 16, .rw, 0, none⟩, ⟨15, 0, .rw, 0, none⟩]⟩,
  ⟨"CSS_SIi_RPT", 8, 8 * 0x10000000 + 0x800030, [(0, 256, 0x100)],
    [⟨51, 12, .rw, 0, none⟩, ⟨0, 0, .rw, 0, none⟩]⟩,
  ⟨"CSS_SIi_COUNTS", 8, 8 * 0x10000000 + 0x800038, [(0, 256, 0x100)],
    [⟨63, 32, .ro, 0, none⟩, ⟨31, 24, .ro, 0, none⟩, ⟨23, 16, .ro, 0, none⟩, ⟨15, 0, .ro, 0, none⟩]⟩,
  ⟨"CSS_SIi_WINw_BASE", 8, 8 * 0x10000000 + 0x800040, [(0, 256, 0x100), (0, 4, 0x10)],
    [⟨63, 63, .rw, 0, none⟩, ⟨51, 12, .rw, 0, none⟩]⟩,
  ⟨"CSS_SIi_WINw_LIMIT", 8, 8 * 0x10000000 + 0x800048, [(0, 256, 0x100), (0, 4, 0x10)],
    [⟨51, 12, .rw, 0, none⟩]⟩,
  ⟨"CSS_Qq_SQBASE", 8, 8 * 0x10000000 + 0x1000000, [(0, 16384, 0x40)],
    [⟨63, 12, .rw, 0, none⟩, ⟨0, 0, .rw, 0, none⟩]⟩,
  ⟨"CSS_Qq_CQBASE", 8, 8 * 0x10000000 + 0x1000008, [(0, 16384, 0x40)],
    [⟨63, 12, .rw, 0, none⟩, ⟨0, 0, .rw, 0, none⟩]⟩,
  ⟨"CSS_Qq_CTL", 8, 8 * 0x10000000 + 0x1000010, [(0, 16384, 0x40)],
    [⟨59, 48, .rw, 1024, some (1, 4095)⟩, ⟨47, 40, .rw, 0, none⟩, ⟨36, 32, .rw, 4, some (4, 16)⟩, ⟨28, 24, .rw, 4, some (4, 16)⟩, ⟨1, 1, .w1s, 0, none⟩, ⟨0, 0, .rw, 0, none⟩]⟩,
  ⟨"CSS_Qq_STATUS", 8, 8 * 0x10000000 + 0x1000018, [(0, 16384, 0x40)],
    [⟨63, 48, .ro, 0, none⟩, ⟨47, 32, .ro, 0, none⟩, ⟨25, 21, .ro, 0, none⟩, ⟨20, 10, .ro, 0, none⟩, ⟨9, 9, .ro, 0, none⟩, ⟨7, 4, .ro, 0, none⟩, ⟨2, 0, .ro, 0, none⟩]⟩,
  ⟨"CSS_Qq_PTRS", 8, 8 * 0x10000000 + 0x1000020, [(0, 16384, 0x40)],
    [⟨63, 48, .ro, 0, none⟩, ⟨47, 32, .ro, 0, none⟩, ⟨31, 16, .ro, 0, none⟩, ⟨15, 8, .ro, 0, none⟩, ⟨7, 0, .ro, 0, none⟩]⟩,
  ⟨"CSS_Qq_PAUSE", 8, 8 * 0x10000000 + 0x1000028, [(0, 16384, 0x40)],
    [⟨63, 48, .ro, 0, none⟩, ⟨47, 16, .ro, 0, none⟩, ⟨1, 1, .ro, 0, none⟩, ⟨0, 0, .rw, 0, none⟩]⟩]

/-- The register descriptions of block CE (R540, R15). -/
def regDescsCE : List RegDesc := [
  ⟨"CE_ALARM", 9, 9 * 0x10000000 + 0x0, [],
    [⟨6, 6, .w1c, 0, none⟩, ⟨5, 5, .w1c, 0, none⟩, ⟨4, 4, .w1c, 0, none⟩, ⟨3, 3, .w1c, 0, none⟩, ⟨2, 2, .w1c, 0, none⟩, ⟨1, 1, .w1c, 0, none⟩, ⟨0, 0, .w1c, 0, none⟩]⟩,
  ⟨"CE_CTLl", 9, 9 * 0x10000000 + 0x1000, [(0, 256, 0x20)],
    [⟨39, 39, .rw, 0, none⟩, ⟨38, 32, .rw, 0, none⟩, ⟨15, 8, .rw, 4, some (1, 255)⟩, ⟨0, 0, .rw, 1, none⟩]⟩,
  ⟨"CE_STATUSl", 9, 9 * 0x10000000 + 0x1008, [(0, 256, 0x20)],
    [⟨56, 48, .ro, 0, none⟩, ⟨47, 40, .ro, 0, none⟩, ⟨39, 36, .ro, 0, none⟩, ⟨17, 16, .ro, 0, none⟩, ⟨2, 0, .ro, 0, none⟩]⟩,
  ⟨"CE_FAULTl", 9, 9 * 0x10000000 + 0x1010, [(0, 256, 0x20)],
    [⟨63, 63, .w1c, 0, none⟩, ⟨61, 48, .ro, 0, none⟩, ⟨31, 0, .ro, 0, none⟩]⟩,
  ⟨"CE_PROGl", 9, 9 * 0x10000000 + 0x1018, [(0, 256, 0x20)],
    [⟨31, 0, .rw, 1, none⟩]⟩,
  ⟨"CE_PHYSk", 9, 9 * 0x10000000 + 0x4000, [(0, 272, 0x8)],
    [⟨15, 8, .ro, 0, none⟩, ⟨2, 0, .ro, 0, none⟩]⟩]

/-- The register descriptions of block TU (R540, R15). -/
def regDescsTU : List RegDesc := [
  ⟨"TU_ALARM", 10, 10 * 0x10000000 + 0x0, [],
    [⟨5, 5, .w1c, 0, none⟩, ⟨4, 4, .w1c, 0, none⟩, ⟨3, 3, .w1c, 0, none⟩, ⟨2, 2, .w1c, 0, none⟩, ⟨1, 1, .w1c, 0, none⟩, ⟨0, 0, .w1c, 0, none⟩]⟩,
  ⟨"TU_STATUSu", 10, 10 * 0x10000000 + 0x100, [(0, 16, 0x8)],
    [⟨63, 32, .ro, 0, none⟩, ⟨31, 24, .ro, 0, none⟩, ⟨15, 8, .ro, 0, none⟩, ⟨1, 0, .ro, 0, none⟩]⟩]

/-- The register descriptions of block PRT (R540, R15). -/
def regDescsPRT : List RegDesc := [
  ⟨"PRT_CTL", 11, 11 * 0x10000000 + 0x0, [],
    [⟨23, 16, .rw, 16, none⟩, ⟨11, 8, .rw, 10, some (0, 10)⟩, ⟨7, 0, .rw, 10, some (1, 255)⟩]⟩,
  ⟨"PRT_ALARM", 11, 11 * 0x10000000 + 0x8, [],
    [⟨11, 11, .w1c, 0, none⟩, ⟨10, 10, .w1c, 0, none⟩, ⟨9, 9, .w1c, 0, none⟩, ⟨8, 8, .w1c, 0, none⟩, ⟨7, 7, .w1c, 0, none⟩, ⟨6, 6, .w1c, 0, none⟩, ⟨5, 5, .w1c, 0, none⟩, ⟨4, 4, .w1c, 0, none⟩, ⟨3, 3, .w1c, 0, none⟩, ⟨2, 2, .w1c, 0, none⟩, ⟨1, 1, .w1c, 0, none⟩, ⟨0, 0, .w1c, 0, none⟩]⟩,
  ⟨"PRT_Gj_LANES", 11, 11 * 0x10000000 + 0x100, [(0, 32, 0x8)],
    [⟨15, 8, .ro, 0, none⟩, ⟨7, 7, .ro, 0, none⟩, ⟨6, 6, .ro, 0, none⟩, ⟨2, 0, .ro, 0, none⟩]⟩,
  ⟨"PRT_Gj_ERR", 11, 11 * 0x10000000 + 0x300, [(0, 32, 0x8)],
    [⟨63, 0, .ro, 0, none⟩]⟩,
  ⟨"PRT_Pp_CFG", 11, 11 * 0x10000000 + 0x1000, [(0, 128, 0x40)],
    [⟨31, 28, .ro, 2, none⟩, ⟨27, 24, .ro, 6, none⟩, ⟨18, 16, .ro, 0, none⟩, ⟨10, 8, .ro, 1, none⟩, ⟨3, 3, .ro, 1, none⟩, ⟨2, 2, .ro, 1, none⟩, ⟨1, 1, .ro, 0, none⟩, ⟨0, 0, .ro, 0, none⟩]⟩,
  ⟨"PRT_Pp_CFG_SHADOW", 11, 11 * 0x10000000 + 0x1008, [(0, 128, 0x40)],
    [⟨31, 28, .rw, 2, some (0, 5)⟩, ⟨27, 24, .rw, 6, some (1, 6)⟩, ⟨18, 16, .rw, 0, some (0, 4)⟩, ⟨10, 8, .rw, 1, some (1, 4)⟩, ⟨3, 3, .rw, 1, none⟩, ⟨2, 2, .rw, 1, none⟩, ⟨1, 1, .rw, 0, none⟩, ⟨0, 0, .rw, 0, none⟩]⟩,
  ⟨"PRT_Pp_STATUS", 11, 11 * 0x10000000 + 0x1010, [(0, 128, 0x40)],
    [⟨63, 32, .ro, 0, none⟩, ⟨19, 16, .ro, 0, none⟩, ⟨15, 12, .ro, 0, none⟩, ⟨11, 9, .ro, 0, none⟩, ⟨8, 8, .ro, 0, none⟩, ⟨2, 0, .ro, 0, none⟩]⟩,
  ⟨"PRT_Pp_MBASE", 11, 11 * 0x10000000 + 0x1018, [(0, 128, 0x40)],
    [⟨63, 12, .rw, 0, none⟩]⟩,
  ⟨"PRT_Pp_TXBASE", 11, 11 * 0x10000000 + 0x1020, [(0, 128, 0x40)],
    [⟨63, 17, .rw, 0, none⟩]⟩,
  ⟨"PRT_Pp_EXT_BASE", 11, 11 * 0x10000000 + 0x1028, [(0, 128, 0x40)],
    [⟨63, 9, .rw, 0, none⟩]⟩,
  ⟨"PRT_Pp_LOOP", 11, 11 * 0x10000000 + 0x1030, [(0, 128, 0x40)],
    [⟨63, 32, .ro, 0, none⟩, ⟨5, 4, .rw, 0, some (0, 2)⟩, ⟨2, 0, .rw, 0, some (0, 4)⟩]⟩,
  ⟨"PRT_Pp_CMD", 11, 11 * 0x10000000 + 0x1038, [(0, 128, 0x40)],
    [⟨0, 0, .w1s, 0, none⟩]⟩,
  ⟨"PRT_Pp_COUNTS", 11, 11 * 0x10000000 + 0x4000, [(0, 128, 0x8)],
    [⟨63, 48, .ro, 0, none⟩, ⟨47, 32, .ro, 0, none⟩, ⟨31, 16, .ro, 0, none⟩, ⟨15, 0, .ro, 0, none⟩]⟩]

/-- The register descriptions of block BL (R540, R15). -/
def regDescsBL : List RegDesc := [
  ⟨"BL_CTL", 12, 12 * 0x10000000 + 0x0, [],
    [⟨15, 8, .rw, 64, some (1, 255)⟩, ⟨3, 0, .rw, 4, some (1, 15)⟩]⟩,
  ⟨"BL_ALARM", 12, 12 * 0x10000000 + 0x8, [],
    [⟨11, 11, .w1c, 0, none⟩, ⟨10, 10, .w1c, 0, none⟩, ⟨9, 9, .w1c, 0, none⟩, ⟨8, 8, .w1c, 0, none⟩, ⟨7, 7, .w1c, 0, none⟩, ⟨6, 6, .w1c, 0, none⟩, ⟨5, 5, .w1c, 0, none⟩, ⟨4, 4, .w1c, 0, none⟩, ⟨3, 3, .w1c, 0, none⟩, ⟨2, 2, .w1c, 0, none⟩, ⟨1, 1, .w1c, 0, none⟩, ⟨0, 0, .w1c, 0, none⟩]⟩,
  ⟨"BL_EVAC", 12, 12 * 0x10000000 + 0x10, [],
    [⟨63, 48, .rw, 0, none⟩, ⟨47, 32, .rw, 500, some (1, 4095)⟩, ⟨31, 31, .w1s, 0, none⟩, ⟨28, 28, .rw, 0, none⟩, ⟨26, 24, .rw, 0, none⟩, ⟨19, 16, .ro, 0, none⟩, ⟨15, 8, .ro, 0, none⟩]⟩,
  ⟨"BL_MC_SYSn", 12, 12 * 0x10000000 + 0x40, [(0, 8, 0x8)],
    [⟨7, 0, .rw, 0, none⟩]⟩,
  ⟨"BL_PEERm", 12, 12 * 0x10000000 + 0x100, [(0, 8, 0x8)],
    [⟨63, 61, .ro, 0, none⟩, ⟨40, 40, .rw, 0, none⟩, ⟨38, 36, .rw, 0, none⟩, ⟨31, 0, .rw, 0, none⟩]⟩,
  ⟨"BL_Lj_STATUS", 12, 12 * 0x10000000 + 0x200, [(0, 32, 0x8)],
    [⟨63, 48, .ro, 0, none⟩, ⟨42, 40, .ro, 0, none⟩, ⟨36, 32, .ro, 0, none⟩, ⟨19, 16, .ro, 0, none⟩, ⟨11, 9, .ro, 0, none⟩, ⟨2, 0, .ro, 0, none⟩]⟩]

/-- The register descriptions of block AEP (R540, R15). -/
def regDescsAEP : List RegDesc := [
  ⟨"AEP_CTL", 13, 13 * 0x10000000 + 0x0, [],
    [⟨39, 32, .rw, 64, some (8, 255)⟩, ⟨31, 16, .rw, 500, some (64, 65535)⟩, ⟨11, 8, .rw, 2, some (0, 8)⟩, ⟨0, 0, .rw, 0, none⟩]⟩,
  ⟨"AEP_ALARM", 13, 13 * 0x10000000 + 0x8, [],
    [⟨7, 7, .w1c, 0, none⟩, ⟨6, 6, .w1c, 0, none⟩, ⟨5, 5, .w1c, 0, none⟩, ⟨4, 4, .w1c, 0, none⟩, ⟨3, 3, .w1c, 0, none⟩, ⟨2, 2, .w1c, 0, none⟩, ⟨1, 1, .w1c, 0, none⟩, ⟨0, 0, .w1c, 0, none⟩]⟩,
  ⟨"AEP_STATUS", 13, 13 * 0x10000000 + 0x10, [],
    [⟨23, 16, .ro, 0, none⟩, ⟨15, 15, .ro, 0, none⟩, ⟨12, 12, .ro, 0, none⟩, ⟨11, 10, .ro, 0, none⟩, ⟨9, 9, .ro, 0, none⟩, ⟨8, 8, .ro, 0, none⟩, ⟨1, 1, .ro, 0, none⟩, ⟨0, 0, .ro, 0, none⟩]⟩,
  ⟨"AEP_CMD", 13, 13 * 0x10000000 + 0x18, [],
    [⟨1, 1, .w1s, 0, none⟩, ⟨0, 0, .w1s, 0, none⟩]⟩,
  ⟨"AEP_VFn_STATUS", 13, 13 * 0x10000000 + 0x100, [(1, 256, 0x8)],
    [⟨63, 32, .ro, 0, none⟩, ⟨15, 8, .ro, 0, none⟩, ⟨2, 2, .ro, 0, none⟩, ⟨1, 1, .ro, 0, none⟩, ⟨0, 0, .ro, 0, none⟩]⟩]

/-- The register descriptions of block ENDP (R540, R15). -/
def regDescsENDP : List RegDesc := [
  ⟨"ENDP_CTL", 14, 14 * 0x10000000 + 0x0, [],
    [⟨19, 16, .rw, 3, some (1, 15)⟩, ⟨11, 0, .rw, 256, some (16, 4095)⟩]⟩,
  ⟨"ENDP_ALARM", 14, 14 * 0x10000000 + 0x8, [],
    [⟨9, 9, .w1c, 0, none⟩, ⟨8, 8, .w1c, 0, none⟩, ⟨7, 7, .w1c, 0, none⟩, ⟨6, 6, .w1c, 0, none⟩, ⟨5, 5, .w1c, 0, none⟩, ⟨4, 4, .w1c, 0, none⟩, ⟨3, 3, .w1c, 0, none⟩, ⟨1, 1, .w1c, 0, none⟩, ⟨0, 0, .w1c, 0, none⟩]⟩,
  ⟨"ENDP_DEBUG", 14, 14 * 0x10000000 + 0x10, [],
    [⟨4, 4, .ro, 0, none⟩, ⟨3, 3, .ro, 0, none⟩, ⟨2, 2, .ro, 0, none⟩, ⟨1, 1, .ro, 0, none⟩, ⟨0, 0, .ro, 0, none⟩]⟩,
  ⟨"ENDP_REGION", 14, 14 * 0x10000000 + 0x18, [],
    [⟨51, 12, .ro, 0, none⟩, ⟨7, 0, .ro, 0, none⟩]⟩,
  ⟨"ENDP_MEAS_BOOTk", 14, 14 * 0x10000000 + 0x100, [(0, 6, 0x8)],
    [⟨63, 0, .ro, 0, none⟩]⟩,
  ⟨"ENDP_MEAS_IMAGEk", 14, 14 * 0x10000000 + 0x140, [(0, 6, 0x8)],
    [⟨63, 0, .ro, 0, none⟩]⟩,
  ⟨"ENDP_HARTn_STATUS", 14, 14 * 0x10000000 + 0x1000, [(0, 384, 0x8)],
    [⟨63, 32, .ro, 0, none⟩, ⟨9, 8, .ro, 0, none⟩, ⟨2, 0, .ro, 0, none⟩]⟩,
  ⟨"ENDP_KSn_OP", 14, 14 * 0x10000000 + 0x8000, [(0, 384, 0x40)],
    [⟨2, 0, .rw, 0, some (1, 4)⟩]⟩,
  ⟨"ENDP_KSn_ARG0", 14, 14 * 0x10000000 + 0x8008, [(0, 384, 0x40)],
    [⟨63, 0, .rw, 0, none⟩]⟩,
  ⟨"ENDP_KSn_ARG1", 14, 14 * 0x10000000 + 0x8010, [(0, 384, 0x40)],
    [⟨63, 0, .rw, 0, none⟩]⟩,
  ⟨"ENDP_KSn_CTL", 14, 14 * 0x10000000 + 0x8020, [(0, 384, 0x40)],
    [⟨31, 31, .w1s, 0, none⟩, ⟨8, 8, .ro, 0, none⟩, ⟨2, 0, .ro, 0, none⟩]⟩,
  ⟨"ENDP_KSn_OUT", 14, 14 * 0x10000000 + 0x8028, [(0, 384, 0x40)],
    [⟨63, 0, .ro, 0, none⟩]⟩]

/-- The register descriptions of block COL (R540, R15). -/
def regDescsCOL : List RegDesc := [
  ⟨"COL_CTL", 15, 15 * 0x10000000 + 0x0, [],
    [⟨15, 0, .rw, 20000, none⟩]⟩,
  ⟨"COL_ALARM", 15, 15 * 0x10000000 + 0x8, [],
    [⟨14, 14, .w1c, 0, none⟩, ⟨13, 13, .w1c, 0, none⟩, ⟨12, 12, .w1c, 0, none⟩, ⟨11, 11, .w1c, 0, none⟩, ⟨10, 10, .w1c, 0, none⟩, ⟨9, 9, .w1c, 0, none⟩, ⟨8, 8, .w1c, 0, none⟩, ⟨7, 7, .w1c, 0, none⟩, ⟨6, 6, .w1c, 0, none⟩, ⟨5, 5, .w1c, 0, none⟩, ⟨4, 4, .w1c, 0, none⟩, ⟨3, 3, .w1c, 0, none⟩, ⟨2, 2, .w1c, 0, none⟩, ⟨0, 0, .w1c, 0, none⟩]⟩,
  ⟨"COL_CMD", 15, 15 * 0x10000000 + 0x10, [],
    [⟨2, 2, .w1s, 0, none⟩, ⟨1, 1, .w1s, 0, none⟩, ⟨0, 0, .w1s, 0, none⟩]⟩,
  ⟨"COL_STATUS", 15, 15 * 0x10000000 + 0x18, [],
    [⟨63, 32, .ro, 0, none⟩, ⟨31, 16, .ro, 0, none⟩, ⟨8, 8, .ro, 0, none⟩, ⟨7, 7, .ro, 0, none⟩, ⟨6, 6, .ro, 0, none⟩, ⟨3, 2, .ro, 0, none⟩, ⟨1, 0, .ro, 0, none⟩]⟩,
  ⟨"COL_LOG_STATUS", 15, 15 * 0x10000000 + 0x20, [],
    [⟨63, 48, .ro, 0, none⟩, ⟨47, 32, .ro, 0, none⟩, ⟨31, 0, .ro, 0, none⟩]⟩]

/-- The register descriptions of block SVC (R540, R15). -/
def regDescsSVC : List RegDesc := [
  ⟨"SVC_IDENT0", 16, 16 * 0x10000000 + 0x0, [],
    [⟨63, 0, .ro, 0, none⟩]⟩,
  ⟨"SVC_IDENT1", 16, 16 * 0x10000000 + 0x8, [],
    [⟨18, 16, .ro, 0, none⟩, ⟨11, 10, .ro, 0, none⟩, ⟨9, 8, .ro, 0, none⟩]⟩,
  ⟨"SVC_ALARM", 16, 16 * 0x10000000 + 0x10, [],
    [⟨2, 2, .w1c, 0, none⟩, ⟨1, 1, .w1c, 0, none⟩, ⟨0, 0, .w1c, 0, none⟩]⟩,
  ⟨"SVC_LOCK", 16, 16 * 0x10000000 + 0x18, [],
    [⟨15, 0, .w1sSticky, 0, none⟩]⟩,
  ⟨"SVC_BAD_ADDR", 16, 16 * 0x10000000 + 0x20, [],
    [⟨63, 63, .w1c, 0, none⟩, ⟨51, 0, .ro, 0, none⟩]⟩]

/-- The registers of one block by its number (R528). -/
def regDescsOf (b : Nat) : List RegDesc :=
  match b with
  | 0 => regDescsTB
  | 1 => regDescsHB
  | 2 => regDescsCPU
  | 3 => regDescsL3
  | 4 => regDescsMESH
  | 5 => regDescsMC
  | 6 => regDescsMG
  | 7 => regDescsSCR
  | 8 => regDescsCSS
  | 9 => regDescsCE
  | 10 => regDescsTU
  | 11 => regDescsPRT
  | 12 => regDescsBL
  | 13 => regDescsAEP
  | 14 => regDescsENDP
  | 15 => regDescsCOL
  | 16 => regDescsSVC
  | _ => []

/-- The configuration-error flag of a block (R20, each block's chapter). -/
def cfgErrOf (b : Nat) : Fld :=
  match b with
  | 0 => TB_ALARM.CFG_ERR
  | 1 => HB_ALARM.CFG_ERR
  | 2 => CPU_RAS_ALARM.CFG_ERR
  | 3 => L3_RAS_ALARM.CFG_ERR
  | 4 => MESH_ALARM.CFG_ERR
  | 5 => MC_ALARM.CFG_ERR
  | 6 => MG_ALARM.CFG_ERR
  | 7 => SCR_ALARM.CFG_ERR
  | 8 => CSS_ALARM.CFG_ERR
  | 9 => CE_ALARM.CFG_ERR
  | 10 => TU_ALARM.CFG_ERR
  | 11 => PRT_ALARM.CFG_ERR
  | 12 => BL_ALARM.CFG_ERR
  | 13 => AEP_ALARM.CFG_ERR
  | 14 => ENDP_ALARM.CFG_ERR
  | 15 => COL_ALARM.CFG_ERR
  | _ => SVC_ALARM.CFG_ERR

end Sys2Proof.Machine
end

