-- ==== Sys2Proof/Machine/RegFile.lean ====
section
/-! DEFINITION. What a register of set-up space reads as when nothing has changed it since cold reset (R17), and how a
field is read from and put into a 64-bit register (R10). -/

namespace Sys2Proof.Machine

open Sys2Proof

/-- The indices of the register at offset `k` within an array, widest distance first; none where no register of the
array lies there. -/
def indicesAt : List (Nat × Nat × Nat) → Nat → Option (List Nat)
  | [], rest => if rest = 0 then some [] else none
  | (first, last, dist) :: ds, rest =>
    let i := rest / dist
    if first ≤ i ∧ i < last then (indicesAt ds (rest % dist)).map (i :: ·) else none

/-- The indices of the register at offset `k` where it belongs to the description. -/
def RegDesc.indices (d : RegDesc) (k : Nat) : Option (List Nat) :=
  if d.off ≤ k then indicesAt d.dims (k - d.off) else none

/-- The first description of a list that holds the register at offset `k`, with the register's indices. -/
def findIn : List RegDesc → Nat → Option (RegDesc × List Nat)
  | [], _ => none
  | d :: ds, k =>
    match d.indices k with
    | some is => some (d, is)
    | none => findIn ds k

/-- The register at set-up-space offset `k`, if one lies there (R529, R540). -/
def findReg (k : Nat) : Option (RegDesc × List Nat) := findIn (regDescsOf (k / 0x10000000)) k

/-- The value that the Reset column gives all the fields of a register. -/
def RegDesc.resetWord (d : RegDesc) : Nat := d.fields.foldl (fun a f => a + f.reset * 2 ^ f.lo) 0

/-- The slice that entry `i` of the home table names at reset: entry i is i mod 216 (R168); a word holds eight. -/
def homeTableReset (j : Nat) : Nat :=
  (List.range 8).foldl (fun a k => a + ((8 * j + k) % 216) * 2 ^ (8 * k)) 0

/-- The maximum current of rail r in units of 0.25 A (R36, R497). -/
def imaxReset (r : Nat) : Nat :=
  [920, 920, 920, 920, 180, 180, 180, 180, 440, 440, 280, 64].getD r 0

/-- The number of bits of a field. -/
def Fld.width (f : Fld) : Nat := f.hi + 1 - f.lo

/-- The bits of a field within its register. -/
def Fld.mask (f : Fld) : Word := BitVec.ofNat 64 ((2 ^ f.width - 1) * 2 ^ f.lo)

/-- A field's value in a register. -/
def Fld.of (f : Fld) (w : Word) : Nat := w.toNat / 2 ^ f.lo % 2 ^ f.width

/-- A register with one field set; bits of the value beyond the field's width are dropped. -/
def Fld.put (f : Fld) (v : Nat) (w : Word) : Word :=
  (w &&& ~~~ f.mask) ||| BitVec.ofNat 64 (v % 2 ^ f.width * 2 ^ f.lo)

/-- The physical engine that serves logical engine l as built (R30): physical engines 128 to 135 and 264 to 271 are the
spares of the two I/O dies. -/
def engineHome (l : Nat) : Nat := if l < 128 then l else l + 8

/-- CE_PHYSk as built (R30): ACTIVE for its logical engine, or SPARE. -/
def physReset (k : Nat) (w : Word) : Word :=
  if k < 128 then (CE_PHYSk.LOGICAL k).put k w
  else if k < 136 then (CE_PHYSk.STATE k).put 1 w
  else if k < 264 then (CE_PHYSk.LOGICAL k).put (k - 8) w
  else (CE_PHYSk.STATE k).put 1 w

/-- The reset value of a register where it depends on the register's index or is fixed by the part; elsewhere the value
`w` of its Reset column. What the Reset column gives as "from fuses" or "from MID0 to MID2" is at reset what log entry 52 names
(DESIGN CHOICE: an AGS9624-LQ36; SERIAL, MODULE and the words of HB_VCURVEd_w are 0); STEP is 2 on every shipped part (R540). -/
def specialReset (off : Nat) (is : List Nat) (w : Word) : Word :=
  let i := is.headD 0
  if off = HB_RAILr 0 then (HB_RAILr.IMAX i).put (imaxReset i) w
  else if off = HB_QSTATUSn 0 then (HB_QSTATUSn.FREQ i).put 3600 w
  else if off = CPU_CORE_STATUSc 0 then (CPU_CORE_STATUSc.TILE i).put (i % 8) w
  else if off = L3_SLICE_STATUSs 0 then (L3_SLICE_STATUSs.ENTRIES i).put (if i < 208 then 19 else 18) w
  else if off = L3_HOME_TABLEj 0 then BitVec.ofNat 64 (homeTableReset i)
  else if off = L3_HOME_SHADOWj 0 then BitVec.ofNat 64 (homeTableReset i)
  else if off = CE_STATUSl 0 then (CE_STATUSl.PHYS i).put (engineHome i) w
  else if off = CE_PHYSk 0 then physReset i w
  else if off = CPU_KEEP_CSRi 0 then
    (match keepCsr i with
    | some (b, a) => (CPU_KEEP_CSRi.VALID i).put 1 ((CPU_KEEP_CSRi.BANK i).put (if b then 1 else 0) ((CPU_KEEP_CSRi.CSR i).put a w))
    | none => w)
  else if off = CSS_SIi_BIND 0 then
    (if i = 0 then (CSS_SIi_BIND.KIND i).put 1 ((CSS_SIi_BIND.WINEN i).put 0 w) else w)
  else if off = ENDP_DEBUG then ENDP_DEBUG.TEXT_INV.put 1 (ENDP_DEBUG.TEXT_NINV.put 1 w)
  else if off = SVC_IDENT1 then SVC_IDENT1.STEP.put 2 w
  else w

/-- The bits of a register that a field other than a reserved one holds (R19). -/
def definedBits (k : Nat) : Word :=
  match findReg k with
  | none => 0
  | some (d, _) => d.fields.foldl (fun a f => a ||| BitVec.ofNat 64 ((2 ^ (f.hi + 1 - f.lo) - 1) * 2 ^ f.lo)) 0

/-- What the register at offset `k` reads as when nothing has changed it; an offset with no register reads as zero (R529). -/
def resetOf (k : Nat) : Word :=
  match findReg k with
  | none => 0
  | some (d, is) => specialReset d.off is (BitVec.ofNat 64 d.resetWord)

end Sys2Proof.Machine
end

