-- ==== Sys2Proof/Machine/Ops.lean ====
section
/-! DEFINITION. The named operations that every family of commands is written in: registers and their fields, the time
count, the event log, posted events, and the judging of a register write (R16, R18, R20, R67, R68, R524, R533, R536). -/

namespace Sys2Proof.Machine

open Sys2Proof

/-! ### Registers -/

/-- The register at set-up-space offset `k`. -/
def State.reg (s : State) (k : Nat) : Word := s.regs.get (resetOf k) k

/-- Set a whole register. -/
def State.setReg (s : State) (k : Nat) (v : Word) : State := { s with regs := s.regs.set (resetOf k) k v }

/-- The value of a field. -/
def State.f (s : State) (fld : Fld) : Nat := fld.of (s.reg fld.key)

/-- Whether a one-bit field is set. -/
def State.on (s : State) (fld : Fld) : Bool := decide (s.f fld ≠ 0)

/-- Set a field; bits beyond its width are dropped. -/
def State.setF (s : State) (fld : Fld) (v : Nat) : State := s.setReg fld.key (fld.put v (s.reg fld.key))

/-- Set a one-bit field from a truth value. -/
def State.setB (s : State) (fld : Fld) (b : Bool) : State := s.setF fld (if b then 1 else 0)

/-- Hardware sets a flag (R18). -/
def State.raise (s : State) (fld : Fld) : State := s.setF fld 1

/-- Hardware sets a flag when a condition holds. -/
def State.raiseIf (s : State) (c : Bool) (fld : Fld) : State := if c then s.raise fld else s

/-- Add to a saturating count. -/
def State.addF (s : State) (fld : Fld) (n : Nat) : State := s.setF fld (min (s.f fld + n) (2 ^ fld.width - 1))

/-- Add one to a saturating count. -/
def State.incF (s : State) (fld : Fld) : State := s.addF fld 1

/-! ### The module's identity and conditions -/

/-- The module number m (R49). -/
def State.moduleNo (s : State) : Nat := s.f SVC_IDENT1.MODULE

/-- Whether the part is an AGS9624-LQ32 (R1, R2). -/
def State.lq32 (s : State) : Bool := decide (s.f SVC_IDENT1.GRADE = 1)

/-- What a command does while the module runs: nothing reaches a module that THERMTRIP or a supply has stopped (R510,
R543). -/
def State.running (s : State) (s' : State) : State := if s.stopped then s else s'

/-- What a command does that only what stands on VKEEP carries out: the time base, the service engines, the Colophon (R38, R40). -/
def State.onKeep (s : State) (s' : State) : State := if s.off then s else s'

/-- A free value: one that the spec leaves open. The counter advances, so that each draw is its own value. -/
def State.draw (s : State) : Word × State := (Config.freeWord s.free, { s with free := s.free + 1 })

/-! ### Time -/

/-- The time count in units of 1/256 µs (R12). -/
def State.count (s : State) : Nat := s.f TB_COUNT.COUNT

/-- The present leaf (R12). -/
def State.leaf (s : State) : Nat := s.count / 256

/-- The present gathering (R13). -/
def State.gathering (s : State) : Nat := s.leaf / 1024

/-- The drift bound of R58 in units, rounded up, after `t` units of holdover: 40 ns plus 0.2 ppm of `t` after a lock of
600 s, and 40 ns plus 5 ppm of `t` otherwise; beyond 24 hours it saturates. -/
def driftBound (longLock : Bool) (t : Nat) : Nat :=
  if 86400 * 256000000 < t then 0xFFFFFFFF
  else if longLock then (51200000 + t + 4999999) / 5000000
  else (2048000 + t + 199999) / 200000

/-- TB_HOLD as the time base's state and the time in it make it read (R58). ELAPSED counts whole spans of 262,144 units since entry, and not
the gathering edges passed since (DESIGN CHOICE, log entry 53). -/
def State.showHold (s : State) : State :=
  let st := s.f TB_STATUS.STATE
  if st = 3 then
    let t := s.count - s.tb.holdSince
    let b := if s.tb.noBound then 0xFFFFFFFF else min (driftBound s.tb.longLock t) 0xFFFFFFFF
    (s.setF TB_HOLD.BOUND b).setF TB_HOLD.ELAPSED (min (t / 262144) 0xFFFFFFFF)
  else
    (s.setF TB_HOLD.BOUND (if st = 1 ∨ st = 2 then 0 else 0xFFFFFFFF)).setF TB_HOLD.ELAPSED 0

/-- SCR_FILL_STATUS.ELAPSED while the power-up fill runs: the gatherings since it began (R234). -/
def State.showFill (s : State) : State :=
  if s.f SCR_FILL_STATUS.STATE = 1 then s.setF SCR_FILL_STATUS.ELAPSED (min (2 ^ 24 - 1) ((s.count - s.fillStart) / 2 ^ 18)) else s

/-- What a leaf edge brings: replicas that disagree are reloaded (R65), GRANTs follow the FLOORs written in the leaf before (R224), and other
registers written in it come into force (R320, R328). -/
def State.leafEdge (s : State) : State :=
  { (s.floorsDue.filter (fun e => decide (e < 451))).foldl (fun a e => a.setF (MC_BWR_ENTRYe.GRANT e) (a.f (MC_BWR_ENTRYe.FLOOR e))) s with replicas := [], floorsDue := [], held := [] }

/-- Set the time count, and what it shows with it: TB_HOLD, the fill's progress, and at a leaf edge what that brings. -/
def State.setCount (s : State) (c : Nat) : State :=
  let s1 := (s.setF TB_COUNT.COUNT c).showHold.showFill
  if s.leaf < c / 256 then s1.leafEdge else s1

/-- A field of a register as it is in force: one written in this leaf that takes effect at the next leaf edge still has its word of before. -/
def State.inForce (s : State) (x : Fld) : Nat := x.of ((s.held.get none x.key).getD (s.reg x.key))

/-- The register at `k` is about to be written: the word that it has stays in force until the next leaf edge. -/
def State.holdWord (s : State) (k : Nat) : State :=
  if (s.held.get none k).isSome then s else { s with held := s.held.set none k (some (s.reg k)) }

/-- The count as die `d`'s replica holds it (R65, R66). -/
def State.dieCount (s : State) (d : Nat) : Nat := ((s.count : Int) + s.replicas.get 0 d).toNat

/-- Time passes until the count reaches `c`; a count that is already there does not go back (R61). -/
def State.until (s : State) (c : Nat) : State := if s.count < c then s.setCount c else s

/-- Time passes until the edge that begins leaf `n`. -/
def State.untilLeaf (s : State) (n : Nat) : State := s.until (n * 256)

/-- The phase error that a slew has not yet removed: one unit in every 256 (R60). -/
def State.slewRest (s : State) : Nat := s.tb.slewError - (s.count - s.tb.slewSince) / 256

/-- The holdover flag of R60: the state is ACQUIRING, HOLDOVER or SUBSTITUTE, or the slew after a holdover has more than
2 units left. -/
def State.holdFlag (s : State) : Bool :=
  let st := s.f TB_STATUS.STATE
  decide (st = 0 ∨ st = 3 ∨ st = 4) || (s.tb.slewFlag && decide (2 < s.slewRest)) || s.tb.forced

/-- Whether the forward step of the count skipped leaf `n` (R62). -/
def State.leafSkipped (s : State) (n : Nat) : Bool :=
  match s.tb.skipped with
  | some (a, b) => decide (a < n ∧ n < b)
  | none => false

/-- What an event scheduled for leaf `n` does when it fires: with the holdover flag where the count skipped its leaf (R62). -/
def State.asEventOf (s : State) (n : Nat) (act : State → State) : State :=
  if s.leafSkipped n then
    let s1 := act { s with tb := { s.tb with forced := true } }
    { s1 with tb := { s1.tb with forced := false } }
  else act s

/-! ### The event log -/

/-- Queue a record for the event log (R524): beyond 1,024 waiting it is dropped, counted, and LOG_DROP is set. -/
def State.logAt (s : State) (type : Nat) (loc : Loc) (fields : Nat) (payload : List Nat) : State :=
  if s.logQueue.length < 1024 then
    { s with logQueue := s.logQueue ++
        [{ type := type, time := BitVec.ofNat 64 s.count, hold := s.holdFlag, late := false, source := false,
           loc := loc, fields := fields, payload := payload }] }
  else (s.incF COL_LOG_STATUS.DROPPED).raise COL_ALARM.LOG_DROP

/-- The packed location of R77. -/
def Loc.packed (l : Loc) : Nat :=
  l.module % 8 * 2 ^ 21 + l.die % 8 * 2 ^ 18 + l.quire % 16 * 2 ^ 14 + l.tile % 16 * 2 ^ 10 + l.unit % 1024

/-- A unit of compute die d (R561). -/
def State.dieLoc (s : State) (die unit : Nat) : Loc := { module := s.moduleNo, die := die, quire := 9, tile := 0, unit := unit }

/-- A unit of physical tile t of quire n (R24, R561). -/
def State.tileLoc (s : State) (n t unit : Nat) : Loc :=
  { module := s.moduleNo, die := n / 6, quire := n % 6, tile := t, unit := unit }

/-- The unit of port p (R561). -/
def State.portLoc (s : State) (p : Nat) : Loc := s.dieLoc (4 + p / 64) (p % 64)

/-- The unit of physical engine k (R561). -/
def State.engineLoc (s : State) (k : Nat) : Loc := s.dieLoc (4 + k / 136) (128 + k % 136)

/-- The unit of transform unit u (R561). -/
def State.tuLoc (s : State) (u : Nat) : Loc := s.dieLoc (4 + u / 8) (272 + u % 8)

/-- The unit of memory controller k (R561). -/
def State.mcLoc (s : State) (k : Nat) : Loc := s.dieLoc (k / 4) (16 + k % 4)

/-! ### Events posted for a leaf -/

/-- Whether R67 accepts an event for leaf `n`. -/
def State.acceptsLeaf (s : State) (n : Nat) : Bool := decide (s.leaf + 2 ≤ n ∧ n ≤ s.leaf + 2 ^ 24)

/-- Post an event for a leaf; one that R67 does not accept is refused. -/
def State.post (s : State) (n : Nat) (k : LeafKind) : State :=
  { s with posted := if s.acceptsLeaf n then s.posted ++ [{ leaf := n, kind := k }] else s.posted }

/-- The posted event of a kind, if there is one. -/
def State.postedEvent (s : State) (k : LeafKind) : Option LeafEvent := s.posted.find? (fun e => decide (e.kind = k))

/-- The row of R67's table in which a posted event fires; resets have none and come last. -/
def LeafKind.order : LeafKind → Nat
  | .retrain _ | .laneSwap _ | .broipRetrain _ => 4
  | .lifetimeCommit => 7
  | .warmReset | .coldReset => 8

/-- The leaf in which an event scheduled for leaf `n` fires: the first one after a forward step that skipped `n` (R62). -/
def State.firingLeaf (s : State) (n : Nat) : Nat :=
  match s.tb.skipped with
  | some (_, b) => if s.leafSkipped n then b else n
  | none => n

/-- The leaves at which channel timeouts stand to fire (R281). -/
def State.timerLeaves (s : State) : List Nat :=
  if s.stopped then [] else s.journal.filterMap (fun e => e.2.bind (fun x => x.timer))

/-- The leaves and rows of the events that stand scheduled: the targets of COMMITTED mode changes, granted current steps, posted events, channel
timeouts. -/
def State.dueEvents (s : State) : List (Nat × Nat) :=
  (s.slots.filter (fun e => decide (s.f (TB_MCn_STATUS.STATE e.1) = 2))).map (fun e => (e.2.target, 2)) ++
    s.hb.granted.map (fun r => (r.leaf, 3)) ++ s.posted.map (fun e => (e.leaf, e.kind.order)) ++ s.timerLeaves.map (fun l => (l, 6))

/-- Whether an event of row `k` of R67's table, scheduled for leaf `n`, may fire: none of an earlier leaf, or of an earlier row in the same
leaf, is still to fire. -/
def State.turnOf (s : State) (n k : Nat) : Bool :=
  let l := s.firingLeaf n
  s.dueEvents.all (fun e => !decide (s.firingLeaf e.1 < l ∨ (s.firingLeaf e.1 = l ∧ e.2 < k)))

/-- An event of row 6 or 7 scheduled for leaf `n` fires: the scrub bursts of the leaf in which it does have fired before (R67). -/
def State.lateEvent (s : State) (n : Nat) : State := { s with lateRow := s.firingLeaf n + 1 }

/-- Whether a scrub burst scheduled for leaf `n` may still fire, in its row and not before the present leaf (R62, R67). -/
def State.burstTurn (s : State) (n : Nat) : Bool :=
  decide (s.leaf ≤ s.firingLeaf n ∧ s.lateRow ≠ s.firingLeaf n + 1) && s.turnOf n 5

/-- Time passes until the leaf in which an event scheduled for leaf `n` fires, and it does (R62). -/
def State.atLeaf (s : State) (n : Nat) (act : State → State) : State := (s.untilLeaf (s.firingLeaf n)).asEventOf n act

/-- The event of a kind fires or is withdrawn: the first one posted goes. -/
def State.unpost (s : State) (k : LeafKind) : State := { s with posted := s.posted.eraseP (fun e => decide (e.kind = k)) }

/-- Fire the posted event of a kind, at its leaf. -/
def State.fire (s : State) (k : LeafKind) (act : State → State) : State :=
  match s.postedEvent k with
  | none => s
  | some e => if s.turnOf e.leaf k.order then ((s.untilLeaf e.leaf).unpost k).asEventOf e.leaf act else s

/-! ### The judging of a register write (R20) -/

/-- The physical address of a set-up-space offset of this module (R41). -/
def State.setupAddr (s : State) (k : Nat) : Nat := 0xE000000000000 + s.moduleNo * 2 ^ 40 + k

/-- SVC_BAD_ADDR captures the first access of R533 or R536 since VALID was cleared. -/
def State.captureBad (s : State) (k : Nat) : State :=
  if s.on SVC_BAD_ADDR.VALID then s
  else (s.setF SVC_BAD_ADDR.ADDR (s.setupAddr k)).raise SVC_BAD_ADDR.VALID

/-- Whether SVC_LOCK freezes block `b` for this requester now (R536). -/
def State.locked (s : State) (who : Requester) (b : Nat) : Bool :=
  decide (who = .text) && decide (s.lockFrom.get 0 b ≠ 0) && decide (s.lockFrom.get 0 b ≤ s.leaf)

/-- Whether only Endpaper may write the register at `k` (R474, R249): the ENDP block, and of block MG the guard controls, at the start of each
guard's 0x1000 bytes, and the region shadows, the upper half of each region's 0x20. -/
def endpaperOnly (k : Nat) : Bool :=
  let b := k / 0x10000000
  let o := k % 0x10000000
  decide (b = 14) || (decide (b = 6 ∧ 0x1000 ≤ o) && (decide (o % 0x1000 = 0) || decide (0x10 ≤ o % 0x20)))

/-- The flag that a write from the wrong world sets (R249, R474). -/
def deniedFlag (k : Nat) : Fld := if k / 0x10000000 = 14 then ENDP_ALARM.DENIED_WRITE else MG_ALARM.DENIED_WRITE

/-- Whether a written value puts a reserved value in an enumerated field (R20). -/
def reservedIn (fs : List FieldDesc) (v : Word) : Bool :=
  fs.any (fun f =>
    match f.legal with
    | none => false
    | some (lo, hi) =>
      let x := v.toNat / 2 ^ f.lo % 2 ^ (f.hi + 1 - f.lo)
      decide (x < lo ∨ hi < x))

/-- Reserved values that take more than one field, or the register's index, to tell: HB_THERM with THROTTLE not below
EMERG, HB_RAILr.IMAX above its Reset value, and MC_ILVr_SHADOW.WAYS = 4 beside MIR = 1 (each field's Effect column). -/
def reservedWhole (off : Nat) (i : Nat) (v : Word) : Bool :=
  if off = HB_THERM then decide (HB_THERM.EMERG.of v ≤ HB_THERM.THROTTLE.of v)
  else if off = HB_RAILr 0 then decide (imaxReset i < (HB_RAILr.IMAX i).of v)
  else if off = MC_ILVr_SHADOW 0 then decide ((MC_ILVr_SHADOW.MIR i).of v = 1 ∧ (MC_ILVr_SHADOW.WAYS i).of v = 4)
  else false

/-- A slice above 215 in a service engine's write to the home table's shadow is dropped under R20 (Registers of chapter L3). -/
def shadowBad (who : Requester) (off : Nat) (v : Word) : Bool :=
  decide (who = .serviceEngine ∧ off = L3_HOME_SHADOWj 0) && (List.range 8).any (fun k => decide (215 < v.toNat / 2 ^ (8 * k) % 256))

/-- The mask of the bits of a field description. -/
def FieldDesc.bits (f : FieldDesc) : Word := BitVec.ofNat 64 ((2 ^ (f.hi + 1 - f.lo) - 1) * 2 ^ f.lo)

/-- The new register when value `v` is written to fields of the given accesses: RW and RWS take the value, W1C clears,
a readable W1S sets, the others are left (R16, R19). -/
def appliedFields (fs : List FieldDesc) (old v : Word) : Word :=
  fs.foldl (fun w f =>
    match f.acc with
    | .rw | .rws => (w &&& ~~~ f.bits) ||| (v &&& f.bits)
    | .w1c => w &&& ~~~ (v &&& f.bits)
    | .w1sSticky => w ||| (v &&& f.bits)
    | .ro | .w1s | .wo => w) old

/-- Apply a written value to a register by the access types of its fields. -/
def State.applyWrite (s : State) (k : Nat) (v : Word) : State :=
  match findReg k with
  | none => s
  | some (d, _) => s.setReg k (appliedFields d.fields (s.reg k) v)

/-- Apply only the W1C fields: what SVC_LOCK leaves writable (R536). -/
def State.applyClears (s : State) (k : Nat) (v : Word) : State :=
  match findReg k with
  | none => s
  | some (d, _) => s.setReg k (appliedFields (d.fields.filter (fun f => decide (f.acc = .w1c))) (s.reg k) v)

/-- Whether a register holds a field that SVC_LOCK freezes (R536). -/
def freezable (d : RegDesc) : Bool :=
  d.fields.any (fun f => decide (f.acc = .rw ∨ f.acc = .rws ∨ f.acc = .w1s ∨ f.acc = .w1sSticky ∨ f.acc = .wo))

/-- The I/O die that holds the unit of an indexed register: `off` the register's first offset, `i` its first index. -/
def registerDie (off i : Nat) : Option Nat :=
  if off ∈ [CE_CTLl 0, CE_STATUSl 0, CE_FAULTl 0, CE_PROGl 0] then some (i / 128)
  else if off = CE_PHYSk 0 then some (i / 136)
  else if off = TU_STATUSu 0 then some (i / 8)
  else if off ∈ [PRT_Gj_LANES 0, PRT_Gj_ERR 0, BL_Lj_STATUS 0] then some (i / 16)
  else if off ∈ [PRT_Pp_CFG 0, PRT_Pp_CFG_SHADOW 0, PRT_Pp_STATUS 0, PRT_Pp_MBASE 0, PRT_Pp_TXBASE 0, PRT_Pp_EXT_BASE 0, PRT_Pp_LOOP 0,
    PRT_Pp_CMD 0, PRT_Pp_COUNTS 0, CSS_Pp_STRMs 0 0] then some (i / 64)
  else if i ≠ 0 ∧ off ∈ [MG_CTLg 0, MG_RBASEg_n 0 0, MG_RBASEg_n_SHADOW 0 0, MG_RLIMg_n 0 0, MG_RLIMg_n_SHADOW 0 0] then some ((i + 1) % 2)
  else none

/-- The I/O die that an offset of set-up space belongs to as the register of a unit, or as a window of engine memory (R539). -/
def unitDie (k : Nat) : Option Nat :=
  let o := k % 0x10000000
  if k / 0x10000000 = 9 ∧ 0x4000000 ≤ o ∧ o < 0x8000000 then some (o / 0x2000000 - 2)
  else (findReg (k / 8 * 8)).elim none (fun x => registerDie x.1.off (x.2.headD 0))

/-- Whether an offset of set-up space belongs to a unit whose die has stopped (R530; log entry 72). -/
def State.unitGone (s : State) (k : Nat) : Bool := s.deadDies.any (fun d => decide (unitDie k = some d))

/-- A register write, judged in the order of R20: its size (R533), its world and the locks (R249, R474, R536), reserved
values (R20); a write that passes does `act`, which meets the rules about the state of units. One of a unit whose die has stopped reaches
nothing (R530). -/
def State.written (s : State) (who : Requester) (size k : Nat) (v : Word) (act : State → State) : State :=
  match findReg k with
  | none => s
  | some (d, is) =>
    if s.unitGone k then s
    else if size ≠ 8 then (s.raise SVC_ALARM.BAD_ACCESS).captureBad k
    else if endpaperOnly k && decide (who = .text) then s.raise (deniedFlag k)
    else if s.locked who d.block then
      let s1 := s.applyClears k v
      if freezable d then (s1.raise SVC_ALARM.LOCKED_WRITE).captureBad k else s1
    else if reservedIn d.fields v || reservedWhole d.off (is.headD 0) v || shadowBad who d.off v then s.raise (cfgErrOf d.block)
    else act s

/-! ### What leaves the module (R438 to R440) -/

/-- What link j knows beside its registers. -/
def State.blink (s : State) (j : Nat) : BLink := s.blinks.get {} j

/-- Change it. -/
def State.modLink (s : State) (j : Nat) (g : BLink → BLink) : State := { s with blinks := s.blinks.set {} j (g (s.blink j)) }

/-- Record what leaves the module or is answered. -/
def State.record (s : State) (e : Emission) : State := { s with sent := s.sent ++ [e] }

/-- The ACTIVE links that lead directly to module m, in ascending order, by the words of BL_PEERm in force (R438). -/
def State.directLinks (s : State) (m : Nat) : List Nat :=
  (List.range 32).filter (fun j => (s.inForce (BL_PEERm.LINKS m)).testBit j && decide (s.f (BL_Lj_STATUS.STATE j) = 3))

/-- The entry of a list of links that an address takes (R438). -/
def pickLink (l : List Nat) (addr : Nat) : Option Nat := l[addr / 4096 % 4 % max l.length 1]?

/-- The link that a packet for module m takes: a direct one, or one to the intermediate module (R438). -/
def State.routeTo (s : State) (m addr : Nat) : Option Nat :=
  match s.directLinks m with
  | [] => if s.inForce (BL_PEERm.VIA_EN m) = 1 then pickLink (s.directLinks (s.inForce (BL_PEERm.VIA m))) addr else none
  | l => pickLink l addr

/-! ### Packets on the mesh (R195 to R201) -/

/-- The routing map of compute die d that is in force (R208). -/
def State.mapOf (s : State) (d : Nat) : DieMesh :=
  { h := (s.mesh.maps.links.get 0 (MESH_RET_Hd d)).toNat, v := (s.mesh.maps.links.get 0 (MESH_RET_Vd d)).toNat,
    out := (s.mesh.maps.out.filter (fun t => decide (t / 54 = d))).map (fun t => routerStop (t % 54)) }

/-- The bytes of a line that a message carries or asks for: the first, and how many (R199, R201). -/
def messageBytes (cls op addr len : Nat) : Nat × Nat :=
  if (cls = 0 ∧ (op = 6 ∨ 0x10 ≤ op)) ∨ (cls = 3 ∧ op = 2) then (addr % 64, len) else (0, 64)

/-- The data flits of a message. -/
def messageFlits (cls op addr len : Nat) (data : Option Line) : List (BitVec 256) :=
  data.elim [] (fun d => dataFlits d (messageBytes cls op addr len).1 (messageBytes cls op addr len).2)

/-- The header of a packet (R199). A request or a snoop has its sender's TAG, an answer the TAG of the one that it goes to. -/
def headerOf (src dst : MeshEnd) (cls op addr : Nat) (world psn : Bool) (data : Option Line) (len : Nat) (inst : Option Nat) : Header :=
  let bit (b : Bool) : Nat := if b then 1 else 0
  let bytes := messageBytes cls op addr len
  { next := 0, dmod := dst.module, ddie := dst.die, dx := dst.x, dy := dst.y, dport := dst.port, smod := src.module, sdie := src.die, sx := src.x
    sy := src.y, sport := src.port, cls := cls, vc := 0, op := op
    tag := (Config.packetTag (if cls ≤ 1 then src.no else dst.no) (addr / 64)).toNat
    world := bit world, iv := bit inst.isSome, inst := inst.getD 0, psn := bit psn, ndata := (messageFlits cls op addr len data).length
    offset := bytes.1, len := bytes.2 % 64, zero := 0, addr := addr }

/-- Number of a buffer (R197): router (64 × die + stop), input port (0 to 3 as directions, 4 and 5 local), class, virtual channel. -/
def bufferNo (r port cls vc : Nat) : Nat := ((r * 6 + port) * 4 + cls) * 2 + vc

/-- The output that a packet takes at a router towards a stop of its die, as NEXT holds it, and its order from there: a direction, or a local
port on arrival. Where nothing leads on, it keeps its direction and waits. -/
def State.outputAt (s : State) (r goal port : Nat) (turned : Option Bool) : Nat × Option Bool :=
  if r % 64 = goal then (4 + port, turned)
  else ((s.mapOf (r / 64)).next (r % 64) goal turned).getD ((dirTo (turned.getD true) (r % 64) goal).getD 0, turned)

/-- The stop of compute die d that a packet goes to, and its local port there: its destination, or the station of the die link towards its die,
where its class chooses the port (log entry 59). -/
def State.goalOf (s : State) (d : Nat) (p : Flight) : Nat × Nat :=
  let h := Header.of p.hdr
  if p.exit = d then (8 * h.dy + h.dx, h.dport) else (stationStop d (dieLinkTo s.mesh.maps.dead d p.exit (h.addr / 4096 % 2)), h.cls % 2)

/-- A header with its output at a router and its virtual channel. -/
def Header.turn (h : Header) (o : Nat × Option Bool) : Header := { h with next := o.1, vc := if o.2.isSome then 1 else 0 }

/-- A packet with its output at router r. -/
def State.routed (s : State) (r : Nat) (p : Flight) : Flight :=
  let goal := s.goalOf (r / 64) p
  let o := s.outputAt r goal.1 goal.2 p.turned
  { p with hdr := ((Header.of p.hdr).turn o).bits, turned := o.2 }

/-- A packet enters router r at an input port, on the virtual channel that its header names, and its output there is computed (R195). -/
def State.enterRouter (s : State) (r port : Nat) (p : Flight) : State :=
  let h := Header.of p.hdr
  let k := bufferNo r port h.cls h.vc
  { s with mesh := { s.mesh with buffers := s.mesh.buffers.modify [] k (· ++ [{ s.routed r p with moved := s.mesh.cycle }]) } }

/-- A packet stands at its sender, on its way to die `exit`; between units of one I/O die it crosses nothing. Its effect is that of the command
that sends it (log entry 59). -/
def Mesh.launch (m : Mesh) (exit : Nat) (src dst : MeshEnd) (cls op addr : Nat) (world psn : Bool) (data : Option Line) (len : Nat)
    (inst : Option Nat) : Mesh :=
  if 4 ≤ src.die ∧ src.die = exit then m
  else
    let place := if src.die < 4 then (64 * src.die + src.stop) * 2 + src.port else 128 * src.die
    let p : Flight := { hdr := (headerOf src dst cls op addr world psn data len inst).bits, data := messageFlits cls op addr len data, exit := exit,
                        no := m.launched }
    { m with launched := m.launched + 1, sources := m.sources ++ [(place, p)] }

/-- A packet between two units of this module (R34, R195); units as in `Emission.packet`. -/
def State.inside (s : State) (cls op unit src addr : Nat) (world psn : Bool) (data : Option Line) (len : Nat := 64)
    (inst : Option Nat := none) : State :=
  let dst := unitEnd s.moduleNo unit addr
  { s with mesh := s.mesh.launch dst.die (unitEnd s.moduleNo src addr) dst cls op addr world psn data len inst }

/-! ### Flits of the module links (R438 to R440) -/

/-- Whether a message is carried in a PAYLOAD flit. -/
def LinkMsg.payload : LinkMsg → Bool
  | .control _ _ => false
  | _ => true

/-- A packet as the slots of a flit (R439): its header, then its data flits in halves. -/
def packetSlotsOf (src dst : MeshEnd) (cls op addr : Nat) (world psn : Bool) (data : Option Line) (len : Nat) (inst : Option Nat) :
    List (BitVec 128) :=
  (headerOf src dst cls op addr world psn data len inst).bits ::
    (messageFlits cls op addr len data).flatMap (fun (f : BitVec 256) => [f.setWidth 128, (f >>> 128).setWidth 128])

/-- The slots of a message that module `m` sends. -/
def LinkMsg.slots (m : Nat) : LinkMsg → List (BitVec 128)
  | .packet cls op dmod unit src addr world psn data len inst =>
    packetSlotsOf (unitEnd m src addr) (unitEnd dmod unit addr) cls op addr world psn data len inst
  | .raw p => p
  | .control op args => [BitVec.ofNat 128 (op % 256) ||| ((Config.controlBits op args).setWidth 128 <<< 8)]

/-- The 256 bytes of a flit (R439), with at most one packet, in slot 0. `cls`, `count`: the credits that it returns. -/
def flitBytes (m link seq ack type cls count : Nat) (msg : Option LinkMsg) : List Byte :=
  let slots := msg.elim [] (LinkMsg.slots m)
  let head := seq * 2 ^ 52 + ack * 2 ^ 40 + type * 2 ^ 37 + (if type = 0 then 2 ^ 22 else 0) + cls * 2 ^ 20 + count * 2 ^ 12 + m * 2 ^ 9 + link * 2 ^ 4
  let body := leBytes 8 head ++ (List.range 15).flatMap (fun i => leBytes 16 (slots.getD i 0).toNat)
  body ++ leBytes 8 (crc64 body).toNat

/-- The credits that a link's next flit returns: a class of which slots are freed, and how many of them. -/
def BLink.credits (b : BLink) : Nat × Nat :=
  let c := ((List.range 4).find? (fun c => decide (b.freed.get 0 c ≠ 0))).getD 0
  (c, min 255 (b.freed.get 0 c))

/-- A flit leaves link j with the latest ACK, and returns credits. -/
def State.putFlit (s : State) (j seq type : Nat) (m : Option LinkMsg) : State :=
  let b := s.blink j
  let ack := (b.expect + 4095) % 4096
  let c := b.credits
  (s.record (.flit j seq ack type m (flitBytes s.moduleNo j seq ack type c.1 c.2 m))).modLink j (fun b => { b with
    told := 0, freed := b.freed.modify 0 c.1 (· - c.2) })

/-- A message takes the next sequence number of link j, or waits where 1,024 flits are unacknowledged, or PAYLOAD flits are stopped
(R440, R444). -/
def State.sendOn (s : State) (j : Nat) (m : LinkMsg) : State :=
  let b := s.blink j
  if 1024 ≤ b.unacked.length ∨ (b.halted = true ∧ m.payload = true) ∨ (b.queue.isEmpty = false ∧ m.payload = true) then
    s.modLink j (fun b => { b with queue := b.queue ++ [m] })
  else
    (s.putFlit j b.next (if m.payload then 0 else 3) (some m)).modLink j (fun b => { b with
      next := (b.next + 1) % 4096, unacked := b.unacked ++ [(b.next, m)], ackAt := if b.unacked.isEmpty then s.count else b.ackAt })

/-- A message for module m takes a link, or waits at its station with ROUTE_ERR set (R438). -/
def State.toModule (s : State) (m addr : Nat) (msg : LinkMsg) : State :=
  match s.routeTo m addr with
  | some j => s.sendOn j msg
  | none => { s.raise BL_ALARM.ROUTE_ERR with blWaiting := s.blWaiting ++ [(m, msg)] }

/-- Something leaves: a packet for another module goes to the I/O die of the module link that it takes (R34), and takes the link. -/
def State.emit (s : State) (e : Emission) : State :=
  match e with
  | .packet cls op m unit src addr world psn data len inst =>
    if m = s.moduleNo then s.record e
    else
      let s1 := match s.routeTo m addr with
        | some j => { s with
            mesh := s.mesh.launch (4 + j / 16) (unitEnd s.moduleNo src addr) (unitEnd m unit addr) cls op addr world psn data len inst }
        | none => s
      (s1.record e).toModule m addr (.packet cls op m unit src addr world psn data len inst)
  | _ => s.record e

/-- The module of an address in an I/O region (R41). -/
def ioModule (pa : Nat) : Nat := if pa < 0xD000000000000 then pa / 2 ^ 45 % 8 else pa / 2 ^ 40 % 8

/-! ### Windows of the modules (R41, R452) -/

/-- The module that homes module e's DRAM window. -/
def State.windowHost (s : State) (e : Nat) : Nat := if s.decoders.get 0 e = 0 then e else s.decoders.get 0 e - 1

/-- Whether module e's window is being handed over by this module (R452 step 5): its homes here recall its lines and hold the requests for them. -/
def State.handingOver (s : State) (e : Nat) : Bool :=
  decide (s.f BL_EVAC.STATE = 3 ∧ e = (if s.f BL_EVAC.OP = 0 then s.moduleNo else s.f BL_EVAC.PEER))

end Sys2Proof.Machine
end

