-- ==== Sys2Proof/Machine/Memory.lean ====
section
/-! DEFINITION. Memory as the controllers hold it (R214, R216, R228 to R233, R241, R246 to R248, R452): where an address lies,
the stored bytes and check symbols, a line's read with its decoding and rewriting, a line's write, and the memory guards. -/

namespace Sys2Proof.Machine

open Sys2Proof

/-! ### Bytes -/

/-- Memory as the model holds it: what no cell lists is zero. -/
abbrev Memory := List Host.Cell

/-- Read one byte. -/
def Memory.read (m : Memory) (a : Nat) : Byte := Table.get 0 m a

/-- Write one byte. -/
def Memory.write (m : Memory) (a : Nat) (b : Byte) : Memory := Table.set 0 m a b

/-- The canonical form: addresses strictly rising, and no cell that holds zero. -/
def Memory.wf (m : Memory) : Bool := Table.wf (fun _ => (0 : Byte)) m

/-- Byte `i` of a line (R11). -/
def lineByte (d : Line) (i : Nat) : Byte := (d >>> (8 * i)).setWidth 8

/-- A line with byte `i` replaced. -/
def lineSetByte (d : Line) (i : Nat) (b : Byte) : Line :=
  (d &&& ~~~ BitVec.shiftLeft (255 : Line) (8 * i)) ||| BitVec.shiftLeft (b.setWidth 512) (8 * i)

/-- A line with the bytes that the mask names taken from `v`. -/
def lineMerge (d v : Line) (mask : BitVec 64) : Line :=
  (List.range 64).foldl (fun acc i => if mask.getLsbD i then lineSetByte acc i (lineByte v i) else acc) d

/-- The 64 bytes from address `a` as a line. -/
def Memory.readLine (m : Memory) (a : Nat) : Line :=
  (List.range 64).foldl (fun acc i => acc ||| BitVec.shiftLeft ((Memory.read m (a + i)).setWidth 512) (8 * i)) 0

/-- Write 64 bytes from address `a`. -/
def Memory.writeLine (m : Memory) (a : Nat) (d : Line) : Memory :=
  (List.range 64).foldl (fun acc i => Memory.write acc (a + i) (lineByte d i)) m

/-! ### Where an address lies -/

/-- The start of module m's DRAM window (R41). -/
def dramBase (m : Nat) : Nat := m * 2 ^ 46

/-- Whether address `a` lies in a DRAM window that this module homes: its own, one that it has adopted, or one whose lines it still recalls
(R452). -/
def State.ownDram (s : State) (a : Nat) : Bool :=
  decide (a < 2 ^ 49) && (decide (s.windowHost (a / 2 ^ 46) = s.moduleNo) || s.handingOver (a / 2 ^ 46))

/-- Where an address that this module homes lies in its own DRAM window: an adopted window lies from BL_EVAC.ABASE (R452, R453). -/
def State.ownAddr (s : State) (a : Nat) : Nat :=
  if a / 2 ^ 46 = s.moduleNo then a else dramBase s.moduleNo + s.f BL_EVAC.ABASE * 2 ^ 30 + a % 2 ^ 46

/-- The interleave region that holds an offset of the DRAM window, if any (R214). -/
def State.regionOf (s : State) (o : Nat) : Option Nat :=
  (List.range 4).find? (fun r =>
    s.on (MC_ILVr.VALID r) && decide (s.f (MC_ILVr.BASE r) * 2 ^ 30 ≤ o) &&
      decide (o < (s.f (MC_ILVr.BASE r) + s.f (MC_ILVr.SIZE r)) * 2 ^ 30))

/-- Whether an address of this module's window is in the populated part (R45). -/
def State.populated (s : State) (a : Nat) : Bool :=
  s.ownDram a && (s.regionOf (s.ownAddr a - dramBase s.moduleNo)).isSome

/-- The place of a line: its channel, the upper channel of a mirrored pair, and the line's number in the channel. -/
structure Place where
  lower : Nat
  upper : Option Nat
  line  : Nat
deriving DecidableEq, Repr

/-- The place of an address in a region (R214, R216). -/
def State.placeIn (s : State) (a r : Nat) : Place :=
  let w := s.f (MC_ILVr.WAYS r)
  let o := a - dramBase s.moduleNo - s.f (MC_ILVr.BASE r) * 2 ^ 30
  let idx := (a / 2 ^ 8 % 2 ^ w) ^^^ (a / 2 ^ 20 % 2 ^ w)
  let ca := o / 2 ^ (8 + w) * 256 + o % 256
  let j := s.f (MC_ILVr.FIRST r) + idx
  if s.on (MC_ILVr.MIR r) then
    { lower := j + 4 * (j / 4), upper := some (j + 4 * (j / 4) + 4), line := ca / 64 }
  else { lower := j, upper := none, line := ca / 64 }

/-- The place of an address, where it is populated. -/
def State.place (s : State) (a : Nat) : Option Place :=
  if s.ownDram a then (s.regionOf (s.ownAddr a - dramBase s.moduleNo)).map (s.placeIn (s.ownAddr a)) else none

/-! ### Channels -/

/-- A channel's STATE (MC_CHk_STATUS). -/
def State.chState (s : State) (k : Nat) : Nat := s.f (MC_CHk_STATUS.STATE k)

/-- The controller's own state of channel k. -/
def State.chan (s : State) (k : Nat) : Channel := s.channels.get {} k

/-- Change the controller's own state of channel k. -/
def State.modChan (s : State) (k : Nat) (f : Channel → Channel) : State :=
  { s with channels := s.channels.set {} k (f (s.chan k)) }

/-- A request reaches channel k: it leaves self-refresh, and its idle time starts anew (R221). -/
def State.wakeChannel (s : State) (k : Nat) : State :=
  (s.setF (MC_CHk_STATUS.SR k) 0).modChan k (fun c => { c with lastReq := s.leaf })

/-- The number of line `l` of channel `k` in the check table. -/
def lineKey (k l : Nat) : Nat := k * 2 ^ 35 + l

/-- The byte address of line `l` of channel `k` in the stored memory. -/
def lineAddr (k l : Nat) : Nat := k * 2 ^ 41 + l * 64

/-- A difference of check symbols as (symbol, difference) pairs. -/
def checkDiff (c : BitVec 128) : List (Nat × Symbol) :=
  (List.range 8).filterMap (fun j =>
    let v : Symbol := (c >>> (16 * j)).setWidth 16
    if v = 0 then none else some (32 + j, v))

/-- Check symbols packed, symbol 32 + j in bits 16j + 15 to 16j. -/
def packChecks (l : List Symbol) : BitVec 128 := l.foldr (fun s acc => (acc <<< 16) ||| s.setWidth 128) 0

/-- Whether line `l` of channel `k` reads as poison since the source of its copy failed (R217). -/
def State.voidLine (s : State) (k l : Nat) : Bool :=
  match (s.chan k).voidFrom with
  | none => false
  | some f => decide (f ≤ l) && !(s.chan k).voidDone.contains l

/-- What channel `k` holds of line `l`: its data, and the difference of its check symbols from those of the data. A line in
the buffer of a soft repair is served from there (R242). -/
def State.stored (s : State) (k l : Nat) : Line × BitVec 128 :=
  match ((s.chan k).repair.map (·.lines)).bind (fun ls => ls.find? (fun (e : Nat × Line × BitVec 128) => decide (e.1 = l))) with
  | some (_, d, c) => (d, c)
  | none =>
    if s.voidLine k l then (0, packChecks poisonChecks)
    else (Memory.readLine s.dram (lineAddr k l), s.checks.get 0 (lineKey k l))

/-- Store a line in channel `k`: its data, and the difference of its check symbols from those of the data. -/
def State.storeLine (s : State) (k l : Nat) (d : Line) (c : BitVec 128) : State :=
  let s1 := s.modChan k (fun ch =>
    let ch1 := match ch.repair with
      | none => ch
      | some r => { ch with repair := some { r with
          lines := r.lines.map (fun (e : Nat × Line × BitVec 128) => if e.1 = l then (l, d, c) else e) } }
    match ch1.voidFrom with
    | none => ch1
    | some f => if f ≤ l ∧ l ∉ ch1.voidDone then { ch1 with voidDone := l :: ch1.voidDone } else ch1)
  { s1 with
    dram := Memory.writeLine s1.dram (lineAddr k l) d
    checks := s1.checks.set 0 (lineKey k l) c }

/-- Store data, or the poison encoding (R230). -/
def State.storeData (s : State) (k l : Nat) (d : Line) (poison : Bool) : State :=
  if poison then s.storeLine k l 0 (packChecks poisonChecks) else s.storeLine k l d 0

/-- A count of the lifetime half at byte `o`, bit `b`, raised by one and saturating at `w` bits (R521). -/
def State.lifeInc (s : State) (o b w : Nat) : State :=
  { s with life := s.life.set 0 (64 * o + b) (min (s.life.get 0 (64 * o + b) + 1) (2 ^ w - 1)) }

/-- The offset in the lifetime half of the counts of a device (R521). -/
def deviceLife (k l device : Nat) : Nat := 0x3800 + ((k * 8 + Config.rankOf k l) * 10 + device) * 8

/-! ### The row tracker (R241) -/

/-- The index of the entry that a full tracker gives up: the lowest count, the oldest breaking ties. -/
def trackerVictim (t : List TrackedRow) : Nat :=
  let m := t.foldl (fun acc e => min acc e.count) (t.headD ⟨0, 0, 0⟩).count
  (t.findIdx? (fun e => decide (e.count = m))).getD 0

/-- One more corrected outcome against a row. -/
def trackRow (t : List TrackedRow) (row device : Nat) : List TrackedRow :=
  if t.any (fun e => decide (e.row = row ∧ e.device = device)) then
    t.map (fun e => if e.row = row ∧ e.device = device then { e with count := e.count + 1 } else e)
  else if t.length < 32 then t ++ [⟨row, device, 1⟩]
  else t.eraseIdx (trackerVictim t) ++ [⟨row, device, 1⟩]

/-- A row becomes due for repair, unless it waits for it or is being repaired (R241). -/
def State.rowDue (s : State) (k row device : Nat) : State :=
  let c := s.chan k
  if c.due.contains (row, device) || c.repair.any (fun r => decide (r.row = row ∧ r.device = device)) then s
  else s.modChan k (fun c => { c with due := c.due ++ [(row, device)] })

/-- A CORRECTED outcome is counted against its row; at ROW_THRESH the row is due (R241). -/
def State.countCorrected (s : State) (k l device : Nat) : State :=
  let row := Config.rowOf k l
  let t := trackRow (s.chan k).tracker row device
  let n := (t.find? (fun e => decide (e.row = row ∧ e.device = device))).elim 0 (·.count)
  let s1 := ((s.incF (SCR_CHk_COUNTS.CE k)).raise SCR_ALARM.CE).lifeInc (deviceLife k l device) 0 32
  let s2 := s1.modChan k (fun c => { c with tracker := t })
  if s.f SCR_CTL.ROW_THRESH ≠ 0 ∧ s.f SCR_CTL.ROW_THRESH ≤ n then s2.rowDue k row device else s2

/-- The devices of a set. -/
def devicesOf (set : BitVec 10) : List Nat := (List.range 10).filter (fun d => set.getLsbD d)

/-- An uncorrectable error of a line is counted, against each of the devices that it names (R239, R521). -/
def State.countUncorrectable (s : State) (k l : Nat) (set : BitVec 10) : State :=
  (devicesOf set).foldl (fun a d => a.lifeInc (deviceLife k l d) 32 16) (s.incF (SCR_CHk_COUNTS.UE k))

/-- An UNCORRECTABLE outcome falls in the rows of the devices that it names, which become due (R241). -/
def State.rowsDue (s : State) (k l : Nat) (set : BitVec 10) : State :=
  if s.f SCR_CTL.ROW_THRESH = 0 then s else (devicesOf set).foldl (fun a d => a.rowDue k (Config.rowOf k l) d) s

/-- The log record of an UNCORRECTABLE outcome (R233, R526): address, channel, slot, rank and device set. -/
def State.logUncorrectable (s : State) (a k l : Nat) (set : BitVec 10) : State :=
  s.logAt 0x0020 (s.mcLoc k) 5 [a, k, Config.rankOf k l / 4, Config.rankOf k l % 4, set.toNat]

/-- A row stays unrepaired and keeps being corrected (R243). -/
def State.rowUnrepaired (s : State) (k row device : Nat) : State :=
  (s.raise SCR_ALARM.ROW_FULL).logAt 0x0024 (s.mcLoc k) 5 [row, device, 1]

/-! ### Reading and writing a line -/

/-- The errors that a read meets in one copy. -/
def errOf (err : LineErr) (copy : Nat) : List (Nat × Symbol) :=
  err.filterMap (fun (e : Nat × Nat × Symbol) => if e.1 = copy then some e.2 else none)

/-- The word that channel `k` gives for line `l`, decoded (R231): the outcome, and the received data symbols. -/
def State.decodeAt (s : State) (k l : Nat) (e : List (Nat × Symbol)) : LineOutcome × Line :=
  let (d, c) := s.stored k l
  (decodeDiff (checkDiff c ++ e), applyDiff d e)

/-- The devices that the UNCORRECTABLE outcome of a line names. -/
def State.suspectsAt (s : State) (k l : Nat) (e : List (Nat × Symbol)) : BitVec 10 := suspects (checkDiff (s.stored k l).2 ++ e)

/-- What a read of one copy found: data, or poison; whether it was UNCORRECTABLE. -/
structure CopyRead where
  data : Option Line
  bad  : Bool
deriving DecidableEq, Repr

/-- Read and decode one copy, with the rewrite and counts of R233 that do not depend on a mirror. -/
def State.readCopy (s : State) (k l : Nat) (e : List (Nat × Symbol)) : State × CopyRead :=
  match s.decodeAt k l e with
  | (.clean, d) => (s, ⟨some d, false⟩)
  | (.corrected dev fix, d) =>
    let fixed := applyDiff d fix
    ((s.storeLine k l fixed 0).countCorrected k l dev, ⟨some fixed, false⟩)
  | (.poison dev, _) => (if dev then s.storeData k l 0 true else s, ⟨none, false⟩)
  | (.uncorrectable, _) =>
    let set := s.suspectsAt k l e
    ((s.countUncorrectable k l set).rowsDue k l set, ⟨none, true⟩)

/-- An UNCORRECTABLE outcome that no other copy mends: the poison encoding is written, UE set and a record logged (R233). -/
def State.poisonStored (s : State) (a k l : Nat) (set : BitVec 10) : State :=
  ((s.storeData k l 0 true).raise SCR_ALARM.UE).logUncorrectable a k l set

/-- The write that waits at the controllers for line `l` of a pair, held for its scrub (R239); k is the primary's channel. -/
def State.waitingWrite (s : State) (k l : Nat) : Option (Line × Bool) :=
  if (s.chan k).scrubNext = l then (s.chan k).half.bind (·.write) else none

/-- Whether a scrub of the pair of channel k holds line `l`. -/
def State.halfScrubbed (s : State) (k l : Nat) : Bool := (s.chan k).half.isSome && decide ((s.chan k).scrubNext = l)

/-- The channels of a place that serve reads, the preferred one first: both of a MIRRORED pair in the order of A[7], and
otherwise the one that is ACTIVE or ALONE (R216, R217). -/
def State.readOrder (s : State) (p : Place) (a : Nat) : List Nat :=
  match p.upper with
  | none => if s.chState p.lower = 2 then [p.lower] else []
  | some u =>
    let both := if a / 128 % 2 = 0 then [p.lower, u] else [u, p.lower]
    both.filter (fun k => decide (s.chState k = 3 ∨ s.chState k = 4) && !(s.chan k).failing)

/-- The copy number of a channel within a place. -/
def Place.copyOf (p : Place) (k : Nat) : Nat := if k = p.lower then 0 else 1

/-- A controller reads the line at address `a` for a request: its data and whether it is poison (R216, R217, R231, R233). A write of the line
that waits for a scrub comes first, as its home took it first (R239). -/
def State.readLine (s : State) (a : Nat) (err : LineErr) : State × Line × Bool :=
  match s.place a with
  | none => (s, 0, true)
  | some p =>
    match s.waitingWrite p.lower p.line with
    | some (d, bad) => (s, d, bad)
    | none =>
    match s.readOrder p a with
    | [] => (s, 0, true)
    | [k] =>
      let (s1, r) := (s.wakeChannel k).readCopy k p.line (errOf err (p.copyOf k))
      match r.data with
      | some d => (s1, d, false)
      | none => (if r.bad then s1.poisonStored a k p.line (s.suspectsAt k p.line (errOf err (p.copyOf k))) else s1, 0, true)
    | k :: k' :: _ =>
      let (s1, r) := (s.wakeChannel k).readCopy k p.line (errOf err (p.copyOf k))
      match r.data with
      | some d => (s1, d, false)
      | none =>
        if r.bad then
          let (s2, r2) := (s1.wakeChannel k').readCopy k' p.line (errOf err (p.copyOf k'))
          match r2.data with
          | some d => (s2.storeData k p.line d false, d, false)
          | none => ((s2.poisonStored a k p.line (s.suspectsAt k p.line (errOf err (p.copyOf k)))).storeData k' p.line 0 true, 0, true)
        else (s1, 0, true)

/-- The channels of a place that a write goes to: those ACTIVE, MIRRORED, ALONE or in RESILVER; a FAILED channel discards it
(R216, R217, R219). -/
def State.writeOrder (s : State) (p : Place) : List Nat :=
  ((p.lower :: p.upper.toList).filter (fun k =>
    decide (s.chState k = 2 ∨ s.chState k = 3 ∨ s.chState k = 4 ∨ s.chState k = 7)))

/-- Where the copy of a line goes while its window is on its way to another module (R452, R453): an address of the peer. -/
def State.movingTo (s : State) (a : Nat) : Option Nat :=
  let st := s.f BL_EVAC.STATE
  if st = 1 ∨ st = 2 ∨ st = 3 then
    (if s.f BL_EVAC.OP = 0 then
      (if a / 2 ^ 46 = s.moduleNo then some (dramBase (s.f BL_EVAC.PEER) + s.f BL_EVAC.ABASE * 2 ^ 30 + a % 2 ^ 46) else none)
    else if a / 2 ^ 46 = s.f BL_EVAC.PEER then some a else none)
  else none

/-- A write of line `l` waits for the scrub that holds it (R239). -/
def State.keepWrite (s : State) (k : Nat) (d : Line) (poison : Bool) : State :=
  s.modChan k (fun c => { c with half := c.half.map (fun h => { h with write := some (d, poison) }) })

/-- A controller writes a whole line at address `a`; a window that moves is written at its new place too. -/
def State.writeLine (s : State) (a : Nat) (d : Line) (poison : Bool) : State :=
  match s.place a with
  | none => s
  | some p =>
    let s1 := if s.halfScrubbed p.lower p.line then s.keepWrite p.lower d poison
      else (s.writeOrder p).foldl (fun acc k => (acc.wakeChannel k).storeData k p.line d poison) s
    match s.movingTo a with
    | none => s1
    | some b => s1.emit (.packet 0 5 (s.f BL_EVAC.PEER) 255 222 b false poison (some d))

/-- The physical address of line `l` of channel `k`, where a region holds the channel (R214, R216): the inverse of `place`. -/
def State.addrOf (s : State) (k l : Nat) : Nat :=
  match (List.range 4).find? (fun r =>
    let w := s.f (MC_ILVr.WAYS r)
    let j := if s.on (MC_ILVr.MIR r) then k / 8 * 4 + k % 4 else k
    s.on (MC_ILVr.VALID r) && decide (s.f (MC_ILVr.FIRST r) ≤ j) && decide (j < s.f (MC_ILVr.FIRST r) + 2 ^ w)) with
  | none => 0
  | some r =>
    let w := s.f (MC_ILVr.WAYS r)
    let j := if s.on (MC_ILVr.MIR r) then k / 8 * 4 + k % 4 else k
    let high := s.f (MC_ILVr.BASE r) * 2 ^ 30 + l * 64 / 256 * 2 ^ (8 + w)
    let idx := (j - s.f (MC_ILVr.FIRST r)) ^^^ (high / 2 ^ 20 % 2 ^ w)
    dramBase s.moduleNo + high + idx * 256 + l * 64 % 256

/-! ### Memory guards (R246 to R248) -/

/-- Whether permission bits (TR, TW, ER, EW from bit 0) admit an access. -/
def permits (perm : Nat) (world write : Bool) : Bool := perm.testBit ((if world then 2 else 0) + (if write then 1 else 0))

/-- The permission bits that guard `g` gives an address or offset: those of the lowest matching region, or DEF (R247). -/
def State.guardPerm (s : State) (g a : Nat) : Nat :=
  let page := a / 4096
  match (List.range 32).find? (fun n =>
    s.on (MG_RBASEg_n.EN g n) && decide (s.f (MG_RBASEg_n.BASE g n) ≤ page) && decide (page ≤ s.f (MG_RLIMg_n.LIMIT g n))) with
  | some n => s.f (MG_RBASEg_n.PERM g n)
  | none => s.f (MG_CTLg.DEF g)

/-- Whether guard `g` refuses an access. -/
def State.guardRefuses (s : State) (g a : Nat) (world write : Bool) : Bool := !permits (s.guardPerm g a) world write

/-- A guard refuses a request: REFUSED is set, and the first one is captured (R248). -/
def State.refuse (s : State) (g a : Nat) (world write : Bool) : State :=
  let s1 := s.raise MG_ALARM.REFUSED
  if s1.on MG_FAULT.VALID then s1
  else ((((s1.setF MG_FAULT.GUARD g).setB MG_FAULT.WORLD world).setB MG_FAULT.WRITE write).setF MG_FAULT.LINE (a / 64)).raise
    MG_FAULT.VALID

/-! ### Homes (R167) -/

/-- The home table index of a physical address. -/
def homeIndex (a : Nat) : Nat := (a / 2 ^ 6 % 4096) ^^^ (a / 2 ^ 18 % 4096) ^^^ (a / 2 ^ 30 % 4096) ^^^ (a / 2 ^ 42 % 1024)

/-- The slice that entry `i` of the home table in force names. -/
def State.homeEntry (s : State) (i : Nat) : Nat := (s.reg (L3_HOME_TABLEj (i / 8))).toNat / 2 ^ (8 * (i % 8)) % 256

/-- The home slice of an address of this module's DRAM. -/
def State.homeSlice (s : State) (a : Nat) : Nat := s.homeEntry (homeIndex a)

/-- The set index of an L3 or directory slice (R153, R179) for a line number. -/
def l3Set (line : Nat) : Nat := (line % 4096) ^^^ (line / 4096 % 4096)

end Sys2Proof.Machine
end

