-- ==== Sys2Proof/Machine/Cache.lean ====
section
/-! DEFINITION. The arrays of a tile and of an L3 slice (R153 to R161): look-up, the replacement tree, placement, and what
one tile holds of a line. -/

namespace Sys2Proof.Machine

open Sys2Proof

/-! ### One array -/

/-- The entry at a set and way. -/
def Arr.at (a : Arr) (set w : Nat) : Option CLine := a.lines.get none (set * 16 + w)

/-- The array with an entry replaced. -/
def Arr.put (a : Arr) (set w : Nat) (e : Option CLine) : Arr := { a with lines := a.lines.set none (set * 16 + w) e }

/-- The way of a set that holds a line. -/
def Arr.wayOf (a : Arr) (set line : Nat) : Option Nat :=
  (List.range 16).find? (fun w => decide ((a.at set w).map (·.line) = some line))

/-- The place, as set × 16 + way, at which the array holds a line, whatever its set. -/
def Arr.find (a : Arr) (line : Nat) : Option Nat :=
  (a.lines.find? (fun (e : Nat × Option CLine) => decide (e.2.map (·.line) = some line))).map (·.1)

/-- The entry at a place. -/
def Arr.entry (a : Arr) (k : Nat) : Option CLine := a.lines.get none k

/-- The array without a line. -/
def Arr.drop (a : Arr) (line : Nat) : Arr :=
  match a.find line with
  | none => a
  | some k => { a with lines := a.lines.set none k none }

/-- The array with the entry of a line changed. -/
def Arr.modify (a : Arr) (line : Nat) (g : CLine → CLine) : Arr :=
  match a.find line with
  | none => a
  | some k => { a with lines := a.lines.set none k ((a.entry k).map g) }

/-- Whether tree node `n` lies above leaf `l`, or is it. -/
def treeAbove (n l : Nat) : Bool := (List.range 5).any (fun k => decide (l / 2 ^ k = n))

/-- Whether the subtree of node `n` holds a usable way (R157), with `N` leaves. -/
def subtreeUsable (N n : Nat) (usable : Nat → Bool) : Bool :=
  (List.range N).any (fun w => usable w && treeAbove n (N + w))

/-- The walk of R157's victim choice from node `n`, at most `fuel` levels. -/
def treeWalk (N bits : Nat) (usable : Nat → Bool) : Nat → Nat → Nat
  | 0, n => n
  | fuel + 1, n =>
    if N ≤ n then n
    else
      let b := if bits.testBit n then 1 else 0
      let c := 2 * n + b
      treeWalk N bits usable fuel (if subtreeUsable N c usable then c else 2 * n + (1 - b))

/-- The victim of a set (R157): the lowest usable invalid way, or the way that the tree points at. -/
def victimWay (N bits : Nat) (usable valid : Nat → Bool) : Nat :=
  match (List.range N).find? (fun w => usable w && !valid w) with
  | some w => w
  | none => treeWalk N bits usable 4 1 - N

/-- A number with one bit set to a value. -/
def setBit (b n : Nat) (v : Bool) : Nat :=
  if v then b ||| 2 ^ n else if b.testBit n then b - 2 ^ n else b

/-- The touch of R157: from leaf `n` up to the root; `low`: mark the way as the next victim (toward = 1). -/
def touchWalk (low : Bool) : Nat → Nat → Nat → Nat
  | 0, _, bits => bits
  | fuel + 1, n, bits =>
    if n ≤ 1 then bits
    else
      let right := decide (n % 2 = 1)
      touchWalk low fuel (n / 2) (setBit bits (n / 2) (if low then right else !right))

/-- The tree bits of a set after way `w` is touched. -/
def touchBits (N bits w : Nat) (low : Bool) : Nat := touchWalk low 5 (N + w) bits

/-- The array after a touch. -/
def Arr.touch (a : Arr) (N set w : Nat) (low : Bool) : Arr :=
  { a with tree := a.tree.set 0 set (touchBits N (a.tree.get 0 set) w low) }

/-- The way of a set in which a new line is placed. -/
def Arr.victim (a : Arr) (N set : Nat) (usable : Nat → Bool) : Nat :=
  victimWay N (a.tree.get 0 set) usable (fun w => (a.at set w).isSome)

/-! ### What a non-temporal hint changes (R159) -/

/-- Whether a fill of the L1 is marked as the next victim. -/
def ntlL1 (h : Nat) : Bool := decide (1 ≤ h)
/-- Whether a fill of the L2 is. -/
def ntlL2 (h : Nat) : Bool := decide (2 ≤ h)
/-- Whether the line skips the victim buffer. -/
def ntlSkip (h : Nat) : Bool := decide (2 ≤ h)
/-- Whether a fill of the L3 is marked as the next victim. -/
def ntlL3 (h : Nat) : Bool := decide (h = 3)
/-- Whether the L3 does not allocate on a fill from DRAM. -/
def ntlNoL3 (h : Nat) : Bool := decide (h = 4)

/-! ### One tile -/

/-- The number of an array in the error counts. -/
def ArrayKind.num : ArrayKind → Nat
  | .l1i => 0
  | .l1d => 1
  | .l2 => 2
  | .vb => 3
  | .l3 => 4

/-- The ways (or entries) of an array (R153). -/
def ArrayKind.ways : ArrayKind → Nat
  | .l1i => 8
  | .l1d => 8
  | .l2 => 16
  | .vb => 16
  | .l3 => 12

/-- The most ways an array may retire (R164); an L3 slice's limit is L3_RAS_CTL.SLICE_LIMIT. -/
def ArrayKind.limit : ArrayKind → Nat
  | .l1i => 4
  | .l1d => 4
  | .l2 => 8
  | .vb => 8
  | .l3 => 12

/-- The register field that holds the retired ways of an array (R166). -/
def retiredField (t : Nat) : ArrayKind → Fld
  | .l1i => CPU_CACHE_RETs.L1I t
  | .l1d => CPU_CACHE_RETs.L1D t
  | .l2 => CPU_CACHE_RETs.L2 t
  | .vb => CPU_CACHE_RETs.VB t
  | .l3 => L3_SLICE_STATUSs.WAYS_RET t

/-- The number of bits set below bit 16. -/
def popcount16 (n : Nat) : Nat := ((List.range 16).filter (fun i => n.testBit i)).length

/-- The tile s = 9 × Qn + t. -/
def State.tile (s : State) (t : Nat) : Tile := s.tiles.get {} t

/-- Change a tile's caches. -/
def State.modTile (s : State) (t : Nat) (g : Tile → Tile) : State := { s with tiles := s.tiles.set {} t (g (s.tile t)) }

/-- The slice s. -/
def State.slice (s : State) (n : Nat) : Slice := s.slices.get {} n

/-- Change a slice. -/
def State.modSlice (s : State) (n : Nat) (g : Slice → Slice) : State :=
  { s with slices := s.slices.set {} n (g (s.slice n)) }

/-- What tile or slice `t` records of an array's errors and walks. -/
def State.wayState (s : State) (t : Nat) : ArrayKind → WayState
  | .l3 => (s.slice t).ways
  | _ => (s.tile t).ways

/-- Whether a way is usable (R157, R165): it exists, is not retired, and is neither being walked nor waiting for its walk. -/
def State.usable (s : State) (t : Nat) (k : ArrayKind) (w : Nat) : Bool :=
  decide (w < k.ways) && !(s.f (retiredField t k)).testBit w && !(s.wayState t k).walking.contains (k, w) &&
    !(s.wayState t k).waiting.contains (k, w)

/-- How many ways an array has retired, is retiring or is to retire. -/
def State.waysGone (s : State) (t : Nat) (k : ArrayKind) : Nat :=
  popcount16 (s.f (retiredField t k)) + ((s.wayState t k).walking.filter (fun x => decide (x.1 = k))).length +
    ((s.wayState t k).waiting.filter (fun x => decide (x.1 = k))).length

/-- The entries of the victim buffer that may take a line; none once more than 8 are retired, are retiring or are to retire (R164). -/
def State.vbSlots (s : State) (t : Nat) : List Nat :=
  if 8 < s.waysGone t .vb then [] else (List.range 16).filter (s.usable t .vb)

/-- The L1 data cache's newer data of a line, if it has any. -/
def Tile.dirtyL1 (t : Tile) (line : Nat) : Option CLine :=
  ((t.l1d.find line).bind t.l1d.entry).bind (fun e => if e.st = .modified then some e else none)

/-- A line of the L2 or victim buffer with the L1's newer data merged into it (R155). -/
def Tile.merged (t : Tile) (e : CLine) : CLine :=
  match t.dirtyL1 e.line with
  | none => e
  | some d => { e with st := .modified, data := d.data, poison := e.poison || d.poison }

/-- What the tile holds of a line: in the L2, or in the victim buffer (R160). -/
def Tile.holds (t : Tile) (line : Nat) : Option CLine :=
  match (t.l2.find line).bind t.l2.entry with
  | some e => some (t.merged e)
  | none => t.vb.find? (fun e => decide (e.line = line))

/-- The tile without any copy of a line. -/
def Tile.drop (t : Tile) (line : Nat) : Tile :=
  { t with l1i := t.l1i.drop line, l1d := t.l1d.drop line, l2 := t.l2.drop line,
           vb := t.vb.filter (fun e => decide (e.line ≠ line)), arrived := t.arrived.filter (fun l => decide (l ≠ line)) }

/-- The tile with a line's state changed, its data brought up to date and its L1 data copy made clean; a copy that may no
longer be written leaves the L1s' data as it is. -/
def Tile.setState (t : Tile) (line : Nat) (st : LineState) : Tile :=
  match t.holds line with
  | none => t
  | some e =>
    let g : CLine → CLine := fun o => { o with st := st, data := e.data, poison := e.poison }
    { t with
      l1d := t.l1d.modify line (fun o => { o with st := .shared, data := e.data, poison := e.poison })
      l2 := t.l2.modify line g
      vb := t.vb.map (fun o => if o.line = line then g o else o) }

/-- The L1 data copy of a line is merged into the L2, and the L1 copies are dropped (R155). -/
def Tile.collapse (t : Tile) (line : Nat) : Tile :=
  match (t.l2.find line).bind t.l2.entry with
  | none => t
  | some e =>
    let m := t.merged e
    { t with l1i := t.l1i.drop line, l1d := t.l1d.drop line, l2 := t.l2.modify line (fun _ => m) }

/-- The set of an L1 array for a virtual address, and of the L2 for a line number (R153). -/
def l1Set (va : Nat) : Nat := va / 64 % 128
/-- The set of the L2 for a line number. -/
def l2Set (line : Nat) : Nat := line % 2048

/-- Whether an L1 array holds a line at the index of a virtual address. -/
def Tile.l1Has (t : Tile) (data : Bool) (va line : Nat) : Bool :=
  ((if data then t.l1d else t.l1i).wayOf (l1Set va) line).isSome

/-- A hit in the L2: the tree is touched unless the hint says toward = 1; a mark to skip the victim buffer goes (R159). -/
def Tile.hitL2 (t : Tile) (line hint : Nat) : Tile :=
  match t.l2.wayOf (l2Set line) line with
  | none => t
  | some w =>
    let a := t.l2.modify line (fun e => { e with skip := false })
    { t with l2 := if ntlL2 hint then a else a.touch 16 (l2Set line) w false }

/-- A line is placed in an L1 array from the L2 (R154): any copy at another virtual index goes, and a replaced line that is
newer than the L2's is merged into the L2. -/
def Tile.fillL1 (t : Tile) (data : Bool) (va line hint : Nat) (usable : Nat → Bool) : Tile :=
  let arr := if data then t.l1d else t.l1i
  let set := l1Set va
  match arr.wayOf set line with
  | some w =>
    let a := if ntlL1 hint then arr else arr.touch 8 set w false
    if data then { t with l1d := a } else { t with l1i := a }
  | none =>
    match (t.l2.find line).bind t.l2.entry with
    | none => t
    | some e =>
      let m := t.merged e
      let t1 := if data then { t with l2 := t.l2.modify line (fun _ => m) } else t
      let arr1 := arr.drop line
      let w := arr1.victim 8 set usable
      let t2 := match arr1.at set w with
        | some o => if o.st = LineState.modified then
            { t1 with l2 := t1.l2.modify o.line (fun p => { p with st := LineState.modified, data := o.data, poison := p.poison || o.poison }) }
            else t1
        | none => t1
      let a := (arr1.put set w (some { m with st := .shared, skip := false })).touch 8 set w (ntlL1 hint)
      if data then { t2 with l1d := a } else { t2 with l1i := a }

end Sys2Proof.Machine
end

