-- ==== Sys2Proof/Machine/Home.lean ====
section
/-! DEFINITION. Homes (R173 to R188): directory slices, the order of requests for a line, snoops and their answers,
write-backs, and how a tile comes to hold a line. Between the parts of this module a transaction is one step; it waits only
for answers that come from another module or that a constrained LR/SC sequence holds (R178). -/

namespace Sys2Proof.Machine

open Sys2Proof

/-! ### Tiles, cores and harts -/

/-- The logical core that physical tile `t` (9 × Qn + tile) serves, if any (CPU_SPARE_MAPn). -/
def State.coreOfTile (s : State) (t : Nat) : Option Nat :=
  ((List.range 8).find? (fun k => decide (s.f (CPU_SPARE_MAPn.LC (t / 9)) / 16 ^ k % 16 = t % 9))).map (fun k => 8 * (t / 9) + k)

/-- The physical tile that serves logical core `c`. -/
def State.tileOfCore (s : State) (c : Nat) : Nat := 9 * (c / 8) + s.f (CPU_CORE_STATUSc.TILE c)

/-- Hart `h`. -/
def State.hart (s : State) (h : Nat) : Hart := s.harts.get {} h

/-- Change hart `h`. -/
def State.modHart (s : State) (h : Nat) (g : Hart → Hart) : State := { s with harts := s.harts.set {} h (g (s.hart h)) }

/-- Write x[rd]; x0 discards it. -/
def Hart.setX (t : Hart) (rd : Nat) (v : Word) : Hart := if rd = 0 then t else { t with x := t.x.set 0 rd v }

/-- Read x[r]; x0 reads zero. -/
def Hart.getX (t : Hart) (r : Nat) : Word := if r = 0 then 0 else t.x.get 0 r

/-- The reservation of a hart is lost; a wait in AGW has its ending event `code` (R85, R95). -/
def State.loseReservation (s : State) (h code : Nat) : State :=
  s.modHart h (fun t =>
    let t1 := { t with resv := none, constrained := false }
    match t.run with
    | .agw d rd => { t1 with run := .agwLost code d rd }
    | _ => t1)

/-- The harts of the core that a tile serves. -/
def State.hartsOfTile (s : State) (t : Nat) : List Nat :=
  match s.coreOfTile t with
  | none => []
  | some c => [2 * c, 2 * c + 1]

/-- A miss of the L3 for a request of a hart (R127). -/
def State.l3Missed (s : State) (h : Nat) : State := if h < 384 then s.modHart h (fun t => { t with l3Miss := t.l3Miss + 1 }) else s

/-- A line leaves a tile: the reservations on it are lost (R85). -/
def State.lineGone (s : State) (t line code : Nat) : State :=
  (s.hartsOfTile t).foldl (fun a h => if (a.hart h).resv = some line then a.loseReservation h code else a) s

/-- Whether a constrained LR/SC sequence of the tile holds the answers to snoops of a line (R178). -/
def State.holdsAnswer (s : State) (t line : Nat) : Bool :=
  (s.hartsOfTile t).any (fun h => decide ((s.hart h).resv = some line) && (s.hart h).constrained)

/-! ### Packets of requests (R201) -/

/-- The runs of contiguous bytes of a mask: offset and length (R201). -/
def maskRuns (mask : BitVec 64) : List (Nat × Nat) :=
  ((List.range 64).foldl (fun (acc : List (Nat × Nat)) i =>
    if mask.getLsbD i then
      match acc with
      | (o, n) :: rest => if o + n = i then (o, n + 1) :: rest else (i, 1) :: acc
      | [] => [(i, 1)]
    else acc) []).reverse

/-- The packets of a request (R201): address, number of bytes, poison, data. -/
def ReqKind.packets (k : ReqKind) (line : Nat) : List (Nat × Nat × Bool × Option Line) :=
  match k with
  | .wrFull x p => [(line * 64, 64, p, some x)]
  | .wrPart x mask p => (maskRuns mask).map (fun r => (line * 64 + r.1, r.2, p, some x))
  | _ => [(line * 64, 64, false, none)]

/-! ### Directory entries -/

/-- The way of a directory slice's set that holds a line's entry. -/
def Slice.dirWay (sl : Slice) (line : Nat) : Option Nat :=
  (List.range 16).find? (fun w => decide ((sl.dir.get none (l3Set line * 16 + w)).map (·.line) = some line))

/-- The directory entry of a line. -/
def Slice.dirOf (sl : Slice) (line : Nat) : Option DirEntry :=
  (sl.dirWay line).bind (fun w => sl.dir.get none (l3Set line * 16 + w))

/-- Set or free the entry at a way. -/
def Slice.dirPut (sl : Slice) (set w : Nat) (e : Option DirEntry) : Slice := { sl with dir := sl.dir.set none (set * 16 + w) e }

/-- Free the entry of a line. -/
def Slice.dirFree (sl : Slice) (line : Nat) : Slice :=
  match sl.dirWay line with
  | none => sl
  | some w => sl.dirPut (l3Set line) w none

/-- Whether a line is under an active transaction (R182). -/
def Slice.busy (sl : Slice) (line : Nat) : Bool := sl.txns.any (fun x => decide (x.line = line))

/-- Whether a way of a set may be evicted for a new entry: it is free, or its entry is under no transaction (R181). -/
def Slice.dirUsable (sl : Slice) (set w : Nat) : Bool :=
  match sl.dir.get none (set * 16 + w) with
  | none => true
  | some e => !sl.busy e.line

/-- The way that a new entry of a line takes (R181), if any way of the set is not under a transaction. -/
def Slice.dirVictim (sl : Slice) (line : Nat) : Option Nat :=
  let set := l3Set line
  let ok := sl.dirUsable set
  if (List.range 16).any ok then
    some (victimWay 16 (sl.dirTree.get 0 set) ok (fun w => (sl.dir.get none (set * 16 + w)).isSome))
  else none

/-- Put an entry at a way and mark the way most recent. -/
def Slice.dirStore (sl : Slice) (w : Nat) (e : DirEntry) : Slice :=
  let set := l3Set e.line
  { sl.dirPut set w (some e) with dirTree := sl.dirTree.set 0 set (touchBits 16 (sl.dirTree.get 0 set) w false) }

/-- The bit of a tile's quire. -/
def quireBit (t : Nat) : Nat := 2 ^ (t / 9)

/-- Add a holder to an entry: a fifth one makes it COARSE (R180). -/
def DirEntry.add (e : DirEntry) (h : Nat × Nat) : DirEntry :=
  if e.coarse then
    { e with quires := e.quires ||| quireBit h.2, modules := e.modules ||| 2 ^ h.1,
             since := e.since.map (fun l => if l.contains h then l else l ++ [h]) }
  else if e.holders.contains h then e
  else if e.holders.length < 4 then { e with holders := e.holders ++ [h] }
  else
    let all := e.holders ++ [h]
    { e with coarse := true, holders := [],
             quires := all.foldl (fun a p => a ||| quireBit p.2) 0, modules := all.foldl (fun a p => a ||| 2 ^ p.1) 0 }

/-- Remove a holder; none: the line is held nowhere. A COARSE entry in SHARED keeps its vectors (R180), and a notice of a tile that has not
been given the line since another alone held it is discarded (R183). -/
def DirEntry.remove (e : DirEntry) (h : Nat × Nat) : Option DirEntry :=
  let e1 := if e.fwd = some h then { e with fwd := none } else e
  if e.coarse then
    match e.since with
    | none => if e.owned then none else some e1
    | some l => if !l.contains h then some e1 else if l.all (· = h) then none else some { e1 with since := some (l.filter (· ≠ h)) }
  else
    let hs := e.holders.filter (· ≠ h)
    if hs.isEmpty then none else some { e1 with holders := hs }

/-- The tiles that a snoop for an entry goes to (R180). -/
def DirEntry.targets (e : DirEntry) : List (Nat × Nat) :=
  if e.coarse then
    ((List.range 8).filter (fun m => e.modules.testBit m)).flatMap (fun m =>
      ((List.range 24).filter (fun q => e.quires.testBit q)).flatMap (fun q =>
        (List.range 9).map (fun i => (m, 9 * q + i))))
  else e.holders

/-- Whether a COARSE entry's vectors mark a tile. -/
def DirEntry.marks (e : DirEntry) (h : Nat × Nat) : Bool := e.modules.testBit h.1 && e.quires.testBit (h.2 / 9)

/-- The entry once a holder is the line's owner: COARSE as long as the line has been held throughout (R180). -/
def ownedBy (old : Option DirEntry) (line : Nat) (h : Nat × Nat) (throughout : Bool) : DirEntry :=
  match old with
  | some e => if e.coarse && throughout then { e.add h with owned := true, fwd := none, since := some [h] } else { line := line, owned := true, holders := [h] }
  | none => { line := line, owned := true, holders := [h] }

/-- What a tile's answer that it does not hold the line leaves of an entry: a COARSE one also asks tiles that never held it (R180). -/
def DirEntry.lacks (e : DirEntry) (h : Nat × Nat) : Option DirEntry :=
  if e.coarse then some { e with fwd := if e.fwd = some h then none else e.fwd, since := e.since.map (fun l => l.filter (· ≠ h)) } else e.remove h

/-- Change or free the directory entry of a line. -/
def State.dirChange (s : State) (home line : Nat) (g : DirEntry → Option DirEntry) : State :=
  s.modSlice home (fun sl =>
    match sl.dirWay line, sl.dirOf line with
    | some w, some e => sl.dirPut (l3Set line) w (g e)
    | _, _ => sl)

/-- A holder's line has left it (R175 EvN, WB). -/
def State.dirRemove (s : State) (home line : Nat) (h : Nat × Nat) : State := s.dirChange home line (fun e => e.remove h)

/-- A tile has answered that it does not hold the line (R176). -/
def State.dirLacks (s : State) (home line : Nat) (h : Nat × Nat) : State := s.dirChange home line (fun e => e.lacks h)

/-! ### The L3 and write-backs -/

/-- The L3 slice's copy of a line. -/
def State.l3Find (s : State) (home line : Nat) : Option CLine := ((s.slice home).l3.find line).bind (s.slice home).l3.entry

/-- Whether the slice still allocates lines (R169). -/
def State.l3Allocates (s : State) (home : Nat) : Bool := decide (s.f (L3_SLICE_STATUSs.STATE home) = 0)

/-- Put a clean line in the L3, replacing its copy or taking a victim's way (R156, R157), with the world tag of its request (R124, R162). -/
def State.l3Fill (s : State) (home line : Nat) (d : Line) (poison world low : Bool) : State :=
  if s.l3Allocates home && (List.range 12).any (s.usable home .l3) then
    let set := l3Set line
    let e : CLine := { line := line, st := .shared, data := d, poison := poison, world := world }
    let l3 := (s.slice home).l3
    let w := (l3.wayOf set line).getD (l3.victim 16 set (s.usable home .l3))
    s.modSlice home (fun sl => { sl with l3 := (sl.l3.put set w (some e)).touch 16 set w low })
  else s

/-- Update the L3's copy of a line where it is present: a hit, which marks its way most recent (R157). -/
def State.l3Update (s : State) (home line : Nat) (d : Line) (poison : Bool) : State :=
  s.modSlice home (fun sl =>
    match sl.l3.wayOf (l3Set line) line with
    | some w => { sl with l3 := (sl.l3.modify line (fun e => { e with data := d, poison := poison })).touch 16 (l3Set line) w false }
    | none => sl)

/-- The L3 forgets a line. -/
def State.l3Drop (s : State) (home line : Nat) : State := s.modSlice home (fun sl => { sl with l3 := sl.l3.drop line })

/-- A write-back reaches its home: it is written to the L3 and to DRAM together (R156). -/
def State.writeBack (s : State) (home line : Nat) (d : Line) (poison : Bool) (world : Bool := false) : State :=
  (s.l3Fill home line d poison world false).writeLine (line * 64) d poison

/-- Whether a line is homed in this module. -/
def State.ownLine (s : State) (line : Nat) : Bool := s.ownDram (line * 64)

/-- Whether a line's window is being handed over (R452 step 5). -/
def State.leaving (s : State) (line : Nat) : Bool := s.handingOver (line * 64 / 2 ^ 46)

/-- The module that homes a line (R41, R452). -/
def State.moduleOfLine (s : State) (line : Nat) : Nat := s.windowHost (line * 64 / 2 ^ 46)

/-- A Modified line leaves the tile for its home: here at once, to another module as a packet that is kept until it is
acknowledged (R156, R183). -/
def State.sendWriteBack (s : State) (t line : Nat) (d : Line) (poison : Bool) (world : Bool := false) : State :=
  if s.ownLine line then
    ((s.inside 0 7 (256 + s.homeSlice (line * 64)) t (line * 64) world poison (some d)).writeBack (s.homeSlice (line * 64)) line d poison
      world).inside 2 0 t (256 + s.homeSlice (line * 64)) (line * 64) world false none
  else (s.modTile t (fun x => { x with wbs := x.wbs ++ [(line, d, poison)] })).emit
    (.packet 0 0x07 (s.moduleOfLine line) 255 t (line * 64) world poison (some d))

/-- A line leaves a tile altogether: written back when Modified, otherwise with a clean eviction notice (R160). -/
def State.leaveTile (s : State) (t : Nat) (e : CLine) : State :=
  let s1 := if e.st = .modified then s.sendWriteBack t e.line e.data e.poison e.world
    else if s.ownLine e.line then s.inside 0 8 (256 + s.homeSlice (e.line * 64)) t (e.line * 64) e.world false none
    else s.emit (.packet 0 0x08 (s.moduleOfLine e.line) 255 t (e.line * 64) e.world false none)
  if s.ownLine e.line then s1.dirRemove (s.homeSlice (e.line * 64)) e.line (s.moduleNo, t) else s1

/-- A line leaves the L2 by replacement: it enters the victim buffer, unless it skips it or the buffer is off; when the buffer is full its
oldest entry leaves the tile (R155, R159, R160). `freed`: the entry that a recall has just freed (R161). -/
def State.evictL2 (s : State) (t : Nat) (e : CLine) (freed : Option Nat := none) : State :=
  let s0 := s.lineGone t e.line 3
  let slots := s0.vbSlots t
  let vb := (s0.tile t).vb
  if e.skip || slots.isEmpty then s0.leaveTile t e
  else
    match (freed.toList ++ slots).find? (fun n => slots.contains n && vb.all (fun o => decide (o.slot ≠ n))) with
    | some n => s0.modTile t (fun x => { x with vb := vb ++ [{ e with slot := n }] })
    | none =>
      match vb.find? (fun o => slots.contains o.slot) with
      | some o => (s0.modTile t (fun x => { x with vb := vb.filter (fun y => decide (y.line ≠ o.line)) ++ [{ e with slot := o.slot }] })).leaveTile t o
      | none => s0.leaveTile t e

/-- A line is placed in a tile's L2 (R157, R159); the line it replaces leaves. -/
def State.fillL2 (s : State) (t : Nat) (e : CLine) (hint : Nat) (freed : Option Nat := none) : State :=
  let set := l2Set e.line
  let tile := s.tile t
  let w := (tile.l2.wayOf set e.line).getD (tile.l2.victim 16 set (s.usable t .l2))
  let old := (tile.l2.at set w).bind (fun o => if o.line = e.line then none else some (tile.merged o))
  let tile1 := match old with
    | some o => tile.collapse o.line
    | none => tile
  let s1 := s.modTile t (fun _ =>
    { tile1 with l2 := (tile1.l2.put set w (some { e with skip := ntlSkip hint })).touch 16 set w (ntlL2 hint) })
  match old with
  | some o => s1.evictL2 t o freed
  | none => s1

/-! ### Snoops at a tile (R176) -/

/-- What a holder answers to a snoop. -/
inductive SnoopAnswer where
  | notHeld
  | wbInFlight
  | done
  /-- Data for the requester or the home: whether still Modified. -/
  | data (d : Line) (poison modified : Bool)
deriving DecidableEq, Repr

/-- A tile takes a snoop for a line: what it answers, and what it keeps (R176). Reservations on a line that it gives up
are lost; `code` is what a wait in AGW on it ends with (R95). -/
def State.tileSnoop (s : State) (t line code : Nat) (k : SnoopKind) : State × SnoopAnswer :=
  match (s.tile t).holds line with
  | none =>
    if (s.tile t).wbs.any (fun (e : Nat × Line × Bool) => decide (e.1 = line)) then (s, .wbInFlight) else (s, .notHeld)
  | some e =>
    let m := decide (e.st = .modified)
    match k with
    | .shr =>
      let s1 := s.modTile t (fun x => x.setState line .shared)
      let s2 := if m then s1.sendWriteBack t line e.data e.poison e.world else s1
      (s2, .data e.data e.poison false)
    | .inv =>
      let s1 := (s.modTile t (fun x => x.drop line)).lineGone t line code
      (s1, if e.st = .shared then .done else .data e.data e.poison m)
    | .kill =>
      let s1 := (s.modTile t (fun x => x.drop line)).lineGone t line code
      (if m then s1.sendWriteBack t line e.data e.poison e.world else s1, .done)
    | .drop => ((s.modTile t (fun x => x.drop line)).lineGone t line code, .done)
    | .clean =>
      if m then ((s.modTile t (fun x => x.setState line .exclusive)).sendWriteBack t line e.data e.poison e.world, .done)
      else (s, .done)
    | .cur => if m then (s, .data e.data e.poison true) else (s, .done)

/-! ### Transactions at a home -/

/-- The snoop that a request sends to a holder, if any, by whether the entry is OWNED and whether the holder is the
Forwarder (R176, R177). -/
def snoopFor (k : ReqKind) (owned isFwd : Bool) : Option SnoopKind :=
  match k with
  | .rds _ => if owned || isFwd then some .shr else none
  | .rdOwn | .upg | .zero => some .inv
  | .rdCur => if owned then some .cur else none
  | .wrFull _ _ => some .drop
  | .wrPart _ _ _ => some .kill
  | .cmoClean => if owned then some .clean else none
  | .cmoFlush | .evict => some .kill
  | .cmoInval => some .drop

/-- The code with which a wait on a line ends when this request takes the line away: OTHER for a directory eviction or a
maintenance operation, LINE for a store or an ownership request (R95, R181). -/
def waitCode : ReqKind → Nat
  | .evict | .cmoFlush | .cmoInval | .cmoClean => 3
  | _ => 0

/-- The OP of a snoop packet (R200). -/
def SnoopKind.op : SnoopKind → Nat
  | .shr => 0
  | .inv => 1
  | .kill => 2
  | .drop => 3
  | .clean => 4
  | .cur => 5

/-- The OP of a request packet (R200). -/
def ReqKind.op : ReqKind → Nat
  | .rds _ => 0
  | .rdOwn => 1
  | .upg => 2
  | .zero => 3
  | .rdCur => 4
  | .wrFull _ _ => 5
  | .wrPart _ _ _ => 6
  | .cmoClean => 9
  | .cmoFlush => 10
  | .cmoInval => 11
  | .evict => 63

/-- Whether a request is a write for the memory guards (R247). -/
def ReqKind.writes : ReqKind → Bool
  | .rds _ | .rdCur => false
  | _ => true

/-- The sender of a request as a holder, if it keeps lines. -/
def ReqSrc.holder : ReqSrc → Option (Nat × Nat)
  | .tile m t => some (m, t)
  | .engine _ _ => none

/-- Whether a request is a cache-maintenance operation, which acts on the sender's own copy too (R171). -/
def ReqKind.cmo : ReqKind → Bool
  | .cmoClean | .cmoFlush | .cmoInval => true
  | _ => false

/-- The holders that a request snoops, each with its snoop (R176): the sender itself only for maintenance. -/
def snoopList (r : HomeReq) (e : Option DirEntry) : List ((Nat × Nat) × SnoopKind) :=
  match e with
  | none => []
  | some e =>
    (e.targets.filter (fun h => r.kind.cmo || decide (some h ≠ r.src.holder))).filterMap (fun h =>
      (snoopFor r.kind e.owned (decide (e.fwd = some h))).map (fun k => (h, k)))

/-- The current data of a line at its home: the L3's copy, or DRAM's, which a core's request leaves in the L3 (R156), as its hint says (R159);
a core's miss is counted for its hart (R127). -/
def State.homeData (s : State) (home : Nat) (r : HomeReq) (core : Bool) : State × Line × Bool :=
  match (if s.l3Allocates home then s.l3Find home r.line else none) with
  | some e =>
    (if ntlL3 r.hint then s else s.modSlice home (fun sl =>
      match sl.l3.wayOf (l3Set r.line) r.line with
      | some w => { sl with l3 := sl.l3.touch 16 (l3Set r.line) w false }
      | none => sl), e.data, e.poison)
  | none =>
    let (s1, d, p) := (if core then s.l3Missed r.hart else s).readLine (r.line * 64) r.err
    (if core && !r.noL3 then s1.l3Fill home r.line d p r.world (ntlL3 r.hint) else s1, d, p)

/-- Whether no core uses a tile any more: its own is being taken over or LOST, and it is no takeover's spare (R140, R151). -/
def State.tileIdle (s : State) (t : Nat) : Bool :=
  match s.coreOfTile t with
  | some c => (s.cores.get {} c).takeover.any (fun k => decide (k.src = t % 9))
  | none => (List.range 8).all (fun k => (s.cores.get {} (8 * (t / 9) + k)).takeover.all (fun x => decide (x.dst ≠ t % 9)))

/-- A request that stands at a slice: under way, queued behind its line's transaction, or in the input buffers. -/
def Slice.stands (sl : Slice) (p : HomeReq → Bool) : Bool :=
  sl.txns.any (fun x => p x.req || x.queue.any p) || sl.stalled.any (fun x => match x with
    | .request _ r => p r
    | .entry _ _ => false)

/-- Whether a hart waits for an answer from outside its core: of an access to another module's I/O region, or of a request at a home. -/
def State.outstanding (s : State) (h : Nat) : Bool :=
  (s.hart h).io.any (fun a => a.ans.isNone) || (s.tile (s.tileOfCore (h / 2))).asks.any (fun a => decide (a.hart = h ∧ a.ans = 0)) ||
    s.slices.any (fun e => e.2.stands (fun r => decide (r.hart = h)))

/-- An answer has reached a tile: a hart of it that waits for no other waits on nothing outside its core any more (R139). -/
def State.answeredAt (s : State) (t : Nat) : State :=
  (s.hartsOfTile t).foldl (fun a h => if (a.hart h).waitsOut && !a.outstanding h then a.modHart h (fun x => { x with waitsOut := false }) else a) s

/-- A line that a home has granted enters a tile; one that no core uses hands it on as its flush does (R140). -/
def State.arrive (s : State) (t : Nat) (e : CLine) (hint : Nat) : State :=
  if s.tileIdle t then s.leaveTile t e
  else ((s.modTile t (fun x => { x with vb := x.vb.filter (fun o => decide (o.line ≠ e.line)), arrived := e.line :: x.arrived })).fillL2 t e hint).answeredAt t

/-- The requester is given the line: a tile of this module fills its L2, a tile of another module is sent a packet (R175, R188, R200); `direct`:
a holder has sent a tile of this module the data. -/
def State.grantLine (s : State) (r : HomeReq) (st : LineState) (d : Line) (p passed direct : Bool) : State :=
  if passed then s
  else match r.src with
  | .engine _ _ => s
  | .tile m t =>
    if m = s.moduleNo then
      (if direct then s
      else s.inside 3 (if st = .modified then 1 else 0) t (256 + s.homeSlice (r.line * 64)) (r.line * 64) r.world p (some d)).arrive t
        { line := r.line, st := st, data := d, poison := p, world := r.world } r.hint
    else s.emit (.packet 3 (if st = .modified then 1 else 0) m t (256 + s.homeSlice (r.line * 64)) (r.line * 64) r.world p (some d))

/-- The key of engine e's copy of a line, of a text-world or Endpaper read. -/
def copyKey (e line : Nat) (world : Bool) : Nat := 32 * line + (if world then 16 else 0) + e

/-- A data mover's write of a line is answered: `status` of R356 (R192). -/
def State.acked (s : State) (die line status : Nat) : State :=
  match s.writes.findIdx? (fun w => decide (w.die = die ∧ w.line = line ∧ w.left ≠ 0) && w.sent) with
  | none => s
  | some i => { s with writes := s.writes.modify i (fun w => { w with left := w.left - 1, status := max w.status status }) }

/-- The requester is answered without data. -/
def State.respond (s : State) (r : HomeReq) (op : Nat) : State :=
  let home := 256 + s.homeSlice (r.line * 64)
  match r.src with
  | .engine m d =>
    if m = s.moduleNo then
      (s.inside 2 op (216 + d) home (r.line * 64) r.world false none).acked d r.line (if op = 3 then 1 else if op = 4 then 2 else 0)
    else s.emit (.packet 2 op m (216 + d) home (r.line * 64) r.world false none)
  | .tile m t =>
    if m = s.moduleNo then s.inside 2 op t home (r.line * 64) r.world false none
    else s.emit (.packet 2 op m t home (r.line * 64) r.world false none)

/-- Store the directory entry of a line: in its own way, or in the way chosen for it. -/
def State.dirWrite (s : State) (home : Nat) (e : DirEntry) : State :=
  s.modSlice home (fun sl =>
    match sl.dirWay e.line with
    | some w => sl.dirStore w e
    | none =>
      match sl.dirVictim e.line with
      | some w => sl.dirStore w e
      | none => sl)

/-- The line is held nowhere: its entry is freed. -/
def State.dirFree (s : State) (home line : Nat) : State := s.modSlice home (fun sl => sl.dirFree line)

/-- Whether a line has been held throughout a request that takes it over (R180): by the requester itself, as far as its home can know, or by the
holder that passed its data on. -/
def State.heldThroughout (s : State) (e : Option DirEntry) (line : Nat) (h : Nat × Nat) (passed : Bool) : Bool :=
  passed || (if h.1 = s.moduleNo then ((s.tile h.2).holds line).isSome else e.any (fun e => e.marks h && e.since.all (·.contains h)))

/-- A request has all its answers: the home serves it (R175, R177). `got` is what a holder has sent (data, poison, still Modified); `passed`:
a holder has sent the requester the data itself; `lapsed`: a Forwarder no longer held the line (R183). -/
def State.finish (s : State) (home : Nat) (r : HomeReq) (got : Option (Line × Bool × Bool)) (passed : Bool)
    (lapsed : Bool := false) : State :=
  let entry := (s.slice home).dirOf r.line
  match r.kind with
  | .rds resolved =>
    let (s1, d, p) := match got with
      | some (d, p, _) => (s, d, p)
      | none => s.homeData home r true
    match r.src.holder with
    | none => s1
    | some h =>
      let others := entry.elim [] (fun e => if e.coarse then [(8, 0)] else e.holders.filter (· ≠ h))
      if others.isEmpty && resolved && !lapsed then
        (s1.dirWrite home { line := r.line, owned := true, holders := [h] }).grantLine r .exclusive d p passed got.isSome
      else
        let base : DirEntry := match entry with
          | some e => { e with owned := false }
          | none => { line := r.line, owned := false }
        (s1.dirWrite home { base.add h with fwd := some h }).grantLine r .forwarder d p passed got.isSome
  | .rdOwn =>
    let (s1, d, p) := match got with
      | some (d, p, _) => (s, d, p)
      | none => s.homeData home r true
    match r.src.holder with
    | none => s1
    | some h =>
      let m := got.elim false (fun g => g.2.2)
      (s1.dirWrite home (ownedBy entry r.line h (s.heldThroughout entry r.line h (got.isSome || passed)))).grantLine r
        (if m then .modified else .exclusive) d p passed got.isSome
  | .upg =>
    match r.src with
    | .engine _ _ => s
    | .tile m t =>
      let s1 := s.dirWrite home (ownedBy entry r.line (m, t) true)
      if m = s.moduleNo then ((s1.respond r 0).modTile t (fun x => x.setState r.line .exclusive)).answeredAt t else s1.respond r 0
  | .zero =>
    match r.src.holder with
    | none => s
    | some h => (s.dirWrite home (ownedBy entry r.line h (s.heldThroughout entry r.line h got.isSome))).grantLine r .modified 0 false passed false
  | .rdCur =>
    let (s1, d, p) := match got with
      | some (d, p, _) => (s, d, p)
      | none => s.homeData home r false
    match r.src with
    | .engine m e =>
      if m = s.moduleNo then { s1.inside 3 0 (216 + e) (256 + home) (r.line * 64) r.world p (some d) with
        curCopies := s1.curCopies.set none (copyKey e r.line r.world) (some (d, p)) }
      else s1.emit (.packet 3 0 m (216 + e) (256 + home) (r.line * 64) r.world p (some d))
    | .tile _ _ => s1
  | .wrFull d psn => (((s.dirFree home r.line).l3Update home r.line d psn).writeLine (r.line * 64) d psn).respond r 0
  | .wrPart d mask psn =>
    let s1 := s.dirFree home r.line
    let (s2, cur, p) := s1.homeData home r false
    let new := lineMerge cur d mask
    ((s2.l3Update home r.line new (p || psn)).writeLine (r.line * 64) new (p || psn)).respond r 0
  | .cmoClean => s.respond r 0
  | .cmoFlush | .cmoInval => ((s.dirFree home r.line).l3Drop home r.line).respond r 0
  | .evict => s.dirFree home r.line

/-- Whether a request is answered with the data of a holder. -/
def ReqKind.wantsData : ReqKind → Bool
  | .rds _ | .rdOwn => true
  | _ => false

/-- The packets with which a tile of this module answers a snoop of a home here (R176): data to the requester where it is a tile here, and the rest
to the home. -/
def State.snoopReply (s : State) (home : Nat) (r : HomeReq) (t : Nat) (k : SnoopKind) (a : SnoopAnswer) : State :=
  let rsp (s : State) (op : Nat) : State := s.inside 2 op (256 + home) t (r.line * 64) r.world false none
  match a with
  | .notHeld => rsp s 1
  | .wbInFlight => rsp s 2
  | .done => rsp s 0
  | .data d p m =>
    if k = .cur then s.inside 3 0 (256 + home) t (r.line * 64) r.world p (some d)
    else match r.src with
    | .tile m' u =>
      if m' = s.moduleNo ∧ r.kind.wantsData = true then
        rsp (s.inside 3 (if m then 1 else 0) u t (r.line * 64) r.world p (some d)) 0
      else rsp s 0
    | .engine _ _ => rsp s 0

/-- Send the snoops of a request: a holder of this module answers at once unless it holds its answer; others are waited
for. What is collected: the holders awaited, and the data that a holder sent. -/
def State.sendSnoops (s : State) (home : Nat) (r : HomeReq) :
    List ((Nat × Nat) × SnoopKind) → State × List (Nat × Nat) × Option (Line × Bool × Bool)
  | [] => (s, [], none)
  | (h, k) :: rest =>
    let (s1, await, got) := s.sendSnoops home r rest
    if h.1 = s1.moduleNo ∧ s1.mesh.routersOut.contains h.2 = true then (s1, h :: await, got)
    else if h.1 = s1.moduleNo then
      let s1 := s1.inside 1 k.op h.2 (256 + home) (r.line * 64) r.world false none
      if s1.holdsAnswer h.2 r.line && decide (k = .inv ∨ k = .kill ∨ k = .drop) then
        (s1.modTile h.2 (fun x => { x with held := x.held ++ [⟨k, r.line, none, waitCode r.kind⟩] }), h :: await, got)
      else
        match s1.tileSnoop h.2 r.line (waitCode r.kind) k with
        | (s2, a) =>
          let s3 := s2.snoopReply home r h.2 k a
          match a with
          | .data d p m => (s3, await, some (d, p, m))
          | .notHeld => (s3.dirLacks home r.line h, await, got)
          | _ => (s3, await, got)
    else (s1.emit (.packet 1 k.op h.1 h.2 (256 + home) (r.line * 64) r.world false none), h :: await, got)

/-- Whether an upgrade's sender still holds the line shared, by the entry (R183); of this module, by its tile. -/
def State.upgradeStands (s : State) (e : DirEntry) (line : Nat) (h : Nat × Nat) : Bool :=
  !e.owned && (if h.1 = s.moduleNo then ((s.tile h.2).holds line).isSome
    else if e.coarse then e.marks h && e.since.all (·.contains h) else e.holders.contains h)

/-- Open the transaction of a request whose line is under none: snoop, and serve it at once when no answer is awaited. -/
def State.openTxn (s : State) (home : Nat) (r : HomeReq) (behind : List HomeReq) : State :=
  let r1 := match r.kind, r.src.holder, (s.slice home).dirOf r.line with
    | .upg, some h, some e => if s.upgradeStands e r.line h then r else { r with kind := .rdOwn }
    | .upg, _, _ => { r with kind := .rdOwn }
    | _, _, _ => r
  let (s1, await, got) := s.sendSnoops home r1 (snoopList r1 ((s.slice home).dirOf r.line))
  if await.isEmpty && behind.isEmpty then s1.finish home r1 got false
  else s1.modSlice home (fun sl =>
    { sl with txns := sl.txns ++ [{ line := r.line, req := r1, await := await, got := got, queue := behind, since := s.leaf }] })

/-- Whether a request makes a directory entry for its line. -/
def ReqKind.entry : ReqKind → Bool
  | .rds _ | .rdOwn | .upg | .zero => true
  | _ => false

/-- A directory eviction is counted (R181), and DIR_WARN set when a gathering's count reaches its limit. -/
def State.countEviction (s : State) (home : Nat) : State :=
  let s1 := (s.incF (L3_DIR_STATUSs.EVICT home)).modSlice home (fun sl => { sl with evicts := sl.evicts + 1 })
  let w := s.f L3_COH_CTL.DIR_WARN
  s1.raiseIf (decide (w ≠ 0 ∧ (s1.slice home).evicts = w)) L3_COH_ALARM.DIR_WARN

/-- An entry is evicted (R181): whether its way is free now; otherwise its holders are still to answer. -/
def State.evictEntry (s : State) (home : Nat) (v : DirEntry) : State × Bool :=
  let ev : HomeReq := { kind := .evict, src := .engine 8 0, line := v.line }
  let (s1, await, got) := (s.countEviction home).sendSnoops home ev (snoopList ev (some v))
  if await.isEmpty then (s1.finish home ev got false, true)
  else (s1.modSlice home (fun sl => { sl with txns := sl.txns ++ [{ line := v.line, req := ev, await := await, got := got, since := s.leaf }] }), false)

/-- Something waits in a slice's input buffers. -/
def State.stall (s : State) (home : Nat) (x : Stalled) : State := s.modSlice home (fun sl => { sl with stalled := sl.stalled ++ [x] })

/-- Room is made for a line's entry (R181): whether the request may go on now. Where every way is under a transaction, or the victim's
holders are still to answer, the request waits. -/
def State.makeRoom (s : State) (home : Nat) (r : HomeReq) : State × Bool :=
  let sl := s.slice home
  if (sl.dirWay r.line).isSome then (s, true)
  else
    match sl.dirVictim r.line with
    | none => (s.stall home (.request none r), false)
    | some w =>
      match sl.dir.get none (l3Set r.line * 16 + w) with
      | none => (s, true)
      | some v =>
        match s.evictEntry home v with
        | (s1, true) => (s1, true)
        | (s1, false) => (s1.stall home (.request (some v.line) r), false)

/-- What a request at a home comes to. -/
inductive HomeResult where
  | served
  | waits
  | fault
  | refused
deriving DecidableEq, Repr

/-- The line that something stalled is about. -/
def Stalled.line : Stalled → Nat
  | .request _ r => r.line
  | .entry _ e => e.line

/-- Whether the request of a tile or an engine of this module stands at the home already: a hart or an engine that waits asks again. -/
def State.queued (s : State) (home : Nat) (r : HomeReq) : Bool :=
  let same (x : HomeReq) : Bool :=
    decide (x.line = r.line ∧ x.src = r.src) && ((x.kind.entry && r.kind.entry) || (decide (x.kind = r.kind) && (!r.kind.cmo || decide (x.hart = r.hart))))
  let asksAgain := match r.src with
    | .tile _ _ => true
    | .engine m _ => decide (m = s.moduleNo ∧ r.kind = .rdCur)
  asksAgain && (s.slice home).stands same

/-- Whether a recovery holds the requests for a line at a home (R184, R185). -/
def State.recovering (s : State) (home line : Nat) : Bool :=
  s.recoveries.any (fun r => match r.set with
    | some x => decide (r.slice = home ∧ l3Set line = x)
    | none => r.indices.contains (homeIndex (line * 64)))

/-- Whether a request waits in the input buffers of its home's router: its line's entry or an earlier request for it does, a recovery holds
it, or all 128 transactions are busy (R182 to R185). -/
def State.mustStall (s : State) (home line : Nat) : Bool :=
  (s.slice home).stalled.any (fun x => decide (x.line = line)) || s.recovering home line || decide (128 ≤ (s.slice home).txns.length)

/-- A request reaches its home (R44, R182, R248): refused or faulted, stalled, queued behind the line's transaction, or served. -/
def State.homeRequest (s : State) (r : HomeReq) : State × HomeResult :=
  let a := r.line * 64
  if !s.populated a then (s.respond r 3, .fault)
  else if s.guardRefuses 0 a r.world r.kind.writes then ((s.refuse 0 a r.world r.kind.writes).respond r 4, .refused)
  else
    let home := s.homeSlice a
    if s.queued home r then (s, .waits)
    else if s.leaving r.line || s.mustStall home r.line then (s.stall home (.request none r), .waits)
    else if (s.slice home).busy r.line then
      (s.modSlice home (fun sl => { sl with txns := sl.txns.map (fun x =>
        if x.line = r.line then { x with queue := x.queue ++ [r] } else x) }), .waits)
    else if r.kind.entry then
      let (s1, go) := s.makeRoom home r
      if go then
        let s2 := s1.openTxn home r []
        (s2, if (s2.slice home).busy r.line then .waits else .served)
      else (s1, .waits)
    else
      let s2 := s.openTxn home r []
      (s2, if (s2.slice home).busy r.line then .waits else .served)

/-- A request goes to its home here (R34): one of a tile or an engine of this module as its packets, unless it stands at the home already. -/
def State.askHome (s : State) (r : HomeReq) (inst : Option Nat := none) : State × HomeResult :=
  let home := s.homeSlice (r.line * 64)
  let send (u : Nat) : State := if s.queued home r then s else (r.kind.packets r.line).foldl (fun a x =>
    a.inside 0 r.kind.op (256 + home) u x.1 r.world x.2.2.1 x.2.2.2 x.2.1 inst) s
  (match r.src with
  | .tile m t => if m = s.moduleNo then send t else s
  | .engine m e => if m = s.moduleNo then send (216 + e) else s).homeRequest r

/-- A directory entry reaches its new home (R169 step 5): where the set is full one is evicted first, and until there is room it waits, and
with it the requests for its line. -/
def State.dirInsert (s : State) (home : Nat) (e : DirEntry) : State :=
  let sl := s.slice home
  if (sl.dirWay e.line).isSome then s.dirWrite home e
  else
    match sl.dirVictim e.line with
    | none => s.stall home (.entry none e)
    | some w =>
      match sl.dir.get none (l3Set e.line * 16 + w) with
      | none => s.dirWrite home e
      | some v =>
        match s.evictEntry home v with
        | (s1, true) => s1.dirWrite home e
        | (s1, false) => s1.stall home (.entry (some v.line) e)

/-- The line whose eviction something stalled waits for. -/
def Stalled.waitsFor : Stalled → Option Nat
  | .request b _ => b
  | .entry b _ => b

/-- What has waited at a home is taken again in its order, as far as it can be now. -/
def State.retake (s : State) (home : Nat) (l : List Stalled) : State :=
  l.foldl (fun a x =>
    if x.waitsFor.any (a.slice home).busy then a.stall home x
    else match x with
      | .request _ r => (a.homeRequest r).1
      | .entry _ e => a.dirInsert home e) s

/-- What waits in a slice's input buffers is taken again. -/
def State.takeStalled (s : State) (home : Nat) : State :=
  if (s.slice home).stalled.isEmpty then s
  else (s.modSlice home (fun sl => { sl with stalled := [] })).retake home (s.slice home).stalled

/-- A line's transaction has ended (R181, R182): the request that its eviction was for goes on first, then those that waited behind it, and then
the others of the input buffers. -/
def State.wakeLine (s : State) (home line : Nat) (queue : List HomeReq) : State :=
  let st := (s.slice home).stalled
  (s.modSlice home (fun sl => { sl with stalled := [] })).retake home
    (st.filter (fun x => decide (x.waitsFor = some line)) ++ queue.map (.request none) ++ st.filter (fun x => decide (x.waitsFor ≠ some line)))

/-- Whether a holder is the one that supplies a line's data (R177). -/
def DirEntry.supplies (e : DirEntry) (h : Nat × Nat) : Bool := (e.owned && (e.coarse || e.holders.contains h)) || decide (e.fwd = some h)

/-- A holder's answer reaches the home of a line: its transaction ends when no other is awaited (R182, R183). A supplier of
another module that answers without data has sent the data to the requester itself; a requester of this module still waits
for it. -/
def State.homeAnswer (s : State) (line : Nat) (h : Nat × Nat) (notHeld : Bool) (d : Option (Line × Bool × Bool)) : State :=
  let home := s.homeSlice (line * 64)
  match (s.slice home).txns.find? (fun x => decide (x.line = line) && x.await.contains h) with
  | none => s
  | some x =>
    let direct := !notHeld && d.isNone && x.req.kind.wantsData &&
      (((s.slice home).dirOf line).elim false (fun e => e.supplies h))
    let mine := match x.req.src with
      | .tile m _ => decide (m = s.moduleNo)
      | .engine m _ => decide (m = s.moduleNo)
    if direct && mine then s
    else
      let s0 := if notHeld then s.dirLacks home line h else s
      let rest := x.await.filter (· ≠ h)
      let got := match d with
        | some g => some g
        | none => x.got
      let passed := x.passed || direct
      let lapsed := x.lapsed || (notHeld && ((s.slice home).dirOf line).elim false (fun e => decide (e.fwd = some h)))
      if rest.isEmpty then
        let s1 := s0.modSlice home (fun sl => { sl with txns := sl.txns.filter (fun y => decide (y.line ≠ line)) })
        (s1.finish home x.req got passed lapsed).wakeLine home line x.queue
      else s0.modSlice home (fun sl => { sl with txns := sl.txns.map (fun y =>
        if y.line = line then { y with await := rest, got := got, passed := passed, lapsed := lapsed } else y) })

/-- A tile answers a snoop for a line homed in another module (R176, R183, R200): data goes to the requester, and the rest to
the home. -/
def State.sendAnswer (s : State) (t line : Nat) (k : SnoopKind) (req : Option (Nat × Nat)) (a : SnoopAnswer) : State :=
  let hm := s.moduleOfLine line
  let rsp (s : State) (op : Nat) : State := s.emit (.packet 2 op hm 255 t (line * 64) false false none)
  match a with
  | .notHeld => rsp s 1
  | .wbInFlight => rsp s 2
  | .done => rsp s 0
  | .data d p m =>
    match k, req with
    | .cur, _ => s.emit (.packet 3 0 hm 255 t (line * 64) false p (some d))
    | _, some r => rsp (s.emit (.packet 3 (if m then 1 else 0) r.1 r.2 t (line * 64) false p (some d))) 0
    | _, none => rsp s 0

/-- A tile answers a snoop: to a home of this module, or to another's. -/
def State.answerSnoop (s : State) (t line : Nat) (k : SnoopKind) (req : Option (Nat × Nat)) (a : SnoopAnswer) : State :=
  if s.ownLine line then
    let home := s.homeSlice (line * 64)
    let s1 := match (s.slice home).txns.find? (fun x => decide (x.line = line)) with
      | some x => s.snoopReply home x.req t k a
      | none => s
    match a with
    | .data d p m => s1.homeAnswer line (s.moduleNo, t) false (some (d, p, m))
    | .notHeld => s1.homeAnswer line (s.moduleNo, t) true none
    | _ => s1.homeAnswer line (s.moduleNo, t) false none
  else s.sendAnswer t line k req a

/-- The held snoops of a tile are answered (R178): the LR/SC sequence has ended, or 64 core cycles have passed. -/
def State.releaseHeld (s : State) (t : Nat) : State :=
  let hs := (s.tile t).held
  let s1 := s.modTile t (fun x => { x with held := [] })
  hs.foldl (fun a h =>
    let (a1, r) := a.tileSnoop t h.line h.code h.kind
    a1.answerSnoop t h.line h.kind h.req r) s1

/-- The answers that a tile's constrained LR/SC sequences held are given once none of the harts is in such a sequence (R178). -/
def State.freeTile (s : State) (t : Nat) : State :=
  if (s.tile t).held.isEmpty || (s.tile t).held.any (fun x => s.holdsAnswer t x.line) then s else s.releaseHeld t

/-- The flush engine of a tile (R141 step 3): Modified L1 data is merged, every Modified line is written back, every other
line is dropped with its home told, and nothing is left. -/
def State.flushTile (s : State) (t : Nat) : State :=
  let x := s.tile t
  let held := (x.l2.lines.filterMap (fun (e : Nat × Option CLine) => e.2.map x.merged)) ++ x.vb
  let s1 := held.foldl (fun a e => (a.lineGone t e.line 3).leaveTile t e) s
  (s1.modTile t (fun y => { y with l1i := { y.l1i with lines := [] }, l1d := { y.l1d with lines := [] },
                                   l2 := { y.l2 with lines := [] }, vb := [], arrived := [] })).freeTile t

/-! ### How a tile comes to hold a line -/

/-- What an attempt to hold a line comes to: held, to be waited for, an access fault, or a guard's refusal. -/
inductive HoldResult where
  | held
  | waits
  | fault
  | refused
deriving DecidableEq, Repr

/-- Whether another module's window can be reached (R44): the partner is not absent, lost or departed. -/
def State.moduleReachable (s : State) (m : Nat) : Bool :=
  decide (m < 8) && decide (s.f (BL_PEERm.STATE m) = 1 ∨ s.f (BL_PEERm.STATE m) = 2)

/-- A recall (R161): the line returns from the victim buffer to the L2. -/
def State.recall (s : State) (t : Nat) (e : CLine) : State :=
  (s.modTile t (fun x => { x with vb := x.vb.filter (fun o => decide (o.line ≠ e.line)) })).fillL2 t { e with skip := false, slot := 0 } 0 (some e.slot)

/-- Send a request of a tile for a line: to a home of this module, or as a packet to another (R34, R188), where a tile has one request for a line
at a time, and the answer of a maintenance operation is its own hart's. -/
def State.tileRequest (s : State) (t hart line : Nat) (k : ReqKind) (world : Bool) (hint : Nat) (err : LineErr) :
    State × HoldResult :=
  if s.ownLine line then
    match s.askHome { kind := k, src := .tile s.moduleNo t, line := line, world := world, noL3 := ntlNoL3 hint, hint := hint,
                          err := err, hart := hart } with
    | (s1, .served) => (s1, .held)
    | (s1, .waits) => (s1, .waits)
    | (s1, .fault) => (s1, .fault)
    | (s1, .refused) => (s1, .refused)
  else if s.moduleReachable (s.moduleOfLine line) then
    match (s.tile t).asks.find? (fun a => decide (a.line = line)) with
    | some a =>
      let s1 := s.modTile t (fun x => { x with asks := x.asks.filter (fun b => decide (b.line ≠ line)) })
      if (a.kind.cmo || k.cmo) && decide (a.kind ≠ k ∨ a.hart ≠ hart) then (if a.ans = 0 then s else s1, .waits)
      else if a.ans = 2 then (s1, .fault)
      else if a.ans = 3 then (s1, .refused)
      else if a.ans = 1 then (s1, .held)
      else (s, .waits)
    | none => ((s.modTile t (fun x => { x with asks := x.asks ++ [⟨k, line, hart, 0, world, hint⟩] })).emit
      (.packet 0 k.op (s.moduleOfLine line) 255 t (line * 64) world false none), .waits)
  else (s, .fault)

/-- What an access needs of a line (R175, R190): to read it, and whether every older branch and trap of its hart is resolved; to reserve
it; to write it. -/
inductive Need where
  | read (resolved : Bool)
  | reserve
  | write
deriving DecidableEq, Repr

/-- Whether the line must be held in M or E. -/
def Need.own : Need → Bool
  | .read _ => false
  | _ => true

/-- The request that a need sends; `held`: the tile holds the line in S or F. -/
def Need.request (n : Need) (held : Bool) : ReqKind :=
  match n with
  | .read r => .rds r
  | .reserve => .rdOwn
  | .write => if held then .upg else .rdOwn

/-- The tile finds a line: in the L1 (`l1`), in the L2, where an access that has waited for the line makes no hit, or in the victim buffer,
which recalls it. -/
def State.found (s : State) (t : Nat) (e : CLine) (hint : Nat) (l1 : Bool) : State :=
  if (s.tile t).arrived.contains e.line then s.modTile t (fun x => { x with arrived := x.arrived.filter (fun l => decide (l ≠ e.line)) })
  else if ((s.tile t).l2.find e.line).isSome then (if l1 then s else s.modTile t (fun x => x.hitL2 e.line hint))
  else s.recall t e

/-- A line that was tagged Endpaper is a text-world request's from now on (R124). -/
def Tile.untag (t : Tile) (line : Nat) : Tile :=
  { t with l2 := t.l2.modify line (fun e => { e with world := false }),
           vb := t.vb.map (fun e => if e.line = line then { e with world := false } else e) }

/-- Whether an access of a world finds a line of a tile tagged Endpaper that it may not use: it is a miss (R124). -/
def State.tagMiss (s : State) (t line : Nat) (world : Bool) : Bool := !world && ((s.tile t).holds line).any (·.world)

/-- Whether an access hits in an L1 array. -/
def State.l1Hit (s : State) (t : Nat) (data : Bool) (va line : Nat) (world : Bool) : Bool :=
  (s.tile t).l1Has data va line && !s.tagMiss t line world

/-- The access that asked for a line has it: it has made no hit. -/
def Tile.took (t : Tile) (line : Nat) : Tile := { t with arrived := t.arrived.filter (fun l => decide (l ≠ line)) }

/-- Make a tile hold a line as an access needs it; `l1`: the access hits in the L1. A text-world access to a line tagged Endpaper is a miss
sent to the home, where the guard judges it (R124): a line of this module leaves the tile first, with its data; one of another module stays with
its data until the home admits the access. -/
def State.hold (s : State) (t hart line : Nat) (need : Need) (world : Bool) (hint : Nat) (l1 : Bool) (err : LineErr) : State × HoldResult :=
  match (s.tile t).holds line with
  | some e =>
    if s.tagMiss t line world then
      if !s.ownLine line then s.tileRequest t hart line (need.request true) world hint err
      else if s.guardRefuses 0 (line * 64) false need.own then (s.refuse 0 (line * 64) false need.own, .refused)
      else
        match (((s.modTile t (fun x => x.drop line)).lineGone t line 3).leaveTile t e).tileRequest t hart line (need.request false) world hint err with
        | (s1, .held) => (s1.modTile t (fun x => x.took line), .held)
        | r => r
    else
      let s1 := s.found t e hint l1
      if !need.own || decide (e.st = .modified ∨ e.st = .exclusive) then (s1, .held)
      else s1.tileRequest t hart line (need.request true) world hint err
  | none =>
    match s.tileRequest t hart line (need.request false) world hint err with
    | (s1, .held) => (s1.modTile t (fun x => x.took line), .held)
    | r => r

/-- An engine of this module takes the answer to its RdCur of a line, if that has come. -/
def State.takeCopy (s : State) (e line : Nat) (world : Bool) : State × Option (Line × Bool) :=
  match s.curCopies.get none (copyKey e line world) with
  | some c => ({ s with curCopies := s.curCopies.set none (copyKey e line world) none }, some c)
  | none => (s, none)

/-- Engine e's read of a line of this module (RdCur): the line's data and poison; none while its home has still to serve the request (R176,
R177, R182). -/
def State.readCur (s : State) (e line : Nat) (world : Bool := false) : State × Option (Line × Bool) :=
  if (s.curCopies.get none (copyKey e line world)).isSome then s.takeCopy e line world
  else (s.askHome { kind := .rdCur, src := .engine s.moduleNo e, line := line, world := world }).1.takeCopy e line world

end Sys2Proof.Machine
end

