-- ==== Sys2Proof/Machine/Slots.lean ====
section
/-! DEFINITION. The mode-change slots as the other units see them (R70, R74, R76): starting a hardware change, marking a
shadow as pending, and leaving a change on leaving service. -/

namespace Sys2Proof.Machine

open Sys2Proof

/-- Slot n. -/
def State.slot (s : State) (n : Nat) : Slot := s.slots.get {} n

/-- Change slot n. -/
def State.modSlot (s : State) (n : Nat) (g : Slot → Slot) : State := { s with slots := s.slots.set {} n (g (s.slot n)) }

/-- The STATE of slot n: 0 IDLE, 1 PENDING, 2 COMMITTED, 3 DONE, 4 CANCELLED, 5 REFUSED. -/
def State.slotState (s : State) (n : Nat) : Nat := s.f (TB_MCn_STATUS.STATE n)

/-- Whether slot n is PENDING or COMMITTED. -/
def State.slotLive (s : State) (n : Nat) : Bool := decide (s.slotState n = 1 ∨ s.slotState n = 2)

/-- A hardware change becomes ready, to be armed no earlier than a leaf (R76). -/
def State.startHw (s : State) (notBefore : Nat) (c : HwChange) : State :=
  { s with waiting := s.waiting ++ [{ notBefore := notBefore, change := c }] }

/-- Whether a hardware change of a kind waits or stands in a live slot. -/
def State.hwUnderWay (s : State) (p : HwChange → Bool) : Bool :=
  s.waiting.any (fun w => p w.change) || [6, 7].any (fun n => s.slotLive n && p (s.slot n).change)

/-- Hardware changes that waited for a slot are armed in the next leaf at the earliest (R76). -/
def State.afterSlot (s : State) (n : Nat) (hit : HwChange → Bool) : State :=
  { s with waiting := s.waiting.map (fun w =>
      if w.notBefore ≤ s.leaf ∧ (hit w.change = true ∨ 6 ≤ n) then { w with notBefore := s.leaf + 1 } else w) }

/-- A shadow register holds a pending value (R70). -/
def State.markDirty (s : State) (k : Nat) : State := if s.dirty.contains k then s else { s with dirty := s.dirty ++ [k] }

/-- A shadow register holds no pending value any more. -/
def State.clearDirty (s : State) (k : Nat) : State := { s with dirty := s.dirty.filter (· ≠ k) }

/-- Whether the participants of slot n may still change: it is PENDING, and the edge of leaf C has not come (R72, R74). -/
def State.beforeCut (s : State) (n : Nat) : Bool := decide (s.slotState n = 1 ∧ s.leaf < (s.slot n).cut)

/-- A unit leaves service before C: it stops being a participant of the changes that are PENDING (R74). -/
def State.leaveService (s : State) (l : Loc) : State :=
  (List.range 8).foldl (fun a n =>
    if a.beforeCut n then
      a.modSlot n (fun sl => { sl with participants := sl.participants.filter (fun p => decide (p.loc ≠ l.packed)) })
    else a) s

/-- A unit takes over work before C while a change is PENDING for which it holds a pending shadow: it becomes a participant (R74). -/
def State.joinService (s : State) (n : Nat) (l : Loc) : State :=
  if s.beforeCut n && (s.slot n).participants.all (fun p => decide (p.loc ≠ l.packed)) then
    s.modSlot n (fun sl => { sl with participants := sl.participants ++ [{ loc := l.packed }] })
  else s

end Sys2Proof.Machine
end

