-- ==== Sys2Proof/Machine/Steps.lean ====
section
/-! DEFINITION. Current steps: posting a reservation, and withdrawing those of a unit that is fenced (R494 to R497, R503,
R505). -/

namespace Sys2Proof.Machine

open Sys2Proof

/-- Change the Headband controller's own state. -/
def State.modHb (s : State) (g : Headband → Headband) : State := { s with hb := g s.hb }

/-- The rail of a step (R494, R495). -/
def StepWhat.rail : StepWhat → Nat
  | .wake c | .park c | .spare c => c / 48
  | .level n _ => n / 6
  | .engine k _ => 8 + k / 136
  | .tu u _ => 8 + u / 8
  | .lanes _ _ => 10
  | .channel k part _ => if part = 0 then 11 else 4 + k / 4

/-- Whether a step is upward. -/
def StepWhat.up : StepWhat → Bool
  | .wake _ | .spare _ => true
  | .park _ => false
  | .level _ u | .engine _ u | .tu _ u | .lanes _ u | .channel _ _ u => u

/-- The sleep state CS of logical core c (R505). -/
def State.cs (s : State) (c : Nat) : Nat := s.f (HB_QSTATUSn.CS (c / 8)) / 4 ^ (c % 8) % 4

/-- Set the sleep state of logical core c, from the present leaf. -/
def State.setCs (s : State) (c v : Nat) : State :=
  let old := s.f (HB_QSTATUSn.CS (c / 8))
  let w := old - s.cs c * 4 ^ (c % 8) + v % 4 * 4 ^ (c % 8)
  (s.setF (HB_QSTATUSn.CS (c / 8)) w).modHb (fun h => { h with csSince := h.csSince.set 0 c s.leaf })

/-- The cores of a quire that take part in its clock steps: those in CS0 or CS1 (R495). -/
def State.awake (s : State) (n : Nat) : Nat := ((List.range 8).filter (fun k => decide (s.cs (8 * n + k) < 2))).length

/-- The amount of a step in units of 0.25 A, rounded up (R495). -/
def State.stepAmount (s : State) : StepWhat → Nat
  | .wake _ | .park _ | .spare _ => if s.lq32 then 14 else 16
  | .level n _ => (2 * s.awake n + 4) / 5
  | .engine _ _ => 2
  | .tu _ _ => 16
  | .lanes _ _ => 8
  | .channel _ part _ => if part = 0 then 4 else 2

/-- Post a reservation of an amount for a leaf, or for the earliest one after it that it can still reach (R496). -/
def State.postReservation (s : State) (w : StepWhat) (cls leaf amount : Nat) : State :=
  s.modHb (fun h => { h with queue := h.queue ++
    [{ rail := w.rail, up := w.up, amount := amount, cls := cls, leaf := max leaf ((s.count + 255) / 256 + 1), what := w }] })

/-- Post a step's reservation (R495, R496). A step of nothing is no step. -/
def State.postStep (s : State) (w : StepWhat) (cls leaf : Nat) : State :=
  if s.stepAmount w = 0 then s else s.postReservation w cls leaf (s.stepAmount w)

/-- Whether a step of this kind is posted or granted and not yet taken. -/
def State.stepPosted (s : State) (w : StepWhat) : Bool :=
  s.hb.queue.any (fun r => decide (r.what = w)) || s.hb.granted.any (fun r => decide (r.what = w))

/-- Whether a step was taken and still waits for its unit, and when it was taken. -/
def State.stepTaken (s : State) (w : StepWhat) : Option Nat :=
  (s.hb.taken.find? (fun e => decide (e.1 = w))).map (·.2)

/-- The unit of a step uses it. -/
def State.useStep (s : State) (w : StepWhat) : State :=
  s.modHb (fun h => { h with taken := h.taken.filter (fun e => decide (e.1 ≠ w)) })

/-- A unit withdraws its steps that are not forecast yet. -/
def State.dropSteps (s : State) (p : StepWhat → Bool) : State :=
  s.modHb (fun h => { h with queue := h.queue.filter (fun r => !p r.what) })

/-- A unit is fenced (R503): its ungranted reservations are withdrawn; a forecast step is not taken and counts as
unforecast; so does the fall of the current `draws` that it still has, which leaves the rail's reserved total. -/
def State.fenceUnit (s : State) (p : StepWhat → Bool) (rail draws : Nat) : State :=
  let gone := s.hb.granted.filter (fun r => p r.what)
  (((s.dropSteps p).modHb (fun h => { h with
    drop := h.drop.set 0 rail (h.drop.get 0 rail + draws + (gone.filter (·.up)).foldl (fun a r => a + r.amount) 0)
    granted := h.granted.filter (fun r => !p r.what)
    unforecast := h.unforecast + gone.length + (if draws = 0 then 0 else 1) }))).raiseIf
      (!gone.isEmpty || decide (draws ≠ 0)) HB_ALARM.UNFORECAST

end Sys2Proof.Machine
end

