-- ==== Sys2Proof/Machine/Power.lean ====
section
/-! DEFINITION. The Headband controller (chapter Power Rails and Current Step Scheduling, R494 to R512, R522): closing a
leaf, the forecast message, holds, taking steps, sleep states, throttling, droop. -/

namespace Sys2Proof.Machine

open Sys2Proof

/-! ### Closing a leaf (R496, R497) -/

/-- The candidates of one direction of a rail in the order of their grants: by class, and within a class those that have
slid first, in the order of posting. -/
def grantOrder (q : List Reservation) : List Reservation :=
  [1, 2, 3, 4, 5].flatMap (fun c =>
    let a := q.filter (fun r => decide (r.cls = c))
    a.filter (·.slid) ++ a.filter (fun r => !r.slid))

/-- Grant in order while a direction's total stays within `room` and, upward, the rail within `cap`: how many are granted,
their amount, and whether the next one waits for the ceiling. -/
def grantPrefix (room cap : Nat) : List Reservation → Nat × Nat × Bool
  | [] => (0, 0, false)
  | r :: rs =>
    if room < r.amount then (0, 0, false)
    else if cap < r.amount then (0, 0, true)
    else
      let (n, t, w) := grantPrefix (room - r.amount) (cap - r.amount) rs
      (n + 1, t + r.amount, w)

/-- The VID that die d needs at a LEVEL (HB_VCURVEd_w). -/
def State.curve (s : State) (d level : Nat) : Nat := s.f (HB_VCURVEd_w.VID d (level / 8)) / 2 ^ (8 * (level % 8)) % 256

/-- VCOREd's set point in a leaf: the newest one reached by then; before the first, the boot set point 0.80 V (R542). -/
def State.vidAt (s : State) (d leaf : Nat) : Nat :=
  (((s.hb.vid.get [] d).find? (fun e => decide (e.1 ≤ leaf))).map (·.2)).getD 40

/-- The LEVEL of a quire once its posted rise of the clock is taken. -/
def State.nextLevel (s : State) (n : Nat) : Nat :=
  if s.stepPosted (.level n true) then s.f (HB_QSTATUSn.LEVEL n) - 1 else s.f (HB_QSTATUSn.LEVEL n)

/-- The lowest LEVEL that die d's quires have or are about to have. -/
def State.lowLevel (s : State) (d : Nat) : Nat :=
  (List.range 6).foldl (fun a i => min a (s.nextLevel (6 * d + i))) 16

/-- The set points of VCORE0 to VCORE3 for leaf l: toward what the dies need, at most 8 codes in a leaf (R509, R572). -/
def State.moveVid (s : State) (l : Nat) : State :=
  (List.range 4).foldl (fun a d =>
    let cur := a.vidAt d l
    let need := a.curve d (a.lowLevel d)
    let new := if cur < need then min need (cur + 8) else max need (cur - 8)
    if new = cur then a
    else a.modHb (fun h => { h with vid := h.vid.set [] d (((l, new) :: h.vid.get [] d).take 4) })) s

/-- Whether a reservation may be granted for leaf l: it is due, and a rise of a clock has its voltage since l − 2 (R509). -/
def State.eligible (s : State) (l : Nat) (r : Reservation) : Bool :=
  decide (r.leaf ≤ l) &&
    match r.what with
    | .level n true => decide (s.curve (n / 6) (s.f (HB_QSTATUSn.LEVEL n) - 1) ≤ s.vidAt (n / 6) (l - 2))
    | _ => true

/-- The rails that Rail r's units stand on, closed for leaf l: downward first, then upward under the ceiling. -/
def State.closeRail (s : State) (l r : Nat) : State :=
  let due := s.hb.queue.filter (fun x => decide (x.rail = r) && s.eligible l x)
  let room := 4 * s.f (HB_RAILr.STEP_MAX r)
  let base := s.f (HB_RAILr.RESERVED r) - s.hb.drop.get 0 r
  let down := grantOrder (due.filter (fun x => !x.up))
  let (nd, td, _) := grantPrefix room 65535 down
  let up := grantOrder (due.filter (·.up))
  let (nu, tu, wait) := grantPrefix room (s.f (HB_RAILr.IMAX r) - (base - td)) up
  let yes := (down.take nd ++ up.take nu)
  let s1 := s.modHb (fun h => { h with
    drop := h.drop.set 0 r 0
    queue := (yes.foldl (fun q x => q.erase x) h.queue).map (fun x =>
      if x.rail = r ∧ x.leaf ≤ l ∧ due.contains x then { x with slid := true, leaf := l + 1 } else x)
    granted := h.granted ++ yes.map (fun x => { x with leaf := l }) })
  (s1.setF (HB_RAILr.RESERVED r) (base - td + tu)).raiseIf wait HB_ALARM.CAP

/-! ### The forecast message (R502) -/

/-- One bit of the CRC-16 register. -/
def crc16Step (reg : BitVec 16) (b : Bool) : BitVec 16 :=
  let top := reg.getLsbD 15
  let r := reg <<< 1
  if top != b then r ^^^ 0x1021 else r

/-- The message with its CRC in bits 112 to 127. -/
def withCrc16 (m : BitVec 128) : BitVec 128 :=
  let c := (List.range 112).foldl (fun reg i => crc16Step reg (m.getLsbD i)) (0xFFFF : BitVec 16)
  (List.range 16).foldl (fun acc i => if c.getLsbD (15 - i) then acc ||| BitVec.shiftLeft (1 : BitVec 128) (112 + i) else acc) m

/-- The rails of link k, positions 0 to 2 (R494). -/
def linkRails (k : Nat) : List Nat := [k, 4 + k, [8, 10, 9, 11].getD k 8]

/-- The total of the steps granted for leaf l on a rail in one direction. -/
def State.stepTotal (s : State) (l r : Nat) (up : Bool) : Nat :=
  ((s.hb.granted.filter (fun x => decide (x.leaf = l ∧ x.rail = r ∧ x.up = up))).foldl (fun a x => a + x.amount) 0)

/-- The message of link k for leaf l. -/
def State.forecast (s : State) (l k : Nat) : BitVec 128 :=
  if s.hb.started = false then withCrc16 (BitVec.ofNat 128 (0xA7 + k * 2 ^ 8 + 2 ^ 10))
  else
    let rails := linkRails k
    let slid := s.hb.granted.any (fun x => decide (x.leaf = l) && rails.contains x.rail && x.told)
    let steps := (List.range 3).foldl (fun a p =>
      let r := rails.getD p 0
      a + s.stepTotal l r true * 2 ^ (16 + 18 * p) + s.stepTotal l r false * 2 ^ (25 + 18 * p)) 0
    withCrc16 (BitVec.ofNat 128 (0xA7 + k * 2 ^ 8 + (if slid then 2 ^ 12 else 0) + (if s.holdFlag then 2 ^ 13 else 0) + steps
      + s.vidAt k l * 2 ^ 70 + l % 65536 * 2 ^ 80 + s.f (HB_RAILr.RESERVED k) * 2 ^ 96))

/-- The messages of every link for leaf l are sent; what they forecast is told. -/
def State.sendForecasts (s : State) (l : Nat) : State :=
  let s1 := (List.range 4).foldl (fun a k => a.emit (.forecast k (a.forecast l k))) s
  s1.modHb (fun h => { h with granted := h.granted.map (fun x => if x.leaf = l then { x with told := true } else x) })

/-- A link that was not held in the leaf before shows so (HB_LINKk_STATUS). -/
def State.clearHolds (s : State) (before : Nat) : State :=
  (List.range 4).foldl (fun a k =>
    if a.hb.heldAt.get 0 k = before then a else (a.setF (HB_LINKk_STATUS.RUN k) 0).setF (HB_LINKk_STATUS.HOLD k) 0) s

/-- Leaf l is closed at the edge of l − 1. -/
def State.leafClose (s : State) (l : Nat) : State :=
  if l ≤ s.hb.closed ∨ l = 0 then s
  else
    let s1 := (s.until ((l - 1) * 256)).clearHolds s.hb.closed
    let s2 := if s1.hb.started = true ∧ s1.hb.frozen = false then (List.range 12).foldl (fun a r => a.closeRail l r) (s1.moveVid l)
      else s1
    (s2.modHb (fun h => { h with closed := l })).sendForecasts l

/-! ### Holds and steps (R500, R498, R504) -/

/-- VRHOLDk is asserted at the sample for the leaf last closed: no step of the link is taken in it. -/
def State.holdLink (s : State) (k : Nat) : State :=
  let l := s.hb.closed
  let late := decide (l * 256 ≤ s.count)
  if s.hb.started = false ∨ late = true ∨ s.hb.heldAt.get 0 k = l then s
  else
    let rails := linkRails k
    let mine := s.hb.granted.filter (fun x => decide (x.leaf = l) && rails.contains x.rail)
    let s1 := (s.until ((l - 1) * 256 + 205)).modHb (fun h => { h with
      granted := h.granted.filter (fun x => !(decide (x.leaf = l) && rails.contains x.rail))
      queue := mine.map (fun x => { x with cls := 1, leaf := l + 1, slid := true }) ++ h.queue
      heldAt := h.heldAt.set 0 k l })
    let s2 := rails.foldl (fun a r =>
      a.setF (HB_RAILr.RESERVED r) (a.f (HB_RAILr.RESERVED r) + s.stepTotal l r false - s.stepTotal l r true)) s1
    let s3 := (((s2.incF (HB_LINKk_STATUS.HELD k)).incF (HB_LINKk_STATUS.RUN k)).raise (HB_LINKk_STATUS.HOLD k)).raise
      HB_ALARM.HOLD
    if s3.f (HB_LINKk_STATUS.RUN k) = s3.f HB_CTL.HOLD_WARN then
      (s3.raise HB_ALARM.HOLD_LONG).logAt 0x0032 (s3.dieLoc 4 298) 5 [k, s3.f (HB_LINKk_STATUS.RUN k)]
    else s3

/-- The quire clock in MHz at its LEVEL (R508). -/
def State.showLevel (s : State) (n level : Nat) : State :=
  (s.setF (HB_QSTATUSn.LEVEL n) level).setF (HB_QSTATUSn.FREQ n) ((if s.lq32 then 3200 else 3600) - 100 * level)

/-- A step is taken: a clock changes at once, and other units use theirs when they need it. -/
def State.takeStep (s : State) (w : StepWhat) : State :=
  match w with
  | .level n true => s.showLevel n (s.f (HB_QSTATUSn.LEVEL n) - 1)
  | .level n false =>
    let l := s.f (HB_QSTATUSn.LEVEL n)
    (s.showLevel n (min 16 (l + 1))).raiseIf (decide (l = 0)) HB_ALARM.THROTTLE
  | .park _ => s
  | .engine _ false | .tu _ false | .lanes _ false => s
  | w => s.modHb (fun h => { h with taken := h.taken.filter (fun e => decide (e.1 ≠ w)) ++ [(w, s.count)] })

/-- The steps granted for the earliest leaf are taken within 125 ns of its edge. -/
def State.takeSteps (s : State) : State :=
  match s.hb.granted with
  | [] => s
  | g :: gs =>
    let l := gs.foldl (fun a x => min a x.leaf) g.leaf
    if s.hb.frozen || !s.turnOf l 3 then s
    else
      let mine := s.hb.granted.filter (fun x => decide (x.leaf = l))
      let s1 := (s.until (l * 256 + 32)).modHb (fun h => { h with granted := h.granted.filter (fun x => decide (x.leaf ≠ l)) })
      mine.foldl (fun a x => a.takeStep x.what) s1

/-- The copies disagree: granting stops, and no unit takes a step (R504). -/
def State.hbRestart (s : State) : State :=
  (s.modHb (fun h => { h with
    frozen := true
    queue := h.granted.map (fun x => { x with slid := true, told := false }) ++ h.queue
    granted := [] })).raise HB_ALARM.HB_RESTART

/-- What leaves the reserved totals when granted steps go back to their classes. -/
def State.ungrant (s : State) : State :=
  (List.range 12).foldl (fun a r =>
    let ls := a.hb.granted.filter (fun x => decide (x.rail = r))
    let up := (ls.filter (·.up)).foldl (fun t x => t + x.amount) 0
    let down := (ls.filter (fun x => !x.up)).foldl (fun t x => t + x.amount) 0
    if up = 0 ∧ down = 0 then a else a.setF (HB_RAILr.RESERVED r) (a.f (HB_RAILr.RESERVED r) + down - up)) s

/-! ### Sleep states (R505 to R507) -/

/-- The units that a wake takes after its step: 0.5 µs from CS2, 8 µs from CS3. -/
def wakeUnits (cs : Nat) : Nat := if cs = 3 then 2048 else 128

/-- The earliest deadline that the harts of a core wait for, if any waits in AGW. -/
def State.coreDeadline (s : State) (c : Nat) : Option Nat :=
  [2 * c, 2 * c + 1].foldl (fun a h =>
    match (s.hart h).run with
    | .agw d _ => some (match a with
      | some e => min d e
      | none => d)
    | _ => a) none

/-- Whether a core may sleep in a state: the state's wake time plus 3 leaves ends before its deadline (R507). -/
def State.sleepFits (s : State) (c cs : Nat) : Bool :=
  match s.coreDeadline c with
  | none => true
  | some d => decide (s.count + wakeUnits cs + 3 * 256 < d)

/-- The wake reservation for a deadline: the leaf whose step lets the wake end at or before it (R507). -/
def State.postDeadline (s : State) (c cs : Nat) : State :=
  let s1 := s.dropSteps (fun w => decide (w = .wake c))
  match s.coreDeadline c with
  | none => s1
  | some d => s1.postStep (.wake c) 3 ((d - wakeUnits cs - 32) / 256)

/-- Whether a hart is runnable, or keeps its core in CS0 (R114, R505). -/
def RunState.awake : RunState → Bool
  | .running | .paused | .debug => true
  | _ => false

/-- The core enters CS1 at once when neither hart is awake, and CS0 when one is (R505). -/
def State.idleCore (s : State) (c : Nat) : State :=
  let up := (s.hart (2 * c)).run.awake || (s.hart (2 * c + 1)).run.awake
  if up && decide (s.cs c = 1) then s.setCs c 0
  else if !up && decide (s.cs c = 0) then s.setCs c 1
  else s

/-- A core in CS1 for PARK_IDLE leaves enters CS2. -/
def State.park (s : State) (c : Nat) : State :=
  let p := s.f HB_CTL.PARK_IDLE
  if s.cs c = 1 ∧ p ≠ 0 then
    let s1 := s.untilLeaf (s.hb.csSince.get 0 c + p)
    if s1.sleepFits c 2 then ((s1.postStep (.park c) 3 0).setCs c 2).postDeadline c 2 else s1
  else s

/-- A core in CS2 for GATE_IDLE leaves is flushed and enters CS3. -/
def State.gate (s : State) (c : Nat) : State :=
  let p := s.f HB_CTL.GATE_IDLE
  if s.cs c = 2 ∧ p ≠ 0 then
    let s1 := s.untilLeaf (s.hb.csSince.get 0 c + p)
    if s1.sleepFits c 3 && (s1.stepTaken (.wake c)).isNone && !s1.hb.granted.any (fun r => decide (r.what = .wake c)) then
      ((s1.flushTile (s1.tileOfCore c)).setCs c 3).postDeadline c 3
    else s1
  else s

/-- A waking event posts a core's wake reservation (R506). -/
def State.wakeCore (s : State) (c : Nat) : State :=
  if s.cs c < 2 ∨ (s.stepTaken (.wake c)).isSome = true ∨ s.hb.granted.any (fun r => decide (r.what = .wake c)) = true then s
  else (s.dropSteps (fun w => decide (w = .wake c))).postStep (.wake c) 3 0

/-- The normal wake time of a core ends, and it is in CS0 again. -/
def State.wakeComplete (s : State) (c : Nat) : State :=
  match s.stepTaken (.wake c) with
  | none => s
  | some t =>
    if s.cs c < 2 then s
    else ((s.until (t + wakeUnits (s.cs c))).setCs c 0).useStep (.wake c)

/-! ### Clock, voltage and heat (R508 to R510, R522) -/

/-- The hottest sensor of the module counts a thermal cycle at 85 °C after 45 °C or below (R522). -/
def State.thermalCycle (s : State) (t : Nat) : State :=
  if 85 ≤ t ∧ s.hb.cold = true then (s.lifeInc 0x18 32 16).modHb (fun h => { h with cold := false })
  else if t ≤ 45 then s.modHb (fun h => { h with cold := true })
  else s

/-- The adjustment of a quire's LEVEL at a gathering edge by its hottest sensor. A rise of a clock at which every core sleeps is no step, and waits
for its voltage like any other (R495, R509). -/
def State.levelAdjust (s : State) (n t : Nat) : State :=
  let s1 := s.setF (HB_QSTATUSn.TMAX n) t
  let l := s1.f (HB_QSTATUSn.LEVEL n)
  let busy := s1.stepPosted (.level n true) || s1.stepPosted (.level n false)
  let cool := decide (t + s1.f HB_THERM.HYST ≤ s1.f HB_THERM.THROTTLE)
  let s2 := if cool then s1.modHb (fun h => { h with emergency := h.emergency.filter (· ≠ n) }) else s1
  if busy then s2
  else if s2.f HB_THERM.THROTTLE ≤ t then
    if l = 16 then s2
    else if s2.awake n = 0 then s2.takeStep (.level n false)
    else s2.postStep (.level n false) 3 0
  else if cool && decide (l ≠ 0) then
    (if s2.awake n = 0 then s2.postReservation (.level n true) 4 0 0 else s2.postStep (.level n true) 4 0)
  else s2

/-- A sensor at or above EMERG drives its quire's LEVEL to 16 in downward steps of class 2. -/
def State.thermalEmergency (s : State) (n : Nat) : State :=
  if s.hb.emergency.contains n then s
  else
    let s1 := ((s.raise HB_ALARM.THERM_EMERG).modHb (fun h => { h with emergency := n :: h.emergency })).dropSteps
      (fun w => decide (w = .level n true) || decide (w = .level n false))
    let k := 16 - s1.f (HB_QSTATUSn.LEVEL n)
    if s1.awake n = 0 then (List.range k).foldl (fun a _ => a.takeStep (.level n false)) s1
    else (List.range k).foldl (fun a _ => a.postStep (.level n false) 2 0) s1

/-! ### Droop (R511, R512) -/

/-- The location of a droop domain, and its number of fields. -/
def State.droopLoc (s : State) (d : Nat) : Loc × Nat :=
  if d < 24 then ({ module := s.moduleNo, die := d / 6, quire := d % 6 }, 3)
  else ({ module := s.moduleNo, die := d - 24, quire := 0 }, 2)

/-- A droop detector fires, `mv` below the set point. -/
def State.droop (s : State) (d mv : Nat) : State :=
  let s1 := if d < 24 then s.incF (HB_QSTATUSn.DROOPS d) else s.incF (HB_DIEd_DROOPS.DROOPS (d - 24))
  let old := s.hb.droops.get {} d
  let new : DroopRun :=
    { firings := old.firings + 1, first := if old.firings = 0 then s.count else old.first, last := s.count,
      deepest := max old.deepest mv }
  ((s1.raise HB_ALARM.DROOP).lifeInc (0x7300 + 8 * d) 0 64).modHb (fun h => { h with
    stretched := if h.stretched.contains d then h.stretched else d :: h.stretched
    droops := h.droops.set {} d new })

/-- The droop summaries of a gathering are logged at its end. -/
def State.droopSummary (s : State) : State :=
  let s1 := s.hb.droops.foldl (fun a (e : Nat × DroopRun) =>
    let (l, n) := a.droopLoc e.1
    a.logAt 0x0033 l n [e.2.firings, e.2.first, e.2.last, e.2.deepest]) s
  s1.modHb (fun h => { h with droops := [] })

/-! ### The commands -/

/-- WAKE. -/
def execWake (c : Nat) (s : State) : Host.Outcome State Fault Refusal := .next (s.running (s.wakeCore c))

/-- LEAF_CLOSE. -/
def execLeafClose (l : Nat) (s : State) : Host.Outcome State Fault Refusal := .next (s.onKeep (s.leafClose l))

/-- HOLD. -/
def execHold (k : Nat) (s : State) : Host.Outcome State Fault Refusal := .next (s.onKeep (s.holdLink k))

/-- STEP. -/
def execCurrentStep (s : State) : Host.Outcome State Fault Refusal := .next (s.running s.takeSteps)

/-- HB_RESTART. -/
def execHbRestart (s : State) : Host.Outcome State Fault Refusal := .next (s.onKeep s.ungrant.hbRestart)

/-- HB_RESTART_END: both copies are restarted, and granting resumes. -/
def execHbRestartEnd (s : State) : Host.Outcome State Fault Refusal :=
  .next (s.onKeep (s.modHb (fun h => { h with frozen := false })))

/-- PARK. -/
def execPark (c : Nat) (s : State) : Host.Outcome State Fault Refusal := .next (s.running (s.park c))

/-- GATE. -/
def execGate (c : Nat) (s : State) : Host.Outcome State Fault Refusal := .next (s.running (s.gate c))

/-- WAKE_COMPLETE. -/
def execWakeComplete (c : Nat) (s : State) : Host.Outcome State Fault Refusal := .next (s.running (s.wakeComplete c))

/-- LEVEL_ADJUST, at the edge that begins gathering g. -/
def execLevelAdjust (g n t : Nat) (s : State) : Host.Outcome State Fault Refusal :=
  .next (s.running ((s.untilLeaf (g * 1024)).levelAdjust n t))

/-- THERMAL_EMERGENCY. -/
def execThermalEmergency (n : Nat) (s : State) : Host.Outcome State Fault Refusal := .next (s.running (s.thermalEmergency n))

/-- THERMTRIP: every clock stops, THERMTRIP_N is asserted, and the module stops until a cold reset (R510). -/
def execThermtrip (s : State) : Host.Outcome State Fault Refusal :=
  .next (s.onKeep { s with stopped := true, thermtrip := true })

/-- DROOP, at count t. -/
def execDroop (d t mv : Nat) (s : State) : Host.Outcome State Fault Refusal := .next (s.running ((s.until t).droop d mv))

/-- DROOP_STRETCH_END. -/
def execDroopStretchEnd (d : Nat) (s : State) : Host.Outcome State Fault Refusal :=
  .next (s.running (s.modHb (fun h => { h with stretched := h.stretched.filter (· ≠ d) })))

/-- DROOP_SUMMARY, at the end of the gathering before g. -/
def execDroopSummary (g : Nat) (s : State) : Host.Outcome State Fault Refusal :=
  .next (s.onKeep (s.untilLeaf (g * 1024)).droopSummary)

/-- THERMAL_CYCLE: the hottest sensor of the module reads `t` °C. -/
def execThermalCycle (t : Nat) (s : State) : Host.Outcome State Fault Refusal := .next (s.onKeep (s.thermalCycle t))

end Sys2Proof.Machine
end

