-- ==== Sys2Proof/Machine/Csr.lean ====
section
/-! DEFINITION. The CSRs of a hart (R80 to R82, R92, R99, R100, R127, R475, R538): their banks, reset values, views and
legal values. Where the spec names the RISC-V standards for them, the standards give the layout (log entry 6). -/

namespace Sys2Proof.Machine

open Sys2Proof

/-! ### Bits -/

/-- Bits hi to lo of a word. -/
def wbits (w : Word) (hi lo : Nat) : Nat := w.toNat / 2 ^ lo % 2 ^ (hi + 1 - lo)

/-- A word with bits hi to lo set to a value. -/
def wput (w : Word) (hi lo v : Nat) : Word :=
  let m : Word := BitVec.ofNat 64 ((2 ^ (hi + 1 - lo) - 1) * 2 ^ lo)
  (w &&& ~~~m) ||| BitVec.ofNat 64 (v % 2 ^ (hi + 1 - lo) * 2 ^ lo)

/-- One bit of a word set to a truth value. -/
def wflag (w : Word) (b : Nat) (v : Bool) : Word := wput w b b (if v then 1 else 0)

/-- The new value where only the bits of a mask may be written. -/
def wmasked (old new : Word) (mask : Nat) : Word := (old &&& ~~~(BitVec.ofNat 64 mask)) ||| (new &&& BitVec.ofNat 64 mask)

/-! ### Raw access -/

/-- The reset value of a CSR (log entry 6). -/
def csrReset (a : Nat) : Word :=
  if a = 0x300 then 0xA00000000
  else if a = 0x200 then 0x200000000
  else if a = 0x600 then 0x200000000
  else if a = 0xC21 ∨ a = 0x1C21 then 0x8000000000000000
  else if a = 0x7B0 then 0x40000003
  else if 0x2000 ≤ a ∧ a < 0x2020 ∧ a % 4 = 0 then 0xF000000000000000
  else 0

/-- The key of a CSR in a hart's table, by the world of the access: the Endpaper bank lies 0x1000 above (R475). -/
def csrKey (world : Bool) (a : Nat) : Nat := if world && endpaperCsrs.contains a then a + 0x1000 else a

/-- A CSR as stored, in the bank of a world. -/
def Hart.csrIn (t : Hart) (world : Bool) (a : Nat) : Word := t.csr.get (csrReset (csrKey world a)) (csrKey world a)

/-- Store a CSR in the bank of a world. -/
def Hart.setCsrIn (t : Hart) (world : Bool) (a : Nat) (v : Word) : Hart :=
  { t with csr := t.csr.set (csrReset (csrKey world a)) (csrKey world a) v }

/-- A CSR as stored, in the bank of the hart's world. -/
def Hart.rd (t : Hart) (a : Nat) : Word := t.csrIn t.world a

/-- Store a CSR in the bank of the hart's world. -/
def Hart.wr (t : Hart) (a : Nat) (v : Word) : Hart := t.setCsrIn t.world a v

/-- A field of a CSR. -/
def Hart.fld (t : Hart) (a hi lo : Nat) : Nat := wbits (t.rd a) hi lo

/-- Set a field of a CSR. -/
def Hart.setFld (t : Hart) (a hi lo v : Nat) : Hart := t.wr a (wput (t.rd a) hi lo v)

/-- The tdata register n of trigger i. -/
def trigKey (i n : Nat) : Nat := 0x2000 + 4 * i + n

/-! ### Counters (R127, R128) -/

/-- Whether dcsr.stopcount stops the hart's counters: in debug mode (Sdext). -/
def Hart.stopsCounts (t : Hart) : Bool := decide (t.run = .debug) && (t.csrIn false 0x7B0).getLsbD 10

/-- Whether the hart's counters count now: in Endpaper, only with the non-invasive enable (R128). -/
def State.counting (s : State) (h : Nat) : Bool :=
  !(s.hart h).stopsCounts && (!(s.hart h).world || s.on ENDP_DEBUG.ENDP_NINV)

/-- Whether a counter counts in the hart's mode: its inhibit bits of Sscofpmf (bits 62 to 58: M, S, U, VS, VU) are clear. -/
def Hart.eventMode (t : Hart) (ev : Word) : Bool :=
  let b := if t.priv = 3 then 62 else if t.virt then (if t.priv = 1 then 59 else 58) else if t.priv = 1 then 61 else 60
  if b = 59 then !ev.getLsbD 59 else if b = 58 then !ev.getLsbD 58 else !ev.getLsbD b

/-- Whether counter i + 3 counts an event now: it selects the event, is not inhibited, and counts in the hart's mode. -/
def Hart.counts (t : Hart) (i ev : Nat) : Bool :=
  let e := t.csrIn false (0x323 + i)
  decide (wbits e 15 0 = ev ∧ ev ≠ 0) && !(t.csrIn false 0x320).getLsbD (3 + i) && t.eventMode e

/-- Counter i + 3 rises by n (R127): an overflow sets OF and, where OF was clear, LCOFIP. -/
def Hart.addCounter (t : Hart) (i n : Nat) : Hart :=
  let e := t.csrIn false (0x323 + i)
  let c := t.csrIn false (0xB03 + i)
  let t1 := t.setCsrIn false (0xB03 + i) (c + BitVec.ofNat 64 n)
  if 2 ^ 64 ≤ c.toNat + n ∧ e.getLsbD 63 = false then
    (t1.setCsrIn false (0x323 + i) (wflag e 63 true)).setCsrIn false 0x344 (wflag (t1.csrIn false 0x344) 13 true)
  else t1

/-- Add to the counters of a hart that count an event (R127). -/
def Hart.count (t : Hart) (ev n : Nat) : Hart :=
  (List.range 29).foldl (fun a i => if a.counts i ev then a.addCounter i n else a) t

/-- A performance event of a hart. -/
def State.event (s : State) (h ev n : Nat) : State := if s.counting h then s.modHart h (fun t => t.count ev n) else s

/-- The event codes of R127. -/
def eventCodes : List Nat :=
  [1, 2, 3, 4, 5, 6, 0x10, 0x11, 0x12, 0x13, 0x14, 0x15, 0x20, 0x21, 0x22, 0x30, 0x31, 0x32, 0x33]

/-- The events that count core cycles (R127): the model has no number of them (log entry 7). -/
def openEvents : List Nat := [2, 0x20, 0x31, 0x33]

/-- The misses of the L3 for a hart's requests are counted (R127). -/
def State.countL3 (s : State) (h : Nat) : State :=
  if (s.hart h).l3Miss = 0 then s else (s.modHart h (fun t => { t with l3Miss := 0 })).event h 0x14 (s.hart h).l3Miss

/-- The open events advance by free amounts while the hart's counters count, and misses of the L3 that came since are counted. -/
def State.tickOpen (s0 : State) (h : Nat) : State :=
  let s := s0.countL3 h
  if s.counting h then
    (List.range 29).foldl (fun a i =>
      if openEvents.any ((a.hart h).counts i) then
        let (v, a1) := a.draw
        a1.modHart h (fun t => t.addCounter i v.toNat)
      else a) s
  else s

/-- Whether mcycle counts now: it is not inhibited, and the hart's counters count (R128). -/
def State.cycling (s : State) (h : Nat) : Bool := s.counting h && !((s.hart h).csrIn false 0x320).getLsbD 0

/-- mcycle brought up to date: it has advanced by a free number of cycles where it counts (R81, R128). -/
def State.cycles (s : State) (h : Nat) : State :=
  if s.cycling h then
    let (v, s1) := s.draw
    s1.modHart h (fun t => t.setCsrIn false 0xB00 (t.csrIn false 0xB00 + v))
  else s

/-- Counters of cycles are brought up to date before they are stopped or given another event. -/
def State.settleCounts (s : State) (h : Nat) : State := (s.tickOpen h).cycles h

/-- What a write of mhpmeventN stores (R127): zero for an unlisted code or a reserved bit. -/
def eventValue (v : Word) : Word := if wbits v 57 16 ≠ 0 ∨ wbits v 15 0 ∉ eventCodes then 0 else v

/-! ### Interrupt files (R79, R81, R538) -/

/-- The top identity that an interrupt file delivers: enabled, pending, and below the threshold; 0: none. -/
def IntFile.top (f : IntFile) : Nat :=
  if f.delivery ≠ 1 then 0
  else
    let lim := if f.threshold = 0 then 256 else min 256 f.threshold.toNat
    ((List.range 256).find? (fun n => decide (n ≠ 0 ∧ n < lim) && f.pend.getLsbD n && f.enable.getLsbD n)).getD 0

/-- File f of a hart. -/
def Hart.file (t : Hart) (f : Nat) : IntFile := t.files.get {} f

/-- The guest file that hstatus.VGEIN selects; 0 when none. -/
def Hart.guestFile (t : Hart) : Nat :=
  let g := wbits (t.csrIn false 0x600) 17 12
  if g = 0 ∨ 7 < g then 0 else g + 1

/-- hgeip: the guest files that deliver, file g in bit g. -/
def Hart.hgeip (t : Hart) : Nat := (List.range 8).foldl (fun a g => if g ≠ 0 ∧ (t.file (g + 1)).top ≠ 0 then a + 2 ^ g else a) 0

/-- Whether S-mode's timer compares (menvcfg.STCE), and VS-mode's too. -/
def Hart.stce (t : Hart) : Bool := (t.csrIn false 0x30A).getLsbD 63
/-- Whether VS-mode's timer compares. -/
def Hart.vstce (t : Hart) : Bool := t.stce && (t.csrIn false 0x60A).getLsbD 63

/-- The pending interrupts of a hart as mip shows them, at a time count. -/
def Hart.mip (t : Hart) (time : Nat) : Nat :=
  let st := t.csrIn false 0x344
  let hv := t.csrIn false 0x645
  let bit (b : Nat) (v : Bool) : Nat := if v then 2 ^ b else 0
  bit 1 (st.getLsbD 1) + bit 2 (hv.getLsbD 2) +
  bit 5 (if t.stce then decide ((t.csrIn false 0x14D).toNat ≤ time) else st.getLsbD 5) +
  bit 6 (hv.getLsbD 6 || (t.vstce && decide ((t.csrIn false 0x24D).toNat ≤ (time + (t.csrIn false 0x605).toNat) % 2 ^ 64))) +
  bit 9 ((st.getLsbD 9 && !(t.csrIn false 0x308).getLsbD 9) || decide ((t.file 1).top ≠ 0)) +
  bit 10 (hv.getLsbD 10 || (decide (t.guestFile ≠ 0) && decide ((t.file t.guestFile).top ≠ 0))) +
  bit 11 (decide ((t.file 0).top ≠ 0)) +
  bit 12 (decide (t.hgeip &&& (t.csrIn false 0x607).toNat ≠ 0)) +
  bit 13 (st.getLsbD 13)

/-- The interrupts of a mode by the standard's default priority, highest first. -/
def intOrder : List Nat := [11, 3, 7, 9, 1, 5, 12, 10, 2, 6, 13]

/-- mideleg with the VS-level bits, which H fixes at one. -/
def Hart.mideleg (t : Hart) : Nat := (t.csrIn false 0x303).toNat &&& 0x2222 ||| 0x1444

/-- The S-level interrupts that mvien makes virtual: not delegated, and taken from mvip (AIA). -/
def Hart.mvirtual (t : Hart) : Nat := (t.csrIn false 0x308).toNat &&& 0x2202 &&& (0xFFFF ^^^ t.mideleg)

/-- The key under which a hart's table holds the bits of sie, and of vsie, that are apart from mie. -/
def sieKey : Nat := 0x3104
/-- The key of vsie's own bits. -/
def vsieKey : Nat := 0x3204

/-- What sip and sie show, with the VS-level bits: aliases of mip and mie where delegated, mvip and bits of their own where virtual. -/
def Hart.sipAll (t : Hart) (time : Nat) : Nat := (t.mip time &&& t.mideleg) ||| ((t.csrIn false 0x309).toNat &&& t.mvirtual)
def Hart.sieAll (t : Hart) : Nat := ((t.csrIn false 0x304).toNat &&& t.mideleg) ||| ((t.csrIn false sieKey).toNat &&& t.mvirtual)

/-- The interrupt 13 of VS-mode that hvien makes virtual: not delegated by hideleg, and taken from hvip. -/
def Hart.hvirtual (t : Hart) : Nat := (t.csrIn false 0x608).toNat &&& 0x2000 &&& (0xFFFF ^^^ (t.csrIn false 0x603).toNat)

/-- The interrupts that go to each level: pending, enabled and delegated so. -/
def Hart.levelInts (t : Hart) (time lvl : Nat) : Nat :=
  let hd := (t.csrIn false 0x603).toNat
  let s := t.sipAll time &&& t.sieAll
  if lvl = 0 then t.mip time &&& (t.csrIn false 0x304).toNat &&& (0xFFFF ^^^ t.mideleg)
  else if lvl = 1 then s &&& (0xFFFF ^^^ hd)
  else (s &&& hd) ||| ((t.csrIn false 0x645).toNat &&& (t.csrIn false vsieKey).toNat &&& t.hvirtual)

/-- The VS-level interrupt that comes first, by its number in VS-mode, and its priority number (AIA): the external one with its file's or
hvictl's priority, and beside it the one that hvictl.VTI injects or else the first of the others by default order (log entry 6). -/
def Hart.vsTop (t : Hart) (time : Nat) : Option (Nat × Nat) :=
  let l := t.levelInts time 2
  let c := t.csrIn false 0x609
  let ext : Option (Nat × Nat) :=
    if l.testBit 10 then
      some (9, if t.guestFile ≠ 0 ∧ (t.file t.guestFile).top ≠ 0 then (t.file t.guestFile).top
        else if wbits (t.csrIn false 0x600) 17 12 = 0 ∧ wbits c 27 16 = 9 ∧ wbits c 7 0 ≠ 0 then wbits c 7 0 else 256)
    else none
  if c.getLsbD 30 then
    (if wbits c 27 16 = 9 then ext
    else
      let p := wbits c 7 0
      let inj := (wbits c 27 16, if p = 0 ∧ c.getLsbD 9 then 255 else p)
      match ext with
      | none => some inj
      | some e =>
        if p = 0 then (if c.getLsbD 9 then some e else some inj)
        else if p < e.2 ∨ (p = e.2 ∧ c.getLsbD 9 = false) then some inj else some e)
  else
    match ext with
    | some e => some e
    | none => if l.testBit 2 then some (1, 0) else if l.testBit 6 then some (5, 0) else if l.testBit 13 then some (13, 255) else none

/-- The interrupt that the hart would take now: its level (0 M, 1 HS, 2 VS) and its number at that level. In Endpaper none is taken (R478).
No non-maskable interrupt ever arrives: the spec names none that raises one (DESIGN CHOICE, log entry 55). -/
def Hart.takeable (t : Hart) (time : Nat) : Option (Nat × Nat) :=
  if t.world then none
  else
    let mOn := decide (t.priv < 3) || (t.csrIn false 0x300).getLsbD 3
    let sOn := t.virt || decide (t.priv < 1) || (decide (t.priv = 1) && (t.csrIn false 0x300).getLsbD 1)
    let vOn := t.virt && (decide (t.priv < 1) || (decide (t.priv = 1) && (t.csrIn false 0x200).getLsbD 1))
    let pick (lvl : Nat) (on : Bool) : Option (Nat × Nat) :=
      if on then (intOrder.find? (fun b => (t.levelInts time lvl).testBit b)).map (fun b => (lvl, b)) else none
    match pick 0 mOn with
    | some r => some r
    | none =>
      match pick 1 (sOn && decide (t.priv < 3)) with
      | some r => some r
      | none => if vOn then (t.vsTop time).map (fun e => (2, e.1)) else none

/-! ### Reading -/

/-- The bits of mstatus that sstatus shows. -/
def sstatusMask : Nat := 0x80000003000DE762

/-- mstatus with SD. -/
def withSd (w : Word) : Word := wflag w 63 (decide (wbits w 14 13 = 3 ∨ wbits w 10 9 = 3))

/-- The fixed value of a read-only CSR (R80, R82). -/
def State.constCsr (s : State) (h a : Nat) : Option Word :=
  if a = 0x301 then some 0x8000000000B411AF
  else if a = 0xF11 then some 0x613
  else if a = 0xF12 then some 0x8000000000009624
  else if a = 0xF13 then some 0xB1
  else if a = 0xF14 then some (BitVec.ofNat 64 (s.moduleNo * 0x200 + h))
  else if a = 0xF15 then some 0
  else if a = 0xC22 then some 32
  else none

/-- A register of an interrupt file behind xireg; an odd or unlisted number reads none. -/
def IntFile.ireg (f : IntFile) (n : Nat) : Option Word :=
  if n = 0x70 then some f.delivery
  else if n = 0x72 then some f.threshold
  else if 0x80 ≤ n ∧ n < 0xC0 ∧ n % 2 = 0 then some (if n < 0x88 then (f.pend >>> (32 * (n - 0x80))).setWidth 64 else 0)
  else if 0xC0 ≤ n ∧ n < 0x100 ∧ n % 2 = 0 then some (if n < 0xC8 then (f.enable >>> (32 * (n - 0xC0))).setWidth 64 else 0)
  else none

/-- 256 bits with one 64-bit word replaced. -/
def putWord256 (v : BitVec 256) (i : Nat) (w : Word) : BitVec 256 :=
  (v &&& ~~~ BitVec.shiftLeft ((BitVec.allOnes 64).setWidth 256) (64 * i)) ||| BitVec.shiftLeft (w.setWidth 256) (64 * i)

/-- An interrupt file with a register behind xireg written. Identity 0 is never pending or enabled. -/
def IntFile.setIreg (f : IntFile) (n : Nat) (v : Word) : IntFile :=
  if n = 0x70 then { f with delivery := if v = 0 ∨ v = 1 then v else f.delivery }
  else if n = 0x72 then { f with threshold := BitVec.ofNat 64 (v.toNat % 256) }
  else if 0x80 ≤ n ∧ n < 0x88 then { f with pend := putWord256 f.pend ((n - 0x80) / 2) v &&& ~~~(1 : BitVec 256) }
  else if 0xC0 ≤ n ∧ n < 0xC8 then { f with enable := putWord256 f.enable ((n - 0xC0) / 2) v &&& ~~~(1 : BitVec 256) }
  else f

/-- xtopei: the top identity in both halves. -/
def topeiWord (f : IntFile) : Word := BitVec.ofNat 64 (f.top * 65536 + f.top)

/-- xtopi of a level: the highest interrupt of it, at default priority 1; vstopi with the priority number where hvictl.IPRIOM asks for it. -/
def Hart.topi (t : Hart) (time lvl : Nat) : Word :=
  if lvl = 2 then
    match t.vsTop time with
    | some (n, p) => BitVec.ofNat 64 (n * 65536 + if (t.csrIn false 0x609).getLsbD 8 then min p 255 else 1)
    | none => 0
  else
    match intOrder.find? (fun b => (t.levelInts time lvl).testBit b) with
    | some b => BitVec.ofNat 64 (b * 65536 + 1)
    | none => 0

/-- scountovf: the OF bits of the counters that mcounteren and, under virtualization, hcounteren show below M-mode. -/
def Hart.countovf (t : Hart) : Nat :=
  let shown := (if t.priv = 3 then 0xFFFFFFFF else (t.csrIn false 0x306).toNat) &&& (if t.virt then (t.csrIn false 0x606).toNat else 0xFFFFFFFF)
  ((List.range 29).foldl (fun a i => if (t.csrIn false (0x323 + i)).getLsbD 63 then a + 2 ^ (3 + i) else a) 0) &&& shown

/-- The bits that a level's environment or state-enable register may hold: none that the register above it clears (Smstateen, Svpbmt, Sstc). -/
def Hart.upperMask (t : Hart) (a : Nat) : Nat :=
  let m (k : Nat) : Nat := (t.csrIn false k).toNat
  if a = 0x60A then 0x3FFFFFFFFFFFFFFF ||| (m 0x30A &&& 0xC000000000000000)
  else if 0x60C ≤ a ∧ a ≤ 0x60F then m (a - 0x300)
  else if 0x10C ≤ a ∧ a ≤ 0x10F then (if t.virt then m (a + 0x200) &&& m (a + 0x500) else m (a + 0x200))
  else 0xFFFFFFFFFFFFFFFF

/-- mvip: mip's bits where mvien leaves them aliases (SSIP, STIP while it is writable, the software bit of SEIP), its own elsewhere. -/
def Hart.mvip (t : Hart) : Nat :=
  let st := (t.csrIn false 0x344).toNat
  let own := (t.csrIn false 0x309).toNat
  let mv := (t.csrIn false 0x308).toNat &&& 0x2202
  (own &&& mv) ||| (st &&& 0x202 &&& (0xFFFF ^^^ mv)) ||| (if t.stce then 0 else st &&& 0x20)

/-- The time count that a hart reads and compares with: its die's replica (R66). -/
def State.hartCount (s : State) (h : Nat) : Nat := s.dieCount (h / 96)

/-- The time count at which the replica of hart h's die holds `d`. -/
def State.countFor (s : State) (h d : Nat) : Nat := ((d : Int) - s.replicas.get 0 (h / 96)).toNat

/-- pmpaddr as it reads under a granularity of 4 KiB (R81). -/
def Hart.pmpaddrRead (t : Hart) (i : Nat) : Word :=
  let a := wbits (t.rd (0x3A0 + 2 * (i / 8))) (8 * (i % 8) + 4) (8 * (i % 8) + 3)
  let v := t.rd (0x3B0 + i)
  if 2 ≤ a then v ||| 0x1FF else v &&& ~~~(0x3FF : Word)

/-- What a CSR reads as; `a` is its address after VS-mode's redirection. mcycle has advanced by a free amount (log entry 7). -/
def State.csrRead (s : State) (h a : Nat) : State × Word :=
  let t := s.hart h
  let now := s.hartCount h
  match s.constCsr h a with
  | some v => (s, v)
  | none =>
    if a = 0xB00 ∨ a = 0xC00 then
      let s1 := s.cycles h
      (s1, (s1.hart h).csrIn false 0xB00)
    else if a = 0x015 then let (v, s1) := s.draw; (s1, BitVec.ofNat 64 (2 ^ 31 + v.toNat % 65536))
    else (s,
      if a = 0x001 then BitVec.ofNat 64 (t.fld 0x003 4 0)
      else if a = 0x002 then BitVec.ofNat 64 (t.fld 0x003 7 5)
      else if a = 0x00F then BitVec.ofNat 64 (t.fld 0x00A 1 0 * 2 + t.fld 0x009 0 0)
      else if a = 0x100 then withSd (t.rd 0x300) &&& BitVec.ofNat 64 sstatusMask
      else if a = 0x300 then withSd (t.rd 0x300)
      else if a = 0x200 then withSd (t.rd 0x200)
      else if a = 0x303 then BitVec.ofNat 64 t.mideleg
      else if a = 0x344 then BitVec.ofNat 64 (t.mip now)
      else if a = 0x144 then BitVec.ofNat 64 (t.sipAll now &&& 0x2222)
      else if a = 0x104 then BitVec.ofNat 64 (t.sieAll &&& 0x2222)
      else if a = 0x244 then
        BitVec.ofNat 64 ((t.sipAll now &&& (t.rd 0x603).toNat &&& 0x444) / 2 + (t.sipAll now &&& (t.rd 0x603).toNat &&& 0x2000) +
          ((t.rd 0x645).toNat &&& t.hvirtual))
      else if a = 0x204 then
        BitVec.ofNat 64 ((t.sieAll &&& (t.rd 0x603).toNat &&& 0x444) / 2 + (t.sieAll &&& (t.rd 0x603).toNat &&& 0x2000) +
          ((t.rd vsieKey).toNat &&& t.hvirtual))
      else if a = 0x309 then BitVec.ofNat 64 t.mvip
      else if a = 0x604 then BitVec.ofNat 64 ((t.rd 0x304).toNat &&& 0x1444)
      else if a = 0x644 then BitVec.ofNat 64 (t.mip now &&& 0x1444)
      else if a = 0xE12 then BitVec.ofNat 64 t.hgeip
      else if a = 0xC01 then BitVec.ofNat 64 (now + (if t.virt then (t.rd 0x605).toNat else 0))
      else if a = 0xC02 then t.rd 0xB02
      else if 0xC03 ≤ a ∧ a ≤ 0xC1F then t.rd (a - 0x100)
      else if a = 0xDA0 then BitVec.ofNat 64 t.countovf
      else if a = 0xFB0 then t.topi now 0
      else if a = 0xDB0 then t.topi now 1
      else if a = 0xEB0 then t.topi now 2
      else if a = 0x35C then topeiWord (t.file 0)
      else if a = 0x15C then topeiWord (t.file 1)
      else if a = 0x25C then (if t.guestFile = 0 then 0 else topeiWord (t.file t.guestFile))
      else if a = 0x351 then ((t.file 0).ireg (t.rd 0x350).toNat).getD 0
      else if a = 0x151 then ((t.file 1).ireg (t.rd 0x150).toNat).getD 0
      else if a = 0x251 then (if t.guestFile = 0 then 0 else ((t.file t.guestFile).ireg (t.rd 0x250).toNat).getD 0)
      else if 0x3B0 ≤ a ∧ a ≤ 0x3EF then t.pmpaddrRead (a - 0x3B0)
      else if 0x7A1 ≤ a ∧ a ≤ 0x7A3 then t.rd (trigKey (t.fld 0x7A0 2 0) (a - 0x7A1))
      else if a = 0x7A4 then 0x1008048
      else t.rd a &&& BitVec.ofNat 64 (t.upperMask a))

/-! ### Writing -/

/-- The bits of a CSR that a write may change, where it is no more than a mask (log entry 6). -/
def csrMask (a : Nat) : Option Nat :=
  if a = 0x008 then some 0xFF
  else if a = 0x009 then some 1
  else if a = 0x00A then some 3
  else if a = 0x106 ∨ a = 0x306 ∨ a = 0x606 then some 0xFFFFFFFF
  else if a = 0x302 then some 0x1F8B7FF
  else if a = 0x602 then some 0x100B1FF
  else if a = 0x303 then some 0x2222
  else if a = 0x603 then some 0x2444
  else if a = 0x304 then some 0x3EEE
  else if a = 0x607 then some 0xFE
  else if a = 0x645 then some 0x2444
  else if a = 0x320 then some 0xFFFFFFFD
  else if a = 0x141 ∨ a = 0x241 ∨ a = 0x341 then some 0xFFFFFFFFFFFFFFFE
  else if a = 0x308 then some 0x2202
  else if a = 0x608 then some 0x2000
  else if a = 0x609 then some 0x4FFF03FF
  else if a = 0x646 ∨ a = 0x647 then some 0
  else if a = 0x30C then some 0xDC00000000000001
  else if a = 0x60C then some 0xDC00000000000001
  else if a = 0x10C then some 1
  else if (0x30D ≤ a ∧ a ≤ 0x30F) ∨ (0x60D ≤ a ∧ a ≤ 0x60F) then some 0x8000000000000000
  else if 0x10D ≤ a ∧ a ≤ 0x10F then some 0
  else if a = 0x350 ∨ a = 0x150 ∨ a = 0x250 then some 0xFFF
  else if a = 0x7A0 then some 7
  else if a = 0x8C0 then some 31
    else none

/-- menvcfg, henvcfg or senvcfg with a written value: FIOM, CBIE (0b10 not selectable, R81), CBCFE, CBZE, PMM (0 and 2), and
above S-mode PBMTE and STCE. -/
def envcfgWrite (old v : Word) (upper : Bool) : Word :=
  let w1 := wmasked old v (if upper then 0xC0000000000000C1 else 0xC1)
  let w2 := if wbits v 5 4 = 2 then w1 else wput w1 5 4 (wbits v 5 4)
  if wbits v 33 32 = 0 ∨ wbits v 33 32 = 2 then wput w2 33 32 (wbits v 33 32) else w2

/-- dcsr: stoptime is not implemented, as `time` is one for the module (R66), and prv takes no reserved mode. -/
def dcsrWrite (old v : Word) : Word :=
  let w := wmasked old v 0x3BC24
  if wbits v 1 0 = 2 then w else wput w 1 0 (wbits v 1 0)

/-- xtvec: direct or vectored mode, which another MODE leaves as it is; the base is aligned to 4 or to 256 bytes (R81). -/
def tvecWrite (old v : Word) : Word :=
  if (if wbits v 1 0 < 2 then wbits v 1 0 else wbits old 1 0) = 1 then wput (wput v 7 0 0) 1 0 1 else wput v 1 0 0

/-- A translation mode that the hart has (R81). -/
def atpMode (m : Nat) : Bool := decide (m = 0 ∨ m = 8 ∨ m = 9 ∨ m = 10)

/-- satp, vsatp: a write with another mode changes nothing; the PPN has 40 bits. -/
def satpWrite (old v : Word) : Word := if atpMode (wbits v 63 60) then wput v 43 40 0 else old

/-- hgatp: VMID of 14 bits, the root aligned to 16 KiB; another MODE leaves MODE as it is, and the other fields are written. -/
def hgatpWrite (old v : Word) : Word :=
  wput (wput (wput (wput v 43 40 0) 59 58 0) 1 0 0) 63 60 (if atpMode (wbits v 63 60) then wbits v 63 60 else wbits old 63 60)

/-- mstatus with a written value. -/
def mstatusWrite (old v : Word) : Word :=
  let w := wmasked old v 0xC0007E67AA
  if wbits v 12 11 = 2 then w else wput w 12 11 (wbits v 12 11)

/-- mstatus of the Endpaper bank: M-mode and U-mode only (R475). -/
def endpaperStatus (old v : Word) : Word :=
  let w := wmasked old v 0x26688
  if wbits v 12 11 = 0 ∨ wbits v 12 11 = 3 then wput w 12 11 (wbits v 12 11) else w

/-- tdata1 with a written value (R81): mcontrol6 with the matches 0 to 3 on the address, and icount; dmode only from debug mode. Any
other type gives the disabled trigger. -/
def tdata1Write (debug : Bool) (old v : Word) : Word :=
  if old.getLsbD 59 && !debug then old
  else
    let d : Word := if debug then v &&& 0x800000000000000 else 0
    let act (hi lo : Nat) : Nat := if wbits v hi lo = 1 ∧ debug ∧ v.getLsbD 59 then 1 else 0
    if wbits v 63 60 = 6 then
      let w : Word := 0x6000000000000000 ||| d ||| (v &&& 0x180085F)
      let w1 := wput w 15 12 (act 15 12)
      if wbits v 10 7 ≤ 3 then wput w1 10 7 (wbits v 10 7) else w1
    else if wbits v 63 60 = 3 then wput (0x3000000000000000 ||| d ||| (v &&& 0x6FFFFC0)) 5 0 (act 5 0)
    else 0xF000000000000000 ||| d

/-- Whether Smepmp gives an entry execute permission for M-mode alone, or for all as a locked shared region. -/
def pmpNewExec (cfg : Nat) : Bool :=
  cfg.testBit 7 && (if cfg.testBit 2 then !(cfg.testBit 0 && cfg.testBit 1) else cfg.testBit 1 && !cfg.testBit 0)

/-- One byte of pmpcfg (R81): a locked entry and a reserved combination change nothing, nor under MML does one that adds such an executable
entry, unless RLB lifts it (Smepmp); NA4 leaves A unchanged. -/
def pmpcfgByte (mml rlb : Bool) (old new : Nat) : Nat :=
  if old.testBit 7 && !rlb then old
  else
    let n := new % 32 + (if new.testBit 7 then 128 else 0)
    let n1 := if n / 8 % 4 = 2 then n - n / 8 % 4 * 8 + old / 8 % 4 * 8 else n
    if (!mml && n1.testBit 1 && !n1.testBit 0) || (mml && !rlb && pmpNewExec n1) then old else n1

/-- pmpcfg 2j: eight entries. -/
def pmpcfgWrite (mml rlb : Bool) (old v : Word) : Word :=
  (List.range 8).foldl (fun w i => wput w (8 * i + 7) (8 * i) (pmpcfgByte mml rlb (wbits old (8 * i + 7) (8 * i)) (wbits v (8 * i + 7) (8 * i)))) old

/-- Whether the PMP address register i is locked, by its own entry or as the base of a locked TOR entry above it. -/
def Hart.pmpLocked (t : Hart) (i : Nat) : Bool :=
  let cfg (j : Nat) : Nat := wbits (t.rd (0x3A0 + 2 * (j / 8))) (8 * (j % 8) + 7) (8 * (j % 8))
  let rlb := (t.csrIn false 0x747).getLsbD 2
  !rlb && ((cfg i).testBit 7 || (decide (i < 63) && (cfg (i + 1)).testBit 7 && decide (cfg (i + 1) / 8 % 4 = 1)))

/-- Whether any PMP entry is locked. -/
def Hart.pmpAnyLocked (t : Hart) : Bool :=
  (List.range 64).any (fun i => (t.rd (0x3A0 + 2 * (i / 8))).getLsbD (8 * (i % 8) + 7))

/-- mseccfg with a written value: MML and MMWP stick, RLB stays clear while an entry is locked (Smepmp), and USEED and SSEED (R81). -/
def Hart.mseccfgWrite (t : Hart) (v : Word) : Word :=
  let old := t.rd 0x747
  let w := wmasked old v 0x300 ||| (v &&& 3)
  if !old.getLsbD 2 && t.pmpAnyLocked then w else wflag w 2 (v.getLsbD 2)

/-- A claim through xtopei: the top identity is no longer pending. -/
def IntFile.claim (f : IntFile) : IntFile := { f with pend := f.pend &&& ~~~ BitVec.shiftLeft (1 : BitVec 256) f.top }

/-- Change a file of a hart. -/
def Hart.modFile (t : Hart) (n : Nat) (g : IntFile → IntFile) : Hart := { t with files := t.files.set {} n (g (t.file n)) }

/-- Bits of mip that a write reaches. -/
def Hart.writeMip (t : Hart) (v : Word) (mask : Nat) : Hart :=
  let m0 := if t.stce then mask &&& 0x2202 else mask &&& 0x2222
  let m := if (t.csrIn false 0x308).getLsbD 9 then m0 &&& 0x2022 else m0
  let t1 := t.wr 0x344 (wmasked (t.rd 0x344) v m)
  if mask.testBit 2 then t1.wr 0x645 (wmasked (t1.rd 0x645) v 4) else t1

/-- Write a CSR under its WARL rules; `a` is its address after VS-mode's redirection. -/
def Hart.csrWrite (t : Hart) (a : Nat) (v : Word) : Hart :=
  if a = 0x301 ∨ 0xF11 ≤ a ∨ a = 0x015 ∨ 0xC00 ≤ a then t
  else if a = 0x001 then t.setFld 0x003 4 0 (wbits v 4 0)
  else if a = 0x002 then t.setFld 0x003 7 5 (wbits v 2 0)
  else if a = 0x003 then t.wr 0x003 (wput 0 7 0 (wbits v 7 0))
  else if a = 0x00F then (t.setFld 0x00A 1 0 (wbits v 2 1)).setFld 0x009 0 0 (wbits v 0 0)
  else if a = 0x300 then t.wr 0x300 (if t.world then endpaperStatus (t.rd 0x300) v else mstatusWrite (t.rd 0x300) v)
  else if a = 0x100 then t.wr 0x300 (wmasked (t.rd 0x300) v 0xC6722)
  else if a = 0x200 then t.wr 0x200 (wmasked (t.rd 0x200) v 0xC6722)
  else if a = 0x600 then
    let w := wmasked (t.rd 0x600) v 0x7003C0
    let w1 := if wbits v 17 12 ≤ 7 then wput w 17 12 (wbits v 17 12) else w
    t.wr 0x600 (if wbits v 49 48 = 0 ∨ wbits v 49 48 = 2 then wput w1 49 48 (wbits v 49 48) else w1)
  else if a = 0x305 ∨ a = 0x105 ∨ a = 0x205 then t.wr a (tvecWrite (t.rd a) v)
  else if a = 0x30A then t.wr a (envcfgWrite (t.rd a) v true)
  else if a = 0x60A then t.wr a (wmasked (t.rd a) (envcfgWrite (t.rd a) v true) (t.upperMask a))
  else if a = 0x10A then t.wr a (envcfgWrite (t.rd a) v false)
  else if a = 0x180 ∨ a = 0x280 then t.wr a (satpWrite (t.rd a) v)
  else if a = 0x680 then t.wr a (hgatpWrite (t.rd a) v)
  else if a = 0x344 then t.writeMip v 0x2226
  else if a = 0x144 then
    let t1 := t.writeMip v (t.mideleg &&& 0x2002)
    t1.wr 0x309 (wmasked (t1.rd 0x309) v (t.mvirtual &&& 0x2002))
  else if a = 0x309 then
    let mv := (t.rd 0x308).toNat &&& 0x2202
    let t1 := t.writeMip v (0x222 &&& (0xFFFF ^^^ mv))
    t1.wr 0x309 (wmasked (t1.rd 0x309) v mv)
  else if a = 0x244 then
    let hd := (t.rd 0x603).toNat
    let t1 := t.wr 0x645 (wmasked (t.rd 0x645) (BitVec.ofNat 64 (wbits v 1 1 * 4 + wbits v 13 13 * 2 ^ 13)) ((hd &&& 4) ||| t.hvirtual))
    if hd.testBit 13 then
      (t1.writeMip v (t.mideleg &&& 0x2000)).setCsrIn false 0x309 (wmasked (t1.rd 0x309) v (t.mvirtual &&& 0x2000))
    else t1
  else if a = 0x644 then t.wr 0x645 (wmasked (t.rd 0x645) v 4)
  else if a = 0x645 then t.wr 0x645 (wmasked (t.rd 0x645) v (0x444 ||| ((t.rd 0x608).toNat &&& 0x2000)))
  else if a = 0x104 then
    (t.wr 0x304 (wmasked (t.rd 0x304) v (t.mideleg &&& 0x2222))).wr sieKey (wmasked (t.rd sieKey) v t.mvirtual)
  else if a = 0x604 then t.wr 0x304 (wmasked (t.rd 0x304) v 0x1444)
  else if a = 0x204 then
    let hd := (t.rd 0x603).toNat
    let t1 := t.wr 0x304 (wmasked (t.rd 0x304) (BitVec.ofNat 64 ((v.toNat &&& 0x222) * 2 + (v.toNat &&& 0x2000))) (hd &&& t.mideleg &&& 0x2444))
    (t1.wr sieKey (wmasked (t1.rd sieKey) v (hd &&& t.mvirtual &&& 0x2000))).wr vsieKey (wmasked (t1.rd vsieKey) v t.hvirtual)
  else if 0x323 ≤ a ∧ a ≤ 0x33F then t.setCsrIn false a (eventValue v)
  else if 0x3A0 ≤ a ∧ a ≤ 0x3AF then
    t.wr a (pmpcfgWrite ((t.csrIn false 0x747).getLsbD 0) ((t.csrIn false 0x747).getLsbD 2) (t.rd a) v)
  else if 0x3B0 ≤ a ∧ a ≤ 0x3EF then if t.pmpLocked (a - 0x3B0) then t else t.wr a (BitVec.ofNat 64 (v.toNat % 2 ^ 50))
  else if a = 0x747 then
    t.wr 0x747 (t.mseccfgWrite v)
  else if a = 0x351 then t.modFile 0 (fun f => f.setIreg (t.rd 0x350).toNat v)
  else if a = 0x151 then t.modFile 1 (fun f => f.setIreg (t.rd 0x150).toNat v)
  else if a = 0x251 then if t.guestFile = 0 then t else t.modFile t.guestFile (fun f => f.setIreg (t.rd 0x250).toNat v)
  else if a = 0x35C then t.modFile 0 IntFile.claim
  else if a = 0x15C then t.modFile 1 IntFile.claim
  else if a = 0x25C then if t.guestFile = 0 then t else t.modFile t.guestFile IntFile.claim
  else if 0x7A1 ≤ a ∧ a ≤ 0x7A3 then
    let k := trigKey (t.fld 0x7A0 2 0) (a - 0x7A1)
    if a = 0x7A1 then t.wr k (tdata1Write (decide (t.run = .debug)) (t.rd k) v)
    else if (t.rd (trigKey (t.fld 0x7A0 2 0) 0)).getLsbD 59 ∧ t.run ≠ .debug then t
    else t.wr k (if a = 0x7A3 then 0 else v)
  else if a = 0x7A4 then t
  else if a = 0x7B0 then t.wr a (dcsrWrite (t.rd a) v)
  else
    match csrMask a with
    | some m => t.wr a (wmasked (t.rd a) v (m &&& t.upperMask a))
    | none => t.wr a v

/-! ### Who may access a CSR -/

/-- What an access to a CSR comes to: allowed, illegal instruction (cause 2), or virtual instruction (cause 22). -/
inductive CsrCheck where
  | ok
  | illegal
  | virtual
deriving DecidableEq, Repr

/-- The S-level CSRs that VS-mode finds in their place. -/
def vsRedirect (a : Nat) : Nat :=
  if [0x100, 0x104, 0x105, 0x140, 0x141, 0x142, 0x143, 0x144, 0x14D, 0x150, 0x151, 0x15C, 0x180].contains a then a + 0x100
  else if a = 0xDB0 then 0xEB0 else a

/-- The address that an access reaches from the hart's mode. -/
def Hart.csrTarget (t : Hart) (a : Nat) : Nat := if t.virt then vsRedirect a else a

/-- A counter by the enables of the levels above. -/
def Hart.counterCheck (t : Hart) (b : Nat) : CsrCheck :=
  if t.world ∨ t.priv = 3 then .ok
  else if (t.rd 0x306).getLsbD b = false then .illegal
  else if t.virt ∧ (t.rd 0x606).getLsbD b = false then .virtual
  else if t.priv = 0 ∧ (t.rd 0x106).getLsbD b = false then (if t.virt then .virtual else .illegal)
  else .ok

/-- A bit of mstateen n and, below, of hstateen n. -/
def Hart.stateenBit (t : Hart) (n b : Nat) : CsrCheck :=
  if t.world ∨ t.priv = 3 then .ok
  else if (t.rd (0x30C + n)).getLsbD b = false then .illegal
  else if t.virt ∧ (t.rd (0x60C + n)).getLsbD b = false then .virtual
  else .ok

/-- A bit of mstateen0 and, below, of hstateen0 (R100). -/
def Hart.stateenCheck (t : Hart) (b : Nat) : CsrCheck := t.stateenBit 0 b

/-- agfte (R99, R100). -/
def Hart.agfteCheck (t : Hart) : CsrCheck :=
  if t.fld 0x300 14 13 = 0 then .illegal
  else
    match t.stateenCheck 0 with
    | .ok => if !t.world && decide (t.priv = 0) && !(t.rd 0x10C).getLsbD 0 then (if t.virt then .virtual else .illegal) else .ok
    | r => r

/-- The refusal of an access to a register of a guest: illegal in M-mode and HS-mode, a virtual-instruction exception in VS-mode. -/
def Hart.guestRefusal (t : Hart) : CsrCheck := if t.virt then .virtual else .illegal

/-- An access to the register that xiselect names, behind xireg (AIA): the priority array, which holds zeros, at even numbers; the interrupt
file, under its state-enable bit; any other number names none. Of a guest, only the file that VGEIN selects is there. -/
def Hart.iregCheck (t : Hart) (a : Nat) : CsrCheck :=
  let vs := decide (a = 0x251) || (decide (a = 0x151) && t.virt)
  let n := (t.rd (if vs then 0x250 else a - 1)).toNat
  let no : CsrCheck := if vs then t.guestRefusal else .illegal
  if 0x30 ≤ n ∧ n < 0x40 then (if vs ∨ n % 2 = 1 then no else .ok)
  else if ((({} : IntFile).ireg n).isNone) ∨ (vs ∧ t.guestFile = 0) then no
  else t.stateenCheck 58

/-- Whether the access may be made, but for an access from a virtualized mode to a register of a level above it (R92, R100, R475; the
standards' own conditions, log entry 6). -/
def Hart.csrLevel (t : Hart) (a : Nat) (write : Bool) : CsrCheck :=
  let lvl := a / 256 % 4
  if !(if t.world then endpaperCsr a else textCsr a) then .illegal
  else if a = 0x301 then .ok
  else if write && decide (a / 1024 = 3) then .illegal
  else if 0x7B0 ≤ a ∧ a ≤ 0x7B3 ∧ t.run ≠ .debug then .illegal
  else if t.world then
    (if t.priv < lvl then .illegal
     else if a = 0x8C0 then t.agfteCheck
     else if (a ≤ 3 ∨ a = 0x8C0) ∧ t.fld 0x300 14 13 = 0 then .illegal
     else if (a = 0x008 ∨ (0xC20 ≤ a ∧ a ≤ 0xC22)) ∧ t.fld 0x300 10 9 = 0 then .illegal
     else .ok)
  else if lvl = 3 ∧ t.priv < 3 then .illegal
  else if lvl = 2 ∧ a ≠ 0x8C0 ∧ t.priv < 1 then .illegal
  else if lvl = 1 ∧ t.priv < 1 then .illegal
  else if a ≤ 3 ∧ (t.fld 0x300 14 13 = 0 ∨ (t.virt ∧ t.fld 0x200 14 13 = 0)) then .illegal
  else if (a = 8 ∨ a = 9 ∨ a = 0xA ∨ a = 0xF ∨ (0xC20 ≤ a ∧ a ≤ 0xC22)) ∧
      (t.fld 0x300 10 9 = 0 ∨ (t.virt ∧ t.fld 0x200 10 9 = 0)) then .illegal
  else if a = 0x8C0 then t.agfteCheck
  else if 0xC00 ≤ a ∧ a ≤ 0xC1F then t.counterCheck (a - 0xC00)
  else if a = 0x180 ∧ t.priv = 1 ∧ t.virt = false ∧ (t.rd 0x300).getLsbD 20 then .illegal
  else if a = 0x180 ∧ t.virt ∧ (t.rd 0x600).getLsbD 20 then .virtual
  else if a = 0x680 ∧ t.priv = 1 ∧ (t.rd 0x300).getLsbD 20 then .illegal
  else if a = 0x14D ∧ t.priv < 3 ∧ (t.stce = false ∨ (t.rd 0x306).getLsbD 1 = false) then .illegal
  else if a = 0x14D ∧ t.virt ∧ (t.vstce = false ∨ (t.rd 0x606).getLsbD 1 = false) then .virtual
  else if a = 0x24D ∧ t.priv < 3 ∧ (t.stce = false ∨ (t.rd 0x306).getLsbD 1 = false) then .illegal
  else if a = 0x10A ∨ a = 0x60A then t.stateenCheck 62
  else if 0x10C ≤ a ∧ a ≤ 0x10F then t.stateenBit (a - 0x10C) 63
  else if 0x60C ≤ a ∧ a ≤ 0x60F then t.stateenBit (a - 0x60C) 63
  else if (a = 0x104 ∨ a = 0x144) ∧ t.virt ∧ (t.rd 0x609).getLsbD 30 then .virtual
  else if a = 0xDB0 ∨ a = 0xEB0 ∨ a = 0x608 ∨ a = 0x609 ∨ a = 0x646 ∨ a = 0x647 then t.stateenCheck 59
  else if a = 0x150 ∨ a = 0x250 then t.stateenCheck 60
  else if a = 0x151 ∨ a = 0x251 then (match t.stateenCheck 60 with | .ok => t.iregCheck a | r => r)
  else if a = 0x351 then t.iregCheck a
  else if a = 0x15C ∨ a = 0x25C then
    (match t.stateenCheck 58 with
    | .ok => if (a = 0x25C ∨ t.virt) ∧ t.guestFile = 0 then t.guestRefusal else .ok
    | r => r)
  else if a = 0x015 then
    (if !write then .illegal
     else if t.priv = 3 then .ok
     else if t.virt then (if (t.rd 0x747).getLsbD 9 then .virtual else .illegal)
     else if (t.rd 0x747).getLsbD (if t.priv = 1 then 9 else 8) then .ok else .illegal)
  else .ok

/-- The hart as it would be in HS-mode, TVM clear: what it may access there decides between the two exceptions of a guest. -/
def Hart.asHs (t : Hart) : Hart := { t.wr 0x300 (wflag (t.rd 0x300) 20 false) with priv := 1, virt := false }

/-- Whether the access may be made. From a virtualized mode, one to a hypervisor or VS-level register, or from VU-mode to a supervisor
register, is a virtual instruction where HS-mode may make it, and illegal otherwise. -/
def Hart.csrCheck (t : Hart) (a : Nat) (write : Bool) : CsrCheck :=
  let lvl := a / 256 % 4
  if !t.world && t.virt && decide (a ≠ 0x8C0 ∧ (lvl = 2 ∨ (lvl = 1 ∧ t.priv = 0))) then
    (match t.asHs.csrLevel a write with
    | .ok => .virtual
    | _ => .illegal)
  else t.csrLevel a write

end Sys2Proof.Machine
end

