-- ==== Sys2Proof/Machine/Trap.lean ====
section
/-! DEFINITION. What every hart instruction is written in: taking a trap, retiring, scrubbing the predictors, and crossing
between the worlds (R85, R90, R93, R95, R101, R104 to R107, R120, R476 to R481). Trap entry is that of the Privileged
Architecture 1.13, which R78 names (log entry 6). -/

namespace Sys2Proof.Machine

open Sys2Proof

/-! ### Predictors (R104, R116 to R120) -/

/-- The logical core of a hart. -/
def coreOf (h : Nat) : Nat := h / 2

/-- A logical core's own state. -/
def State.core (s : State) (c : Nat) : Core := s.cores.get {} c

/-- Change a logical core's own state. -/
def State.modCore (s : State) (c : Nat) (g : Core → Core) : State := { s with cores := s.cores.set {} c (g (s.core c)) }

/-- Whether a logical core is LOST. -/
def State.lostCore (s : State) (c : Nat) : Bool := decide (s.f (CPU_CORE_STATUSc.STATE c) = 3)

/-- Scrub the predictors that a mask names; zero names all (R104). Every scrub clears the hart's memory-dependence predictor (R125). -/
def State.scrub (s : State) (h mask : Nat) : State :=
  let m := if mask % 8 = 0 then 7 else mask % 8
  let s1 := if m.testBit 0 then s.modCore (coreOf h) (fun c => { c with base := [], short := [], long := [], chooser := [], rightShort := [], rightLong := [] }) else s
  let s2 := if m.testBit 1 then s1.modHart h (fun t => { t with ras := [] }) else s1
  let s3 := if m.testBit 2 then s2.modCore (coreOf h) (fun c => { c with btb := [], itb := [] }) else s2
  (s3.modHart h (fun t => { t with mdp := [] })).event h 0x30 1

/-! ### Reservations and waits -/

/-- The tile of a hart. -/
def State.tileOfHart (s : State) (h : Nat) : Nat := s.tileOfCore (coreOf h)

/-- The answers that a hart's constrained LR/SC sequence held are given once no such sequence is left (R178). -/
def State.freeHeld (s : State) (h : Nat) : State := s.freeTile (s.tileOfHart h)

/-- The hart's own reservation ends. -/
def State.dropReservation (s : State) (h : Nat) : State :=
  (s.modHart h (fun t => { t with resv := none, constrained := false })).freeHeld h

/-- An instruction retires: minstret and the event of retired instructions count it, and the count after a retry restart
(R134). -/
def State.retired (s : State) (h : Nat) : State :=
  let s1 := (s.tickOpen h).modHart h (fun t => { t with sinceRetry := min 64 (t.sinceRetry + 1), lastRetire := s.leaf })
  if s1.counting h then
    s1.modHart h (fun t =>
      let t1 := if (t.csrIn false 0x320).getLsbD 2 then t else t.setCsrIn false 0xB02 (t.csrIn false 0xB02 + 1)
      t1.count 1 1)
  else s1

/-- A wait in AGW ends with a code (R95), and the hart is runnable again; the instruction completes and counts as one (R97). -/
def State.endWait (s : State) (h code : Nat) : State :=
  let stop (rd : Nat) : State :=
    (((s.retired h).modHart h (fun t => { t.setX rd (BitVec.ofNat 64 code) with
      run := .running, resv := none, constrained := false, waitsOut := false, pc := t.pc + 4 })).freeHeld h).idleCore (coreOf h)
  match (s.hart h).run with
  | .agw _ rd => stop rd
  | .agwLost _ _ rd => stop rd
  | _ => s

/-! ### Traps -/

/-- The target of a trap vector. -/
def trapPc (tvec : Word) (int : Bool) (cause : Nat) : Word :=
  let base := wput tvec 1 0 0
  if int && decide (wbits tvec 1 0 = 1) then base + BitVec.ofNat 64 (4 * cause) else base

/-- mcause, scause and vscause. -/
def causeWord (int : Bool) (cause : Nat) : Word := BitVec.ofNat 64 (cause + if int then 2 ^ 63 else 0)

/-- A trap into M-mode of the hart's world. -/
def Hart.trapM (t : Hart) (int : Bool) (cause : Nat) (tval tval2 : Word) (gva : Bool) : Hart :=
  let ms := t.rd 0x300
  let w := wput (wput (wput ms 7 7 (wbits ms 3 3)) 3 3 0) 12 11 t.priv
  let w1 := if t.world then w else wflag (wflag w 39 t.virt) 38 gva
  let t1 := (((t.wr 0x300 w1).wr 0x341 t.pc).wr 0x342 (causeWord int cause)).wr 0x343 tval
  let t2 := if t.world then t1 else (t1.wr 0x34B tval2).wr 0x34A 0
  { t2 with priv := 3, virt := false, pc := trapPc (t.rd 0x305) int cause }

/-- A trap into HS-mode. -/
def Hart.trapHS (t : Hart) (int : Bool) (cause : Nat) (tval tval2 : Word) (gva : Bool) : Hart :=
  let ms := t.rd 0x300
  let w := wput (wput (wput ms 5 5 (wbits ms 1 1)) 1 1 0) 8 8 t.priv
  let hs := t.rd 0x600
  let hs1 := wflag (wflag hs 7 t.virt) 6 gva
  let hs2 := if t.virt then wput hs1 8 8 t.priv else hs1
  let t1 := ((((t.wr 0x300 w).wr 0x600 hs2).wr 0x141 t.pc).wr 0x142 (causeWord int cause)).wr 0x143 tval
  let t2 := (t1.wr 0x643 tval2).wr 0x64A 0
  { t2 with priv := 1, virt := false, pc := trapPc (t.rd 0x105) int cause }

/-- A trap into VS-mode; the number of an interrupt is that of VS-mode. -/
def Hart.trapVS (t : Hart) (int : Bool) (cause : Nat) (tval : Word) : Hart :=
  let ms := t.rd 0x200
  let w := wput (wput (wput ms 5 5 (wbits ms 1 1)) 1 1 0) 8 8 t.priv
  let t1 := (((t.wr 0x200 w).wr 0x241 t.pc).wr 0x242 (causeWord int cause)).wr 0x243 tval
  { t1 with priv := 1, pc := trapPc (t.rd 0x205) int cause }

/-- The level that takes an exception: 0 M, 1 HS, 2 VS. -/
def Hart.excLevel (t : Hart) (cause : Nat) : Nat :=
  if t.world ∨ t.priv = 3 ∨ (t.rd 0x302).getLsbD cause = false then 0
  else if t.virt ∧ (t.rd 0x602).getLsbD cause then 2
  else 1

/-- What a trap does beside the CSRs: the reservation is lost (R85), the hint is spent, and SCRUB_TRAP scrubs on a trap into M-mode, of either
world, or HS-mode. -/
def State.trapped (s : State) (h lvl : Nat) : State :=
  let s1 := (s.modHart h (fun t => { t with resv := none, constrained := false, ntl := 0, run := .running, io := none, waitsOut := false, resolved := false, fields := 0, atomic := none })).freeHeld h
  let s2 := if lvl < 2 ∧ s1.on (CPU_SPEC_CTLc.SCRUB_TRAP (coreOf h)) then s1.scrub h 5 else s1
  s2.idleCore (coreOf h)

/-! ### Worlds -/

/-- The registers that a return to the text world clears: every x but a0 to a3, every f and v (R106). -/
def Hart.clearForText (t : Hart) : Hart :=
  { t with x := t.x.filter (fun (e : Nat × Word) => decide (10 ≤ e.1 ∧ e.1 ≤ 13)), f := [], v := [] }

/-- The hart goes back to the text world after its AGE.CALL (R106), with the scrub. -/
def State.toText (s : State) (h : Nat) : State :=
  ((s.modHart h (fun t => { t.clearForText with
    world := false, priv := t.retPriv, virt := false, pc := t.retPc, resv := none, constrained := false, ntl := 0,
    run := .running, io := none, waitsOut := false, fields := 0, atomic := none, resolved := false })).freeHeld h).scrub h 0

/-- The hart's Endpaper fails: it leaves at once (R481), is counted, logged, and restarts or is disabled (R484). `why`: 1 HANG,
2 CRASH, 3 IMAGE; `cause`: the fault's mcause for a crash. -/
def State.leaveFailed (s : State) (h why cause : Nat) : State :=
  let s1 := s.toText h
  let s2 := s1.modHart h (fun t =>
    { (((t.setX 10 0xFFFFFFFFFFFFFFF0).setX 11 (BitVec.ofNat 64 why)).setX 12
      (if why = 2 then BitVec.ofNat 64 cause else 0)).setX 13 0 with enterLeaf := 0, skipLeaves := 0 })
  let s3 := ((s2.setF (ENDP_HARTn_STATUS.LAST_CAUSE h) why).setF (ENDP_HARTn_STATUS.STATE h) 4).setF (ENDP_KSn_CTL.BUSY h) 0
  if why = 1 then s3.raise ENDP_ALARM.HANG else if why = 2 then s3.raise ENDP_ALARM.CRASH else s3

/-- An exception: taken at its level; in Endpaper M-mode it is a crash (R479). -/
def State.exception (s : State) (h cause : Nat) (tval tval2 : Word) : State :=
  let t := s.hart h
  if t.world ∧ t.priv = 3 then s.leaveFailed h 2 cause
  else
    let lvl := t.excLevel cause
    let gva := t.virt && decide (cause = 1 ∨ cause = 5 ∨ cause = 7 ∨ cause = 12 ∨ cause = 13 ∨ cause = 15 ∨ cause = 20 ∨
      cause = 21 ∨ cause = 23 ∨ cause = 0 ∨ cause = 4 ∨ cause = 6 ∨ (cause = 3 ∧ (tval ≠ 0 ∨ t.pc = 0)))
    (s.modHart h (fun t =>
      if lvl = 0 then t.trapM false cause tval tval2 gva
      else if lvl = 1 then t.trapHS false cause tval tval2 gva
      else t.trapVS false cause tval)).trapped h lvl

/-- An interrupt of a level is taken. -/
def State.interrupt (s : State) (h lvl n : Nat) : State :=
  (s.modHart h (fun t =>
    if lvl = 0 then t.trapM true n 0 0 false
    else if lvl = 1 then t.trapHS true n 0 0 false
    else t.trapVS true n 0)).trapped h lvl

/-- An illegal instruction (R90, R93): the bits go to xtval. -/
def State.illegal (s : State) (h bits : Nat) : State := s.exception h 2 (BitVec.ofNat 64 bits) 0

/-- What a CSR or privileged access raises. -/
def State.refuseCsr (s : State) (h bits : Nat) (c : CsrCheck) : State :=
  match c with
  | .virtual => s.exception h 22 (BitVec.ofNat 64 bits) 0
  | _ => s.illegal h bits

/-! ### Executing -/

/-- An instruction retires and the next one follows it. -/
def State.next (s : State) (h len : Nat) : State := (s.retired h).modHart h (fun t => { t with pc := t.pc + BitVec.ofNat 64 len })

/-- Whether a hart can execute now: its core runs, is awake, waits with no retry for an access (R133), and the hart waits for nothing but the end of a PAUSE, which the next
instruction shows to be over. -/
def State.runs (s : State) (h : Nat) : Bool :=
  decide ((s.hart h).run = .running ∨ (s.hart h).run = .paused) && decide (s.f (CPU_CORE_STATUSc.STATE (coreOf h)) < 2) && decide (s.cs (coreOf h) = 0) &&
    !(s.core (coreOf h)).retryDue

/-- Whether a hart has still to commit its atomic instruction `w`, whose line it has asked for: its core waits with a retry for it (R133), or is
failed, and its tile takes the answer (R140). -/
def State.owesAtomic (s : State) (h w : Nat) : Bool :=
  decide ((s.hart h).atomic = some w) && decide ((s.hart h).run = .running) &&
    ((decide (s.f (CPU_CORE_STATUSc.STATE (coreOf h)) < 2) && (s.core (coreOf h)).retryDue) ||
      (decide (s.f (CPU_CORE_STATUSc.STATE (coreOf h)) = 2) && (s.core (coreOf h)).takeover.any (fun k => !k.ready)))

end Sys2Proof.Machine
end

