-- ==== Sys2Proof/Machine/Stores.lean ====
section
/-! DEFINITION. How a tile reads and writes a line that it holds, and how retired stores reach memory (R112, R136, R150, R155,
R189). -/

namespace Sys2Proof.Machine

open Sys2Proof

/-- The data and poison of a line that the tile holds. -/
def Tile.lineData (t : Tile) (line : Nat) : Option (Line × Bool) := (t.holds line).map (fun e => (e.data, e.poison))

/-- The tile writes a line that it may write: in the L1 data copy where there is one, otherwise in the L2; the line is
Modified, and an instruction copy goes (R154, R155). -/
def Tile.writeLine (t : Tile) (line : Nat) (g : Line → Line) (clearPoison : Bool) : Tile :=
  let up : CLine → CLine := fun e =>
    { e with st := .modified, data := g e.data, poison := e.poison && !clearPoison }
  let t1 := { t with l1i := t.l1i.drop line }
  if (t1.l1d.find line).isSome then
    { t1 with l1d := t1.l1d.modify line up, l2 := t1.l2.modify line (fun e => { e with st := .modified, poison := e.poison && !clearPoison }) }
  else { t1 with l2 := t1.l2.modify line up }

/-- The other hart of a core loses its reservation of a line that this hart writes (R85). -/
def State.otherLoses (s : State) (h line : Nat) : State :=
  let o := if h % 2 = 0 then h + 1 else h - 1
  if (s.hart o).resv = some line then s.loseReservation o 0 else s

/-- The part of a retired store that lies in one line, as a 64-byte mask and data. -/
def RetiredStore.inLine (st : RetiredStore) (line : Nat) : BitVec 64 × Line :=
  (List.range 32).foldl (fun (acc : BitVec 64 × Line) i =>
    if st.mask.getLsbD i && decide ((st.addr + i) / 64 = line) then
      let o := (st.addr + i) % 64
      (acc.1 ||| BitVec.shiftLeft (1 : BitVec 64) o, lineSetByte acc.2 o ((st.data >>> (8 * i)).setWidth 8))
    else acc) (0, 0)

/-- The lines that a retired store reaches. -/
def RetiredStore.lines (st : RetiredStore) : List Nat :=
  if st.addr / 64 = (st.addr + 31) / 64 ∨ (st.inLine (st.addr / 64 + 1)).1 = 0 then [st.addr / 64]
  else if (st.inLine (st.addr / 64)).1 = 0 then [st.addr / 64 + 1]
  else [st.addr / 64, st.addr / 64 + 1]

/-- The world tag of a retired store, its non-temporal hint, and the virtual address by which the L1 data cache indexes a line of it: the
attributes hold the world in bit 0, virtual address bit 12 in bit 1, and the hint in bits 4 to 2 (R137; log entry 57). -/
def RetiredStore.world (st : RetiredStore) : Bool := st.attrs.getLsbD 0
/-- The hint of a retired store. -/
def RetiredStore.hint (st : RetiredStore) : Nat := st.attrs.toNat / 4 % 8
/-- The virtual address, as far as the L1 data cache's index needs it, of a line of a retired store. -/
def RetiredStore.va (st : RetiredStore) (line : Nat) : Nat := line % 64 * 64 + (if st.attrs.getLsbD 1 then 4096 else 0)

/-- Whether a request of a tile for a line is under way. -/
def State.asked (s : State) (t line : Nat) : Bool :=
  if s.ownLine line then (s.slice (s.homeSlice (line * 64))).stands (fun r => decide (r.line = line ∧ r.src = .tile s.moduleNo t))
  else (s.tile t).asks.any (fun a => decide (a.line = line))

/-- A hart's access that misses the L1 (but for `l1`) reaches the L2: its misses (0x12) and recalls (0x13) are counted (R127, R161). -/
def State.countReach (s : State) (t hart line : Nat) (world : Bool) : State :=
  let tag := s.tagMiss t line world
  let inL2 := ((s.tile t).l2.find line).isSome && !tag
  let recalled := !inL2 && !tag && (s.tile t).vb.any (fun e => decide (e.line = line))
  let missed := !inL2 && !s.asked t line && !(s.tile t).arrived.contains line
  let s1 := if missed then s.event hart 0x12 1 else s
  if recalled then s1.event hart 0x13 1 else s1

/-- A hart's access reaches the L2, and from there what holds the line; what its request missed in the L3 is counted. -/
def State.reach (s : State) (t hart line : Nat) (need : Need) (world : Bool) (hint : Nat) (l1 : Bool) : State × HoldResult :=
  match (s.countReach t hart line world).hold t hart line need world hint l1 [] with
  | (s1, r) => (s1.countL3 hart, r)

/-- An access that misses the L1 data (0x10) or instruction cache (0x11) is counted once (R127). -/
def State.l1Miss (s : State) (t hart line : Nat) (data l1 : Bool) : State :=
  if l1 || s.asked t line || (s.tile t).arrived.contains line then s else s.event hart (if data then 0x10 else 0x11) 1

/-- Whether a tile may write a line it holds. -/
def State.mayWrite (s : State) (t line : Nat) : Bool :=
  match (s.tile t).holds line with
  | some e => decide (e.st = .modified ∨ e.st = .exclusive) && ((s.tile t).l2.find line).isSome
  | none => false

/-- A tile writes part of a line for a retired store: the line is held in M or E and filled into the L1 data cache (R157); the answer is
whether it is done. A line that can no longer be reached has lost its store with its data (R187). -/
def State.performPart (s : State) (t h : Nat) (st : RetiredStore) (line : Nat) : State × Bool :=
  let (mask, d) := st.inLine line
  let l1 := s.l1Hit t true (st.va line) line st.world
  match (s.l1Miss t h line true l1).reach t h line .write st.world st.hint l1 with
  | (s1, .held) =>
    if s1.mayWrite t line then
      ((s1.modTile t (fun x => (x.fillL1 true (st.va line) line st.hint (s1.usable t .l1d)).writeLine line (fun old => lineMerge old d mask) false)).otherLoses
        h line, true)
    else (s1, false)
  | (s1, .waits) => (s1, false)
  | (s1, _) => (s1, true)

/-- Tile `t` performs a retired store for hart `h`: whether it is done; it is not while a line has still to be granted. -/
def State.performStore (s : State) (t h : Nat) (st : RetiredStore) : State × Bool :=
  st.lines.foldl (fun (acc : State × Bool) line => if acc.2 = false then acc else acc.1.performPart t h st line) (s, true)

/-- The retired stores of a hart are performed in their order, as far as they can be now (R136). -/
def State.drainList (s : State) (t h : Nat) : List RetiredStore → State
  | [] => s.modHart h (fun x => { x with stores := [] })
  | st :: rest =>
    match s.performStore t h st with
    | (s1, true) => s1.drainList t h rest
    | (s1, false) => s1.modHart h (fun x => { x with stores := st :: rest })

/-- Drain a hart's retired stores through its tile. -/
def State.drain (s : State) (h : Nat) : State :=
  if (s.hart h).stores.isEmpty then s else s.drainList (s.tileOfHart h) h (s.hart h).stores

end Sys2Proof.Machine
end

