-- ==== Sys2Proof/Machine/Vector.lean ====
section
/-! DEFINITION. The vector integer instructions (R78, R79, R81, R87, R92): the vector extension with VLEN = 256, Zvbb, Zvbc and Zvkng. Their
effects are those of the standards that the spec names (log entry 6). A result of none: the instruction is illegal as it stands. Agnostic
elements are left undisturbed (R81). -/

namespace Sys2Proof.Machine

open Sys2Proof

/-! ### Elements and groups -/

/-- What vtype, vl and vstart say: SEW, LMUL in eighths, vl, vstart. -/
structure VCtx where
  sew : Nat
  lm  : Nat
  vl  : Nat
  start : Nat
deriving DecidableEq, Repr

/-- LMUL in eighths by vlmul; 0 for the reserved code. -/
def lmulOf (c : Nat) : Nat := [8, 16, 32, 64, 0, 1, 2, 4].getD c 0

/-- The vector context, unless vtype is illegal. -/
def Hart.vctx (t : Hart) : Option VCtx :=
  let ty := t.rd 0xC21
  if ty.getLsbD 63 then none
  else some { sew := 8 * 2 ^ wbits ty 5 3, lm := lmulOf (wbits ty 2 0), vl := (t.rd 0xC20).toNat, start := t.fld 0x008 7 0 }

/-- VLMAX. -/
def VCtx.max (c : VCtx) : Nat := 32 * c.lm / c.sew

/-- Registers of a group of `lm` eighths, and whether a register may begin one. -/
def groupRegs (lm : Nat) : Nat := max 1 (lm / 8)
def groupOk (r lm : Nat) : Bool := decide (1 ≤ lm ∧ lm ≤ 64) && decide (r % groupRegs lm = 0)

/-- Whether two groups share a register. -/
def groupsMeet (a la b lb : Nat) : Bool := decide (a < b + groupRegs lb ∧ b < a + groupRegs la)

/-- Element `i` of a group. -/
def Hart.vget (t : Hart) (sew r i : Nat) : Nat :=
  (t.v.get 0 ((r + i * sew / 256) % 32)).toNat / 2 ^ (i * sew % 256) % 2 ^ sew

/-- Set element `i` of a group. -/
def Hart.vput (t : Hart) (sew r i x : Nat) : Hart :=
  let k := (r + i * sew / 256) % 32
  let o := i * sew % 256
  let m : BitVec 256 := BitVec.ofNat 256 ((2 ^ sew - 1) * 2 ^ o)
  { t with v := t.v.set 0 k ((t.v.get 0 k &&& ~~~m) ||| BitVec.ofNat 256 (x % 2 ^ sew * 2 ^ o)) }

/-- Bit `i` of a mask register, and its writing. -/
def Hart.vbit (t : Hart) (r i : Nat) : Bool := (t.v.get 0 r).getLsbD i
def Hart.vputBit (t : Hart) (r i : Nat) (b : Bool) : Hart := t.vput 1 r i (if b then 1 else 0)

/-- Whether element `i` is active. -/
def Hart.active (t : Hart) (vm : Bool) (i : Nat) : Bool := vm || t.vbit 0 i

/-- The element numbers from vstart to vl. -/
def VCtx.body (c : VCtx) : List Nat := (List.range (c.vl - c.start)).map (· + c.start)

/-- A unit's state is dirty: bits of mstatus, and of vsstatus under virtualization. -/
def Hart.dirty (t : Hart) (hi lo : Nat) : Hart :=
  let t1 := t.setFld 0x300 hi lo 3
  if t.virt then t1.setFld 0x200 hi lo 3 else t1

/-- Whether the vector unit is off. -/
def Hart.vsOff (t : Hart) : Bool := decide (t.fld 0x300 10 9 = 0) || (t.virt && decide (t.fld 0x200 10 9 = 0))

/-- A vector instruction ends: vstart is 0 and the vector state dirty. -/
def Hart.vdone (t : Hart) : Hart := (t.wr 0x008 0).dirty 10 9

/-- Write the active elements of the body. -/
def Hart.vmap (t : Hart) (c : VCtx) (vm : Bool) (sew vd : Nat) (g : Nat → Nat) : Hart :=
  c.body.foldl (fun a i => if t.active vm i then a.vput sew vd i (g i) else a) t

/-- Write the active elements, and set vxsat where one saturates. -/
def Hart.vmapSat (t : Hart) (c : VCtx) (vm : Bool) (sew vd : Nat) (g : Nat → Nat × Bool) : Hart :=
  let r := t.vmap c vm sew vd (fun i => (g i).1)
  if c.body.any (fun i => t.active vm i && (g i).2) then r.setFld 0x009 0 0 1 else r

/-- Write the active bits of a mask result. -/
def Hart.vmapBit (t : Hart) (c : VCtx) (vm : Bool) (vd : Nat) (g : Nat → Bool) : Hart :=
  c.body.foldl (fun a i => if t.active vm i then a.vputBit vd i (g i) else a) t

/-! ### vsetvli, vsetivli, vsetvl -/

/-- Whether a vtype is one of the encodings that the standard reserves (R92): a SEW above 64, LMUL code 4, or a bit above vma. -/
def vtypeReserved (ty : Nat) : Bool := decide (256 ≤ ty ∨ 3 < ty / 8 % 8 ∨ ty % 8 = 4)

/-- Set vl and vtype: the requested type, the AVL, and rd. For VLMAX < AVL < 2 × VLMAX, which the standard leaves to the implementation, vl is
VLMAX; with rd and rs1 x0 and another VLMAX, which the standard reserves, vill is set (both DESIGN CHOICE, log entry 55). -/
def Hart.vsetvl (t : Hart) (ty : Nat) (avl : Option Nat) (rd : Nat) : Hart :=
  let sew := 8 * 2 ^ (ty / 8 % 8)
  let lm := lmulOf (ty % 8)
  let vmax := 32 * lm / sew
  let same := match avl with
    | some _ => true
    | none => !((t.rd 0xC21).getLsbD 63) && decide (((t.rd 0xC21).toNat % 8, (t.rd 0xC21).toNat / 8 % 8) = (ty % 8, ty / 8 % 8) ∨
        32 * lmulOf ((t.rd 0xC21).toNat % 8) / (8 * 2 ^ ((t.rd 0xC21).toNat / 8 % 8)) = vmax)
  if vtypeReserved ty ∨ vmax = 0 ∨ 8 * lm < sew ∨ same = false then
    (((t.wr 0xC21 0x8000000000000000).wr 0xC20 0).setX rd 0).vdone
  else
    let vl := min (avl.getD (t.rd 0xC20).toNat) vmax
    (((t.wr 0xC21 (BitVec.ofNat 64 ty)).wr 0xC20 (BitVec.ofNat 64 vl)).setX rd (BitVec.ofNat 64 vl)).vdone

/-- The three encodings; a reserved vtype in the instruction itself is illegal (R92). -/
def Hart.execVset (t : Hart) (w : Nat) : Option Hart :=
  let rd := iRd w
  let rs1 := iRs1 w
  let avl : Option Nat := if rs1 ≠ 0 then some (t.getX rs1).toNat else if rd ≠ 0 then some (2 ^ 64) else none
  if w.testBit 31 = false then (if vtypeReserved (ib w 30 20) then none else some (t.vsetvl (ib w 30 20) avl rd))
  else if ib w 31 30 = 3 then (if vtypeReserved (ib w 29 20) then none else some (t.vsetvl (ib w 29 20) (some rs1) rd))
  else if iF7 w = 0x40 then some (t.vsetvl (t.getX (iRs2 w)).toNat avl rd)
  else none

/-! ### Element arithmetic -/

/-- An element as a signed number, and a number as an element. -/
def elem (sew : Nat) (v : Int) : Nat := (v % (2 ^ sew : Nat)).toNat

/-- Rounding of a value shifted right by `d`, by vxrm. -/
def roundOff (rm d : Nat) (v : Int) : Int :=
  let q := v / (2 ^ d : Nat)
  let r := (v % (2 ^ d : Nat)).toNat
  let h := decide (d ≠ 0) && r.testBit (d - 1)
  let up := match rm with
    | 0 => h
    | 1 => h && (decide (r % 2 ^ (d - 1) ≠ 0) || decide (q % 2 ≠ 0))
    | 3 => decide (r ≠ 0) && decide (q % 2 = 0)
    | _ => false
  q + if up then 1 else 0

/-- A value clipped to an unsigned or signed element. -/
def clip (signed : Bool) (sew : Nat) (v : Int) : Nat × Bool :=
  let lo : Int := if signed then -(2 ^ (sew - 1) : Nat) else 0
  let hi : Int := if signed then (2 ^ (sew - 1) : Nat) - 1 else (2 ^ sew : Nat) - 1
  if v < lo then (elem sew lo, true) else if hi < v then (elem sew hi, true) else (elem sew v, false)

/-- The OPI instructions of one width: vs2's element `a`, the other operand `b`; saturation. None: another kind of instruction. -/
def opiElem (f6 sew rm a b : Nat) : Option (Nat × Bool) :=
  let x := sgn sew a
  let y := sgn sew b
  let sh := b % sew
  let ok (v : Int) : Option (Nat × Bool) := some (elem sew v, false)
  match f6 with
  | 0x00 => ok (x + y)
  | 0x01 => some (a &&& (b ^^^ (2 ^ sew - 1)), false)
  | 0x02 => ok (x - y)
  | 0x03 => ok (y - x)
  | 0x04 => some (min a b, false)
  | 0x05 => ok (min x y)
  | 0x06 => some (max a b, false)
  | 0x07 => ok (max x y)
  | 0x09 => some (a &&& b, false)
  | 0x0A => some (a ||| b, false)
  | 0x0B => some (a ^^^ b, false)
  | 0x14 => some ((a * 2 ^ sew + a) / 2 ^ sh % 2 ^ sew, false)
  | 0x15 => some ((a * 2 ^ sew + a) / 2 ^ ((sew - sh) % sew) % 2 ^ sew, false)
  | 0x20 => some (clip false sew ((a : Int) + b))
  | 0x21 => some (clip true sew (x + y))
  | 0x22 => some (clip false sew ((a : Int) - b))
  | 0x23 => some (clip true sew (x - y))
  | 0x25 => some (a * 2 ^ sh % 2 ^ sew, false)
  | 0x27 => some (clip true sew (roundOff rm (sew - 1) (x * y)))
  | 0x28 => some (a / 2 ^ sh, false)
  | 0x29 => ok (x / (2 ^ sh : Nat))
  | 0x2A => ok (roundOff rm sh (a : Int))
  | 0x2B => ok (roundOff rm sh x)
  | _ => none

/-- The comparisons of OPI. -/
def opiCompare (f6 sew a b : Nat) : Option Bool :=
  let x := sgn sew a
  let y := sgn sew b
  match f6 with
  | 0x18 => some (a == b)
  | 0x19 => some (a != b)
  | 0x1A => some (decide (a < b))
  | 0x1B => some (decide (x < y))
  | 0x1C => some (decide (a ≤ b))
  | 0x1D => some (decide (x ≤ y))
  | 0x1E => some (decide (b < a))
  | 0x1F => some (decide (y < x))
  | _ => none

/-- Carry-less product of elements. -/
def clmulNat (a b : Nat) : Nat := (List.range 64).foldl (fun acc i => if b.testBit i then acc ^^^ (a * 2 ^ i) else acc) 0

/-- The OPM instructions of one width. -/
def opmElem (f6 sew rm a b d : Nat) : Option Nat :=
  let x := sgn sew a
  let y := sgn sew b
  let z := sgn sew d
  match f6 with
  | 0x08 => some (elem sew (roundOff rm 1 ((a : Int) + b)))
  | 0x09 => some (elem sew (roundOff rm 1 (x + y)))
  | 0x0A => some (elem sew (roundOff rm 1 ((a : Int) - b)))
  | 0x0B => some (elem sew (roundOff rm 1 (x - y)))
  | 0x0C => some (clmulNat a b % 2 ^ sew)
  | 0x0D => some (clmulNat a b / 2 ^ sew)
  | 0x20 => some (divU sew a b)
  | 0x21 => some (elem sew (divS sew x y))
  | 0x22 => some (remU a b)
  | 0x23 => some (elem sew (remS sew x y))
  | 0x24 => some (a * b / 2 ^ sew)
  | 0x25 => some (a * b % 2 ^ sew)
  | 0x26 => some (elem sew (x * (b : Int) / (2 ^ sew : Nat)))
  | 0x27 => some (elem sew (x * y / (2 ^ sew : Nat)))
  | 0x29 => some (elem sew (y * z + x))
  | 0x2B => some (elem sew (-(y * z) + x))
  | 0x2D => some (elem sew (y * x + z))
  | 0x2F => some (elem sew (-(y * x) + z))
  | _ => none

/-- The widening instructions of OPM: vs2 of the width (or, for the .w forms, of twice it), the other operand, the accumulator. -/
def opmWiden (f6 sew a b d : Nat) : Option Nat :=
  let w := 2 * sew
  let x := sgn sew a
  let y := sgn sew b
  let z := sgn w d
  match f6 with
  | 0x30 => some (a + b)
  | 0x31 => some (elem w (x + y))
  | 0x32 => some (elem w ((a : Int) - b))
  | 0x33 => some (elem w (x - y))
  | 0x34 => some (elem w ((a : Int) + b))
  | 0x35 => some (elem w (sgn w a + y))
  | 0x36 => some (elem w ((a : Int) - b))
  | 0x37 => some (elem w (sgn w a - y))
  | 0x38 => some (a * b)
  | 0x3A => some (elem w (x * (b : Int)))
  | 0x3B => some (elem w (x * y))
  | 0x3C => some (elem w ((a * b : Nat) + z))
  | 0x3D => some (elem w (x * y + z))
  | 0x3E => some (elem w (x * (b : Int) + z))
  | 0x3F => some (elem w ((a : Int) * y + z))
  | _ => none

/-- Whether a .w form reads vs2 at twice the width. -/
def wideSource (f6 : Nat) : Bool := decide (0x34 ≤ f6 ∧ f6 ≤ 0x37)

/-- The reductions of OPM. -/
def opmReduce (f6 sew a b : Nat) : Option Nat :=
  match f6 with
  | 0 => some ((a + b) % 2 ^ sew)
  | 1 => some (a &&& b)
  | 2 => some (a ||| b)
  | 3 => some (a ^^^ b)
  | 4 => some (min a b)
  | 5 => some (elem sew (min (sgn sew a) (sgn sew b)))
  | 6 => some (max a b)
  | 7 => some (elem sew (max (sgn sew a) (sgn sew b)))
  | _ => none

/-- The reductions: element 0 of vs1 with the active elements of vs2, into element 0 of vd. -/
def Hart.vreduce (t : Hart) (c : VCtx) (vm : Bool) (sew wide vd vs2 first : Nat) (g : Nat → Nat → Nat) : Hart :=
  if c.vl = 0 then t
  else t.vput wide vd 0 ((c.body.filter (t.active vm)).foldl (fun acc i => g acc (t.vget sew vs2 i)) first)

/-- The reversal of the bits of an element. -/
def revBits (n v : Nat) : Nat := (List.range n).foldl (fun a i => if v.testBit i then a + 2 ^ (n - 1 - i) else a) 0

/-- The one-operand instructions of VXUNARY0 at one width. -/
def opmUnary (k sew a : Nat) : Option Nat :=
  let bytes := (List.range (sew / 8)).map (fun i => a / 2 ^ (8 * i) % 256)
  let join (l : List Nat) : Nat := l.foldr (fun b acc => acc * 256 + b) 0
  match k with
  | 8 => some (join (bytes.map (revBits 8)))
  | 9 => some (join bytes.reverse)
  | 10 => some (revBits sew a)
  | 12 => some (countLz sew a)
  | 13 => some (countTz sew a)
  | 14 => some (countOnes sew a)
  | _ => none

/-! ### Instructions -/

/-- The operand beside vs2: a vector's element, x[rs1], or the immediate; `uns` the immediate unsigned. -/
def Hart.vsrc (t : Hart) (w sew : Nat) (uns : Bool) (i : Nat) : Nat :=
  match iF3 w with
  | 3 => if uns then iRs1 w else elem sew (sgn 5 (iRs1 w))
  | 4 => (t.getX (iRs1 w)).toNat % 2 ^ sew
  | 6 => (t.getX (iRs1 w)).toNat % 2 ^ sew
  | _ => t.vget sew (iRs1 w) i

/-- Whether the operand beside vs2 is a group that may begin where it does. -/
def vsrcOk (w lm : Nat) : Bool := decide (iF3 w = 3 ∨ iF3 w = 4 ∨ iF3 w = 5 ∨ iF3 w = 6) || groupOk (iRs1 w) lm

/-- A masked instruction may not write its mask, unless its result is a mask or a scalar. -/
def maskOk (w : Nat) : Bool := w.testBit 25 || decide (iRd w ≠ 0)

/-- Whether a destination of `ld` eighths may overlap a source of `ls` eighths of other width (the rule of overlapping groups). -/
def overlapOk (vd ld vs ls : Nat) : Bool :=
  !groupsMeet vd ld vs ls || decide (ld = ls) || (decide (ld < ls) && decide (vd = vs)) ||
    (decide (ls < ld ∧ 8 ≤ ls) && decide (vs + groupRegs ls = vd + groupRegs ld))

/-- A register group that an instruction reads, and the width at which it reads it; 1 for a mask. -/
structure VSrc where
  reg : Nat
  lm  : Nat
  eew : Nat
deriving DecidableEq, Repr

/-- The mask of a masked instruction as a source. -/
def maskSrc (w : Nat) : List VSrc := if w.testBit 25 then [] else [⟨0, 8, 1⟩]

/-- Whether no register provides operands of two widths, which the standard reserves (R92). -/
def srcsOk (l : List VSrc) : Bool :=
  l.all (fun a => l.all (fun b => decide (a.eew = b.eew) || !groupsMeet a.reg a.lm b.reg b.lm))

/-- The sources of an OPI instruction. -/
def opiSources (w : Nat) (c : VCtx) : List VSrc :=
  let f6 := ib w 31 26
  let vs2 (lm eew : Nat) : VSrc := ⟨iRs2 w, lm, eew⟩
  let vs1 (lm eew : Nat) : List VSrc := if iF3 w = 0 then [⟨iRs1 w, lm, eew⟩] else []
  if f6 = 0x0E then vs2 c.lm c.sew :: vs1 (16 * c.lm / c.sew) 16 ++ maskSrc w
  else if f6 = 0x30 ∨ f6 = 0x31 then vs2 c.lm c.sew :: vs1 8 (2 * c.sew) ++ maskSrc w
  else if 0x2C ≤ f6 ∧ f6 ≤ 0x2F then vs2 (2 * c.lm) (2 * c.sew) :: vs1 c.lm c.sew ++ maskSrc w
  else if f6 = 0x17 ∧ w.testBit 25 then vs1 c.lm c.sew
  else vs2 c.lm c.sew :: vs1 c.lm c.sew ++ maskSrc w

/-- An OPI instruction. -/
def Hart.execOpi (t : Hart) (w : Nat) : Option Hart := (t.vctx.filter (fun c => srcsOk (opiSources w c))).bind fun c =>
  let f6 := ib w 31 26
  let f3 := iF3 w
  let vm := w.testBit 25
  let vd := iRd w
  let vs2 := iRs2 w
  let sew := c.sew
  let one := groupOk vd c.lm && groupOk vs2 c.lm && vsrcOk w c.lm
  let imm := decide (f3 = 3)
  let src (uns : Bool) := t.vsrc w sew uns
  let rm := t.fld 0x00A 1 0
  match f6 with
  | 0x0C =>
    if !(one && maskOk w) || groupsMeet vd c.lm vs2 c.lm || (decide (f3 = 0) && groupsMeet vd c.lm (iRs1 w) c.lm) then none
    else
      let idx (i : Nat) : Nat := if f3 = 0 then t.vget sew (iRs1 w) i else if imm then iRs1 w else (t.getX (iRs1 w)).toNat
      some (t.vmap c vm sew vd (fun i => if idx i < c.max then t.vget sew vs2 (idx i) else 0)).vdone
  | 0x0E =>
    if f3 = 0 then
      let l1 := 16 * c.lm / sew
      if !(groupOk vd c.lm && groupOk vs2 c.lm && groupOk (iRs1 w) l1 && maskOk w) || decide (16 * c.lm % sew ≠ 0) ||
          groupsMeet vd c.lm vs2 c.lm || groupsMeet vd c.lm (iRs1 w) l1 then none
      else some (t.vmap c vm sew vd (fun i => if t.vget 16 (iRs1 w) i < c.max then t.vget sew vs2 (t.vget 16 (iRs1 w) i) else 0)).vdone
    else if !(groupOk vd c.lm && groupOk vs2 c.lm && maskOk w) || groupsMeet vd c.lm vs2 c.lm then none
    else
      let off := if imm then iRs1 w else (t.getX (iRs1 w)).toNat
      some ((({ c with start := max c.start off } : VCtx).body.foldl (fun (a : Hart) i => if t.active vm i then a.vput sew vd i (t.vget sew vs2 (i - off)) else a) t)).vdone
  | 0x0F =>
    if f3 = 0 ∨ !(groupOk vd c.lm && groupOk vs2 c.lm && maskOk w) then none
    else
      let off := if imm then iRs1 w else (t.getX (iRs1 w)).toNat
      some (t.vmap c vm sew vd (fun i => if i + off < c.max then t.vget sew vs2 (i + off) else 0)).vdone
  | 0x10 =>
    if vm ∨ vd = 0 ∨ !one then none
    else some (t.vmap c true sew vd (fun i => t.vget sew vs2 i + src false i + if t.vbit 0 i then 1 else 0)).vdone
  | 0x12 =>
    if vm ∨ vd = 0 ∨ imm ∨ !one then none
    else some (t.vmap c true sew vd (fun i => elem sew ((t.vget sew vs2 i : Int) - src false i - if t.vbit 0 i then 1 else 0))).vdone
  | 0x11 =>
    if !(groupOk vs2 c.lm && vsrcOk w c.lm && overlapOk vd 1 vs2 c.lm && (decide (f3 ≠ 0) || overlapOk vd 1 (iRs1 w) c.lm)) then none
    else some (t.vmapBit c true vd (fun i =>
      decide (2 ^ sew ≤ t.vget sew vs2 i + src false i + if !vm && t.vbit 0 i then 1 else 0))).vdone
  | 0x13 =>
    if imm ∨ !(groupOk vs2 c.lm && vsrcOk w c.lm && overlapOk vd 1 vs2 c.lm && (decide (f3 ≠ 0) || overlapOk vd 1 (iRs1 w) c.lm)) then none
    else some (t.vmapBit c true vd (fun i =>
      decide (t.vget sew vs2 i < src false i + if !vm && t.vbit 0 i then 1 else 0))).vdone
  | 0x17 =>
    if vm then (if vs2 ≠ 0 ∨ !(groupOk vd c.lm && vsrcOk w c.lm) then none else some (t.vmap c true sew vd (src false)).vdone)
    else if vd = 0 ∨ !one then none
    else some (t.vmap c true sew vd (fun i => if t.vbit 0 i then src false i else t.vget sew vs2 i)).vdone
  | 0x30 | 0x31 =>
    if f3 ≠ 0 ∨ sew = 64 ∨ c.start ≠ 0 ∨ !groupOk vs2 c.lm then none
    else some (t.vreduce c vm sew (2 * sew) vd vs2 (t.vget (2 * sew) (iRs1 w) 0)
      (fun acc x => elem (2 * sew) ((acc : Int) + if f6 = 0x31 then sgn sew x else (x : Int)))).vdone
  | 0x2C | 0x2D | 0x2E | 0x2F =>
    if sew = 64 ∨ !(groupOk vd c.lm && groupOk vs2 (2 * c.lm) && vsrcOk w c.lm && maskOk w && overlapOk vd c.lm vs2 (2 * c.lm)) then none
    else
      let sh (i : Nat) : Nat := (if imm then iRs1 w else if f3 = 4 then (t.getX (iRs1 w)).toNat else t.vget sew (iRs1 w) i) % (2 * sew)
      some (t.vmapSat c vm sew vd (fun i =>
        let x := t.vget (2 * sew) vs2 i
        match f6 with
        | 0x2C => (x / 2 ^ sh i % 2 ^ sew, false)
        | 0x2D => (elem sew (sgn (2 * sew) x / (2 ^ sh i : Nat)), false)
        | 0x2E => clip false sew (roundOff rm (sh i) (x : Int))
        | _ => clip true sew (roundOff rm (sh i) (sgn (2 * sew) x)))).vdone
  | 0x35 =>
    if sew = 64 ∨ !(groupOk vd (2 * c.lm) && groupOk vs2 c.lm && vsrcOk w c.lm && maskOk w && overlapOk vd (2 * c.lm) vs2 c.lm &&
        (decide (f3 ≠ 0) || overlapOk vd (2 * c.lm) (iRs1 w) c.lm)) then none
    else
      let sh (i : Nat) : Nat := (if imm then iRs1 w else if f3 = 4 then (t.getX (iRs1 w)).toNat else t.vget sew (iRs1 w) i) % (2 * sew)
      some (t.vmap c vm (2 * sew) vd (fun i => t.vget sew vs2 i * 2 ^ sh i)).vdone
  | _ =>
    if f6 = 0x27 ∧ imm then
      let n := iRs1 w + 1
      if !vm || !(decide (n = 1 ∨ n = 2 ∨ n = 4 ∨ n = 8)) || decide (vd % n ≠ 0 ∨ vs2 % n ≠ 0) then none
      else
        let c1 : VCtx := { sew := sew, lm := 8 * n, vl := 256 * n / sew, start := c.start }
        some (t.vmap c1 true sew vd (t.vget sew vs2)).vdone
    else if 0x18 ≤ f6 ∧ f6 ≤ 0x1F then
      if (imm ∧ (f6 = 0x1A ∨ f6 = 0x1B)) ∨ (f3 = 0 ∧ 0x1E ≤ f6) ∨ !(groupOk vs2 c.lm && vsrcOk w c.lm && overlapOk vd 1 vs2 c.lm &&
          (decide (f3 ≠ 0) || overlapOk vd 1 (iRs1 w) c.lm)) then none
      else some (t.vmapBit c vm vd (fun i => (opiCompare f6 sew (t.vget sew vs2 i) (src false i)).getD false)).vdone
    else
      let ror := imm && decide (f6 / 2 = 0x0A)
      let g := if ror then 0x14 else f6
      let noImm := imm && !ror && decide (f6 = 1 ∨ f6 = 2 ∨ (4 ≤ f6 ∧ f6 ≤ 7) ∨ f6 = 0x22 ∨ f6 = 0x23)
      if noImm ∨ (f3 = 0 ∧ f6 = 3) ∨ !(one && maskOk w) then none
      else if (opiElem g sew rm 0 0).isNone then none
      else
        let uns := decide (0x25 ≤ f6) || ror
        let b (i : Nat) : Nat := if ror then iRs1 w + f6 % 2 * 32 else src uns i
        some (t.vmapSat c vm sew vd (fun i => (opiElem g sew rm (t.vget sew vs2 i) (b i)).getD (0, false))).vdone

/-- The mask logic of OPM. -/
def maskLogic (f6 : Nat) (a b : Bool) : Option Bool :=
  match f6 with
  | 0x18 => some (a && !b)
  | 0x19 => some (a && b)
  | 0x1A => some (a || b)
  | 0x1B => some (a != b)
  | 0x1C => some (a || !b)
  | 0x1D => some (!(a && b))
  | 0x1E => some (!(a || b))
  | 0x1F => some (a == b)
  | _ => none

/-- The sources of an OPM instruction; a multiply-add reads its destination. -/
def opmSources (w : Nat) (c : VCtx) : List VSrc :=
  let f6 := ib w 31 26
  let vs2 (lm eew : Nat) : VSrc := ⟨iRs2 w, lm, eew⟩
  let vs1 : List VSrc := if iF3 w = 2 then [⟨iRs1 w, c.lm, c.sew⟩] else []
  if f6 < 8 then vs2 c.lm c.sew :: ⟨iRs1 w, 8, c.sew⟩ :: maskSrc w
  else if f6 = 0x0E ∨ f6 = 0x0F then vs2 c.lm c.sew :: maskSrc w
  else if f6 = 0x10 then (if iF3 w ≠ 2 then [] else if iRs1 w = 0 then [vs2 8 c.sew] else vs2 8 1 :: maskSrc w)
  else if f6 = 0x12 then
    (let f := [1, 1, 8, 8, 4, 4, 2, 2].getD (iRs1 w) 1
    vs2 (c.lm / f) (c.sew / f) :: maskSrc w)
  else if f6 = 0x14 then (if iRs1 w = 17 then maskSrc w else vs2 8 1 :: maskSrc w)
  else if f6 = 0x17 then [vs2 c.lm c.sew, ⟨iRs1 w, 8, 1⟩]
  else if 0x18 ≤ f6 ∧ f6 ≤ 0x1F then []
  else if 0x30 ≤ f6 then
    (let k := if wideSource f6 then 2 else 1
    vs2 (k * c.lm) (k * c.sew) :: vs1 ++ (if 0x3C ≤ f6 then [⟨iRd w, 2 * c.lm, 2 * c.sew⟩] else []) ++ maskSrc w)
  else vs2 c.lm c.sew :: vs1 ++ (if 0x29 ≤ f6 then [⟨iRd w, c.lm, c.sew⟩] else []) ++ maskSrc w

/-- An OPM instruction. -/
def Hart.execOpm (t : Hart) (w : Nat) : Option Hart := (t.vctx.filter (fun c => srcsOk (opmSources w c))).bind fun c =>
  let f6 := ib w 31 26
  let vv := decide (iF3 w = 2)
  let vm := w.testBit 25
  let vd := iRd w
  let vs2 := iRs2 w
  let vs1 := iRs1 w
  let sew := c.sew
  let one := groupOk vd c.lm && groupOk vs2 c.lm && vsrcOk w c.lm
  let rm := t.fld 0x00A 1 0
  if f6 < 8 then
    if !vv ∨ c.start ≠ 0 ∨ !groupOk vs2 c.lm then none
    else some (t.vreduce c vm sew sew vd vs2 (t.vget sew vs1 0) (fun a b => (opmReduce f6 sew a b).getD 0)).vdone
  else if f6 = 0x0E ∨ f6 = 0x0F then
    if vv ∨ !(groupOk vd c.lm && groupOk vs2 c.lm && maskOk w) ∨ (f6 = 0x0E ∧ groupsMeet vd c.lm vs2 c.lm = true) then none
    else
      let x := (t.getX vs1).toNat
      some (t.vmap c vm sew vd (fun i =>
        if f6 = 0x0E then (if i = 0 then x else t.vget sew vs2 (i - 1))
        else if i + 1 = c.vl then x else t.vget sew vs2 (i + 1))).vdone
  else if f6 = 0x10 then
    if vv then
      match vs1 with
      | 0 => if vm then some ((t.setX vd (word (sgn sew (t.vget sew vs2 0)))).vdone) else none
      | 16 => if c.start ≠ 0 then none
        else some ((t.setX vd (BitVec.ofNat 64 ((List.range c.vl).filter (fun i => t.active vm i && t.vbit vs2 i)).length)).vdone)
      | 17 => if c.start ≠ 0 then none
        else some ((t.setX vd (match (List.range c.vl).find? (fun i => t.active vm i && t.vbit vs2 i) with
          | some i => BitVec.ofNat 64 i
          | none => BitVec.allOnes 64)).vdone)
      | _ => none
    else if vs2 ≠ 0 ∨ vm = false then none
    else some ((if c.start < c.vl then t.vput sew vd 0 (t.getX vs1).toNat else t).vdone)
  else if f6 = 0x12 then
    if !vv then none
    else if vs1 < 8 then
      let f := [1, 1, 8, 8, 4, 4, 2, 2].getD vs1 1
      let ls := c.lm / f
      if f = 1 ∨ c.lm % f ≠ 0 ∨ sew / f < 8 ∨ !(groupOk vd c.lm && groupOk vs2 ls && maskOk w && overlapOk vd c.lm vs2 ls) then none
      else some (t.vmap c vm sew vd (fun i =>
        let x := t.vget (sew / f) vs2 i
        if vs1 % 2 = 1 then elem sew (sgn (sew / f) x) else x)).vdone
    else if !(groupOk vd c.lm && groupOk vs2 c.lm && maskOk w) ∨ (opmUnary vs1 sew 0).isNone then none
    else some (t.vmap c vm sew vd (fun i => (opmUnary vs1 sew (t.vget sew vs2 i)).getD 0)).vdone
  else if f6 = 0x14 then
    if !vv then none
    else if vs1 = 1 ∨ vs1 = 2 ∨ vs1 = 3 then
      if c.start ≠ 0 ∨ vd = vs2 ∨ (vm = false ∧ vd = 0) then none
      else
        let first := (List.range c.vl).find? (fun i => t.active vm i && t.vbit vs2 i)
        some (t.vmapBit c vm vd (fun i =>
          match first with
          | none => decide (vs1 ≠ 2)
          | some k => if vs1 = 1 then decide (i < k) else if vs1 = 2 then decide (i = k) else decide (i ≤ k))).vdone
    else if vs1 = 16 then
      if c.start ≠ 0 ∨ !(groupOk vd c.lm && maskOk w) ∨ groupsMeet vd c.lm vs2 8 = true then none
      else some (t.vmap c vm sew vd (fun i => ((List.range i).filter (fun k => t.active vm k && t.vbit vs2 k)).length)).vdone
    else if vs1 = 17 then
      if vs2 ≠ 0 ∨ !(groupOk vd c.lm && maskOk w) then none else some (t.vmap c vm sew vd id).vdone
    else none
  else if f6 = 0x17 then
    if !vv ∨ vm = false ∨ c.start ≠ 0 ∨ !(groupOk vd c.lm && groupOk vs2 c.lm) ∨ groupsMeet vd c.lm vs2 c.lm = true ∨
        groupsMeet vd c.lm vs1 8 = true then none
    else
      let l := (List.range c.vl).filter (fun i => t.vbit vs1 i)
      some (l.zipIdx.foldl (fun a (p : Nat × Nat) => a.vput sew vd p.2 (t.vget sew vs2 p.1)) t).vdone
  else if 0x18 ≤ f6 ∧ f6 ≤ 0x1F then
    if !vv ∨ vm = false then none
    else some (t.vmapBit c true vd (fun i => (maskLogic f6 (t.vbit vs2 i) (t.vbit vs1 i)).getD false)).vdone
  else if 0x30 ≤ f6 then
    let l2 := if wideSource f6 then 2 * c.lm else c.lm
    let s2 := if wideSource f6 then 2 * sew else sew
    if sew = 64 ∨ f6 = 0x39 ∨ (vv ∧ f6 = 0x3E) ∨ !(groupOk vd (2 * c.lm) && groupOk vs2 l2 && vsrcOk w c.lm && maskOk w &&
        overlapOk vd (2 * c.lm) vs2 l2 && (!vv || overlapOk vd (2 * c.lm) vs1 c.lm)) then none
    else
      -- vwmaccsu multiplies a signed vs1 by an unsigned vs2, vwmaccus the other way round
      some (t.vmap c vm (2 * sew) vd (fun i => (opmWiden f6 sew (t.vget s2 vs2 i) (t.vsrc w sew false i) (t.vget (2 * sew) vd i)).getD 0)).vdone
  else if (f6 = 0x0C ∨ f6 = 0x0D) ∧ sew ≠ 64 then none
  else if !(one && maskOk w) ∨ (opmElem f6 sew rm 0 0 0).isNone then none
  else some (t.vmap c vm sew vd (fun i => (opmElem f6 sew rm (t.vget sew vs2 i) (t.vsrc w sew false i) (t.vget sew vd i)).getD 0)).vdone

/-! ### Vector cryptography (Zvkng) -/

/-- The bytes of element group `g` of four 32-bit elements, and their writing. -/
def Hart.vgroup (t : Hart) (r g : Nat) : List Byte :=
  (List.range 16).map (fun i => BitVec.ofNat 8 (t.vget 8 r (16 * g + i)))
def Hart.vputGroup (t : Hart) (r g : Nat) (l : List Byte) : Hart :=
  l.zipIdx.foldl (fun a (p : Byte × Nat) => a.vput 8 r (16 * g + p.2) p.1.toNat) t

/-- The four or eight words of a group as numbers. -/
def Hart.vwords (t : Hart) (sew r g : Nat) : List Nat := (List.range 4).map (fun i => t.vget sew r (4 * g + i))
def Hart.vputWords (t : Hart) (sew r g : Nat) (l : List Nat) : Hart :=
  l.zipIdx.foldl (fun a (p : Nat × Nat) => a.vput sew r (4 * g + p.2) p.1) t

/-- Every bit of every byte reversed, as GHASH numbers bits. -/
def brev8All (l : List Byte) : List Byte := l.map revByte

/-- The product of GHASH on groups as the vector instructions order their bytes. -/
def vghashMul (a b : List Byte) : List Byte := beBytes 16 (ghashMul (blockNum a) (blockNum b)).toNat

/-- Message-schedule and compression of SHA-2 on groups of four words of `n` bits, word 0 lowest. -/
def sha2ms {n : Nat} (r : ShaRot) (d s2 s1 : List (BitVec n)) : List (BitVec n) :=
  let g (l : List (BitVec n)) (i : Nat) : BitVec n := l.getD i 0
  let w16 := shaSmall r.d (g s1 2) + g s2 1 + shaSmall r.c (g d 1) + g d 0
  let w17 := shaSmall r.d (g s1 3) + g s2 2 + shaSmall r.c (g d 2) + g d 1
  let w18 := shaSmall r.d w16 + g s2 3 + shaSmall r.c (g d 3) + g d 2
  let w19 := shaSmall r.d w17 + g s1 0 + shaSmall r.c (g s2 0) + g d 3
  [w16, w17, w18, w19]

/-- Two rounds: vs2 holds f, e, b, a and vd holds h, g, d, c, word 0 first; `kw` are two sums of message and constant. -/
def sha2c {n : Nat} (r : ShaRot) (d s2 : List (BitVec n)) (k0 k1 : BitVec n) : List (BitVec n) :=
  let g (l : List (BitVec n)) (i : Nat) : BitVec n := l.getD i 0
  let v := shaRound r (shaRound r [g s2 3, g s2 2, g d 3, g d 2, g s2 1, g s2 0, g d 1, g d 0] (k0, 0)) (k1, 0)
  [g v 5, g v 4, g v 1, g v 0]

/-- An OP-VE instruction. -/
def Hart.execOpve (t : Hart) (w : Nat) : Option Hart := t.vctx.bind fun c =>
  let f6 := ib w 31 26
  let vd := iRd w
  let vs2 := iRs2 w
  let k := iRs1 w
  let groups := (List.range (c.vl / 4 - c.start / 4)).map (· + c.start / 4)
  if iF3 w ≠ 2 ∨ w.testBit 25 = false ∨ c.vl % 4 ≠ 0 ∨ c.start % 4 ≠ 0 ∨ !groupOk vd c.lm ∨ 32 * c.lm < 4 * c.sew then none
  else if 0x2D ≤ f6 ∧ f6 ≤ 0x2F then
    if !(groupOk vs2 c.lm && groupOk k c.lm) ∨ groupsMeet vd c.lm vs2 c.lm = true ∨ groupsMeet vd c.lm k c.lm = true ∨
        ¬(c.sew = 32 ∨ c.sew = 64) then none
    else
      let run {n : Nat} (r : ShaRot) (g : Nat) : List Nat :=
        let rd (x : Nat) : List (BitVec n) := (t.vwords c.sew x g).map (BitVec.ofNat n)
        let m := rd k
        (if f6 = 0x2D then sha2ms r (rd vd) (rd vs2) m
         else if f6 = 0x2E then sha2c r (rd vd) (rd vs2) (m.getD 2 0) (m.getD 3 0)
         else sha2c r (rd vd) (rd vs2) (m.getD 0 0) (m.getD 1 0)).map BitVec.toNat
      some (groups.foldl (fun a g => a.vputWords c.sew vd g (if c.sew = 32 then run (n := 32) sha256Rot g else run (n := 64) sha512Rot g)) t).vdone
  else if c.sew ≠ 32 then none
  else
    let vs := decide (f6 = 0x29)
    let key (g : Nat) : List Byte := t.vgroup vs2 (if vs then 0 else g)
    let step (g : Nat) (f : List Byte → List Byte) : List Byte := f (t.vgroup vd g)
    let all (f : Nat → List Byte) : Option Hart := some (groups.foldl (fun a g => a.vputGroup vd g (f g)) t).vdone
    match f6 with
    | 0x28 | 0x29 =>
      if (vs ∧ groupsMeet vd c.lm vs2 8 = true) ∨ (vs = false ∧ groupOk vs2 c.lm = false) then none
      else
        match k with
        | 0 => all (fun g => step g (fun x => aesMix [14, 11, 13, 9] (xorBytes ((aesInvShiftRows x).map aesInvSub) (key g))))
        | 1 => all (fun g => step g (fun x => xorBytes ((aesInvShiftRows x).map aesInvSub) (key g)))
        | 2 => all (fun g => step g (fun x => xorBytes (aesMix [2, 3, 1, 1] (aesShiftRows (x.map aesSub))) (key g)))
        | 3 => all (fun g => step g (fun x => xorBytes (aesShiftRows (x.map aesSub)) (key g)))
        | 7 => if vs then all (fun g => step g (fun x => xorBytes x (key g))) else none
        | 17 => if vs then none else all (fun g => brev8All (vghashMul (brev8All (t.vgroup vd g)) (brev8All (t.vgroup vs2 g))))
        | _ => none
    | 0x2C =>
      if !(groupOk vs2 c.lm && groupOk k c.lm) then none
      else all (fun g => brev8All (vghashMul (brev8All (xorBytes (t.vgroup vd g) (t.vgroup k g))) (brev8All (t.vgroup vs2 g))))
    | 0x22 =>
      if !groupOk vs2 c.lm then none
      else
        let r0 := k % 16
        let r := (if r0 = 0 ∨ 10 < r0 then r0 ^^^ 8 else r0) - 1
        all (fun g =>
          let x := t.vgroup vs2 g
          let rc : Byte := [1, 2, 4, 8, 0x10, 0x20, 0x40, 0x80, 0x1B, 0x36].getD r 0
          let u := xorBytes (((x.drop 12).rotateLeft 1).map aesSub) [rc, 0, 0, 0]
          let w0 := xorBytes u (x.take 4)
          let w1 := xorBytes w0 ((x.drop 4).take 4)
          let w2 := xorBytes w1 ((x.drop 8).take 4)
          w0 ++ w1 ++ w2 ++ xorBytes w2 (x.drop 12))
    | 0x2A =>
      if !groupOk vs2 c.lm then none
      else
        let r0 := k % 16
        let r := if r0 < 2 ∨ 14 < r0 then r0 ^^^ 8 else r0
        all (fun g =>
          let x := t.vgroup vs2 g
          let d := t.vgroup vd g
          let rc : Byte := [1, 2, 4, 8, 0x10, 0x20, 0x40].getD (r / 2 - 1) 0
          let u := if r % 2 = 0 then xorBytes (((x.drop 12).rotateLeft 1).map aesSub) [rc, 0, 0, 0] else (x.drop 12).map aesSub
          let w0 := xorBytes u (d.take 4)
          let w1 := xorBytes w0 ((d.drop 4).take 4)
          let w2 := xorBytes w1 ((d.drop 8).take 4)
          w0 ++ w1 ++ w2 ++ xorBytes w2 (d.drop 12))
    | _ => none

end Sys2Proof.Machine
end

