-- ==== Sys2Proof/Machine/Float.lean ====
section
/-! DEFINITION. The floating-point instructions, scalar and vector (R78, R79, R88, R89, R101, R102). Their effects are those of the
standards that the spec names (log entry 6). -/

namespace Sys2Proof.Machine

open Sys2Proof

/-- What a floating-point instruction comes to: illegal, done, or an FP_TRAP with its xtval (R101). -/
inductive FpResult where
  | illegal
  | done (t : Hart)
  | trap (t : Hart) (tval : Nat)
deriving DecidableEq, Repr

/-! ### Registers and rounding -/

/-- A register read in a format: not NaN-boxed, it is the canonical NaN (R88). -/
def Hart.fget (t : Hart) (f : Fmt) (r : Nat) : Nat :=
  let v := (t.f.get 0 r).toNat
  if f.width = 64 ∨ v / 2 ^ f.width = 2 ^ (64 - f.width) - 1 then v % 2 ^ f.width else f.qnan

/-- A register written in a format, NaN-boxed; the floating-point state is dirty. -/
def Hart.fput (t : Hart) (f : Fmt) (r v : Nat) : Hart :=
  ({ t with f := t.f.set 0 r (BitVec.ofNat 64 (2 ^ 64 - 2 ^ f.width + v % 2 ^ f.width)) }).dirty 14 13

/-- Flags accrue in fflags. -/
def Hart.accrue (t : Hart) (flags : Nat) : Hart :=
  if flags = 0 then t else (t.setFld 0x003 4 0 (t.fld 0x003 4 0 ||| flags)).dirty 14 13

/-- The format that a 2-bit code names. -/
def fmtOf (c : Nat) : Option Fmt := if c = 0 then some single else if c = 1 then some double else if c = 2 then some half else none

/-- The format of vector elements. -/
def fmtSew (sew : Nat) : Option Fmt := if sew = 16 then some half else if sew = 32 then some single else if sew = 64 then some double else none

/-- The rounding mode of a field; none where it is not legal (R89). -/
def Hart.rmode (t : Hart) (f : Nat) : Option Nat :=
  let m := if f = 7 then t.fld 0x003 7 5 else f
  if m < 5 then some m else none

/-- Whether the floating-point unit is off. -/
def Hart.fsOff (t : Hart) : Bool := decide (t.fld 0x300 14 13 = 0) || (t.virt && decide (t.fld 0x200 14 13 = 0))

/-- The end of a scalar instruction: an enabled flag traps before anything is written (R101). -/
def Hart.fpEnd (t : Hart) (flags : Nat) (g : Hart → Hart) : FpResult :=
  if flags &&& t.fld 0x8C0 4 0 ≠ 0 then .trap t flags else .done ((g t).accrue flags)

/-! ### Scalar instructions -/

/-- The constants of FLI: significand and exponent; beyond them 0 is −1, 1 the least normal number, 30 infinity, 31 NaN. -/
def fliValue (k : Nat) : Nat × Int :=
  [(1, 0), (1, 0), (1, -16), (1, -15), (1, -8), (1, -7), (1, -4), (1, -3), (1, -2), (5, -4), (3, -3), (7, -4), (1, -1), (5, -3),
    (3, -2), (7, -3), (1, 0), (5, -2), (3, -1), (7, -2), (1, 1), (5, -1), (3, 0), (1, 2), (1, 3), (1, 4), (1, 7), (1, 8), (1, 15),
    (1, 16)].getD k (1, 0)

/-- FLI. -/
def Fmt.fli (f : Fmt) (k : Nat) : Nat :=
  if k = 0 then (f.round 0 true 1 0 false).1
  else if k = 1 then 2 ^ f.mb
  else if k = 30 then f.infinity false
  else if k = 31 then f.qnan
  else (f.round 0 false (fliValue k).1 (fliValue k).2 false).1

/-- Sign injection: 0 the sign of b, 1 its opposite, 2 the two signs combined. -/
def Fmt.sgnj (f : Fmt) (op a b : Nat) : Nat :=
  let s := b.testBit (f.eb + f.mb)
  let m := a % 2 ^ (f.eb + f.mb)
  f.signed (if op = 0 then s else if op = 1 then !s else s != a.testBit (f.eb + f.mb)) m

/-- An integer register as the source of a conversion: 0 W, 1 WU, 2 L, 3 LU. -/
def intSource (k : Nat) (v : Word) : Int :=
  if k = 0 then (low32 v).toInt else if k = 1 then ((low32 v).toNat : Int) else if k = 2 then v.toInt else (v.toNat : Int)

/-- A conversion to an integer register. -/
def Fmt.intResult (f : Fmt) (rm k a : Nat) : Word × Nat :=
  let (v, fl) := f.toInt rm (if k < 2 then 32 else 64) (decide (k % 2 = 0)) a
  (if k < 2 then wordW (BitVec.ofInt 32 v) else word v, fl)

/-- The fused multiply-adds: opcodes 43 MADD, 47 MSUB, 4B NMSUB, 4F NMADD. -/
def Hart.execFma (t : Hart) (w : Nat) : FpResult :=
  match fmtOf (ib w 26 25), t.rmode (iF3 w) with
  | some f, some rm =>
    let a := t.fget f (iRs1 w)
    let b := t.fget f (iRs2 w)
    let c := t.fget f (ib w 31 27)
    let a1 := if iOp w = 0x4B ∨ iOp w = 0x4F then f.neg a else a
    let c1 := if iOp w = 0x47 ∨ iOp w = 0x4F then f.neg c else c
    let r := f.fma rm a1 b c1
    t.fpEnd r.2 (fun x => x.fput f (iRd w) r.1)
  | _, _ => .illegal

/-- OP-FP. -/
def Hart.execOpFp (t : Hart) (w : Nat) : FpResult :=
  match fmtOf (ib w 26 25) with
  | none => .illegal
  | some f =>
    let rd := iRd w
    let k := iRs2 w
    let a := t.fget f (iRs1 w)
    let b := t.fget f k
    let f3 := iF3 w
    let put (r : Nat × Nat) : FpResult := t.fpEnd r.2 (fun x => x.fput f rd r.1)
    let rounded (g : Nat → Nat × Nat) : FpResult := match t.rmode f3 with | some rm => put (g rm) | none => .illegal
    let putX (r : Word × Nat) : FpResult := t.fpEnd r.2 (fun x => x.setX rd r.1)
    match ib w 31 27 with
    | 0x00 => rounded (fun rm => f.add rm a b)
    | 0x01 => rounded (fun rm => f.sub rm a b)
    | 0x02 => rounded (fun rm => f.mul rm a b)
    | 0x03 => rounded (fun rm => f.div rm a b)
    | 0x0B => if k = 0 then rounded (fun rm => f.sqrt rm a) else .illegal
    | 0x04 => if f3 < 3 then put (f.sgnj f3 a b, 0) else .illegal
    | 0x05 => if f3 < 4 then put (f.minmax (decide (f3 % 2 = 1)) (decide (2 ≤ f3)) a b) else .illegal
    | 0x08 =>
      if k = 4 then rounded (fun rm => f.integral rm false a)
      else if k = 5 then rounded (fun rm => f.integral rm true a)
      else
        match fmtOf k with
        | some g => if k = ib w 26 25 then .illegal else rounded (fun rm => g.convert f rm (t.fget g (iRs1 w)))
        | none => .illegal
    | 0x14 =>
      if f3 < 3 ∨ f3 = 4 ∨ f3 = 5 then
        let r := f.compare (f3 % 4) (decide (f3 = 2 ∨ 4 ≤ f3)) a b
        putX (if r.1 then 1 else 0, r.2)
      else .illegal
    | 0x18 =>
      if k = 8 ∧ ib w 26 25 = 1 then (if f3 = 1 then putX (word (fcvtmod a).1, (fcvtmod a).2) else .illegal)
      else if k < 4 then (match t.rmode f3 with | some rm => putX (f.intResult rm k a) | none => .illegal)
      else .illegal
    | 0x1A => if k < 4 then rounded (fun rm => f.ofInt rm (intSource k (t.getX (iRs1 w)))) else .illegal
    | 0x1C =>
      if k ≠ 0 then .illegal
      else if f3 = 0 then putX (word (sgn f.width (t.f.get 0 (iRs1 w)).toNat), 0)
      else if f3 = 1 then putX (BitVec.ofNat 64 (f.classify a), 0)
      else .illegal
    | 0x1E =>
      if f3 ≠ 0 then .illegal
      else if k = 0 then put ((t.getX (iRs1 w)).toNat, 0)
      else if k = 1 then put (f.fli (iRs1 w), 0)
      else .illegal
    | _ => .illegal

/-! ### Vector instructions -/

/-- xtval of a vector instruction's FP_TRAP. -/
def fpTval (elem flags : Nat) : Nat := elem % 65536 * 65536 + 32 + flags

/-- The elements in ascending order, each with its flags: below the first that raises an enabled flag they are written and accrue; there
the trap comes, with vstart (R102). -/
def Hart.vfpRun (t : Hart) (c : VCtx) (vm : Bool) (g : Nat → Nat × Nat) (put : Hart → Nat → Nat → Hart) : FpResult :=
  let en := t.fld 0x8C0 4 0
  let l := c.body.filter (t.active vm)
  let bad := l.find? (fun i => decide ((g i).2 &&& en ≠ 0))
  let run := match bad with | some j => l.filter (fun i => decide (i < j)) | none => l
  let t1 := (run.foldl (fun a i => put a i (g i).1) t).accrue (run.foldl (fun a i => a ||| (g i).2) 0)
  match bad with
  | some j => .trap ((t1.wr 0x008 (BitVec.ofNat 64 j)).dirty 10 9) (fpTval j (g j).2)
  | none => .done t1.vdone

/-- A vector result of elements, or of mask bits. -/
def Hart.vfpMap (t : Hart) (c : VCtx) (vm : Bool) (sew vd : Nat) (g : Nat → Nat × Nat) : FpResult :=
  t.vfpRun c vm g (fun a i x => a.vput sew vd i x)
def Hart.vfpMask (t : Hart) (c : VCtx) (vm : Bool) (vd : Nat) (g : Nat → Bool × Nat) : FpResult :=
  t.vfpRun c vm (fun i => (if (g i).1 then 1 else 0, (g i).2)) (fun a i x => a.vput 1 vd i x)

/-- The end of a reduction: with an enabled flag nothing is written and vstart is 0 (R101, R102). -/
def Hart.vfpReduceEnd (t : Hart) (sew vd : Nat) (r : Nat × Nat) : FpResult :=
  if r.2 &&& t.fld 0x8C0 4 0 ≠ 0 then .trap (t.wr 0x008 0) (fpTval 0 r.2)
  else .done ((t.vput sew vd 0 r.1).accrue r.2).vdone

/-- The one-width arithmetic: vs2's element `a`, the other operand `b`, vd's element `d`. -/
def Fmt.velem (f : Fmt) (f6 rm a b d : Nat) : Option (Nat × Nat) :=
  match f6 with
  | 0x00 => some (f.add rm a b)
  | 0x02 => some (f.sub rm a b)
  | 0x04 => some (f.minmax false false a b)
  | 0x06 => some (f.minmax true false a b)
  | 0x08 => some (f.sgnj 0 a b, 0)
  | 0x09 => some (f.sgnj 1 a b, 0)
  | 0x0A => some (f.sgnj 2 a b, 0)
  | 0x20 => some (f.div rm a b)
  | 0x21 => some (f.div rm b a)
  | 0x24 => some (f.mul rm a b)
  | 0x27 => some (f.sub rm b a)
  | 0x28 => some (f.fma rm b d a)
  | 0x29 => some (f.fma rm (f.neg b) d (f.neg a))
  | 0x2A => some (f.fma rm b d (f.neg a))
  | 0x2B => some (f.fma rm (f.neg b) d a)
  | 0x2C => some (f.fma rm b a d)
  | 0x2D => some (f.fma rm (f.neg b) a (f.neg d))
  | 0x2E => some (f.fma rm b a (f.neg d))
  | 0x2F => some (f.fma rm (f.neg b) a d)
  | _ => none

/-- The widening arithmetic, its operands already of the wide format. -/
def Fmt.vwiden (f : Fmt) (f6 rm a b d : Nat) : Option (Nat × Nat) :=
  match f6 with
  | 0x30 => some (f.add rm a b)
  | 0x32 => some (f.sub rm a b)
  | 0x34 => some (f.add rm a b)
  | 0x36 => some (f.sub rm a b)
  | 0x38 => some (f.mul rm a b)
  | 0x3C => some (f.fma rm b a d)
  | 0x3D => some (f.fma rm (f.neg b) a (f.neg d))
  | 0x3E => some (f.fma rm b a (f.neg d))
  | 0x3F => some (f.fma rm (f.neg b) a d)
  | _ => none

/-- The comparisons: 18 EQ, 19 LE, 1B LT, 1C NE, 1D GT, 1F GE. -/
def Fmt.vcompare (f : Fmt) (f6 a b : Nat) : Bool × Nat :=
  match f6 with
  | 0x18 => f.compare 2 true a b
  | 0x19 => f.compare 0 false a b
  | 0x1B => f.compare 1 false a b
  | 0x1C => let r := f.compare 2 true a b; (!r.1, r.2)
  | 0x1D => f.compare 1 false b a
  | _ => f.compare 0 false b a

/-- A sum in an order that the free value chooses: two of the values are added, again and again (the order of VFREDUSUM is the
implementation's; log entry 4). -/
def Fmt.freeSum (f : Fmt) (rm : Nat) (pick : Nat → Nat) : Nat → List (Nat × Nat) → Nat × Nat
  | 0, l => l.headD (0, 0)
  | n + 1, l =>
    if l.length < 2 then l.headD (0, 0)
    else
      let i := pick (2 * n) % l.length
      let a := l.getD i (0, 0)
      let l1 := l.eraseIdx i
      let j := pick (2 * n + 1) % l1.length
      let b := l1.getD j (0, 0)
      let r := f.add rm a.1 b.1
      f.freeSum rm pick n ((r.1, r.2 ||| a.2 ||| b.2) :: l1.eraseIdx j)

/-- The reductions of floating-point numbers; `f`: the format of the sum, the elements already in it. -/
def Fmt.vreduce (f : Fmt) (f6 rm : Nat) (pick : Nat → Nat) (first : Nat) (l : List (Nat × Nat)) : Nat × Nat :=
  let fold (g : Nat → Nat → Nat × Nat) : Nat × Nat :=
    l.foldl (fun (acc : Nat × Nat) x => let r := g acc.1 x.1; (r.1, acc.2 ||| x.2 ||| r.2)) (first, 0)
  match f6 % 8 with
  | 1 => f.freeSum rm pick l.length ((first, 0) :: l)
  | 3 => fold (f.add rm)
  | 5 => fold (f.minmax false false)
  | _ => fold (f.minmax true false)

/-- The conversions of VFUNARY0: source width, destination width and the conversion; none for a reserved one. -/
def vfConvert (k sew rm : Nat) : Option (Nat × Nat × (Nat → Nat × Nat)) :=
  let ds := if k < 8 then (sew, sew) else if k < 16 then (sew, 2 * sew) else (2 * sew, sew)
  let src := ds.1
  let dst := ds.2
  if 64 < src ∨ 64 < dst ∨ k ≥ 24 then none
  else
    let toI (rm : Nat) (signed : Bool) : Option (Nat × Nat × (Nat → Nat × Nat)) :=
      (fmtSew src).map (fun f => (src, dst, fun a => let r := f.toInt rm dst signed a; (elem dst r.1, r.2)))
    let ofI (signed : Bool) : Option (Nat × Nat × (Nat → Nat × Nat)) :=
      (fmtSew dst).map (fun f => (src, dst, fun a => f.ofInt rm (if signed then sgn src a else (a : Int))))
    let ff (rm : Nat) : Option (Nat × Nat × (Nat → Nat × Nat)) :=
      match fmtSew src, fmtSew dst with
      | some f, some g => some (src, dst, fun a => f.convert g rm a)
      | _, _ => none
    match k % 8 with
    | 0 => toI rm false
    | 1 => toI rm true
    | 2 => ofI false
    | 3 => ofI true
    | 4 => if k < 8 then none else ff rm
    | 5 => if k = 21 then ff 6 else none
    | 6 => toI 1 false
    | _ => toI 1 true

/-- The one-operand instructions of VFUNARY1. -/
def Fmt.vunary (f : Fmt) (k rm a : Nat) : Option (Nat × Nat) :=
  match k with
  | 0 => some (f.sqrt rm a)
  | 4 => some (f.rsqrtEst a)
  | 5 => some (f.recipEst rm a)
  | 16 => some (f.classify a, 0)
  | _ => none

/-- The sources of an OPFVV or OPFVF instruction. -/
def opfSources (w : Nat) (c : VCtx) : List VSrc :=
  let f6 := ib w 31 26
  let vv := decide (iF3 w = 1)
  let vs2 (lm eew : Nat) : VSrc := ⟨iRs2 w, lm, eew⟩
  let vs1 : List VSrc := if vv then [⟨iRs1 w, c.lm, c.sew⟩] else []
  if f6 = 0x12 then (if 16 ≤ iRs1 w then vs2 (2 * c.lm) (2 * c.sew) else vs2 c.lm c.sew) :: maskSrc w
  else if vv ∧ (f6 = 0x01 ∨ f6 = 0x03 ∨ f6 = 0x05 ∨ f6 = 0x07) then vs2 c.lm c.sew :: ⟨iRs1 w, 8, c.sew⟩ :: maskSrc w
  else if f6 = 0x31 ∨ f6 = 0x33 then vs2 c.lm c.sew :: ⟨iRs1 w, 8, 2 * c.sew⟩ :: maskSrc w
  else if f6 = 0x10 then (if vv then [vs2 8 c.sew] else [])
  else if f6 = 0x13 then vs2 c.lm c.sew :: maskSrc w
  else if f6 = 0x17 ∧ w.testBit 25 then []
  else if 0x30 ≤ f6 then
    (let k := if f6 = 0x34 ∨ f6 = 0x36 then 2 else 1
    vs2 (k * c.lm) (k * c.sew) :: vs1 ++ (if 0x3C ≤ f6 then [⟨iRd w, 2 * c.lm, 2 * c.sew⟩] else []) ++ maskSrc w)
  else vs2 c.lm c.sew :: vs1 ++ (if 0x28 ≤ f6 then [⟨iRd w, c.lm, c.sew⟩] else []) ++ maskSrc w

/-- An OPFVV or OPFVF instruction; `pick`: the free order of an unordered sum. -/
def Hart.execOpf (t : Hart) (pick : Nat → Nat) (w : Nat) : FpResult :=
  match t.vctx.filter (fun c => srcsOk (opfSources w c)), t.rmode 7 with
  | some c, some rm =>
    let f6 := ib w 31 26
    let vv := decide (iF3 w = 1)
    let vm := w.testBit 25
    let vd := iRd w
    let vs1 := iRs1 w
    let vs2 := iRs2 w
    let sew := c.sew
    let one := groupOk vd c.lm && groupOk vs2 c.lm && vsrcOk w c.lm
    if f6 = 0x12 then
      if !vv then .illegal
      else
        (match vfConvert vs1 sew rm with
        | none => .illegal
        | some (src, dst, g) =>
          let ls := c.lm * src / sew
          let ld := c.lm * dst / sew
          if !(groupOk vd ld && groupOk vs2 ls && maskOk w && overlapOk vd ld vs2 ls) then .illegal
          else t.vfpMap c vm dst vd (fun i => g (t.vget src vs2 i)))
    else
      match fmtSew sew with
      | none => .illegal
      | some f =>
        let b (i : Nat) : Nat := if vv then t.vget sew vs1 i else t.fget f vs1
        if f6 = 0x01 ∨ f6 = 0x03 ∨ f6 = 0x05 ∨ f6 = 0x07 then
          if !vv ∨ c.start ≠ 0 ∨ !groupOk vs2 c.lm then .illegal
          else if c.vl = 0 then .done t.vdone
          else
            let l := (c.body.filter (t.active vm)).map (fun i => (t.vget sew vs2 i, 0))
            t.vfpReduceEnd sew vd (f.vreduce f6 rm pick (t.vget sew vs1 0) l)
        else if f6 = 0x31 ∨ f6 = 0x33 then
          (match fmtSew (2 * sew) with
          | none => .illegal
          | some g =>
            if !vv ∨ c.start ≠ 0 ∨ !groupOk vs2 c.lm then .illegal
            else if c.vl = 0 then .done t.vdone
            else
              let l := (c.body.filter (t.active vm)).map (fun i => f.convert g 0 (t.vget sew vs2 i))
              t.vfpReduceEnd (2 * sew) vd (g.vreduce f6 rm pick (t.vget (2 * sew) vs1 0) l))
        else if f6 = 0x0E ∨ f6 = 0x0F then
          if vv ∨ !(groupOk vd c.lm && groupOk vs2 c.lm && maskOk w) ∨ (f6 = 0x0E ∧ groupsMeet vd c.lm vs2 c.lm = true) then .illegal
          else
            t.vfpMap c vm sew vd (fun i =>
              (if f6 = 0x0E then (if i = 0 then b 0 else t.vget sew vs2 (i - 1))
               else if i + 1 = c.vl then b 0 else t.vget sew vs2 (i + 1), 0))
        else if f6 = 0x10 then
          if vm = false then .illegal
          else if vv then (if vs1 ≠ 0 then .illegal else .done ((t.fput f vd (t.vget sew vs2 0)).vdone))
          else if vs2 ≠ 0 then .illegal
          else .done ((if c.start < c.vl then t.vput sew vd 0 (b 0) else t).vdone)
        else if f6 = 0x13 then
          if !vv ∨ !(groupOk vd c.lm && groupOk vs2 c.lm && maskOk w) ∨ (f.vunary vs1 rm 0).isNone = true then .illegal
          else t.vfpMap c vm sew vd (fun i => (f.vunary vs1 rm (t.vget sew vs2 i)).getD (0, 0))
        else if f6 = 0x17 then
          if vv then .illegal
          else if vm then (if vs2 ≠ 0 ∨ !groupOk vd c.lm then .illegal else t.vfpMap c true sew vd (fun _ => (b 0, 0)))
          else if vd = 0 ∨ !(groupOk vd c.lm && groupOk vs2 c.lm) then .illegal
          else t.vfpMap c true sew vd (fun i => (if t.vbit 0 i then b 0 else t.vget sew vs2 i, 0))
        else if 0x18 ≤ f6 ∧ f6 ≤ 0x1F then
          if f6 = 0x1A ∨ f6 = 0x1E ∨ (vv ∧ 0x1D ≤ f6) ∨
              !(groupOk vs2 c.lm && vsrcOk w c.lm && overlapOk vd 1 vs2 c.lm && (!vv || overlapOk vd 1 vs1 c.lm)) then .illegal
          else t.vfpMask c vm vd (fun i => f.vcompare f6 (t.vget sew vs2 i) (b i))
        else if 0x30 ≤ f6 then
          (match fmtSew (2 * sew) with
          | none => .illegal
          | some g =>
            let wide := decide (f6 = 0x34 ∨ f6 = 0x36)
            let l2 := if wide then 2 * c.lm else c.lm
            if (g.vwiden f6 rm 0 0 0).isNone ∨ !(groupOk vd (2 * c.lm) && groupOk vs2 l2 && vsrcOk w c.lm && maskOk w &&
                overlapOk vd (2 * c.lm) vs2 l2 && (!vv || overlapOk vd (2 * c.lm) vs1 c.lm)) then .illegal
            else
              t.vfpMap c vm (2 * sew) vd (fun i =>
                let x := if wide then (t.vget (2 * sew) vs2 i, 0) else f.convert g 0 (t.vget sew vs2 i)
                let y := f.convert g 0 (b i)
                let r := (g.vwiden f6 rm x.1 y.1 (t.vget (2 * sew) vd i)).getD (0, 0)
                (r.1, x.2 ||| y.2 ||| r.2)))
        else if !(one && maskOk w) ∨ (f.velem f6 rm 0 0 0).isNone ∨ (vv ∧ (f6 = 0x21 ∨ f6 = 0x27)) then .illegal
        else t.vfpMap c vm sew vd (fun i => (f.velem f6 rm (t.vget sew vs2 i) (b i) (t.vget sew vd i)).getD (0, 0))
  | _, _ => .illegal

/-- A floating-point instruction of the hart's own state. -/
def Hart.execFp (t : Hart) (pick : Nat → Nat) (w : Nat) : FpResult :=
  if t.fsOff then .illegal
  else if iOp w = 0x57 then (if t.vsOff then .illegal else t.execOpf pick w)
  else if iOp w = 0x53 then t.execOpFp w
  else t.execFma w

end Sys2Proof.Machine
end

