-- ==== Sys2Proof/Machine/Translate.lean ====
section
/-! DEFINITION. How a hart's addresses become physical (R81, R83, R115, R123): pointer masking, the page walks of both stages, the
PMP, the translations that the TLBs hold, and the regions of the map (R41, R44, R190). The walks are those of the Privileged Architecture
(log entry 6). -/

namespace Sys2Proof.Machine

open Sys2Proof

/-- What an access is: a fetch, a load, a load that needs execute permission (HLVX), a store or AMO. -/
inductive MemAcc where
  | fetch | load | loadX | store
deriving DecidableEq, Repr

/-- The causes of an access: access fault, page fault, guest-page fault, misaligned address. -/
def MemAcc.fault : MemAcc → Nat
  | .fetch => 1
  | .store => 7
  | _ => 5
def MemAcc.page : MemAcc → Nat
  | .fetch => 12
  | .store => 15
  | _ => 13
def MemAcc.guest : MemAcc → Nat
  | .fetch => 20
  | .store => 23
  | _ => 21
def MemAcc.misaligned : MemAcc → Nat
  | .store => 6
  | _ => 4

/-- The mode in which an access is made: privilege, virtualization, and whether HLV, HLVX or HSV makes it from U-mode. -/
structure AccMode where
  priv : Nat
  virt : Bool
  viaU : Bool := false
deriving DecidableEq, Repr

/-- An exception of a memory access: cause, address, guest physical address / 4, and the pseudo-instruction of a walk's own access. -/
structure MemFault where
  cause : Nat
  tval  : Word
  gpa   : Word := 0
  tinst : Word := 0
deriving DecidableEq, Repr

/-- What a translation comes to. -/
inductive Trans where
  | ok (pa : Nat)
  | fault (f : MemFault)
  /-- A page-table line of another module must be fetched first. -/
  | need (line : Nat)
deriving DecidableEq, Repr

/-! ### Modes and pointers -/

/-- The mode of a load or store: MPRV takes that of mstatus.MPP and MPV. -/
def Hart.dataMode (t : Hart) : AccMode :=
  if t.priv = 3 ∧ (t.rd 0x300).getLsbD 17 then
    let p := t.fld 0x300 12 11
    { priv := p, virt := !t.world && decide (p < 3) && (t.rd 0x300).getLsbD 39 }
  else { priv := t.priv, virt := t.virt }

/-- The mode of HLV, HLVX and HSV. -/
def Hart.guestMode (t : Hart) : AccMode := { priv := if (t.rd 0x600).getLsbD 8 then 1 else 0, virt := true, viaU := decide (t.priv = 0) }

/-- The mode of a fetch. -/
def Hart.fetchMode (t : Hart) : AccMode := { priv := t.priv, virt := t.virt }

/-- The address-translation register of a mode's first stage; zero: Bare. -/
def Hart.atp (t : Hart) (m : AccMode) : Word :=
  if t.world ∨ m.priv = 3 then 0 else if m.virt then t.rd 0x280 else t.rd 0x180

/-- Whether addresses of a mode are translated. -/
def Hart.translates (t : Hart) (m : AccMode) : Bool :=
  decide (wbits (t.atp m) 63 60 ≠ 0) || (m.virt && decide (wbits (t.rd 0x680) 63 60 ≠ 0))

/-- Bits of an address that pointer masking ignores (Ssnpm, Smnpm, Supm); HLV and HSV from U-mode follow hstatus.HUPMM. -/
def Hart.maskLen (t : Hart) (m : AccMode) : Nat :=
  let pmm := if t.world then 0
    else if m.viaU then wbits (t.rd 0x600) 49 48
    else if m.priv = 3 then wbits (t.rd 0x747) 33 32
    else if m.priv = 1 then (if m.virt then wbits (t.rd 0x60A) 33 32 else wbits (t.rd 0x30A) 33 32)
    else wbits (t.rd 0x10A) 33 32
  if pmm = 2 then 7 else if pmm = 3 then 16 else 0

/-- Whether MXR is in effect for an access in a mode: pointer masking then leaves addresses as they are. -/
def Hart.mxrActs (t : Hart) (m : AccMode) : Bool :=
  t.translates m && ((t.rd 0x300).getLsbD 19 || (m.virt && (t.rd 0x200).getLsbD 19 && decide (wbits (t.atp m) 63 60 ≠ 0)))

/-- The address of a load or store once the masked bits are replaced: by the sign where it is translated, by zeros elsewhere. HLVX, and an
access with MXR in effect, are not masked. -/
def Hart.maskAddr (t : Hart) (m : AccMode) (a : MemAcc) (va : Word) : Word :=
  let n := t.maskLen m
  if n = 0 ∨ a = .loadX ∨ t.mxrActs m = true then va
  else if wbits (t.atp m) 63 60 = 0 then (va <<< n) >>> n
  else (va <<< n).sshiftRight n

/-! ### Reading lines without changing anything -/

/-- The data of a line as the tile would find it now for a world: none where another module holds it, or where its copy is tagged Endpaper and the
home must admit the access (R124). -/
def State.peekLine (s : State) (t line : Nat) (world : Bool) : Option (Line × Bool) :=
  match (if s.tagMiss t line world && !s.ownLine line then none else (s.tile t).lineData line) with
  | some r => some r
  | none => if s.ownLine line then (s.readCur 0 line).2 else none

/-- `n` bytes of a line from offset `o`, least significant first. -/
def lineBits (d : Line) (o n : Nat) : Nat := d.toNat / 2 ^ (8 * o) % 2 ^ (8 * n)

/-! ### PMP -/

/-- The configuration of an entry, and the range that it covers. -/
def Hart.pmpCfg (t : Hart) (i : Nat) : Nat := wbits (t.rd (0x3A0 + 2 * (i / 8))) (8 * (i % 8) + 7) (8 * (i % 8))
def Hart.pmpRange (t : Hart) (i : Nat) : Option (Nat × Nat) :=
  let a := (t.rd (0x3B0 + i)).toNat
  match t.pmpCfg i / 8 % 4 with
  | 1 =>
    let lo := if i = 0 then 0 else (t.rd (0x3B0 + i - 1)).toNat / 1024 * 4096
    some (lo, a / 1024 * 4096)
  | 3 =>
    let x := (a ||| 0x1FF) * 4 + 3
    let m := x ^^^ (x + 1)
    let size := m + 1
    some (x / size * size, x / size * size + size)
  | _ => none

/-- Whether an entry's permissions allow an access, M-mode lockdown (Smepmp) included. -/
def pmpAllows (mml : Bool) (cfg priv : Nat) (a : MemAcc) : Bool :=
  let r := cfg.testBit 0
  let w := cfg.testBit 1
  let x := cfg.testBit 2
  let l := cfg.testBit 7
  let want (r w x : Bool) : Bool := match a with
    | .fetch => x
    | .load => r
    | .loadX => x
    | .store => w
  if !mml then (decide (priv = 3) && !l) || want r w x
  else if w && !r then
    (if l then (if x then want (decide (priv = 3)) false true else want false false true)
     else if priv = 3 then want true true false else want true x false)
  else if l && r && w && x then want true false false
  else (l == decide (priv = 3)) && want r w x

/-- Whether the PMP admits an access to `n` bytes. -/
def Hart.pmpOk (t : Hart) (priv pa n : Nat) (a : MemAcc) : Bool :=
  let sec := (t.csrIn false 0x747).toNat
  let hit := (List.range 64).findSome? (fun i =>
    match t.pmpRange i with
    | some (lo, hi) => if pa < hi ∧ lo < pa + n then some (i, decide (lo ≤ pa ∧ pa + n ≤ hi)) else none
    | none => none)
  match hit with
  | some (i, whole) => whole && pmpAllows (sec.testBit 0) (t.pmpCfg i) priv a
  | none => decide (priv = 3) && !sec.testBit 1 && !(sec.testBit 0 && decide (a = .fetch))

/-! ### Page walks -/

/-- Levels of a translation mode: 8 Sv39, 9 Sv48, 10 Sv57; 0 Bare. -/
def atpLevels (m : Nat) : Nat := if m = 0 then 0 else m - 5

/-- A page-table entry as the walk judges it. -/
inductive Pte where
  | bad
  | next (ppn : Nat)
  | leaf (ppn : Nat) (e : Word)
deriving DecidableEq, Repr

/-- The reading of an entry at a level (0 the last): reserved bits, NAPOT of 64 KiB only (R81), and PBMT where it is enabled. -/
def readPte (e : Word) (lvl : Nat) (pbmte : Bool) : Pte :=
  let r := e.getLsbD 1
  let w := e.getLsbD 2
  let x := e.getLsbD 3
  let ppn := wbits e 53 10
  if !e.getLsbD 0 || (!r && w) || decide (wbits e 60 54 ≠ 0) || decide (wbits e 62 61 = 3) || (!pbmte && decide (wbits e 62 61 ≠ 0)) then .bad
  else if !r && !x then
    (if lvl = 0 ∨ e.getLsbD 63 = true ∨ wbits e 62 61 ≠ 0 ∨ wbits e 7 6 ≠ 0 ∨ e.getLsbD 4 = true then .bad else .next ppn)
  else if e.getLsbD 63 ∧ (lvl ≠ 0 ∨ ppn % 16 ≠ 8) then .bad
  else if ppn % 2 ^ (9 * lvl) ≠ 0 then .bad
  else .leaf ppn e

/-- The physical address that a leaf gives. -/
def leafAddr (ppn : Nat) (e : Word) (lvl va : Nat) : Nat :=
  let p := if e.getLsbD 63 then ppn / 16 * 16 + va / 4096 % 16 else ppn + va / 4096 % 2 ^ (9 * lvl)
  p * 4096 + va % 4096

/-- What a read of an entry at a physical address comes to. -/
inductive PteRead where
  | value (e : Word)
  | fault
  | need (line : Nat)
deriving DecidableEq, Repr

/-- A walk's own read of a page-table entry. -/
def State.pteAt (s : State) (h pa : Nat) : PteRead :=
  let t := s.tileOfHart h
  if !(s.hart h).pmpOk 1 pa 8 .load || decide (2 ^ 49 ≤ pa) then .fault
  else if s.ownDram pa && (!s.populated pa || s.guardRefuses 0 pa (s.hart h).world false) then .fault
  else
    match s.peekLine t (pa / 64) (s.hart h).world with
    | some (d, p) => if p then .fault else .value (BitVec.ofNat 64 (lineBits d (pa % 64) 8))
    | none =>
      if s.ownDram pa || s.moduleReachable (s.moduleOfLine (pa / 64)) then .need (pa / 64) else .fault

/-- The second stage: a guest physical address, by hgatp; every access is as from U-mode. -/
def State.walkG (s : State) (h : Nat) (a : MemAcc) (gpa : Nat) (bad : MemFault) (deny : MemFault) : Nat → Nat → Trans
  | 0, _ => .fault bad
  | lvl + 1, base =>
    let top := decide (lvl + 1 = atpLevels (wbits ((s.hart h).rd 0x680) 63 60))
    let idx := if top then gpa / 2 ^ (12 + 9 * lvl) % 2048 else gpa / 2 ^ (12 + 9 * lvl) % 512
    match s.pteAt h (base + idx * 8) with
    | .need l => .need l
    | .fault => .fault deny
    | .value e =>
      match readPte e lvl ((s.hart h).rd 0x30A |>.getLsbD 62) with
      | .bad => .fault bad
      | .next p => s.walkG h a gpa bad deny lvl (p * 4096)
      | .leaf p e =>
        let mxr := ((s.hart h).rd 0x300).getLsbD 19
        let ok := match a with
          | .fetch => e.getLsbD 3
          | .loadX => e.getLsbD 3
          | .load => e.getLsbD 1 || (mxr && e.getLsbD 3)
          | .store => e.getLsbD 2 && e.getLsbD 7
        if ok && e.getLsbD 4 && e.getLsbD 6 then .ok (leafAddr p e lvl gpa) else .fault bad

/-- A guest physical address of an access; `implicit`: the access is the first stage's own read. -/
def State.guestPhys (s : State) (h : Nat) (a orig : MemAcc) (gpa : Nat) (va : Word) (implicit : Bool) : Trans :=
  let hg := (s.hart h).rd 0x680
  let n := atpLevels (wbits hg 63 60)
  let bad : MemFault := { cause := orig.guest, tval := va, gpa := BitVec.ofNat 64 (gpa / 4), tinst := if implicit then 0x3000 else 0 }
  let deny : MemFault := { cause := orig.fault, tval := va }
  if n = 0 then .ok gpa
  else if 2 ^ (14 + 9 * n) ≤ gpa then .fault bad
  else s.walkG h a gpa bad deny n (wbits hg 43 0 * 4096)

/-- The first stage. -/
def State.walkS (s : State) (h : Nat) (m : AccMode) (a : MemAcc) (va : Word) : Nat → Nat → Trans
  | 0, _ => .fault { cause := a.page, tval := va }
  | lvl + 1, base =>
    let t := s.hart h
    let bad : MemFault := { cause := a.page, tval := va }
    let slot := base + va.toNat / 2 ^ (12 + 9 * lvl) % 512 * 8
    match (if m.virt then s.guestPhys h .load a slot va true else .ok slot) with
    | .need l => .need l
    | .fault f => .fault f
    | .ok pa =>
      match s.pteAt h pa with
      | .need l => .need l
      | .fault => .fault { cause := a.fault, tval := va }
      | .value e =>
        match readPte e lvl ((t.rd 0x30A).getLsbD 62 && (!m.virt || (t.rd 0x60A).getLsbD 62)) with
        | .bad => .fault bad
        | .next p => s.walkS h m a va lvl (p * 4096)
        | .leaf p e =>
          let st := if m.virt then t.rd 0x200 else t.rd 0x300
          let mxr := (t.rd 0x300).getLsbD 19 || st.getLsbD 19
          let user := e.getLsbD 4
          let who := if m.priv = 0 then user else !user || (st.getLsbD 18 && decide (a ≠ .fetch))
          let ok := match a with
            | .fetch => e.getLsbD 3
            | .loadX => e.getLsbD 3
            | .load => e.getLsbD 1 || (mxr && e.getLsbD 3)
            | .store => e.getLsbD 2 && e.getLsbD 7
          if ok && who && e.getLsbD 6 then .ok (leafAddr p e lvl va.toNat) else .fault bad

/-- Whether an address is the sign extension that a mode of `n` levels asks for. -/
def canonical (n : Nat) (va : Word) : Bool :=
  let b := 12 + 9 * n
  decide (va.toNat / 2 ^ (b - 1) = 0) || decide (va.toNat / 2 ^ (b - 1) = 2 ^ (65 - b) - 1)

/-- The context in which a translation for an access is made, as a TLB entry without its frame (R115): the SUM and MXR bits in force are
those of mstatus and, for a guest, of vsstatus. -/
def Hart.tlbKey (t : Hart) (m : AccMode) (a : MemAcc) (va : Word) : TlbEntry :=
  { world := t.world, virt := m.virt, priv := m.priv, mode := wbits (t.atp m) 63 60, asid := wbits (t.atp m) 59 44,
    vmid := if m.virt then wbits (t.rd 0x680) 57 44 else 0,
    acc := match a with
      | .fetch => 0
      | .load => 1
      | .loadX => 2
      | .store => 3,
    bits := wbits (t.rd 0x300) 19 18 + (if m.virt then 4 * wbits (t.rd 0x200) 19 18 else 0),
    page := va.toNat / 4096, frame := 0 }

/-- The translation that the TLBs hold for an access. -/
def State.tlbFind (s : State) (h : Nat) (m : AccMode) (a : MemAcc) (va : Word) : Option TlbEntry :=
  if (s.hart h).translates m then (s.core (coreOf h)).tlb.find? (fun e => decide ({ e with frame := 0 } = (s.hart h).tlbKey m a va)) else none

/-- A translation has been walked for: a miss is counted (event 0x15), and what the walk gave is filled. Which older entries give way is
free: the spec gives the TLBs no size (log entry 16). -/
def State.walked (s : State) (h : Nat) (m : AccMode) (a : MemAcc) (va : Word) (pa : Option Nat) : State :=
  if !(s.hart h).translates m || (s.tlbFind h m a va).isSome then s
  else
    let s1 := s.event h 0x15 1
    match pa with
    | none => s1
    | some p =>
      let (v, s2) := s1.draw
      s2.modCore (coreOf h) (fun c => { c with tlb :=
        { (s.hart h).tlbKey m a va with frame := p / 4096 } :: (c.tlb.zipIdx.filter (fun e => !v.getLsbD (e.2 % 64))).map (·.1) })

/-- Translate an address for an access of `n` bytes that crosses no page: by the TLBs, or by a walk. The PMP is asked each time. -/
def State.translate (s : State) (h : Nat) (m : AccMode) (a : MemAcc) (va : Word) (n : Nat) : Trans :=
  let t := s.hart h
  let deny : MemFault := { cause := a.fault, tval := va }
  let atp := t.atp m
  let lv := atpLevels (wbits atp 63 60)
  let first : Trans :=
    if lv = 0 then .ok va.toNat
    else if !canonical lv va then .fault { cause := a.page, tval := va }
    else s.walkS h m a va lv (wbits atp 43 0 * 4096)
  let whole : Trans := match s.tlbFind h m a va with
    | some e => .ok (e.frame * 4096 + va.toNat % 4096)
    | none =>
      match first with
      | .ok ia => if m.virt then s.guestPhys h a a ia va false else .ok ia
      | r => r
  match whole with
  | .ok pa => if decide (pa < 2 ^ 52) && t.pmpOk m.priv pa n a then .ok pa else .fault deny
  | r => r

/-! ### Regions (R41, R44) -/

/-- The regions of the physical address space as a core's access finds them. -/
inductive Region where
  /-- Populated DRAM of this module, or the DRAM window of another that can be reached. -/
  | dram
  /-- Set-up space, doorbell space and root-port windows, by module. -/
  | setup (m off : Nat)
  | doorbell (m off : Nat)
  | window (m off : Nat)
  | none
deriving DecidableEq, Repr

/-- The region of an address. -/
def State.region (s : State) (pa : Nat) : Region :=
  let there (m : Nat) : Bool := decide (m = s.moduleNo) || s.moduleReachable m
  if pa < 2 ^ 49 then
    (if s.ownDram pa then (if s.populated pa then .dram else .none) else if s.moduleReachable (s.windowHost (pa / 2 ^ 46)) then .dram else .none)
  else if 0xC000000000000 ≤ pa ∧ pa < 0xD000000000000 then
    let m := (pa - 0xC000000000000) / 2 ^ 45
    if there m then .window m (pa % 2 ^ 45) else .none
  else if 0xD000000000000 ≤ pa ∧ pa < 0xD000000000000 + 2 ^ 43 then
    let m := (pa - 0xD000000000000) / 2 ^ 40
    if there m ∧ pa % 2 ^ 40 < 0x100000 then .doorbell m (pa % 2 ^ 40) else .none
  else if 0xE000000000000 ≤ pa ∧ pa < 0xE000000000000 + 2 ^ 43 then
    let m := (pa - 0xE000000000000) / 2 ^ 40
    if there m ∧ pa % 2 ^ 40 < 17 * 2 ^ 28 then .setup m (pa % 2 ^ 40) else .none
  else .none

/-- A memory exception is taken. -/
def State.memFault (s : State) (h : Nat) (f : MemFault) : State :=
  let lvl := (s.hart h).excLevel f.cause
  let s1 := s.exception h f.cause f.tval f.gpa
  if f.tinst = 0 then s1
  else s1.modHart h (fun t => if lvl = 0 then t.wr 0x34A f.tinst else if lvl = 1 then t.wr 0x64A f.tinst else t)

/-- A memory exception of an access in mode `m`: one made as a guest's reports a guest virtual address. -/
def State.memFaultIn (s : State) (h : Nat) (m : AccMode) (f : MemFault) : State :=
  let t := s.hart h
  let lvl := t.excLevel f.cause
  let s1 := s.memFault h f
  if m.virt && !t.virt && !t.world then
    s1.modHart h (fun t => if lvl = 0 then t.setFld 0x300 38 38 1 else if lvl = 1 then t.setFld 0x600 6 6 1 else t)
  else s1

end Sys2Proof.Machine
end

