-- ==== Sys2Proof/Machine/Hart.lean ====
section
/-! DEFINITION. What every instruction command of a hart shares: the class of its encoding (R90 to R92, R94), the fetch, the debug
triggers (R81, R489), and what ends it. The command carries the instruction's bits (log entry 3). -/

namespace Sys2Proof.Machine

open Sys2Proof

/-! ### Classes -/

/-- The instruction commands of the table, by the encodings that each covers. -/
inductive InstrClass where
  | int | mem | lr | sc | amo | fp | csr | agfte | mhpm
  | pause | prefetch | fence | fenceI | zero | clean | flush | inval
  | wfi | wait | waitr | sb | scrub | call | ret | illegal
deriving DecidableEq, Repr

/-- The instructions of SYSTEM without operands in funct3 000, the fences of translations included. -/
def systemZero (w : Nat) : Bool :=
  decide (w = 0x00000073 ∨ w = 0x00100073 ∨ w = 0x10200073 ∨ w = 0x30200073 ∨ w = 0x00D00073 ∨ w = 0x01D00073 ∨
    w = 0x18000073 ∨ w = 0x18100073) ||
  (decide (iRd w = 0) && [0x09, 0x0B, 0x11, 0x13, 0x31, 0x33].contains (iF7 w))

/-- HLV, HLVX and HSV. -/
def hypervisorMem (w : Nat) : Bool :=
  match iF7 w with
  | 0x30 => decide (iRs2 w < 2)
  | 0x32 => decide (iRs2 w < 2 ∨ iRs2 w = 3)
  | 0x34 => decide (iRs2 w < 2 ∨ iRs2 w = 3)
  | 0x36 => decide (iRs2 w = 0)
  | 0x31 => decide (iRd w = 0)
  | 0x33 => decide (iRd w = 0)
  | 0x35 => decide (iRd w = 0)
  | 0x37 => decide (iRd w = 0)
  | _ => false

/-- MOP.R.n and MOP.RR.n (Zimop). -/
def isMop (w : Nat) : Bool :=
  w.testBit 31 && decide (ib w 29 28 = 0) && (w.testBit 25 || decide (ib w 25 22 = 7))

/-- The class of SYSTEM. -/
def systemClass (w : Nat) : InstrClass :=
  let f3 := iF3 w
  if f3 = 0 then (if w = 0x10500073 then .wfi else if systemZero w then .int else .illegal)
  else if f3 = 4 then (if hypervisorMem w then .mem else if isMop w then .int else .illegal)
  else
    let writes := decide (f3 % 4 = 1) || decide (iRs1 w ≠ 0)
    if writes && decide (iF12 w = 0x8C0) then .agfte
    else if writes && decide (0x323 ≤ iF12 w ∧ iF12 w ≤ 0x33F) then .mhpm
    else .csr

/-- The class of AMO: LR, SC, and the operations of A, Zacas and Zabha. -/
def amoClass (w : Nat) : InstrClass :=
  let f5 := ib w 31 27
  let f3 := iF3 w
  if f5 = 2 then (if iRs2 w = 0 ∧ (f3 = 2 ∨ f3 = 3) then .lr else .illegal)
  else if f5 = 3 then (if f3 = 2 ∨ f3 = 3 then .sc else .illegal)
  else if f5 = 5 then
    (if f3 ≤ 3 then .amo else if f3 = 4 ∧ iRd w % 2 = 0 ∧ iRs2 w % 2 = 0 then .amo else .illegal)
  else if f3 ≤ 3 ∧ (f5 = 0 ∨ f5 = 1 ∨ f5 % 4 = 0) then .amo
  else .illegal

/-- The class of a vector load or store: the addressing modes that exist. -/
def vmemClass (w : Nat) : InstrClass :=
  let mop := ib w 27 26
  let u := iRs2 w
  let nf := ib w 31 29 + 1
  let load := decide (iOp w = 0x07)
  if w.testBit 28 then .illegal
  else if mop ≠ 0 then .mem
  else if u = 0 then .mem
  else if u = 8 then (if w.testBit 25 ∧ (nf = 1 ∨ nf = 2 ∨ nf = 4 ∨ nf = 8) ∧ (load ∨ iF3 w = 0) then .mem else .illegal)
  else if u = 11 then (if w.testBit 25 ∧ nf = 1 ∧ iF3 w = 0 then .mem else .illegal)
  else if u = 16 ∧ load then .mem
  else .illegal

/-- The class of a 32-bit instruction (R90). What depends on the hart's state is judged when the instruction executes. -/
def instrClass (w : Nat) : InstrClass :=
  let f3 := iF3 w
  match iOp w with
  | 0x03 => if f3 = 7 then .illegal else .mem
  | 0x23 => if f3 ≤ 3 then .mem else .illegal
  | 0x07 => if 1 ≤ f3 ∧ f3 ≤ 3 then .mem else if f3 = 4 then .illegal else vmemClass w
  | 0x27 => if 1 ≤ f3 ∧ f3 ≤ 3 then .mem else if f3 = 4 then .illegal else vmemClass w
  | 0x0F =>
    if f3 = 0 then (if w = 0x0100000F then .pause else .fence)
    else if f3 = 1 then .fenceI
    else if f3 = 2 ∧ iRd w = 0 then
      (if iF12 w = 0 then .inval else if iF12 w = 1 then .clean else if iF12 w = 2 then .flush else if iF12 w = 4 then .zero
       else .illegal)
    else .illegal
  | 0x13 =>
    if f3 = 6 ∧ iRd w = 0 ∧ (iRs2 w = 0 ∨ iRs2 w = 1 ∨ iRs2 w = 3) then .prefetch
    else if (aluImm w 0).isSome then .int else .illegal
  | 0x1B => if (aluImmW w 0).isSome then .int else .illegal
  | 0x33 => if (rvAluOp (iF7 w) f3 0 0).isSome then .int else .illegal
  | 0x3B => if (rvAluOpW (iF7 w) f3 (iRs2 w) 0 0).isSome then .int else .illegal
  | 0x17 => .int
  | 0x37 => .int
  | 0x6F => .int
  | 0x67 => if f3 = 0 then .int else .illegal
  | 0x63 => if (branchTaken f3 0 0).isSome then .int else .illegal
  | 0x2F => amoClass w
  | 0x43 => .fp
  | 0x47 => .fp
  | 0x4B => .fp
  | 0x4F => .fp
  | 0x53 => .fp
  | 0x57 => if f3 = 1 ∨ f3 = 5 then .fp else .int
  | 0x77 => .int
  | 0x73 => systemClass w
  | 0x0B =>
    if f3 = 0 ∧ iRs2 w = 0 ∧ iF7 w = 0 then .wait
    else if f3 = 0 ∧ iRs2 w = 0 ∧ iF7 w = 1 then .waitr
    else if w = 0x0000100B then .sb
    else if f3 = 1 ∧ iRs2 w = 0 ∧ iF7 w = 1 ∧ iRd w = 0 then .scrub
    else .illegal
  | 0x2B => if w = 0x0000002B then .call else if w = 0x0200002B then .ret else .illegal
  | _ => .illegal

/-- An instruction as fetched: its class, the 32-bit word it stands for, its length. -/
def classify (raw : Nat) : InstrClass × Nat × Nat :=
  match instruction raw with
  | some (w, len) => (instrClass w, w, len)
  | none => (.illegal, rawBits raw, if raw % 4 = 3 then 4 else 2)

/-! ### Debug entry and triggers (R81, R489) -/

/-- Whether debug acts on the hart in its world (R489). -/
def State.debugActs (s : State) (h : Nat) : Bool :=
  if (s.hart h).world then s.on ENDP_DEBUG.ENDP_INV else s.on ENDP_DEBUG.TEXT_INV

/-- The hart enters debug mode: dcsr holds the cause and the mode, dpc the pc; the reservation is lost (R85), and a wait ends first
(R96). -/
def State.enterDebug (s : State) (h cause : Nat) : State :=
  let s1 := match (s.hart h).run with
    | .agw _ _ => s.endWait h 3
    | .agwLost c _ _ => s.endWait h c
    | _ => s
  (((s1.settleCounts h).dropReservation h).modHart h (fun t =>
    let d := wflag (wput (wput (t.rd 0x7B0) 8 6 cause) 1 0 t.priv) 5 t.virt
    { ((t.wr 0x7B0 d).wr 0x7B1 t.pc) with run := .debug, priv := 3, virt := false })).idleCore (coreOf h)

/-- Whether a trigger's mode bits name the hart's mode: its bits for M, S, U, VS and VU. -/
def Hart.trigMode (t : Hart) (d : Word) (m s u vs vu : Nat) : Bool :=
  d.getLsbD (if t.priv = 3 then m else if t.priv = 1 then (if t.virt then vs else s) else if t.virt then vu else u)

/-- Whether a trigger with action 0 may fire: not in M-mode with interrupts disabled, where the handler could not be entered again. -/
def Hart.trigAllowed (t : Hart) (action : Nat) : Bool :=
  decide (action ≠ 0) || decide (t.priv < 3) || (t.rd 0x300).getLsbD 3

/-- Whether the address of trigger `i` (mcontrol6) matches; `kind`: 0 load, 1 store, 2 execute. -/
def Hart.trigMatch (t : Hart) (i kind : Nat) (a : Word) : Bool :=
  let d := t.rd (trigKey i 0)
  let v := (t.rd (trigKey i 1)).toNat
  let x := a.toNat
  decide (wbits d 63 60 = 6) && d.getLsbD kind && t.trigMode d 6 4 3 24 23 && t.trigAllowed (wbits d 15 12) &&
    (match wbits d 10 7 with
    | 0 => decide (x = v)
    | 1 => let k := (v ^^^ (v + 1)) + 1; decide (x / k = v / k)
    | 2 => decide (v ≤ x)
    | 3 => decide (x < v)
    | _ => false)

/-- The action of the trigger that fires for an access, chains included: all of a chain must match. -/
def Hart.trigFires (t : Hart) (kind : Nat) (a : Word) : Option Nat :=
  ((List.range 8).foldl (fun (acc : Bool × Option Nat) i =>
    let d := t.rd (trigKey i 0)
    let ok := acc.1 && t.trigMatch i kind a
    if wbits d 63 60 = 6 ∧ d.getLsbD 11 = true then (ok, acc.2)
    else (true, if acc.2.isNone && ok then some (wbits d 15 12) else acc.2)) (true, none)).2

/-- What a trigger that fires does: a breakpoint exception or debug mode. -/
def State.trigger (s : State) (h action : Nat) (a : Word) : State :=
  if action = 1 then s.enterDebug h 2 else s.exception h 3 a 0

/-- The trigger that an access fires, where debug acts. -/
def State.trigOf (s : State) (h kind : Nat) (a : Word) : Option Nat :=
  if s.debugActs h then (s.hart h).trigFires kind a else none

/-- The icount trigger that is pending and may fire. -/
def State.icountDue (s : State) (h : Nat) : Option Nat :=
  let t := s.hart h
  if s.debugActs h then
    (List.range 8).find? (fun i =>
      let d := t.rd (trigKey i 0)
      decide (wbits d 63 60 = 3) && d.getLsbD 8 && t.trigMode d 9 7 6 26 25 && t.trigAllowed (wbits d 5 0))
  else none

/-- The icount triggers count an instruction executed in a mode they name; at one they become pending. -/
def Hart.icount (t was : Hart) : Hart :=
  (List.range 8).foldl (fun a i =>
    let d := a.rd (trigKey i 0)
    let n := wbits d 23 10
    if wbits d 63 60 = 3 ∧ was.trigMode d 9 7 6 26 25 = true ∧ n ≠ 0 then
      a.wr (trigKey i 0) (wflag (wput d 23 10 (n - 1)) 8 (d.getLsbD 8 || decide (n = 1)))
    else a) t

/-! ### Reaching memory -/

/-- Where an access goes: physical address, bytes and virtual address of each page's part. -/
inductive AccPlace where
  | at (parts : List (Nat × Nat × Word))
  | fault (f : MemFault)
  | need (line : Nat)
deriving DecidableEq, Repr

/-- Both pages of an access are translated and checked before anything is read or written; the lowest fault counts (R83). -/
def State.accPlace (s : State) (h : Nat) (m : AccMode) (a : MemAcc) (va : Word) (n : Nat) : AccPlace :=
  let k := 4096 - va.toNat % 4096
  match s.translate h m a va (min n k) with
  | .fault f => .fault f
  | .need l => .need l
  | .ok pa =>
    if n ≤ k then .at [(pa, n, va)]
    else
      match s.translate h m a (va + BitVec.ofNat 64 k) (n - k) with
      | .fault f => .fault f
      | .need l => .need l
      | .ok pb => .at [(pa, k, va), (pb, n - k, va + BitVec.ofNat 64 k)]

/-- A walk asks for a line of page tables that another module homes: the access fault where the home does not serve it. -/
def State.askPte (s : State) (h : Nat) (a : MemAcc) (va : Word) (line : Nat) : State × Option MemFault :=
  match s.reach (s.tileOfHart h) h line (.read true) (s.hart h).world 0 false with
  | (s1, .fault) => (s1, some { cause := a.fault, tval := va })
  | (s1, .refused) => (s1, some { cause := a.fault, tval := va })
  | (s1, _) => (s1, none)

/-- Translate an access that crosses no page, the translation walked for and filled (R115, R127). A line of page tables that another module
holds is asked for. -/
def State.locateOne (s : State) (h : Nat) (m : AccMode) (a : MemAcc) (va : Word) (n : Nat) : State × Trans :=
  match s.translate h m a va n with
  | .ok pa => (s.walked h m a va (some pa), .ok pa)
  | .fault f => (s.walked h m a va none, .fault f)
  | .need l => match s.askPte h a va l with
    | (s1, some f) => (s1, .fault f)
    | (s1, none) => (s1, .need l)

/-- Where an access goes, the translations walked for and filled (R115, R127). -/
def State.locate (s : State) (h : Nat) (m : AccMode) (a : MemAcc) (va : Word) (n : Nat) : State × AccPlace :=
  match s.accPlace h m a va n with
  | .at parts => (parts.foldl (fun b p => b.walked h m a p.2.2 (some p.1)) s, .at parts)
  | .fault f => (s.walked h m a va none, .fault f)
  | .need l => match s.askPte h a va l with
    | (s1, some f) => (s1, .fault f)
    | (s1, none) => (s1, .need l)

/-- The parts of an access by line. -/
def lineParts (parts : List (Nat × Nat × Word)) : List (Nat × Nat × Word) :=
  parts.flatMap (fun p =>
    let k := 64 - p.1 % 64
    if p.2.1 ≤ k then [p] else [(p.1, k, p.2.2), (p.1 + k, p.2.1 - k, p.2.2 + BitVec.ofNat 64 k)])

/-- What reading memory comes to: a value, an exception, or an answer still to come. -/
inductive Got where
  | value (v : Nat)
  | fault (f : MemFault)
  | waits
deriving DecidableEq, Repr

/-- Read the part of an access that lies in one line, through the tile (R150, R154); `resolved`: every older branch and trap is. A load that
retires is taken to have sent its request with none unresolved, so that RdS may give it E (R175; DESIGN CHOICE, log entry 7). -/
def State.readPart (s : State) (h : Nat) (a : MemAcc) (p : Nat × Nat × Word) (hint : Nat) (resolved : Bool := true) : State × Got :=
  let t := s.tileOfHart h
  let line := p.1 / 64
  let data := decide (a ≠ .fetch)
  let l1 := s.l1Hit t data p.2.2.toNat line (s.hart h).world
  let deny : Got := .fault { cause := a.fault, tval := p.2.2 }
  match (s.l1Miss t h line data l1).reach t h line (.read resolved) (s.hart h).world hint l1 with
  | (s1, .held) =>
    (match (s1.tile t).lineData line with
    | some (d, poison) =>
      if poison then (s1, deny)
      else (s1.modTile t (fun x => x.fillL1 data p.2.2.toNat line hint (s1.usable t (if data then .l1d else .l1i))),
        .value (lineBits d (p.1 % 64) p.2.1))
    | none => (s1, .waits))
  | (s1, .waits) => (s1, .waits)
  | (s1, _) => (s1, deny)

/-- A read of parts, the first least significant. -/
def State.readParts (s : State) (h : Nat) (a : MemAcc) (hint : Nat) : List (Nat × Nat × Word) → State × Got
  | [] => (s, .value 0)
  | p :: ps =>
    match s.readPart h a p hint with
    | (s1, .value v) =>
      (match s1.readParts h a hint ps with
      | (s2, .value w) => (s2, .value (v + w * 2 ^ (8 * p.2.1)))
      | r => r)
    | r => r

/-- The fetch of an instruction of `len` bytes at the pc. -/
def State.fetch (s : State) (h len : Nat) : State × Got :=
  match s.locate h (s.hart h).fetchMode .fetch (s.hart h).pc len with
  | (s1, .fault f) => (s1, .fault f)
  | (s1, .need _) => (s1, .waits)
  | (s1, .at parts) =>
    match parts.find? (fun p => decide (s.region p.1 ≠ .dram)) with
    | some p => (s1, .fault { cause := 1, tval := p.2.2 })
    | none => s1.readParts h .fetch 0 (lineParts parts)

/-! ### The frame of an instruction -/

/-- The hint that an NTL instruction sets for the next one (R91, R159): ADD x0, x0, x2 to x5. -/
def ntlOf (w : Nat) : Nat :=
  if w = 0x00200033 then 1 else if w = 0x00300033 then 2 else if w = 0x00400033 then 3 else if w = 0x00500033 then 4 else 0

/-- The instructions of the base I set that compute or branch: those that a constrained LR/SC sequence may hold between LR and SC, but for
jumps and branches backwards (Unprivileged ISA, R178). -/
def baseI (w : Nat) : Bool :=
  let f3 := iF3 w
  let f7 := iF7 w
  match iOp w with
  | 0x37 | 0x17 | 0x6F | 0x63 => true
  | 0x13 => if f3 = 1 then decide (f7 / 2 = 0) else if f3 = 5 then decide (f7 / 2 = 0 ∨ f7 / 2 = 0x10) else true
  | 0x1B => decide (f3 = 0 ∨ f7 = 0 ∨ (f3 = 5 ∧ f7 = 0x20))
  | 0x33 => decide (f7 = 0 ∨ (f7 = 0x20 ∧ (f3 = 0 ∨ f3 = 5)))
  | 0x3B => decide (f7 = 0 ∨ (f7 = 0x20 ∧ (f3 = 0 ∨ f3 = 5)))
  | _ => false

/-- Whether a constrained LR/SC sequence goes on after an instruction (R85, R178): its LR, or at most 16 instructions of it so far, each of
the base I set and none that goes backwards. -/
def Hart.staysConstrained (t was : Hart) (w : Nat) (k : InstrClass) : Bool :=
  t.constrained && (decide (k = .lr) ||
    (decide (k = .int) && baseI w && decide (was.pc.toNat < t.pc.toNat) && decide (t.lrSpan < 15)))

/-- Whether an integer instruction can neither branch nor trap: what was resolved before it still is behind it (R103). -/
def plainAlu (w : Nat) : Bool := [0x13, 0x1B, 0x33, 0x3B, 0x37, 0x17].contains (iOp w)

/-- The classes of instructions that access memory: a non-temporal hint applies to the next of them (R159). -/
def InstrClass.accesses : InstrClass → Bool
  | .mem | .lr | .sc | .amo | .zero | .clean | .flush | .inval | .prefetch => true
  | _ => false

/-- What ends an instruction that has completed or trapped: a hint is set, or spent by an access, a constrained LR/SC sequence ends at an
instruction that it may not hold, icount counts, and a single step enters debug mode (R178, R489). -/
def State.ended (s : State) (h w : Nat) (k : InstrClass) (was : Hart) : State :=
  let s1 := s.modHart h (fun t => { t.icount was with
    ntl := if k = .int ∧ ntlOf w ≠ 0 then ntlOf w else if k.accesses then 0 else t.ntl
    constrained := t.staysConstrained was w k
    lrSpan := if k = .lr then 1 else t.lrSpan + 1
    resolved := t.resolved && (decide (k = .sb ∨ k = .scrub) || (decide (k = .int) && plainAlu w))
    waitsOut := false, atomic := none })
  let s2 := s1.freeHeld h
  if ((s2.hart h).csrIn false 0x7B0).getLsbD 2 && s2.debugActs h && decide ((s2.hart h).run = .running) then s2.enterDebug h 4 else s2

/-- Whether a halt that was requested may take place in the hart's world (R489): not while an access is outstanding that commits with its answer
(R133). -/
def State.haltDue (s : State) (h : Nat) : Bool :=
  (s.svc.dm.get 0 (0x1000 + h)).getLsbD 0 && s.debugActs h && (s.hart h).io.isNone && (s.hart h).atomic.isNone

/-- The hart's oldest instruction waits: always for something outside the core (R139). -/
def State.waitsOn (s : State) (h : Nat) : State := (s.modHart h (fun t => { t with waitsOut := true })).freeHeld h

/-- An instruction command: it acts where the hart executes and the bits are of the command's class. A halt that was held, the pending icount trigger and the
trigger of the address come first, then the fetch, then the instruction; `act` answers whether it completed or trapped. -/
def State.hartInstr (s : State) (h raw : Nat) (k : InstrClass) (act : State → Nat → Nat → State × Bool) : State :=
  let c := classify raw
  if !s.runs h || decide (c.1 ≠ k) then s
  else
    let s0 := s.modHart h (fun t => { t with run := .running })
    let was := s0.hart h
    if s0.haltDue h then s0.enterDebug h 3
    else
    match s0.icountDue h with
    | some i =>
      let d := was.rd (trigKey i 0)
      (s0.modHart h (fun t => t.wr (trigKey i 0) (wflag d 8 false))).trigger h (wbits d 5 0) 0
    | none =>
      match s0.trigOf h 2 was.pc with
      | some a => s0.trigger h a was.pc
      | none =>
        match s0.fetch h c.2.2 with
        | (s1, .waits) => s1.waitsOn h
        | (s1, .fault f) => (s1.memFault h f).ended h c.2.1 k was
        | (s1, .value _) =>
          match act s1 c.2.1 c.2.2 with
          | (s2, true) => s2.ended h c.2.1 k was
          | (s2, false) => s2.waitsOn h

/-- An illegal instruction of any class. -/
def State.notLegal (s : State) (h raw : Nat) : State × Bool := (s.illegal h (rawBits raw), true)

/-- The instruction completes. -/
def State.completes (s : State) (h len : Nat) : State × Bool := (s.next h len, true)

end Sys2Proof.Machine
end

