-- ==== Sys2Proof/Machine/Predict.lean ====
section
/-! DEFINITION. Prediction and what execution on a wrong path leaves behind (R104, R116 to R119, R122 to R126). Which bits index the buffers,
which way a full set gives up and how the path history is formed are the model's (log entry 9). -/

namespace Sys2Proof.Machine

open Sys2Proof

/-! ### The direction tables (R116, R117) -/

/-- A 2-bit counter counts up or down. -/
def train (t : Table Nat) (i : Nat) (up : Bool) : Table Nat :=
  t.set 1 i (if up then min 3 (t.get 1 i + 1) else t.get 1 i - 1)

/-- The last 56 outcomes folded to 14 bits. -/
def fold14 (g : Nat) : Nat := (g % 2 ^ 14) ^^^ (g / 2 ^ 14 % 2 ^ 14) ^^^ (g / 2 ^ 28 % 2 ^ 14) ^^^ (g / 2 ^ 42 % 2 ^ 14)

/-- Whether a counter predicts taken. -/
def leansTaken (t : Table Nat) (i : Nat) : Bool := decide (2 ≤ t.get 1 i)

/-- A branch's indices into the base, short-history and long-history tables, and into the chooser (R116). -/
def baseIndex (pc : Nat) : Nat := pc / 2 % 2 ^ 14
def shortIndex (pc g : Nat) : Nat := baseIndex pc ^^^ (g % 2 ^ 14)
def longIndex (pc g : Nat) : Nat := baseIndex pc ^^^ fold14 (g % 2 ^ 56)
def chooserIndex (pc : Nat) : Nat := pc / 2 % 4096

/-- Whether the long history table has been more often correct than the short one, by the chooser's counter. -/
def Core.longer (c : Core) (pc : Nat) : Bool := decide (c.rightShort.get 0 (chooserIndex pc) < c.rightLong.get 0 (chooserIndex pc))

/-- What the history table in favour predicts. -/
def Core.historySays (c : Core) (pc g : Nat) : Bool :=
  if c.longer pc then leansTaken c.long (longIndex pc g) else leansTaken c.short (shortIndex pc g)

/-- The predicted direction of a conditional branch: the chooser selects the history table in favour where its counter leans taken, and the base
table otherwise (DESIGN CHOICE, log entry 9). -/
def Core.predictTaken (c : Core) (pc g : Nat) : Bool :=
  if leansTaken c.chooser (chooserIndex pc) then c.historySays pc g else leansTaken c.base (baseIndex pc)

/-- The tables trained by a retiring branch. The chooser is trained towards the one of its two sides that was right where only one was; how often
each history table was right is counted without bound for each chooser index, and ties go to the short one (DESIGN CHOICE, log entry 9). -/
def Core.trainBranch (c : Core) (pc g : Nat) (taken : Bool) : Core :=
  let i := chooserIndex pc
  let up (t : Table Nat) (right : Bool) : Table Nat := if right then t.set 0 i (t.get 0 i + 1) else t
  { c with
    base := train c.base (baseIndex pc) taken
    short := train c.short (shortIndex pc g) taken
    long := train c.long (longIndex pc g) taken
    rightShort := up c.rightShort (leansTaken c.short (shortIndex pc g) == taken)
    rightLong := up c.rightLong (leansTaken c.long (longIndex pc g) == taken)
    chooser := if (leansTaken c.base (baseIndex pc) == taken) = (c.historySays pc g == taken) then c.chooser
      else train c.chooser i (c.historySays pc g == taken) }

/-! ### The target buffers and the return-address stack (R118, R119) -/

/-- The set of a branch in the branch-target buffer and its partial tag; its slot in the indirect-target buffer. -/
def btbSet (pc : Nat) : Nat := pc / 2 % 2048
def btbTag (pc : Nat) : Nat := pc / 4096 % 1024
def itbSlot (pc path : Nat) : Nat := (pc / 2 % 2048) ^^^ (path % 2048) ^^^ (path / 2048)

/-- The way of its set that holds a branch's partial tag. -/
def Core.btbWay (c : Core) (pc : Nat) : Option Nat :=
  (List.range 4).find? (fun w => decide ((c.btb.get none (btbSet pc * 4 + w)).map (·.tag) = some (btbTag pc)))

/-- The target that the branch-target buffer gives a branch. -/
def Core.btbTarget (c : Core) (pc : Nat) : Option Word :=
  (c.btbWay pc).bind (fun w => (c.btb.get none (btbSet pc * 4 + w)).map (·.target))

/-- A target is filled: over its own tag, into a free way, or into the way `v`. -/
def Core.btbFill (c : Core) (pc : Nat) (target : Word) (v : Nat) : Core :=
  let free := (List.range 4).find? (fun w => (c.btb.get none (btbSet pc * 4 + w)).isNone)
  let w := ((c.btbWay pc).or free).getD (v % 4)
  { c with btb := c.btb.set none (btbSet pc * 4 + w) (some { tag := btbTag pc, target := target }) }

/-- Fill the branch-target buffer at retirement. -/
def State.fillTarget (s : State) (h : Nat) (pc target : Word) : State :=
  let (v, s1) := s.draw
  s1.modCore (coreOf h) (fun c => c.btbFill pc.toNat target v.toNat)

/-- The path history after control has gone to a target. -/
def Hart.follow (t : Hart) (target : Word) : Hart := { t with path := (t.path <<< 1) ^^^ (target >>> 1).setWidth 16 }

/-- Whether a register is a link register of the return-address stack's convention. -/
def isLink (r : Nat) : Bool := decide (r = 1 ∨ r = 5)

/-- Whether an indirect jump is a return: it pops the stack. -/
def pops (rd rs1 : Nat) : Bool := isLink rs1 && !(isLink rd && decide (rd = rs1))

/-- The target predicted for an indirect jump: a return's from its stack, and from the indirect-target buffer with an empty one. -/
def State.indirectTarget (s : State) (h : Nat) (pc : Word) (rd rs1 : Nat) : Option Word :=
  let t := s.hart h
  let other := (s.core (coreOf h)).itb.get none (itbSlot pc.toNat t.path.toNat)
  if pops rd rs1 then (match t.ras with
    | r :: _ => some r
    | [] => other)
  else other

/-- A retiring conditional branch: its mispredictions are counted, it trains the tables and its history, and a taken one fills the target
buffer (R116 to R118, R127). -/
def State.retireBranch (s : State) (h : Nat) (pc target : Word) (taken : Bool) : State :=
  let c := s.core (coreOf h)
  let g := (s.hart h).ghr.toNat
  let guess := c.predictTaken pc.toNat g
  let off := taken && guess && decide ((c.btbTarget pc.toNat).getD target ≠ target)
  let s1 := (s.modCore (coreOf h) (fun c => c.trainBranch pc.toNat g taken)).modHart h (fun t =>
    { t with ghr := (t.ghr <<< 1) ||| (if taken then 1 else 0) })
  let s2 := if taken then (s1.fillTarget h pc target).modHart h (fun t => t.follow target) else s1
  let s3 := if c.serial then s2 else if guess != taken then s2.event h 4 1 else if off then s2.event h 5 1 else s2
  s3.event h 3 1

/-- A retiring jump: a wrong target is counted, the return-address stack pushed or popped (R119; a push onto a full stack is event 6), and a
target buffer filled (R118). -/
def State.retireJump (s : State) (h : Nat) (pc target link : Word) (rd rs1 : Nat) (indirect : Bool) : State :=
  let c := s.core (coreOf h)
  let guess := if indirect then s.indirectTarget h pc rd rs1 else some ((c.btbTarget pc.toNat).getD target)
  let slot := itbSlot pc.toNat (s.hart h).path.toNat
  let s1 := if !c.serial && guess.any (fun g => decide (g ≠ target)) then s.event h 5 1 else s
  let s2 := if indirect && pops rd rs1 then s1.modHart h (fun t => { t with ras := t.ras.drop 1 }) else s1
  let s3 := if isLink rd then
      (if (s2.hart h).ras.length < 32 then s2 else s2.event h 6 1).modHart h (fun t => { t with ras := (link :: t.ras).take 32 })
    else s2
  (if indirect then s3.modCore (coreOf h) (fun c => { c with itb := c.itb.set none slot (some target) })
    else s3.fillTarget h pc target).modHart h (fun t => t.follow target)

/-! ### Wrong paths (R122 to R126) -/

/-- The address at which a hart's fetch goes on behind an instruction; none where nothing is predicted: in serial mode (R134), for an indirect
jump that no buffer knows, and behind a return from a trap. -/
def State.predicted (s : State) (h raw : Nat) : Option Word :=
  let t := s.hart h
  let c := s.core (coreOf h)
  if c.serial then none
  else
    match classify raw with
    | (k, w, len) =>
      let next := t.pc + BitVec.ofNat 64 len
      if k ≠ .int then some next
      else
        match iOp w with
        | 0x63 => some (if c.predictTaken t.pc.toNat t.ghr.toNat then (c.btbTarget t.pc.toNat).getD (t.pc + word (immB w)) else next)
        | 0x6F => some ((c.btbTarget t.pc.toNat).getD (t.pc + word (immJ w)))
        | 0x67 => s.indirectTarget h t.pc (iRd w) (iRs1 w)
        | 0x73 => if w = 0x30200073 ∨ w = 0x10200073 then none else some next
        | _ => some next

/-- Whether SAFE_MISS holds a load of the hart's world that misses the L1 data cache behind what is unresolved. -/
def State.safeMiss (s : State) (h : Nat) : Bool :=
  s.on (if (s.hart h).world then CPU_SPEC_CTLc.SAFE_MISS_ENDP (coreOf h) else CPU_SPEC_CTLc.SAFE_MISS_TEXT (coreOf h))

/-- One access on a wrong path: a load or fetch that passes its checks reads its line as any other, without ever owning it, and fills its
translation, with the pending non-temporal hint; a call that finds the return-address stack full, with `calls` before it on this path, is
counted, and undone. -/
def State.wrongAccess (s : State) (h : Nat) (calls hint : Nat) (x : WrongAcc) : State :=
  let t := s.hart h
  let read (m : AccMode) (a : MemAcc) (va : Word) : State :=
    match s.locate h m a va 1 with
    | (s1, .at [p]) =>
      if s1.region p.1 ≠ .dram then s1
      else if a = .load ∧ s1.safeMiss h = true ∧ s1.l1Hit (s1.tileOfHart h) true va.toNat (p.1 / 64) t.world = false then s1.event h 0x22 1
      else (s1.readPart h a p (if a = .fetch then 0 else hint) false).1
    | (s1, _) => s1
  match x with
  | .load va => read t.dataMode .load (t.maskAddr t.dataMode .load va)
  | .fetch va => read t.fetchMode .fetch va
  | .call => if t.ras.length + calls < 32 then s else s.event h 6 1
  | _ => s

/-- What a wrong path does before it is discarded: nothing behind a barrier; a hint is for the next load. -/
def State.wrongPath (s : State) (h : Nat) : List WrongAcc → Nat → Nat → State
  | [], _, _ => s
  | .barrier :: _, _, _ => s
  | .ntl n :: l, calls, _ => s.wrongPath h l calls n
  | .call :: l, calls, hint => (s.wrongAccess h calls hint .call).wrongPath h l (calls + 1) hint
  | .fetch va :: l, calls, hint => (s.wrongAccess h calls hint (.fetch va)).wrongPath h l calls hint
  | .load va :: l, calls, hint => (s.wrongAccess h calls hint (.load va)).wrongPath h l calls 0

/-- An instruction of class `k`, with what is executed behind it on a wrong path: there is one only where the instruction ends and the hart
does not go on as predicted. A non-temporal hint that the instruction does not use is for the path's first load. -/
def State.shadowed (s : State) (h raw : Nat) (k : InstrClass) (wrong : List WrongAcc) (run : State → State) : State :=
  let r := run s
  match s.predicted h raw with
  | none => r
  | some p =>
    if wrong.isEmpty || !s.runs h || s.haltDue h || decide ((classify raw).1 ≠ k) || decide ((r.hart h).pc = p) || (r.hart h).waitsOut then r
    else run (s.wrongPath h wrong 0 (if k.accesses then 0 else (s.hart h).ntl))

/-- An instruction command of a class in which an instruction may trap or be mispredicted, with its wrong path (R122). -/
def State.hartRun (s : State) (h raw : Nat) (k : InstrClass) (wrong : List WrongAcc) (act : State → Nat → Nat → State × Bool) : State :=
  s.shadowed h raw k wrong (fun a => a.hartInstr h raw k act)

/-! ### The memory-dependence guess (R125) -/

/-- A load whose bytes an older store of the hart writes may have been executed ahead of it: whether the guess was made is free; then the load
executes again (event 0x21), and the predictor holds it from now on. No guess is made past a barrier (R103), nor in serial mode (R134). -/
def State.guessed (s : State) (h : Nat) (parts : List (Nat × Nat × Word)) : State :=
  let t := s.hart h
  let meets (st : RetiredStore) (p : Nat × Nat × Word) : Bool :=
    (List.range 32).any (fun i => st.mask.getLsbD i && decide (p.1 ≤ st.addr + i ∧ st.addr + i < p.1 + p.2.1))
  if s.on (CPU_SPEC_CTLc.SSB_OFF (coreOf h)) || (s.core (coreOf h)).serial || t.mdp.contains t.pc ||
      !(t.stores.drop (t.stores.length - t.fresh)).any (fun st => parts.any (meets st)) then s
  else
    let (v, s1) := s.draw
    if v.getLsbD 0 then (s1.event h 0x21 1).modHart h (fun t => { t with mdp := t.pc :: t.mdp }) else s1

/-- A load that SAFE_MISS may hold: whether something older was unresolved when it missed the L1 data cache is free (event 0x22); behind a
barrier (R103) and in serial mode (R134) nothing was. -/
def State.maybeHeld (s : State) (h : Nat) (parts : List (Nat × Nat × Word)) : State :=
  if s.safeMiss h && !(s.hart h).resolved && !(s.core (coreOf h)).serial && parts.any (fun p => !s.l1Hit (s.tileOfHart h) true p.2.2.toNat (p.1 / 64) (s.hart h).world && !s.asked (s.tileOfHart h) (p.1 / 64)) then
    let (v, s1) := s.draw
    if v.getLsbD 0 then s1.event h 0x22 1 else s1
  else s

/-! ### Accesses that are never repeated (R133, R140) -/

/-- A register takes the value of a load. -/
def Hart.putLoad (t : Hart) (d : IoDest) (v : Nat) : Hart :=
  match d with
  | .store => t
  | .int rd n signed => t.setX rd (if signed then word (sgn (8 * n) v) else BitVec.ofNat 64 v)
  | .fp rd n => (t.fput (if n = 2 then half else if n = 4 then single else double) rd v).dirty 14 13
  | .vec bits reg i _ _ => t.vput bits reg i v

/-- The access of a hart that is outstanding notes where its answer goes. -/
def State.ioFor (s : State) (h : Nat) (d : IoDest) (len : Option Nat) : State :=
  if (s.hart h).io.isSome then s.modHart h (fun t => { t with io := t.io.map (fun a => { a with dest := d, len := len }) }) else s

/-- The access that a hart has outstanding commits with its answer: its register, and its instruction's end or, for a vector element, the place
from which the instruction goes on. -/
def State.commitIo (s : State) (h : Nat) (a : IoAsk) (v : Word) : State :=
  let s1 := s.modHart h (fun t =>
    let t1 := if a.write then t else t.putLoad a.dest (v.toNat % 2 ^ (8 * a.size))
    let t2 := match a.dest with
      | .vec _ _ i f more => if more then { t1.wr 0x008 (BitVec.ofNat 64 i) with fields := f + 1 }
          else { t1.wr 0x008 (BitVec.ofNat 64 (i + 1)) with fields := 0 }
      | _ => t1
    { t2 with io := none })
  match a.len with
  | some n => s1.next h n
  | none => s1

end Sys2Proof.Machine
end

