-- ==== Sys2Proof/Machine/Retry.lean ====
section
/-! DEFINITION. Instruction retry, the commit keep, core sparing (R129 to R152), and the faults of cache arrays and slices
(R163 to R170, R184, R185). -/

namespace Sys2Proof.Machine

open Sys2Proof

/-! ### Set-up accesses to a core's own register (R141, R151) -/

/-- A write to CPU_SPEC_CTLc: SAFE_MISS_ENDP is left to Endpaper (R474). -/
def State.actSpec (who : Requester) (c : Nat) (v : Word) (s : State) : State :=
  let s1 := s.applyWrite (CPU_SPEC_CTLc c) v
  if who = .endpaper then s1 else s1.setF (CPU_SPEC_CTLc.SAFE_MISS_ENDP c) (s.f (CPU_SPEC_CTLc.SAFE_MISS_ENDP c))

/-- A write to CPU_SPEC_CTLc on its way to logical core c, whose own register it is: ignored by a core that is LOST (R151), and held at the failed
tile while its takeover has not reached T (R141). -/
def State.reachSpec (s : State) (who : Requester) (c : Nat) (v : Word) : State :=
  if s.lostCore c then s
  else if s.f (CPU_CORE_STATUSc.STATE c) = 2 then s.modCore c (fun x => { x with heldSpec := x.heldSpec ++ [(who, v)] })
  else s.actSpec who c v

/-- The writes held for logical core c are delivered in their order (R141 step 7). -/
def State.specDeliver (s : State) (c : Nat) : State :=
  if (s.core c).heldSpec.isEmpty then s
  else (s.core c).heldSpec.foldl (fun a e => a.actSpec e.1 c e.2) (s.modCore c (fun x => { x with heldSpec := [] }))

/-! ### Declaration and loss (R139, R140, R151) -/

/-- Offsets of the lifetime counts of physical tile t (R521): its retries, detections, declarations. -/
def tileLife (t : Nat) : Nat := 0x100 + 32 * t

/-- A logical core is LOST (R151): its harts stop for good, its tile is out of service. -/
def State.loseCore (s : State) (c : Nat) : State :=
  let n := c / 8
  let t := s.f (CPU_CORE_STATUSc.TILE c)
  let lc := s.f (CPU_SPARE_MAPn.LC n)
  let failed := s.f (CPU_SPARE_MAPn.FAILED n)
  let s1 := [2 * c, 2 * c + 1].foldl (fun a h => a.modHart h (fun x =>
    { x with run := .stopped, keptDebug := decide (x.run = .debug), resv := none, constrained := false })) s
  let s2 := (s1.setF (CPU_CORE_STATUSc.STATE c) 3).raise CPU_RAS_ALARM.LOST
  let s3 := (s2.setF (CPU_SPARE_MAPn.LC n) (lc - lc / 16 ^ (c % 8) % 16 * 16 ^ (c % 8) + 15 * 16 ^ (c % 8))).setF
    (CPU_SPARE_MAPn.FAILED n) (setBit failed t true)
  (((s3.modCore c (fun x => { x with takeover := none, retrying := false, serial := false, retryDue := false, heldSpec := [] })).freeTile
    (9 * n + t))).logAt 0x0002
    (s3.tileLoc n t 0) 5 [c, s3.f (CPU_CORE_STATUSc.REASON c)]

/-- Whether a takeover in quire n is under way. -/
def State.quireBusy (s : State) (n : Nat) : Bool := (List.range 8).any (fun k => (s.core (8 * n + k)).takeover.isSome)

/-- The current in units of 0.25 A that a core's island draws under its reservation (R495, R505). -/
def State.coreDraw (s : State) (c : Nat) : Nat := if s.cs c < 2 then (if s.lq32 then 14 else 16) else 0

/-- A takeover begins: the spare's step is posted, and the core waits (R140, R141 steps 1 and 2). -/
def State.beginTakeover (s : State) (c reason : Nat) (routerOut : Bool) : State :=
  let n := c / 8
  let s1 := (s.setF (CPU_CORE_STATUSc.STATE c) 2).setF (CPU_CORE_STATUSc.REASON c) reason
  (s1.modCore c (fun x => { x with
    retrying := false, serial := false, retryDue := false,
    takeover := some { src := s.f (CPU_CORE_STATUSc.TILE c), dst := s.f (CPU_SPARE_MAPn.SPARE n), reason := reason, leaf := s.leaf,
                       routerOut := routerOut } })).postStep (.spare c) 2 (s.leaf + 3)

/-- The spare tile that logical core c can be taken over by, if its quire has one that is free. -/
def State.hasSpare (s : State) (c : Nat) : Bool := decide (s.f (CPU_SPARE_MAPn.SPARE (c / 8)) ≠ 15) && !s.quireBusy (c / 8)

/-- A core is declared failed (R139, R140): it is fenced, and its spare takes over, or it is LOST. -/
def State.declare (s : State) (c reason : Nat) (routerOut : Bool) : State :=
  if 2 ≤ s.f (CPU_CORE_STATUSc.STATE c) then s
  else
    let t := s.tileOfCore c
    let s1 := (s.lifeInc (tileLife t + 20) 0 16).fenceUnit (fun w => decide (w = .wake c ∨ w = .park c)) (c / 48) (s.coreDraw c)
    if s1.hasSpare c && !s1.on (CPU_CORE_STATUSc.UNPROT c) then s1.beginTakeover c reason routerOut
    else (s1.setF (CPU_CORE_STATUSc.REASON c) reason).loseCore c

/-- A tile goes out of service for good: its quire's map shows it FAILED, and no longer as the spare (R146). -/
def State.tileFails (s : State) (t : Nat) : State :=
  let n := t / 9
  let s1 := s.setF (CPU_SPARE_MAPn.FAILED n) (setBit (s.f (CPU_SPARE_MAPn.FAILED n)) (t % 9) true)
  if s.f (CPU_SPARE_MAPn.SPARE n) = t % 9 then s1.setF (CPU_SPARE_MAPn.SPARE n) 15 else s1

/-- A tile that serves no logical core fails: one that is to take a core over takes the core with it (R149). -/
def State.spareFails (s : State) (t : Nat) : State :=
  match ((List.range 8).map (· + 8 * (t / 9))).find? (fun c => (s.core c).takeover.any (fun k => decide (k.dst = t % 9))) with
  | none => s.tileFails t
  | some c =>
    let draws := if (s.stepTaken (.spare c)).isSome || (s.core c).takeover.any (·.ready) then (if s.lq32 then 14 else 16) else 0
    (((s.fenceUnit (fun w => decide (w = .spare c)) (c / 48) draws).useStep (.spare c)).tileFails t).loseCore c

/-- A failure of the hardware that runs logical core c: of its core, or of the spare that is to take it over once it is started (R139, R149). -/
def State.coreFails (s : State) (c reason : Nat) : State :=
  match (s.core c).takeover with
  | some k => if (s.stepTaken (.spare c)).isSome || k.ready then s.spareFails (9 * (c / 8) + k.dst) else s
  | none => s.declare c reason false

/-- The core that a physical tile runs fails, or the tile itself where it runs none. -/
def State.tileCoreFails (s : State) (t reason : Nat) : State :=
  match s.coreOfTile t with
  | some c => s.declare c reason false
  | none => s.spareFails t

/-- The keep is lost (R138): the healthy core moves to the spare, or goes on without protection. -/
def State.loseKeep (s : State) (c : Nat) : State :=
  if 2 ≤ s.f (CPU_CORE_STATUSc.STATE c) then
    (if s.f (CPU_CORE_STATUSc.STATE c) = 2 then (s.modCore c (fun x => { x with keepLost := true })) else s)
  else
    let s1 := s.modCore c (fun x => { x with keepLost := true })
    if s1.hasSpare c then
      ((s1.lifeInc (tileLife (s1.tileOfCore c) + 20) 0 16).fenceUnit (fun w => decide (w = .wake c ∨ w = .park c)) (c / 48)
        (s1.coreDraw c)).beginTakeover c 6 false
    else s1.raise (CPU_CORE_STATUSc.UNPROT c)

/-! ### Retry (R129 to R135) -/

/-- A retry begins for both harts of a core: uncommitted work goes, reservations are lost, waits end with OTHER (R131,
R132). -/
def State.startAttempt (s : State) (c : Nat) : State :=
  let s1 := [2 * c, 2 * c + 1].foldl (fun a h =>
    let a1 := match (a.hart h).run with
      | .agw _ _ => a.endWait h 3
      | _ => a.dropReservation h
    (a1.modHart h (fun x => { x with sinceRetry := 0 })).event h 0x32 1) s
  ((s1.modCore c (fun x => { x with retrying := true })).setF (CPU_CORE_STATUSc.STATE c) 1).lifeInc
    (tileLife (s.tileOfCore c) + 12) 0 32

/-- Whether an access that may not be repeated is outstanding for a hart of a core (R133). -/
def State.ioOut (s : State) (c : Nat) : Bool :=
  [2 * c, 2 * c + 1].any (fun h => (s.hart h).io.any (fun a => a.ans.isNone) || (s.hart h).atomic.isSome)

/-- An attempt begins, once the answer of an outstanding access has come and committed it (R133). -/
def State.beginAttempt (s : State) (c : Nat) : State :=
  if s.ioOut c then s.modCore c (fun x => { x with retryDue := true }) else s.startAttempt c

/-- A core that waited with its retry for an access retries now (R133). -/
def State.retryNow (s : State) (c : Nat) : State :=
  if (s.core c).retryDue && !s.ioOut c then (s.modCore c (fun x => { x with retryDue := false })).startAttempt c else s

/-- A detection that calls for a retry: the first attempt, or the failure of the one that runs (R134); one that waits to begin is none: while
the core waits for an access (R133), a further detection is counted and has no part in the attempts (DESIGN CHOICE, log entry 68). -/
def State.retry (s : State) (c : Nat) : State :=
  if (s.core c).retryDue then s
  else if (s.core c).retrying then
    let n := s.f (CPU_CORE_STATUSc.FAILS c) + 1
    if 3 ≤ n then s.declare c 1 false
    else ((s.setF (CPU_CORE_STATUSc.FAILS c) n).modCore c (fun x => { x with serial := true })).beginAttempt c
  else s.beginAttempt c

/-- Whether a detection lies in an array without a spare path, so that a second error of its entry is ARRAY_HARD (R139). -/
def Detection.hard : Detection → Bool
  | .registerFile | .entry | .tlb _ => true
  | .storeEntry corrected => !corrected
  | .logic | .l1i _ | .predictor _ _ => false

/-- Whether a detection leads to a retry. -/
def Detection.retries : Detection → Bool
  | .predictor _ _ => false
  | .storeEntry corrected => !corrected
  | _ => true

/-- What a detection does to the entry that it implicates: a line or translation is invalidated, an entry of a predictor is neutral (R104, R129).
A table's number: 0 to 3 the base, short-history, long-history and chooser tables, 4 the branch-target buffer, 5 the indirect-target buffer, 6
and 7 the return-address stacks of the core's two harts. -/
def State.implicated (s : State) (c : Nat) (d : Detection) : State :=
  match d with
  | .l1i line => s.modTile (s.tileOfCore c) (fun x => { x with l1i := x.l1i.drop line })
  | .tlb i => s.modCore c (fun x => { x with tlb := x.tlb.eraseIdx i })
  | .predictor table i =>
    if table = 6 ∨ table = 7 then s.modHart (2 * c + table % 2) (fun t => { t with ras := t.ras.take i })
    else s.modCore c (fun x =>
      if table = 0 then { x with base := x.base.set 1 i 1 } else if table = 1 then { x with short := x.short.set 1 i 1 }
      else if table = 2 then { x with long := x.long.set 1 i 1 } else if table = 3 then { x with chooser := x.chooser.set 1 i 1 }
      else if table = 4 then { x with btb := x.btb.set none i none } else { x with itb := x.itb.set none i none })
  | _ => s

/-- A core's checker fires for the entry (unit, array, cell) of a location code (R129, R130). One that calls for no retry does not fail an attempt
that is under way (DESIGN CHOICE, log entry 68). -/
def State.detection (s : State) (c : Nat) (d : Detection) (e : Nat × Nat × Nat) : State :=
  if 2 ≤ s.f (CPU_CORE_STATUSc.STATE c) then s
  else
    let t := s.tileOfCore c
    let s1 := s.lifeInc (tileLife t + 16) 0 32
    if d.hard && (s1.core c).hardOnce.contains e then s1.declare c 2 false
    else
      let s2 := if d.hard then s1.modCore c (fun x => { x with hardOnce := e :: x.hardOnce }) else s1
      let s3 := s2.implicated c d
      if d.retries then s3.retry c else s3

/-- Whether both harts of a core have met the condition of a successful attempt (R134). -/
def State.attemptDone (s : State) (c : Nat) : Bool :=
  [2 * c, 2 * c + 1].all (fun h =>
    match (s.hart h).run with
    | .running => decide (64 ≤ (s.hart h).sinceRetry)
    | _ => true)

/-- An attempt succeeds (R134, R135). -/
def State.retrySuccess (s : State) (c : Nat) : State :=
  if (s.core c).retrying && !(s.core c).retryDue && s.attemptDone c then
    let n := (s.core c).good + 1
    let w := s.f CPU_RAS_CTL.RETRY_WARN
    let s1 := ((s.modCore c (fun x => { x with retrying := false, serial := false, good := n })).setF
      (CPU_CORE_STATUSc.STATE c) 0).incF (CPU_CORE_STATUSc.RETRIES c)
    if w ≠ 0 ∧ w ≤ n ∧ (s.core c).warned = false then
      ((s1.modCore c (fun x => { x with warned := true })).raise CPU_RAS_ALARM.RETRY_WARN).raise (CPU_CORE_STATUSc.WARN c)
    else s1
  else s

/-- The keep scrubber's pass over a core's keep (R138). A keep refresh has no architectural effect. What it finds is counted against the keep's
tile (R130). -/
def State.keepScrub (s : State) (c : Nat) (k : KeepScrub) : State :=
  let s1 := if k = .clean then s else s.lifeInc (tileLife (s.tileOfCore c) + 16) 0 32
  match k with
  | .clean => s1
  | .corrected => s1.raise CPU_RAS_ALARM.KEEP_CE
  | .refreshed => if s.f (CPU_CORE_STATUSc.STATE c) < 2 then s1 else s1.loseKeep c
  | .lost => s1.loseKeep c

/-- A runnable hart has retired nothing for HANG leaves while it waits on nothing outside the core (R139). -/
def State.hang (s : State) (h : Nat) : State :=
  let c := coreOf h
  if s.runs h && !(s.hart h).waitsOut then
    (s.untilLeaf ((s.hart h).lastRetire + s.f CPU_RAS_CTL.HANG)).declare c 3 false
  else s

/-! ### Takeover (R141 to R145) -/

/-- A line that the failed tile held Modified or Exclusive is poisoned at its home, with a record (R149). -/
def State.poisonOwned (s : State) (line cause : Nat) : State :=
  let home := s.homeSlice (line * 64)
  let s1 := ((s.dirFree home line).l3Drop home line).writeLine (line * 64) 0 true
  s1.logAt 0x0003 (s1.tileLoc (home / 9) (home % 9) 12) 5 [line * 64, cause]

/-- Whether an entry shows a line OWNED by a holder that `p` picks. A COARSE entry does where it marks such a holder, and every other tile that
it marks is one of this module's that does not hold the line. -/
def State.ownedByPicked (s : State) (e : DirEntry) (p : Nat × Nat → Bool) : Bool :=
  e.owned &&
    if e.coarse then e.targets.any p && e.targets.all (fun h => p h || (decide (h.1 = s.moduleNo) && ((s.tile h.2).holds e.line).isNone))
    else e.holders.any p

/-- An entry without the holders that `p` picks; a COARSE one keeps its vectors (R180). -/
def DirEntry.without (e : DirEntry) (p : Nat × Nat → Bool) : Option DirEntry :=
  if e.coarse then some { e with fwd := if e.fwd.any p then none else e.fwd, since := e.since.map (·.filter (fun h => !p h)) }
  else (e.holders.filter p).foldl (fun (o : Option DirEntry) h => o.bind (fun y => y.remove h)) (some e)

/-- The homes poison every line that their entries show OWNED by a holder that `p` picks, and remove those holders from every
SHARED entry (R149, R186, R187). -/
def State.purgeHolder (s : State) (p : Nat × Nat → Bool) (cause : Nat) : State :=
  (List.range 216).foldl (fun a n =>
    (a.slice n).dir.foldl (fun b (x : Nat × Option DirEntry) =>
      match x.2 with
      | none => b
      | some e =>
        if b.ownedByPicked e p then b.poisonOwned e.line cause
        else b.modSlice n (fun sl => { sl with dir := sl.dir.set none x.1 (e.without p) })) a) s

/-- Change every copy of a tile that its failure leaves behind: none of it is used any more. -/
def Tile.dead (t : Tile) : Tile :=
  { t with l1i := { t.l1i with lines := [] }, l1d := { t.l1d with lines := [] }, l2 := { t.l2 with lines := [] }, vb := [], arrived := [] }

/-- A takeover is ready: it is armed in the next leaf, together with others ready in the same one (R141 step 6, R144). -/
def State.takeoverReady (s : State) (c : Nat) : State :=
  let l := s.leaf + 1
  if s.waiting.any (fun w => decide (w.notBefore = l) && match w.change with
      | .takeover _ => true
      | _ => false) then
    { s with waiting := s.waiting.map (fun w =>
        match w.change with
        | .takeover cs => if w.notBefore = l then { w with change := .takeover (cs ++ [c]) } else w
        | _ => w) }
  else s.startHw l (.takeover [c])

/-- What a core LOST with its keep leaves (R149): an image that is not whole shows VALID = 0 (R137). -/
def State.losesKeepToo (s : State) (c : Nat) (bad : Bool) : State :=
  (if bad then s.modCore c (fun x => { x with keepBad := true }) else s).loseCore c

/-- Steps 3 to 5 of R141, once no access of R133 is outstanding (R140): the failed tile is flushed (or its lines poisoned at their homes, where its router is out), and the
spare performs the retired stores of both images. `bad`: an image has an uncorrectable error (R149). A planned move of a core without a keep has
no image to copy: the core is LOST (log entry 56). -/
def State.performRetired (s : State) (c : Nat) (bad : Bool) : State :=
  match (s.core c).takeover with
  | none => s
  | some k =>
    if k.ready || (s.stepTaken (.spare c)).isNone || s.ioOut c then s
    else if bad || ((s.core c).keepLost && decide (k.reason ≠ 6)) then s.losesKeepToo c bad
    else
      let src := 9 * (c / 8) + k.src
      let dst := 9 * (c / 8) + k.dst
      let s1 := if k.routerOut then (s.modTile src Tile.dead).purgeHolder (fun h => decide (h = (s.moduleNo, src))) 1
        else s.flushTile src
      let s2 := [2 * c, 2 * c + 1].foldl (fun a h => a.drainList dst h (a.hart h).stores) s1
      if (s2.hart (2 * c)).stores.isEmpty && (s2.hart (2 * c + 1)).stores.isEmpty then
        ((s2.modCore c (fun x => { x with takeover := some { k with ready := true } })).useStep (.spare c)).takeoverReady c
      else s2

/-- The sparing map switches for a takeover, and the spare runs the logical core (R141 steps 7 and 8). -/
def State.switchCore (s : State) (c : Nat) : State :=
  match (s.core c).takeover with
  | none => s
  | some k =>
    let n := c / 8
    let lc := s.f (CPU_SPARE_MAPn.LC n)
    let failed := s.f (CPU_SPARE_MAPn.FAILED n)
    let s1 := ((s.setF (CPU_SPARE_MAPn.LC n) (lc - lc / 16 ^ (c % 8) % 16 * 16 ^ (c % 8) + k.dst * 16 ^ (c % 8))).setF
      (CPU_SPARE_MAPn.SPARE n) 15).setF (CPU_SPARE_MAPn.FAILED n) (setBit failed k.src true)
    let s2 := ((s1.setF (CPU_CORE_STATUSc.TILE c) k.dst).setF (CPU_CORE_STATUSc.STATE c) 0).raise CPU_RAS_ALARM.TAKEOVER
    let s3 := ((s2.modCore c (fun x => { x with
      takeover := none, retrying := false, serial := false, retryDue := false, keepLost := false, keepBad := false, tlb := [],
      hardOnce := [] })).setCs c 0).setF
      (CPU_CORE_STATUSc.UNPROT c) 0
    let s4 := [2 * c, 2 * c + 1].foldl (fun a h =>
      let a1 := match (a.hart h).run with
        | .agw _ _ => a.endWait h 3
        | _ => (a.modHart h (fun x => { x with resv := none, constrained := false, atomic := none })).freeTile (9 * n + k.src)
      (a1.scrub h 7).modHart h (fun x => { x with sinceRetry := 0, lastRetire := s.leaf,
                                                  skipLeaves := x.skipLeaves + (if x.world then s.leaf - k.leaf else 0) })) s3
    ((s4.specDeliver c).idleCore c).logAt 0x0001 (s4.tileLoc n k.src 0) 5 [k.reason, c, k.leaf, s.leaf]

/-- A planned move (R145, R555): refused in the cases of R145. -/
def State.moveRefused (s : State) (c : Nat) : Bool :=
  decide (191 < c) || decide (s.f (CPU_SPARE_MAPn.SPARE (c / 8)) = 15) || s.quireBusy (c / 8) ||
    decide (s.f (CPU_CORE_STATUSc.STATE c) ≠ 0)

/-- A write of CPU_SPARE_CMD: with GO, a planned move is started or refused. -/
def State.actSpareCmd (s : State) (v : Word) : State :=
  if CPU_SPARE_CMD.GO.of v = 0 then s.applyWrite CPU_SPARE_CMD v
  else
    let c := CPU_SPARE_CMD.LCORE.of v
    if s.moveRefused c then s.raise CPU_RAS_ALARM.CMD_REFUSED
    else (s.applyWrite CPU_SPARE_CMD v).beginTakeover c 7 false

/-! ### Slice retirement (R169) -/

/-- The entries of the home table in force that name slice n, in ascending order. -/
def State.entriesOf (s : State) (n : Nat) : List Nat :=
  (List.range 512).flatMap (fun j =>
    let w := (s.reg (L3_HOME_TABLEj j)).toNat
    (List.range 8).filterMap (fun k => if w / 2 ^ (8 * k) % 256 = n then some (8 * j + k) else none))

/-- The in-service slice with the fewest entries in `counts`, the lowest number among equals. -/
def fewest (counts : List (Nat × Nat)) : Option Nat :=
  match counts with
  | [] => none
  | x :: xs => some (xs.foldl (fun (b : Nat × Nat) y => if y.2 < b.2 then y else b) x).1

/-- Where the entries of a retiring slice go (R169 step 2). -/
def spread : List Nat → List (Nat × Nat) → List (Nat × Nat)
  | [], _ => []
  | e :: es, counts =>
    match fewest counts with
    | none => []
    | some n => (e, n) :: spread es (counts.map (fun c => if c.1 = n then (c.1, c.2 + 1) else c))

/-- The in-service slices with their entry counts. -/
def State.sliceCounts (s : State) : List (Nat × Nat) :=
  (List.range 216).filterMap (fun n => if s.f (L3_SLICE_STATUSs.STATE n) = 0 then some (n, s.f (L3_SLICE_STATUSs.ENTRIES n)) else none)

/-- Byte k of a word set. -/
def putByte (w : Word) (k v : Nat) : Word := wput w (8 * k + 7) (8 * k) v

/-- The service engine writes the new table into the shadow. -/
def State.writeHomeShadow (s : State) (n : Nat) : State :=
  let base := (s.entriesOf n).foldl (fun (a : State) e => a.setReg (L3_HOME_SHADOWj (e / 8)) (a.reg (L3_HOME_TABLEj (e / 8)))) s
  (spread (s.entriesOf n) s.sliceCounts).foldl (fun a (x : Nat × Nat) =>
    a.setReg (L3_HOME_SHADOWj (x.1 / 8)) (putByte (a.reg (L3_HOME_SHADOWj (x.1 / 8))) (x.1 % 8) x.2)) base

/-- A slice starts its retirement (R169 step 1): its change is armed once no other with L3 in its SCOPE is live, with its shadow written. -/
def State.retireSlice (s : State) (n : Nat) : State :=
  if s.f (L3_SLICE_STATUSs.STATE n) ≠ 0 then s
  else
    ((s.setF (L3_SLICE_STATUSs.STATE n) 1).raise L3_RAS_ALARM.SLICE_RETIRING).startHw (s.leaf + 3) (.slice n)

/-- A write of L3_SLICE_CMD: with GO, a retirement is started or refused. -/
def State.actSliceCmd (s : State) (v : Word) : State :=
  if L3_SLICE_CMD.GO.of v = 0 then s.applyWrite L3_SLICE_CMD v
  else
    let n := L3_SLICE_CMD.SLICE.of v
    let others := (List.range 216).all (fun m => decide (m = n) ||
      decide (s.f (L3_SLICE_STATUSs.STATE m) = 0 ∨ s.f (L3_SLICE_STATUSs.STATE m) = 3))
    if 215 < n ∨ s.f (L3_SLICE_STATUSs.STATE n) ≠ 0 ∨ others = false then s.raise L3_RAS_ALARM.CMD_REFUSED
    else (s.applyWrite L3_SLICE_CMD v).retireSlice n

/-- A tile kills the lines that a recovery names (R184, R185): as SnpKill. -/
def State.killWhere (s : State) (t : Nat) (p : Nat → Bool) : State :=
  let x := s.tile t
  let ls := (x.l2.lines.filterMap (fun (e : Nat × Option CLine) => e.2.map (·.line)) ++ x.vb.map (·.line)).filter p
  (ls.foldl (fun a l => (a.tileSnoop t l 3 .kill).1) s).freeTile t

/-- How a recovery snoop and its answers name what they are about, as a line number: a set of slice n, or slice n as a whole. The spec gives no
layout: the address lies in the reserved part of the map (R41; log entry 58). -/
def recoveryName (n : Nat) (set : Option Nat) : Nat :=
  0x3C0000000000 + match set with
    | some x => n * 4096 + x
    | none => 2 ^ 20 + n

/-- The name of a recovery. -/
def Recovery.name (r : Recovery) : Nat := recoveryName r.slice r.set

/-- The tiles of the modules that can be reached, isolated ones too (R184, R185). -/
def State.farTiles (s : State) : List (Nat × Nat) :=
  ((List.range 8).filter (fun m => decide (m ≠ s.moduleNo) && s.moduleReachable m)).flatMap (fun m =>
    (List.range 216).map (fun t => (m, t)))

/-- An upgrade under way for a line that `p` picks asks for the line, which is gone (R183). -/
def HomeTxn.anew (p : Nat → Bool) (x : HomeTxn) : HomeTxn :=
  if p x.line && decide (x.req.kind = ReqKind.upg) then { x with req := { x.req with kind := ReqKind.rdOwn } } else x

/-- Every tile of the system is asked for the lines that `p` picks (R184, R185, R452): those of this module kill them, and the linked modules'
tiles are sent a snoop each; until they have answered, the homes hold the requests for those lines. -/
def State.recallAll (s : State) (n : Nat) (set : Option Nat) (indices : List Nat) (p : Nat → Bool) : State :=
  let name := recoveryName n set * 64
  let s1 := ((List.range 216).filter (fun t => !s.mesh.routersOut.contains t)).foldl (fun a t =>
    ((a.inside 1 (if set.isSome then 6 else 7) t (256 + n) name false false none).killWhere t p).inside 2 0 (256 + n) t name false false none) s
  let s2 : State := { s1 with slices := s1.slices.map (fun (e : Nat × Slice) => (e.1, { e.2 with txns := e.2.txns.map (HomeTxn.anew p) })) }
  let tiles := s.farTiles
  let s3 := tiles.foldl (fun a h => a.emit (.packet 1 (if set.isSome then 6 else 7) h.1 h.2 (256 + n) (recoveryName n set * 64) false false none)) s2
  if tiles.isEmpty then s3
  else { s3 with recoveries := s3.recoveries ++ [{ slice := n, set := set, indices := indices, await := tiles, since := s.leaf }] }

/-- A recovery begins (R184, R185): the alarm is set, and the lines are recalled. -/
def State.recover (s : State) (n : Nat) (set : Option Nat) (indices : List Nat) (p : Nat → Bool) : State :=
  (s.recallAll n set indices p).raise L3_COH_ALARM.DIR_RECOVER

/-- A tile of another module answers a recovery's snoop; with the last answer the requests that were held are taken. -/
def State.recoveryAnswer (s : State) (name : Nat) (h : Nat × Nat) : State :=
  let s1 := { s with recoveries := s.recoveries.map (fun (r : Recovery) => if r.name = name then { r with await := r.await.filter (· ≠ h) } else r) }
  let s2 := { s1 with recoveries := s1.recoveries.filter (fun (r : Recovery) => !r.await.isEmpty) }
  if s2.recoveries.length = s1.recoveries.length then s2
  else (List.range 216).foldl State.takeStalled s2

/-- What stands at a slice that hands over (R169 step 5) goes to the new home of its line. -/
def State.handOver (s : State) (old : Slice) : State :=
  let s1 := old.txns.foldl (fun a x => a.modSlice (a.homeSlice (x.line * 64)) (fun sl => { sl with txns := sl.txns ++ [x] })) s
  old.stalled.foldl (fun a x => match x with
    | .request _ r => (a.homeRequest r).1
    | .entry _ e => a.dirInsert (a.homeSlice (e.line * 64)) e) s1

/-- The home table takes a slice's new entries, and its directory's entries go to their new homes; where its control checks
failed, the lines are recovered instead (R169 steps 4 and 5, R185). -/
def State.switchSlice (s : State) (n : Nat) : State :=
  let moved := s.entriesOf n
  let s1 := moved.foldl (fun a e => a.setReg (L3_HOME_TABLEj (e / 8)) (a.reg (L3_HOME_SHADOWj (e / 8)))) s
  let s2 := moved.foldl (fun a e => a.incF (L3_SLICE_STATUSs.ENTRIES (a.homeEntry e))) s1
  let s3 := ((s2.setF (L3_SLICE_STATUSs.STATE n) 2).setF (L3_SLICE_STATUSs.ENTRIES n) 0)
  let old := s3.slice n
  let s4 := s3.modSlice n (fun sl => { sl with dir := [], dirTree := [], txns := [], stalled := [], moved := moved.length })
  (if old.dirBad then s4.recover n none moved (fun l => s4.ownLine l && moved.contains (homeIndex (l * 64)))
  else old.dir.foldl (fun a (x : Nat × Option DirEntry) =>
    match x.2 with
    | none => a
    | some e => a.dirInsert (a.homeSlice (e.line * 64)) e) s4).handOver old

/-- The hand-off ends: the slice's clean lines go, it is RETIRED, and a record is written (R169 step 6). -/
def State.handoffEnd (s : State) (n : Nat) : State :=
  if s.f (L3_SLICE_STATUSs.STATE n) = 2 then
    let moved := (s.slice n).moved
    ((((s.leaveService (s.tileLoc (n / 9) (n % 9) 11)).modSlice n (fun sl => { sl with l3 := {}, dirBad := false })).setF (L3_SLICE_STATUSs.STATE n) 3).raise
      L3_RAS_ALARM.SLICE_RETIRED).logAt 0x0011 (s.tileLoc (n / 9) (n % 9) 10) 5 [n, moved]
  else s

/-! ### Way retirement (R164 to R166) -/

/-- The location of a way: its unit in the tile, and the way as the array field. -/
def State.wayLoc (s : State) (t : Nat) (k : ArrayKind) (w : Nat) : Loc :=
  let u := match k with
    | .l1i => 1
    | .l1d => 2
    | .l2 => 3
    | .vb => 4
    | .l3 => 10
  { s.tileLoc (t / 9) (t % 9) u with array := w }

/-- Change what a tile or slice records of an array's errors and walks. -/
def State.modWays (s : State) (t : Nat) (k : ArrayKind) (g : WayState → WayState) : State :=
  match k with
  | .l3 => s.modSlice t (fun x => { x with ways := g x.ways })
  | _ => s.modTile t (fun x => { x with ways := g x.ways })

/-- A way reaches its threshold, or errs twice: it starts retiring, or its array is beyond its limit (R164, R165). -/
def State.triggerWay (s : State) (t : Nat) (k : ArrayKind) (w : Nat) : State :=
  let ws := s.wayState t k
  let limit := match k with
    | .l3 => s.f L3_RAS_CTL.SLICE_LIMIT
    | _ => k.limit
  if (s.f (retiredField t k)).testBit w || ws.walking.contains (k, w) || ws.waiting.contains (k, w) then s
  else if limit ≤ s.waysGone t k then
    match k with
    | .vb => (s.setF (retiredField t k) (setBit (s.f (retiredField t k)) w true)).raise CPU_CACHE_ALARM.VB_OFF
    | .l3 => s.retireSlice t
    | _ => s.tileCoreFails t 2
  else if ws.walking.any (fun x => decide (x.1 = k)) then s.modWays t k (fun x => { x with waiting := x.waiting ++ [(k, w)] })
  else s.modWays t k (fun x => { x with walking := x.walking ++ [(k, w)] })

/-- The lines that a way of an array holds. -/
def Arr.wayLines (a : Arr) (w : Nat) : List CLine :=
  a.lines.filterMap (fun (e : Nat × Option CLine) => if e.1 % 16 = w then e.2 else none)

/-- The walker visits every set of a way (R165). -/
def State.walkWay (s : State) (t : Nat) (k : ArrayKind) (w : Nat) : State :=
  match k with
  | .l1i => s.modTile t (fun x => (x.l1i.wayLines w).foldl (fun y e => { y with l1i := y.l1i.drop e.line }) x)
  | .l1d => s.modTile t (fun x => (x.l1d.wayLines w).foldl (fun y e =>
      { y with l2 := y.l2.modify e.line (fun o => (y.merged o)), l1d := y.l1d.drop e.line }) x)
  | .l2 => ((s.tile t).l2.wayLines w).foldl (fun a e =>
      let m := (a.tile t).merged e
      ((a.lineGone t e.line 3).modTile t (fun x => x.drop e.line)).leaveTile t m) s
  | .vb =>
    ((s.tile t).vb.filter (fun e => decide (e.slot = w))).foldl (fun a e => a.leaveTile t e)
      (s.modTile t (fun x => { x with vb := x.vb.filter (fun e => decide (e.slot ≠ w)) }))
  | .l3 => s.modSlice t (fun x => (x.l3.wayLines w).foldl (fun y e => { y with l3 := y.l3.drop e.line }) x)

/-- The alarm of a retired way (R166). -/
def wayAlarm : ArrayKind → Fld
  | .l1i | .l1d => CPU_CACHE_ALARM.L1_RET
  | .l2 => CPU_CACHE_ALARM.L2_RET
  | .vb => CPU_CACHE_ALARM.VB_RET
  | .l3 => L3_RAS_ALARM.WAY_RET

/-- The next way whose walk may start in an array: the lowest of those waiting. -/
def nextWay (k : ArrayKind) (l : List (ArrayKind × Nat)) : Option Nat :=
  ((l.filter (fun x => decide (x.1 = k))).map (·.2)).min?

/-- The walk of an array's way ends: the way is retired, and the next walk starts. -/
def State.wayWalkEnd (s : State) (t : Nat) (k : ArrayKind) : State :=
  match (s.wayState t k).walking.find? (fun x => decide (x.1 = k)) with
  | none => s
  | some (_, w) =>
    let s1 := ((s.setF (retiredField t k) (setBit (s.f (retiredField t k)) w true)).walkWay t k w).freeTile t
    let s2 := (s1.raise (wayAlarm k)).logAt 0x0010 (s1.wayLoc t k w) 6 [k.num, w]
    s2.modWays t k (fun x =>
      let x1 := { x with walking := x.walking.filter (fun y => decide (y.1 ≠ k)) }
      match nextWay k x1.waiting with
      | none => x1
      | some n => { x1 with walking := x1.walking ++ [(k, n)], waiting := x1.waiting.filter (fun y => decide (y ≠ (k, n))) })

/-! ### Errors of arrays (R163, R184) -/

/-- The threshold of corrected errors of an array (R164). -/
def State.wayThresh (s : State) : ArrayKind → Nat
  | .l1i | .l1d => s.f CPU_CACHE_CTL.L1_THRESH
  | .l2 | .vb => s.f CPU_CACHE_CTL.L2_THRESH
  | .l3 => s.f L3_RAS_CTL.WAY_THRESH

/-- A corrected error is counted against its way. -/
def State.countWay (s : State) (t : Nat) (k : ArrayKind) (w : Nat) : State :=
  let key := k.num * 16 + w
  let n := (s.wayState t k).corrected.get 0 key + 1
  let s1 := (s.modWays t k (fun x => { x with corrected := x.corrected.set 0 key n })).lifeInc
    (0x1C00 + 32 * t + (if k = .l3 then 8 else 0)) 0 64
  let s2 := if k = .l3 then s1.incF (L3_SLICE_STATUSs.CE_COUNT t) else s1
  if s.wayThresh k ≤ n then s2.triggerWay t k w else s2

/-- An uncorrectable error of an entry is counted: the second in a gathering retires its way. -/
def State.countEntry (s : State) (t : Nat) (k : ArrayKind) (w set : Nat) : State :=
  let s1 := s.lifeInc (0x1C00 + 32 * t + 16) 0 32
  if (s.wayState t k).once.contains (k, w, set) then s1.triggerWay t k w
  else s1.modWays t k (fun x => { x with once := (k, w, set) :: x.once })

/-- A retry of the core that a tile serves, if any. -/
def State.retryTile (s : State) (t : Nat) : State :=
  match s.coreOfTile t with
  | some c => if s.f (CPU_CORE_STATUSc.STATE c) < 2 then s.retry c else s
  | none => s

/-- A line with an uncorrectable data error leaves a tile: clean, it is dropped and the work retried; Modified, its home
takes poison in its place (R129, R149). -/
def State.dropBad (s : State) (t line : Nat) : State :=
  match (s.tile t).holds line with
  | none => s.retryTile t
  | some e =>
    let s1 := (s.modTile t (fun x => x.drop line)).lineGone t line 3
    if e.st = .modified then
      (s1.leaveTile t { e with poison := true }).logAt 0x0003 (s1.tileLoc (t / 9) (t % 9) 3) 5 [line * 64, 1]
    else (s1.leaveTile t e).retryTile t

/-- An array of tile or slice t reports an error at a set and way. -/
def State.arrayError (s : State) (t : Nat) (k : ArrayKind) (set w : Nat) (e : ArrayFault) : State :=
  let arr : Arr := match k with
    | .l1i => (s.tile t).l1i
    | .l1d => (s.tile t).l1d
    | .l2 => (s.tile t).l2
    | .vb => {}
    | .l3 => (s.slice t).l3
  let held : Option CLine := match k with
    | .vb => (s.tile t).vb.find? (fun e => decide (e.slot = w))
    | _ => arr.at set w
  match e with
  | .corrected => s.countWay t k w
  | .oneTag => s.countEntry t k w set
  | .tree =>
    match k with
    | .l1i => s.modTile t (fun x => { x with l1i := { x.l1i with tree := x.l1i.tree.set 0 set 0 } })
    | .l1d => s.modTile t (fun x => { x with l1d := { x.l1d with tree := x.l1d.tree.set 0 set 0 } })
    | .l2 => s.modTile t (fun x => { x with l2 := { x.l2 with tree := x.l2.tree.set 0 set 0 } })
    | .l3 => s.modSlice t (fun x => { x with l3 := { x.l3 with tree := x.l3.tree.set 0 set 0 } })
    | .vb => s
  | .bothTags =>
    match k with
    | .l3 => (s.countEntry t k w set).modSlice t (fun x => { x with l3 := x.l3.put set w none })
    | .l1i =>
      ((s.countEntry t k w set).modTile t (fun x => { x with l1i := x.l1i.put set w none })).retryTile t
    | _ =>
      let lines : List Nat := match k with
        | .l2 => arr.lines.filterMap (fun (x : Nat × Option CLine) => if x.1 / 16 = set then x.2.map (fun (c : CLine) => c.line) else none)
        | .l1d => arr.lines.filterMap (fun (x : Nat × Option CLine) => if x.1 / 16 = set then x.2.map (fun (c : CLine) => c.line) else none)
        | _ => (s.tile t).vb.map (fun (c : CLine) => c.line)
      let s1 := (s.countEntry t k w set).tileCoreFails t 2
      lines.foldl (fun a l =>
        match (a.tile t).holds l with
        | some c =>
          if decide (c.st = .modified ∨ c.st = .exclusive) then
            let a1 := (a.modTile t (fun x => x.drop l)).lineGone t l 3
            if a.ownLine l then a1.poisonOwned l 1 else a1.sendWriteBack t l 0 true c.world
          else a
        | none => a) s1
  | .data =>
    match k with
    | .l3 => (s.countEntry t k w set).modSlice t (fun x => { x with l3 := x.l3.put set w none })
    | .l1i => ((s.countEntry t k w set).modTile t (fun x => { x with l1i := x.l1i.put set w none })).retryTile t
    | _ =>
      match held with
      | some c => (s.countEntry t k w set).dropBad t c.line
      | none => (s.countEntry t k w set).retryTile t

/-- Both copies of a directory entry fail: the set is recovered, every entry of it cleared (R184). -/
def State.setRecovery (s : State) (n set : Nat) : State :=
  let s1 := (s.incF (L3_DIR_STATUSs.RECOVER n)).modSlice n (fun sl => { sl with dir := sl.dir.filter (fun (e : Nat × Option DirEntry) =>
    decide (e.1 / 16 ≠ set)) })
  s1.recover n (some set) [] (fun l => s.ownLine l && decide (s.homeSlice (l * 64) = n) && decide (l3Set l = set))

/-! ### The commands -/

/-- DETECTION. -/
def execDetection (c : Nat) (d : Detection) (unit array cell : Nat) (s : State) : Host.Outcome State Fault Refusal :=
  .next (s.running (s.detection c d (unit, array, cell)))

/-- RETRY_SUCCESS. -/
def execRetrySuccess (c : Nat) (s : State) : Host.Outcome State Fault Refusal := .next (s.running (s.retrySuccess c))

/-- KEEP_SCRUB. -/
def execKeepScrub (c : Nat) (k : KeepScrub) (s : State) : Host.Outcome State Fault Refusal := .next (s.running (s.keepScrub c k))

/-- HANG. -/
def execHang (h : Nat) (s : State) : Host.Outcome State Fault Refusal := .next (s.running (s.hang h))

/-- CLOCK. -/
def execClockFailure (c : Nat) (s : State) : Host.Outcome State Fault Refusal := .next (s.running (s.coreFails c 4))

/-- POWER: the supply is out of range for the whole leaf l. -/
def execPowerFailure (c l : Nat) (s : State) : Host.Outcome State Fault Refusal :=
  .next (s.running ((s.untilLeaf (l + 1)).coreFails c 5))

/-- PERFORM_RETIRED_STORES. -/
def execPerformRetiredStores (c : Nat) (bad : Bool) (s : State) : Host.Outcome State Fault Refusal :=
  .next (s.running (s.performRetired c bad))

/-- CPU_SPARE_CMD_GO. -/
def execCpuSpareCmdGo (who : Requester) (v : Word) (s : State) : Host.Outcome State Fault Refusal :=
  let w := CPU_SPARE_CMD.GO.put 1 v
  .next (s.running (s.written who 8 CPU_SPARE_CMD w (fun s => s.actSpareCmd w)))

/-- ARRAY_ERROR; `dir`: the entry of a directory slice instead of an array's. -/
def execArrayError (t : Nat) (dir : Bool) (k : ArrayKind) (set w : Nat) (e : ArrayFault) (s : State) :
    Host.Outcome State Fault Refusal :=
  .next (s.running (if dir then (if e = .bothTags then s.setRecovery t set else s) else (s.arrayError t k set w e).freeTile t))

/-- WAY_WALK_END. -/
def execWayWalkEnd (t : Nat) (k : ArrayKind) (s : State) : Host.Outcome State Fault Refusal :=
  .next (s.running (s.wayWalkEnd t k))

/-- L3_SLICE_CMD_GO. -/
def execL3SliceCmdGo (who : Requester) (v : Word) (s : State) : Host.Outcome State Fault Refusal :=
  let w := L3_SLICE_CMD.GO.put 1 v
  .next (s.running (s.written who 8 L3_SLICE_CMD w (fun s => s.actSliceCmd w)))

/-- HANDOFF_END. -/
def execHandoffEnd (n : Nat) (s : State) : Host.Outcome State Fault Refusal := .next (s.running (s.handoffEnd n))

/-- KEEP_ISLAND_SUPPLY: the keep is lost (R138). -/
def execKeepIslandSupply (c : Nat) (s : State) : Host.Outcome State Fault Refusal := .next (s.running (s.loseKeep c))

/-- SLICE_CONTROL_CHECK: the tag pipeline of slice n fails its checks; `dir`: its directory's control checks fail too. -/
def execSliceControlCheck (n : Nat) (dir : Bool) (s : State) : Host.Outcome State Fault Refusal :=
  .next (s.running ((if dir then s.modSlice n (fun sl => { sl with dirBad := true }) else s).retireSlice n))

end Sys2Proof.Machine
end

