-- ==== Sys2Proof/Machine/Mesh.lean ====
section
/-! DEFINITION. The mesh and the die links (R26 to R33, R195 to R210): retired links and routers, packets in flight and those with errors. -/

namespace Sys2Proof.Machine

open Sys2Proof

/-! ### Stops and links (R28, R29, R31) -/

/-- The register of the retired links of die d, horizontal or vertical. -/
def retReg (d : Nat) (v : Bool) : Nat := if v then MESH_RET_Vd d else MESH_RET_Hd d

/-- The number of a mesh link in event-log payloads: die × 128 + 64 for a vertical link + 8y + x. -/
def linkNo (d : Nat) (v : Bool) (x y : Nat) : Nat := d * 128 + (if v then 64 else 0) + 8 * y + x

/-! ### The check of R208 -/

/-- Every ordered pair of stops in service, with its route. -/
def DieMesh.routes (m : DieMesh) : List (List (Nat × Nat × Nat) × Bool) :=
  let stops := (List.range 64).filter (fun st => !m.out.contains st)
  stops.flatMap (fun a => (stops.filter (· ≠ a)).map (fun b => walkRoute m b 40 a none))

/-- The dependencies between the channels of routes: each channel waits for the next one of a route. -/
def dependencies (rs : List (List (Nat × Nat × Nat) × Bool)) : List ((Nat × Nat × Nat) × (Nat × Nat × Nat)) :=
  rs.flatMap (fun r => r.1.zip (r.1.drop 1))

/-- Remove the dependencies whose target waits for nothing, again and again; what is left lies on a cycle. -/
def peel : Nat → List ((Nat × Nat × Nat) × (Nat × Nat × Nat)) → List ((Nat × Nat × Nat) × (Nat × Nat × Nat))
  | 0, es => es
  | fuel + 1, es =>
    let es1 := es.filter (fun e => es.any (fun f => decide (f.1 = e.2)))
    if es1.length = es.length then es else peel fuel es1

/-- The check of R208 step 1: every pair is delivered, and no virtual channel has a cycle of dependencies. -/
def DieMesh.sound (m : DieMesh) : Bool :=
  let rs := m.routes
  rs.all (·.2) && (peel 256 (dependencies rs).dedup).isEmpty

/-- The mesh of die d with what is retired now. -/
def State.dieMesh (s : State) (d : Nat) : DieMesh :=
  { h := (s.reg (MESH_RET_Hd d)).toNat, v := (s.reg (MESH_RET_Vd d)).toNat,
    out := (s.mesh.routersOut.filter (fun t => decide (t / 54 = d))).map (fun t => routerStop (t % 54)) }

/-- Tile routers next to a retired link, in descending index. -/
def DieMesh.suspects (m : DieMesh) : List Nat :=
  ((List.range 64).filter (fun st => decide (!m.out.contains st) &&
    (m.h.testBit st || m.v.testBit st || (decide (1 ≤ st) && m.h.testBit (st - 1)) || (decide (8 ≤ st) && m.v.testBit (st - 8))))).filterMap
    routerIndex |>.reverse

/-- The tile routers that step 1 of R208 takes out, at most `fuel`. -/
def DieMesh.cut : Nat → DieMesh → List Nat
  | 0, _ => []
  | fuel + 1, m =>
    if m.sound then []
    else
      match m.suspects.head? with
      | none => []
      | some i => i :: DieMesh.cut fuel { m with out := routerStop i :: m.out }

/-! ### Retirement (R205, R208) -/

/-- Change the mesh's own state. -/
def State.modMesh (s : State) (g : Mesh → Mesh) : State := { s with mesh := g s.mesh }

/-- A new map is due for dies (R208): it joins a change that waits; one that is PENDING is aborted and a change for both is made; after one that is
COMMITTED it is armed in the leaf after T. -/
def State.mapDue (s : State) (ds : List Nat) : State :=
  let waiting := s.waiting.any (fun w => match w.change with
    | .mesh _ => true
    | _ => false)
  if waiting then
    { s with waiting := s.waiting.map (fun w => match w.change with
        | .mesh es => { w with change := .mesh (es ++ ds.filter (fun d => !es.contains d)) }
        | _ => w) }
  else
    let mesh (n : Nat) : Bool := match (s.slot n).change with
      | .mesh _ => true
      | _ => false
    match [6, 7].find? (fun n => s.beforeCut n && mesh n) with
    | none =>
      let done := ([6, 7].filter (fun n => s.slotLive n && mesh n)).map (fun n => (s.slot n).target)
      s.startHw (done.foldl max s.leaf + 1) (.mesh ds)
    | some n =>
      let old := match (s.slot n).change with
        | .mesh es => es
        | _ => []
      ((((s.setF (TB_MCn_STATUS.STATE n) 4).setF (TB_MCn_STATUS.CAUSE n) 2).modSlot n (fun sl =>
        { sl with change := .none, participants := [] })).afterSlot n (fun _ => true)).startHw (s.leaf + 1) (.mesh (old ++ ds.filter (fun d => !old.contains d)))

/-- A link or router has stopped (R208): until its change of maps no snoop's wait counts (R186). -/
def State.linkStops (s : State) : State :=
  s.modMesh (fun m => { m with stopped := some (m.stopped.getD s.leaf), stopsOn := m.stopsOn || m.staged.isSome })

/-- The number of a mesh link's direction: from a stop of die d one hop in a direction. -/
def hopNo (d st dir : Nat) : Nat :=
  let low := min st (hop st dir)
  2 * linkNo d (decide (dir = 0 ∨ dir = 2)) (low % 8) (low / 8) + (if dir = 0 ∨ dir = 1 then 0 else 1)

/-- The packets of a queue behind the one of a number. -/
def behind (no : Nat) (q : List Flight) : List Flight :=
  if q.any (fun p => decide (p.no = no)) then (q.dropWhile (fun p => decide (p.no ≠ no))).drop 1 else q

/-- The senders of a retired mesh link keep only what its receivers have not taken whole (R208 step 2): from the last packet that each has taken in
each class. -/
def State.resendRest (s : State) (d st dir : Nat) : State :=
  let away (a b : Nat) (m : Mesh) : Mesh := (List.range 4).foldl (fun (m : Mesh) c =>
    match m.taken.get none (hopNo d a b * 4 + c) with
    | none => m
    | some no => ((List.range 6).flatMap (fun i => [bufferNo (64 * d + a) i c 0, bufferNo (64 * d + a) i c 1])).foldl (fun (m : Mesh) k =>
        { m with buffers := m.buffers.modify [] k (behind no) }) m) m
  s.modMesh (fun m => away (hop st dir) ((dir + 2) % 4) (away st dir m))

/-- A tile router goes out of service (R208 step 1): its core is declared failed, its slices are retired. -/
def State.retireRouter (s : State) (t : Nat) : State :=
  if s.mesh.routersOut.contains t then s
  else
    let s1 := (s.modMesh (fun m => { m with routersOut := t :: m.routersOut })).raise MESH_ALARM.ROUTER_RET
    let s2 := match s1.coreOfTile t with
      | some c => (s1.modCore c (fun x => { x with takeover := x.takeover.map (fun (k : Takeover) => { k with routerOut := true }) })).declare c 9 true
      | none => s1.spareFails t
    (s2.modSlice t (fun sl => { sl with dirBad := true })).retireSlice t

/-- A mesh link is retired (R208); `cause`: 0 for uncorrectable errors. -/
def State.retireLink (s : State) (d : Nat) (v : Bool) (x y cause : Nat) : State :=
  let k := retReg d v
  let bit := 8 * y + x
  if (s.reg k).getLsbD bit then s
  else
    let s1 := ((s.setReg k (wflag (s.reg k) bit true)).raise MESH_ALARM.LINK_RET).logAt 0x0030 (s.dieLoc d 0) 2 [linkNo d v x y, cause]
    let cut := DieMesh.cut 54 (s1.dieMesh d)
    (((cut.foldl (fun a i => a.retireRouter (54 * d + i)) s1).mapDue [d]).linkStops).resendRest d bit (if v then 0 else 1)

/-- A die link is retired (R205). -/
def State.retireDieLink (s : State) (k cause : Nat) : State :=
  if s.f (MESH_DLINKk_STATUS.STATE k) = 2 then s
  else
    ((((s.setF (MESH_DLINKk_STATUS.STATE k) 2).raise MESH_ALARM.XLIMIT).logAt 0x0030 (s.dieLoc ((linkDies k).headD 0) 24) 5
      [4096 + k, cause]).mapDue (linkDies k)).linkStops

/-- A packet that a router has discarded stays with its sender, which sends it again in a later mesh cycle: the buffers of the router at either end
of the link whose first packet has this header (R203). -/
def State.sendAgain (s : State) (d st dir : Nat) (hdr : BitVec 128) : State :=
  s.modMesh (fun m => { m with buffers := m.buffers.map (fun (e : Nat × List Flight) =>
    if e.1 / 48 = 64 * d + st ∨ e.1 / 48 = 64 * d + hop st dir then
      (match e.2 with
      | p :: rest => (e.1, (if p.hdr = hdr then { p with moved := m.cycle + 1 } else p) :: rest)
      | [] => e)
    else e) })

/-- The router at a link's end takes a packet's flits with errors (R202, R203): the bits in error of each 8 bytes, header first. Single bits are
corrected and counted. With more in any 8 bytes, or a reserved value in the header (R200), the whole packet is discarded; the sender, whose buffer
holds it still, sends it again, and the link is retired at the limit. -/
def State.packetUe (s : State) (d : Nat) (v : Bool) (x y : Nat) (hdr : BitVec 128) (errs : List Nat) : State :=
  let s0 := s.addF (MESH_LINKSd.CE d) (errs.filter (fun e => decide (e = 1))).length
  if errs.any (fun e => decide (2 ≤ e)) || (Header.of hdr).reserved then
    let l := linkNo d v x y
    let n := s.mesh.errors.get 0 l + 1
    let s1 := (((s0.incF (MESH_LINKSd.UE d)).raise MESH_ALARM.LINK_UE).sendAgain d (8 * y + x) (if v then 0 else 1) hdr).modMesh (fun m =>
      { m with errors := m.errors.set 0 l n })
    if s.f MESH_CTL.UE_LIMIT ≤ n then s1.retireLink d v x y 0 else s1
  else s0

/-! ### Packets in flight (R195 to R198, R204) -/

/-- The flits of a packet. -/
def Flight.flits (p : Flight) : List (BitVec 256) := p.hdr.setWidth 256 :: p.data

/-- The flits that a buffer holds. -/
def flitsHeld (q : List Flight) : Nat := q.foldl (fun a p => a + p.flits.length) 0

/-- Whether a buffer holds space for a whole packet: the credits that its sender has (R197). -/
def State.credits (s : State) (k : Nat) (p : Flight) : Bool :=
  decide (flitsHeld (s.mesh.buffers.get [] k) + p.flits.length ≤ 3 + Config.routerSpace)

/-- The first packet of buffer k, if it has not moved in this cycle and takes output o. -/
def State.headFor (s : State) (k o : Nat) : Option Flight :=
  (s.mesh.buffers.get [] k).head?.filter (fun p => decide ((Header.of p.hdr).next = o ∧ p.moved ≠ s.mesh.cycle))

/-- The die link that a packet takes at a die, and its direction (R196, R204, R206): 2 × link, and 1 more towards the link's first die. -/
def State.linkOf (s : State) (d : Nat) (p : Flight) : Nat :=
  let bit12 := (Header.of p.hdr).addr / 4096 % 2
  let dead := s.mesh.maps.dead
  let k := if d < 4 then dieLinkTo dead d p.exit bit12 else ioLinkTo dead (d - 4) (if p.exit < 4 then p.exit else midDie dead) bit12
  2 * k + if (linkDies k).headD 0 = d then 0 else 1

/-- Number of a crossing FIFO (R204): of a link's direction, at its sending station (0) or its receiving one (1), of a class. -/
def fifoNo (n side cls : Nat) : Nat := (2 * n + side) * 4 + cls

/-- Whether a crossing FIFO has room for a packet (R204). -/
def State.fifoRoom (s : State) (k : Nat) (p : Flight) : Bool := decide (flitsHeld (s.mesh.fifos.get [] k) + p.flits.length ≤ 32)

/-- A packet enters a crossing FIFO. -/
def State.enterFifo (s : State) (k : Nat) (p : Flight) : State :=
  s.modMesh (fun m => { m with fifos := m.fifos.modify [] k (· ++ [{ p with moved := m.cycle }]) })

/-- Whether a packet at router r may take its output now: the link is in use and the next buffer has room for all of it; at its own stop it leaves
the mesh, and at a station the crossing FIFO has room. -/
def State.mayGo (s : State) (r : Nat) (p : Flight) : Bool :=
  let h := Header.of p.hdr
  if h.next < 4 then
    (s.dieMesh (r / 64)).open (r % 64) h.next && s.credits (bufferNo (r / 64 * 64 + hop (r % 64) h.next) ((h.next + 2) % 4) h.cls h.vc) p
  else decide (p.exit = r / 64) || s.fifoRoom (fifoNo (s.linkOf (r / 64) p) 0 h.cls) p

/-- A packet leaves buffer k of router r by its output. -/
def State.takeOutput (s : State) (r k : Nat) (p : Flight) : State :=
  let h := Header.of p.hdr
  let s1 := s.modMesh (fun m => { m with buffers := m.buffers.modify [] k (·.drop 1) })
  if h.next < 4 then
    (s1.modMesh (fun m => { m with taken := m.taken.set none (hopNo (r / 64) (r % 64) h.next * 4 + h.cls) (some p.no) })).enterRouter
      (r / 64 * 64 + hop (r % 64) h.next) ((h.next + 2) % 4) p
  else if p.exit = r / 64 then s1
  else s1.enterFifo (fifoNo (s.linkOf (r / 64) p) 0 h.cls) p

/-- One output of a router is granted (R197): the inputs in an order that advances by one each cycle, and of an input's buffers the first whose
packet may go. -/
def State.grantOutput (s : State) (r o : Nat) : State :=
  let inputs := (List.range 6).flatMap (fun i => (List.range 8).map (fun j => bufferNo r ((s.mesh.cycle + i) % 6) (j / 2) (j % 2)))
  match inputs.findSome? (fun k => ((s.headFor k o).filter (s.mayGo r)).map (fun p => (k, p))) with
  | some (k, p) => s.takeOutput r k p
  | none => s

/-- The first packet of a FIFO that has not moved in this mesh cycle. -/
def State.fifoHead (s : State) (k : Nat) : Option Flight := (s.mesh.fifos.get [] k).head?.filter (fun p => decide (p.moved ≠ s.mesh.cycle))

/-- The two classes of a local port of a station, in an order that rotates with the mesh cycle (R198; log entry 59). -/
def State.portClasses (s : State) (port : Nat) : List Nat := if s.mesh.cycle % 2 = 0 then [port, port + 2] else [port + 2, port]

/-- A packet of a die link's direction n crosses from the sending station's FIFO to the receiving one's, for a local port (R198, R204): its flits
stay in the replay buffer. -/
def State.crossLink (s : State) (n port : Nat) : State :=
  if s.f (MESH_DLINKk_STATUS.STATE (n / 2)) = 2 then s
  else
    match (s.portClasses port).findSome? (fun c => ((s.fifoHead (fifoNo n 0 c)).filter (s.fifoRoom (fifoNo n 1 c))).map (fun p => (c, p))) with
    | none => s
    | some (c, p) =>
      let all := s.mesh.replay.get [] n ++ p.flits
      (s.modMesh (fun m => { m with
        fifos := m.fifos.modify [] (fifoNo n 0 c) (·.drop 1)
        replay := m.replay.set [] n (all.drop (all.length - 256)), crossed := m.crossed.modify 0 n (· + p.flits.length) })).enterFifo (fifoNo n 1 c) p

/-- A packet leaves the receiving station of a die link's direction n by a local port: it enters the station's router on a compute die, and has
left the mesh on an I/O die (R198). -/
def State.leaveStation (s : State) (n port : Nat) : State :=
  let e := (linkDies (n / 2)).getD (1 - n % 2) 4
  let r := 64 * e + stationStop e (n / 2)
  match (s.portClasses port).findSome? (fun c => ((s.fifoHead (fifoNo n 1 c)).filter (fun p =>
      decide (4 ≤ e) || s.credits (bufferNo r (4 + port) c (Header.of p.hdr).vc) p)).map (fun p => (c, p))) with
  | none => s
  | some (c, p) =>
    let s1 := s.modMesh (fun m => { m with fifos := m.fifos.modify [] (fifoNo n 1 c) (·.drop 1) })
    if 4 ≤ e then s1 else s1.enterRouter r (4 + port) p

/-- Whether a packet at its sender's place may enter the mesh (R197): its router's buffer, or the FIFO of its die link on an I/O die, has room. -/
def State.mayEnter (s : State) (place : Nat) (p : Flight) : Bool :=
  let h := Header.of p.hdr
  if place < 512 then s.credits (bufferNo (place / 2) (4 + place % 2) h.cls h.vc) p
  else s.fifoRoom (fifoNo (s.linkOf (place / 128) p) 0 h.cls) p

/-- A packet enters the mesh at its sender's place. -/
def State.enterAt (s : State) (place : Nat) (p : Flight) : State :=
  if place < 512 then s.enterRouter (place / 2) (4 + place % 2) p
  else s.enterFifo (fifoNo (s.linkOf (place / 128) p) 0 (Header.of p.hdr).cls) p

/-- The packets at their senders enter the mesh in their order, one of each place and class in a cycle, as far as there is room (R197). -/
def State.inject (s : State) : State :=
  (s.mesh.sources.foldl (fun (acc : State × List (Nat × Nat)) e =>
    let key := (e.1, (Header.of e.2.hdr).cls)
    let s1 := acc.1
    if !acc.2.contains key && s1.mayEnter e.1 e.2 then (s1.enterAt e.1 e.2, key :: acc.2)
    else (s1.modMesh (fun m => { m with sources := m.sources ++ [e] }), key :: acc.2)) (s.modMesh (fun m => { m with sources := [] }), [])).1

/-- The CRC-32 of the last whole group of eight flits of a die link's direction (R204). -/
def State.lastGroup (s : State) (n : Nat) : BitVec 32 :=
  let sent := s.mesh.replay.get [] n
  Config.groupCrc ((sent.take (sent.length - s.mesh.crossed.get 0 n % 8)).reverse.take 8).reverse

/-- One mesh cycle: the receiving stations pass packets on, every router grants its outputs, the die links carry packets each way, and the senders'
packets enter. -/
def State.meshCycle (s : State) : State :=
  let s0 := s.modMesh (fun m => { m with cycle := m.cycle + 1 })
  let both (a : State) (g : State → Nat → Nat → State) : State :=
    (a.mesh.fifos.map (fun e => e.1 / 8)).dedup.foldl (fun b n => g (g b n 0) n 1) a
  let s1 := both s0 State.leaveStation
  let s2 := (s1.mesh.buffers.map (fun e => e.1 / 48)).dedup.foldl (fun a r => (List.range 6).foldl (fun b o => b.grantOutput r o) a) s1
  (both s2 State.crossLink).inject

/-- The packets that wait are routed by the maps now in force; those in the sending FIFOs of retired die links go back to their stations, which send
them first (R206, R208). -/
def State.routeAgain (s : State) : State :=
  let back := s.mesh.fifos.filter (fun e => s.mesh.maps.dead.testBit (e.1 / 16) && decide (e.1 / 4 % 2 = 0))
  let place (k : Nat) : Nat :=
    let d := (linkDies (k / 16)).getD (k / 8 % 2) 0
    if d < 4 then (64 * d + stationStop d (k / 16)) * 2 + k % 2 else 128 * d
  s.modMesh (fun m => { m with
    buffers := m.buffers.map (fun (e : Nat × List Flight) => (e.1, e.2.map (s.routed (e.1 / 48))))
    fifos := m.fifos.filter (fun e => back.all (fun b => decide (b.1 ≠ e.1)))
    sources := back.flatMap (fun e => e.2.map (fun p => (place e.1, p))) ++ m.sources })

/-- The waits for answers to snoops count again from the switch of the maps (R186, R208): the leaves since the stop are left out. Where another link
has stopped since the change was COMMITTED, they go on standing still. -/
def State.snoopsGoOn (s : State) : State :=
  match s.mesh.stopped with
  | none => s
  | some l =>
    let on (since : Nat) : Nat := since + (s.leaf - max l since)
    { (s.modMesh (fun m => { m with stopped := if m.stopsOn then some s.leaf else none, stopsOn := false })) with
      slices := s.slices.map (fun (e : Nat × Slice) => (e.1, { e.2 with txns := e.2.txns.map (fun x => { x with since := on x.since }) }))
      recoveries := s.recoveries.map (fun r => { r with since := on r.since }) }

/-- A signed difference as a field of n bits shows it. -/
def signedBits (n : Nat) (i : Int) : Nat := (i % (2 ^ n : Nat)).toNat

/-- A die link's stations exchange their supplies and temperatures at the edge of leaf l (R205): differences in mV and °C, the
replays since the last measurement, and whether a replay has failed three times in succession. Within both limits again the link shows
IN_SERVICE, and a RETIRED link is measured no more: the model's choices (log entry 59). -/
def State.dieLinkMeasure (s : State) (k l : Nat) (mv deg : Int) (replays : Nat) (fail3 : Bool) : State :=
  if s.f (MESH_DLINKk_STATUS.STATE k) = 2 then s
  else
    let s1 := ((((s.untilLeaf l).setF (MESH_DLINKk_STATUS.VDIFF k) (signedBits 16 mv)).setF (MESH_DLINKk_STATUS.TDIFF k) (signedBits 8 deg)).addF
      (MESH_DLINKk_STATUS.REPLAYS k) replays)
    let s2 := (List.range replays).foldl (fun a _ => a.lifeInc (0x7100 + 8 * k) 0 64) s1
    let alarm := decide (250 < mv.natAbs ∨ 40 < deg.natAbs)
    let far := decide (300 < mv.natAbs ∨ 50 < deg.natAbs)
    let s3 := if alarm then (s2.setF (MESH_DLINKk_STATUS.STATE k) 1).raise MESH_ALARM.XDIFF else s2.setF (MESH_DLINKk_STATUS.STATE k) 0
    let since := s.mesh.beyond.get none k
    let s4 := s3.modMesh (fun m => { m with beyond := m.beyond.set none k (if far then some (since.getD l) else none) })
    if fail3 then s4.retireDieLink k 3
    else
      match since with
      | some a => if far && decide (a + 1 ≤ l) then s4.retireDieLink k 2 else s4
      | none => s4

/-- The routing maps with dies' parts as they would be made now. -/
def State.newMaps (s : State) (ds : List Nat) : MapSet :=
  { links := ds.foldl (fun t d =>
      if d < 4 then (t.set 0 (MESH_RET_Hd d) (s.reg (MESH_RET_Hd d))).set 0 (MESH_RET_Vd d) (s.reg (MESH_RET_Vd d)) else t) s.mesh.maps.links
    dead := (List.range 21).foldl (fun a k => if s.f (MESH_DLINKk_STATUS.STATE k) = 2 then a + 2 ^ k else a) 0
    out := s.mesh.routersOut }

/-- A change of maps is COMMITTED: what it makes known is settled (R208). -/
def State.stageMaps (s : State) (c : HwChange) : State :=
  match c with
  | .mesh ds => s.modMesh (fun m => { m with staged := some (s.newMaps ds) })
  | _ => s

/-- The routing maps of dies take effect (R206, R208 step 3), and what waited goes on. -/
def State.switchMaps (s : State) (ds : List Nat) : State :=
  (s.modMesh (fun m => { m with maps := m.staged.getD (s.newMaps ds), staged := none })).routeAgain.snoopsGoOn

/-! ### The commands -/

/-- PACKET_UE. -/
def execPacketUe (d : Nat) (v : Bool) (x y : Nat) (hdr : BitVec 128) (errs : List Nat) (s : State) : Host.Outcome State Fault Refusal :=
  .next (s.running (s.packetUe d v x y hdr errs))

/-- DIE_LINK_MEASURE. -/
def execDieLinkMeasure (k l : Nat) (mv deg : Int) (replays : Nat) (fail3 : Bool) (s : State) : Host.Outcome State Fault Refusal :=
  .next (s.running (s.dieLinkMeasure k l mv deg replays fail3))

end Sys2Proof.Machine
end

