-- ==== Sys2Proof/Machine/Coherence.lean ====
section
/-! DEFINITION. The packets of the coherence protocol (R175 to R188, R200): requests that reach a home of this module, snoops
that reach its tiles, and the responses and data that reach either. -/

namespace Sys2Proof.Machine

open Sys2Proof

/-- Whether a hart of a core has an access outstanding that is answered by `p`. -/
def Hart.awaits (t : Hart) (p : Nat → Bool) : Bool := t.io.any (fun a => a.ans.isNone && p a.addr)

/-- The answer of a hart's access to another module's I/O region (R200). The access commits with it at once where the core waits to retry, or is
failed (R133, R140); a refused one traps when the hart executes again. -/
def State.ioAnswerOf (s : State) (h code : Nat) (data : Word) : State :=
  let c := coreOf h
  match (s.hart h).io with
  | none => s
  | some a =>
    let s1 := if code = 0 ∧ ((s.core c).retryDue = true ∨ 2 ≤ s.f (CPU_CORE_STATUSc.STATE c)) then s.commitIo h a data
      else s.modHart h (fun t => { t with io := some { a with ans := some (code, data) } })
    (s1.answeredAt (s1.tileOfCore c)).retryNow c

/-- A hart's access to another module's I/O region is answered (R200). -/
def State.ioAnswered (s : State) (t : Nat) (p : Nat → Bool) (code : Nat) (data : Word) : State :=
  match (List.range 384).find? (fun h => decide (s.tileOfHart h = t) && (s.hart h).awaits p) with
  | none => s
  | some h => s.ioAnswerOf h code data

/-- A request for a line: it reaches its home here, which holds a partner's during a warm reset (R550), or leaves for another module
when a tile of this one sends it. -/
def State.request (s : State) (k : ReqKind) (src : ReqSrc) (line : Nat) (world noL3 : Bool) (err : LineErr)
    (inst : Option Nat := none) : State :=
  let r : HomeReq := { kind := k, src := src, line := line, world := world, noL3 := noL3, err := err }
  let from_ := match src with
    | .tile m _ => m
    | .engine m _ => m
  if s.ownLine line then
    (if s.svc.warmAt.isSome ∧ from_ ≠ s.moduleNo then { s with heldReqs := s.heldReqs ++ [r] } else (s.askHome r inst).1)
  else
    match src with
    | .tile m t => if m = s.moduleNo then (s.tileRequest t 384 line k world 0 err).1 else s
    | .engine m d =>
      if m = s.moduleNo then
        (k.packets line).foldl (fun a x => a.emit (.packet 0 k.op (a.moduleOfLine line) 255 (216 + d) x.1 world x.2.2.1 x.2.2.2 x.2.1 inst)) s
      else s

/-- A write-back reaches its home (R156, R183); `keeps`: the sender still holds the line, after a snoop. -/
def State.takeWriteBack (s : State) (m t line : Nat) (d : Line) (psn keeps world : Bool) : State :=
  if s.ownLine line then
    let home := s.homeSlice (line * 64)
    let s1 := (s.writeBack home line d psn world).emit (.packet 2 0 m t (256 + home) (line * 64) world false none)
    let flying := (s.slice home).txns.any (fun x => decide (x.line = line) && x.flying.contains (m, t))
    if flying then s1.homeAnswer line (m, t) true none
    else if keeps then s1
    else if (s.slice home).txns.any (fun x => decide (x.line = line) && x.await.contains (m, t)) then
      s1.modSlice home (fun sl => { sl with txns := sl.txns.map (fun x =>
        if x.line = line ∧ x.await.contains (m, t) = true then { x with landed := (m, t) :: x.landed } else x) })
    else s1.dirRemove home line (m, t)
  else s

/-- A clean eviction notice reaches its home; one that a transaction awaits an answer from is discarded (R183). -/
def State.takeEvN (s : State) (m t line : Nat) : State :=
  if s.ownLine line then
    let home := s.homeSlice (line * 64)
    if (s.slice home).txns.any (fun x => decide (x.line = line) && x.await.contains (m, t)) then s
    else s.dirRemove home line (m, t)
  else s

/-- A snoop from another module's home reaches a tile (R176); its answer is held for a constrained LR/SC sequence (R178). `code`: what a wait
in AGW on the line ends with (R95). -/
def State.takeSnoop (s : State) (t line : Nat) (k : SnoopKind) (req : Option (Nat × Nat)) (code : Nat) : State :=
  if s.ownLine line then s
  else if s.mesh.routersOut.contains t then s
  else if s.holdsAnswer t line && decide (k = .inv ∨ k = .kill ∨ k = .drop) then
    s.modTile t (fun x => { x with held := x.held ++ [⟨k, line, req, code⟩] })
  else
    let (s1, a) := s.tileSnoop t line code k
    (s1.sendAnswer t line k req a).freeTile t

/-- A recovery snoop of another module's home reaches a tile (R184, R185): it kills the lines that the module's home table
homes at the named slice, which `homed` lists. -/
def State.takeRecovery (s : State) (t hm addr : Nat) (p : Nat → Bool) (homed : List Nat) : State :=
  if hm = s.moduleNo then s
  else (s.killWhere t (fun l => homed.contains l && decide (s.moduleOfLine l = hm) && p l)).emit
    (.packet 2 0 hm 255 t addr false false none)

/-- A tile is given the line it asked another module's home for. One that it holds in M or E already it had asked for as another world's (R124):
it keeps its data. Whether another module's home missed in its L3 is free (R127; log entry 7). -/
def State.fillAsk (s : State) (t line : Nat) (st : LineState) (d : Line) (psn : Bool) : State :=
  match (s.tile t).asks.find? (fun a => decide (a.line = line)) with
  | none => s
  | some a =>
    let (v, s0) := s.draw
    let s1 := (if v.getLsbD 0 then s0.l3Missed a.hart else s0).modTile t (fun x => { x with asks := x.asks.filter (fun a => decide (a.line ≠ line)) })
    match (s1.tile t).holds line with
    | some e =>
      if e.st = .modified ∨ e.st = .exclusive then (s1.modTile t (fun x => { x.untag line with arrived := line :: x.arrived })).answeredAt t
      else s1.arrive t { line := line, st := st, data := d, poison := psn, world := a.world } a.hint
    | none => s1.arrive t { line := line, st := st, data := d, poison := psn, world := a.world } a.hint

/-- A done response reaches a tile: a write-back is acknowledged, or a request of it is complete. -/
def State.completeAsk (s : State) (t line : Nat) : State :=
  if 2 ^ 43 ≤ line then s.ioAnswered t (fun a => decide (a / 64 = line)) 0 0
  else if (s.tile t).wbs.any (fun (e : Nat × Line × Bool) => decide (e.1 = line)) then
    s.modTile t (fun x => { x with wbs := x.wbs.eraseP (fun (e : Nat × Line × Bool) => decide (e.1 = line)) })
  else
    match (s.tile t).asks.find? (fun a => decide (a.line = line)) with
    | none => s
    | some a =>
      match a.kind with
      | .upg => State.answeredAt (t := t) <| s.modTile t (fun x =>
        let owned := (x.holds line).any (fun e => decide (e.st = .modified))
        { (if owned then x else x.setState line .exclusive).untag line with asks := x.asks.filter (fun b => decide (b.line ≠ line)) })
      | .zero => s.fillAsk t line .modified 0 false
      | _ => (s.modTile t (fun x => { x with asks := x.asks.map (fun b => if b.line = line then { b with ans := 1 } else b) })).answeredAt t

/-- A response reports that a request is not served: 2 an access fault, 3 a guard's refusal. -/
def State.failAsk (s : State) (t line ans : Nat) : State :=
  if 2 ^ 43 ≤ line then s.ioAnswered t (fun a => decide (a / 64 = line)) ans 0
  else (s.modTile t (fun x => { x with asks := x.asks.map (fun b => if b.line = line then { b with ans := ans } else b) })).answeredAt t

/-- A data packet reaches a tile, or the home that waits for a holder's data. -/
def State.takeData (s : State) (m u t line : Nat) (d : Line) (psn modified excl : Bool) : State :=
  match (s.tile t).asks.find? (fun a => decide (a.line = line)) with
  | some a =>
    let st : LineState := if modified then .modified else match a.kind with
      | .rds resolved => if excl && resolved then .exclusive else .forwarder
      | _ => .exclusive
    s.fillAsk t line st d psn
  | none =>
    if s.ownLine line then
      let home := s.homeSlice (line * 64)
      if (s.slice home).txns.any (fun x => decide (x.line = line) && x.await.contains (m, u)) then
        s.homeAnswer line (m, u) false (some (d, psn, modified))
      else s
    else s

/-- A former holder answers that its write-back is on its way, if it has not come already (R183). -/
def State.noteFlying (s : State) (m t line : Nat) : State :=
  if s.ownLine line then
    if (s.slice (s.homeSlice (line * 64))).txns.any (fun x => decide (x.line = line) && x.landed.contains (m, t)) then
      s.homeAnswer line (m, t) true none
    else s.modSlice (s.homeSlice (line * 64)) (fun sl => { sl with txns := sl.txns.map (fun x =>
      if x.line = line ∧ x.await.contains (m, t) then { x with flying := (m, t) :: x.flying } else x) })
  else s

/-- One holder has not answered (R186): it is snooped again, or, its router out of service, it loses its lines; a tile of this module holds its
answer, and a raw access its line. `out`: holders of other modules whose routers are out of service. -/
def State.askAgain (s : State) (home : Nat) (x : HomeTxn) (out : List (Nat × Nat)) (h : Nat × Nat) : State :=
  let gone (a : State) : State := (a.purgeHolder (fun y => decide (y = h)) 2).homeAnswer x.line h true none
  if h.1 = s.moduleNo then (if s.mesh.routersOut.contains h.2 then gone (s.modTile h.2 Tile.dead) else s)
  else if 8 ≤ h.1 then s
  else if out.contains h then gone s
  else
    let e := (s.slice home).dirOf x.line
    match snoopFor x.req.kind (e.elim false (·.owned)) (e.elim false (fun e => decide (e.fwd = some h))) with
    | some k => s.emit (.packet 1 k.op h.1 h.2 (256 + home) (x.line * 64) x.req.world false none)
    | none => s

/-- Whether a wait since a leaf has not ended by the time a link stopped: it counts no leaf until the maps switch (R208). -/
def State.waitStands (s : State) (since : Nat) : Bool :=
  s.mesh.stopped.any (fun l => decide (l < since + s.f L3_COH_CTL.SNOOP_TO))

/-- A recovery's snoops without an answer are sent again, but to tiles whose routers are out of service (R184 to R186). -/
def State.recoverAgain (s : State) (line : Nat) (out : List (Nat × Nat)) : State :=
  match s.recoveries.find? (fun r => decide (r.name = line)) with
  | none => s
  | some r =>
    if s.waitStands r.since then s else
    let s1 := (s.untilLeaf (r.since + s.f L3_COH_CTL.SNOOP_TO)).raise L3_COH_ALARM.SNOOP_TO
    let s2 := (r.await.filter (fun h => !out.contains h)).foldl (fun a h =>
      a.emit (.packet 1 (if r.set.isSome then 6 else 7) h.1 h.2 (256 + r.slice) (line * 64) false false none)) s1
    let s3 := { s2 with recoveries := s2.recoveries.map (fun x => if x.name = line then { x with since := s2.leaf } else x) }
    (out.filter r.await.contains).foldl (fun a h => a.recoveryAnswer line h) s3

/-- A snoop has no answer for SNOOP_TO leaves (R186): of a line's transaction, or of a recovery under its name. -/
def State.snoopTimeout (s : State) (line : Nat) (out : List (Nat × Nat)) : State :=
  if s.ownLine line then
    let home := s.homeSlice (line * 64)
    match (s.slice home).txns.find? (fun x => decide (x.line = line)) with
    | none => s
    | some x =>
      if s.waitStands x.since then s else
      let s0 := (s.untilLeaf (x.since + s.f L3_COH_CTL.SNOOP_TO)).raise L3_COH_ALARM.SNOOP_TO
      let s1 := s0.modSlice home (fun sl => { sl with txns := sl.txns.map (fun y => if y.line = line then { y with since := s0.leaf } else y) })
      x.await.foldl (fun a h => a.askAgain home x out h) s1
  else s.recoverAgain line out

/-! ### The commands -/

/-- RDS. -/
def execRds (m t line : Nat) (world resolved noL3 : Bool) (err : LineErr) (s : State) : Host.Outcome State Fault Refusal :=
  .next (s.running (s.request (.rds resolved) (.tile m t) line world noL3 err))

/-- RDOWN. -/
def execRdown (m t line : Nat) (world noL3 : Bool) (err : LineErr) (s : State) : Host.Outcome State Fault Refusal :=
  .next (s.running (s.request .rdOwn (.tile m t) line world noL3 err))

/-- UPG. -/
def execUpg (m t line : Nat) (world : Bool) (s : State) : Host.Outcome State Fault Refusal :=
  .next (s.running (s.request .upg (.tile m t) line world false []))

/-- ZERO. -/
def execZero (m t line : Nat) (world : Bool) (s : State) : Host.Outcome State Fault Refusal :=
  .next (s.running (s.request .zero (.tile m t) line world false []))

/-- RDCUR: every request of a channel engine carries WORLD = 0 (R473). -/
def execRdcur (m die line : Nat) (err : LineErr) (s : State) : Host.Outcome State Fault Refusal :=
  .next (s.running (s.request .rdCur (.engine m die) line false false err))

/-- WRFULL. -/
def execWrfull (m die line : Nat) (d : Line) (psn : Bool) (s : State) : Host.Outcome State Fault Refusal :=
  .next (s.running (s.request (.wrFull d psn) (.engine m die) line false false []))

/-- WRPART. -/
def execWrpart (m die line : Nat) (d : Line) (mask : BitVec 64) (psn : Bool) (err : LineErr) (s : State) :
    Host.Outcome State Fault Refusal :=
  .next (s.running (s.request (.wrPart d mask psn) (.engine m die) line false false err))

/-- WB. -/
def execWb (m t line : Nat) (d : Line) (psn keeps world : Bool) (s : State) : Host.Outcome State Fault Refusal :=
  .next (s.running (s.takeWriteBack m t line d psn keeps world))

/-- EVN. -/
def execEvn (m t line : Nat) (s : State) : Host.Outcome State Fault Refusal := .next (s.running (s.takeEvN m t line))

/-- CMO_CLEAN. -/
def execCmoClean (m t line : Nat) (world : Bool) (s : State) : Host.Outcome State Fault Refusal :=
  .next (s.running (s.request .cmoClean (.tile m t) line world false []))

/-- CMO_FLUSH. -/
def execCmoFlush (m t line : Nat) (world : Bool) (s : State) : Host.Outcome State Fault Refusal :=
  .next (s.running (s.request .cmoFlush (.tile m t) line world false []))

/-- CMO_INVALIDATE. -/
def execCmoInvalidate (m t line : Nat) (world : Bool) (s : State) : Host.Outcome State Fault Refusal :=
  .next (s.running (s.request .cmoInval (.tile m t) line world false []))

/-- SNPSHR; the requester is unit ru of module rm. -/
def execSnpshr (t line rm ru : Nat) (s : State) : Host.Outcome State Fault Refusal :=
  .next (s.running (s.takeSnoop t line .shr (some (rm, ru)) 0))

/-- SNPINV; `req`: the requester that data goes to (none: a Zero, whose data is discarded). -/
def execSnpinv (t line : Nat) (req : Option (Nat × Nat)) (s : State) : Host.Outcome State Fault Refusal :=
  .next (s.running (s.takeSnoop t line .inv req 0))

/-- SNPKILL; `other`: it is sent for a directory eviction or a maintenance operation, not for a write (R95, R181). -/
def execSnpkill (t line : Nat) (other : Bool) (s : State) : Host.Outcome State Fault Refusal :=
  .next (s.running (s.takeSnoop t line .kill none (if other then 3 else 0)))

/-- SNPDROP; `other` as for SNPKILL. -/
def execSnpdrop (t line : Nat) (other : Bool) (s : State) : Host.Outcome State Fault Refusal :=
  .next (s.running (s.takeSnoop t line .drop none (if other then 3 else 0)))

/-- SNPCLEAN. -/
def execSnpclean (t line : Nat) (s : State) : Host.Outcome State Fault Refusal := .next (s.running (s.takeSnoop t line .clean none 0))

/-- SNPCUR. -/
def execSnpcur (t line : Nat) (s : State) : Host.Outcome State Fault Refusal := .next (s.running (s.takeSnoop t line .cur none 0))

/-- SNPSET: slice n and set of module hm. -/
def execSnpset (t hm n set : Nat) (homed : List Nat) (s : State) : Host.Outcome State Fault Refusal :=
  .next (s.running (s.takeRecovery t hm (recoveryName n (some set) * 64) (fun l => decide (l3Set l = set)) homed))

/-- SNPSLICE: slice n of module hm. -/
def execSnpslice (t hm n : Nat) (homed : List Nat) (s : State) : Host.Outcome State Fault Refusal :=
  .next (s.running (s.takeRecovery t hm (recoveryName n none * 64) (fun _ => true) homed))

/-- NOT_HELD. -/
def execNotHeld (m u line : Nat) (s : State) : Host.Outcome State Fault Refusal :=
  .next (s.running (if s.ownLine line then s.homeAnswer line (m, u) true none else s))

/-- WB_IN_FLIGHT. -/
def execWbInFlight (m u line : Nat) (s : State) : Host.Outcome State Fault Refusal := .next (s.running (s.noteFlying m u line))

/-- CLEAN_DATA, from unit u of module m; `excl`: the home grants the line in E. -/
def execCleanData (m u t line : Nat) (d : Line) (psn excl : Bool) (s : State) : Host.Outcome State Fault Refusal :=
  .next (s.running (s.takeData m u t line d psn false excl))

/-- MODIFIED_DATA_PASSED_ON. -/
def execModifiedDataPassedOn (m u t line : Nat) (d : Line) (psn : Bool) (s : State) : Host.Outcome State Fault Refusal :=
  .next (s.running (s.takeData m u t line d psn true false))

/-- SNOOP_TIMEOUT; `out`: the awaited holders of other modules whose routers are out of service. -/
def execSnoopTimeout (line : Nat) (out : List (Nat × Nat)) (s : State) : Host.Outcome State Fault Refusal :=
  .next (s.running (s.snoopTimeout line out))

end Sys2Proof.Machine
end

