-- ==== Sys2Proof/Machine/Channels.lean ====
section
/-! DEFINITION. The memory channels: failures, replacement of a DIMM in service, self-refresh, and the bandwidth registry
(chapter Memory Channels and Capacity, R211 to R227). -/

namespace Sys2Proof.Machine

open Sys2Proof

/-- Whether a PENDING or COMMITTED slot has a block in its SCOPE (R71). -/
def State.scopeLive (s : State) (bit : Nat) : Bool :=
  (List.range 8).any (fun n => s.slotLive n && (s.slot n).scope.testBit bit)

/-- The other channel of a pair (R216). -/
def pairOf (k : Nat) : Nat := k ^^^ 4

/-! ### The bandwidth registry (R222 to R227) -/

/-- A channel's lines per leaf: its transfer rate times 8 bytes over 64 (R212). -/
def State.chRate (s : State) (k : Nat) : Nat := s.f (MC_CHk_STATUS.RATE k) * 100 / 8

/-- Twice the value of channel k in R222: R when ACTIVE; for a pair, half of its 1.5 R from each MIRRORED channel, or R from the
one that is ALONE. -/
def State.chValue2 (s : State) (k : Nat) : Nat :=
  match s.chState k with
  | 2 => 2 * s.chRate k
  | 3 => if k &&& 4 = 0 then 3 * s.chRate k else 0
  | 4 => 2 * s.chRate k
  | _ => 0

/-- The derated bandwidth D (R222). -/
def State.derated (s : State) : Nat :=
  ((List.range 16).foldl (fun a k => a + s.chValue2 k) 0) * s.f MC_CTL.DERATE / 200

/-- G: the sum of the instance and core floors (R226). -/
def State.floorSum (s : State) : Nat := (List.range 448).foldl (fun a e => a + s.f (MC_BWR_ENTRYe.FLOOR e)) 0

/-- M: the mirror-traffic system entries (R226). -/
def State.mirrorSum (s : State) : Nat := s.f (MC_BWR_ENTRYe.FLOOR 448) + s.f (MC_BWR_ENTRYe.FLOOR 449)

/-- Whether any pair is in RESILVER (R223). -/
def State.resilvering (s : State) : Bool := (List.range 16).any (fun k => decide (s.chState k = 7))

/-- The system entries as the module's state makes them (R223): the rate of mirror traffic that the retired bridge (die link
20) sends through a compute die is not stated. -/
def State.systemEntries (s : State) : State :=
  let r (i : Nat) : Nat := if s.f (MESH_DLINKk_STATUS.STATE 20) = 2 then Config.mirrorRate i % 65536 else 0
  ((s.setF (MC_BWR_ENTRYe.FLOOR 448) (r 0)).setF (MC_BWR_ENTRYe.FLOOR 449) (r 1)).setF (MC_BWR_ENTRYe.FLOOR 450)
    (if s.resilvering then 200 else 0)

/-- The GRANT that entry e is due under a derated bandwidth d and a resilver copy entry k (R226). -/
def State.dueGrant (s : State) (d k e : Nat) : Nat :=
  let g := s.floorSum
  let m := s.mirrorSum
  if e = 450 then (if d < g + m + k then 0 else k)
  else if e = 448 ∨ e = 449 then s.f (MC_BWR_ENTRYe.FLOOR e)
  else if d < g + m then s.f (MC_BWR_ENTRYe.FLOOR e) * (d - m) / g
  else s.f (MC_BWR_ENTRYe.FLOOR e)

/-- The new GRANTs take effect (R227). -/
def State.switchGrants (s : State) (d k : Nat) : State :=
  (List.range 451).foldl (fun a e => a.setF (MC_BWR_ENTRYe.GRANT e) (s.dueGrant d k e)) { s with floorsDue := [] }

/-- Whether a change is one of GRANTs. -/
def HwChange.isGrants : HwChange → Bool
  | .grants _ _ => true
  | _ => false

/-- New GRANTs are asked for (R227): in a change that still waits or is PENDING in place of what it was to bring, and otherwise in one that is
armed in the next leaf at the earliest, and after the T of one that is COMMITTED. -/
def State.askGrants (s : State) (d k : Nat) : State :=
  if s.waiting.any (fun w => w.change.isGrants) then
    { s with waiting := s.waiting.map (fun w => if w.change.isGrants then { w with change := .grants d k } else w) }
  else
    match [6, 7].find? (fun n => s.slotLive n && (s.slot n).change.isGrants) with
    | some n =>
      if s.slotState n = 1 then s.modSlot n (fun sl => { sl with change := .grants d k })
      else if (s.slot n).change = .grants d k then s
      else s.startHw (s.leaf + 1) (.grants d k)
    | none =>
      if (List.range 451).all (fun e => decide (s.f (MC_BWR_ENTRYe.GRANT e) = s.dueGrant d k e)) then s
      else s.startHw (s.leaf + 1) (.grants d k)

/-- Whether something is shed under the present D (R226). -/
def State.sheds (s : State) : Bool :=
  decide (s.f MC_BWR_TOTAL.DERATED < s.floorSum + s.mirrorSum + s.f (MC_BWR_ENTRYe.FLOOR 450))

/-- The sum of floors and system entries, and what of it is shown (R222). -/
def State.showAdmitted (s : State) : State :=
  s.setF MC_BWR_TOTAL.ADMITTED (min 65535 (s.floorSum + s.mirrorSum + s.f (MC_BWR_ENTRYe.FLOOR 450)))

/-- D and LIMIT are recomputed (R222), what must be shed is flagged (R226), and a change of the GRANTs is started (R227). -/
def State.updateBandwidth (s : State) : State :=
  let old := s.f MC_BWR_TOTAL.DERATED
  let s1 := s.systemEntries
  let d := s1.derated
  let g := s1.floorSum
  let m := s1.mirrorSum
  let k := s1.f (MC_BWR_ENTRYe.FLOOR 450)
  let s2 := ((s1.setF MC_BWR_TOTAL.DERATED (min d 65535)).setF MC_BWR_TOTAL.LIMIT (min (3 * d / 4) 65535)).showAdmitted
  let fell := decide (d < old)
  let s3 := ((s2.raiseIf fell MC_ALARM.SHED_SURPLUS).raiseIf (fell && decide (d < g + m + k)) MC_ALARM.COPY_PAUSED).raiseIf
    (fell && decide (d < g + m)) MC_ALARM.SHED_SCALE
  { s3 with floorsDue := if s3.sheds then [] else s3.floorsDue }.askGrants d k

/-! ### A channel's STATE -/

/-- Whether a channel of this STATE is scrubbed (R240): ACTIVE, MIRRORED or ALONE. -/
def scrubbed (st : Nat) : Bool := decide (st = 2 ∨ st = 3 ∨ st = 4)

/-- The line that a pair's scrub holds is let go at the primary k: the write that waits for it is done in both copies (R239). -/
def State.letGo (s : State) (k : Nat) : State :=
  match (s.chan k).half with
  | none => s
  | some h =>
    let s1 := s.modChan k (fun c => { c with half := none })
    match h.write with
    | none => s1
    | some (d, bad) => (s1.storeData k (s.chan k).scrubNext d bad).storeData (pairOf k) (s.chan k).scrubNext d bad

/-- Set a channel's STATE. One that leaves a scrubbed state restarts its lap (R238); a channel that enters one, or that its pair's primary
scrubbed, begins it. -/
def State.setChState (s0 : State) (k st : Nat) : State :=
  let s := s0.letGo k
  let own := scrubbed (s.chState k) && (decide (s.chState k ≠ 3) || s.on (MC_CHk_STATUS.PRIMARY k))
  let s1 := if own && scrubbed st then s
    else (s.modChan k (fun c => { c with scrubNext := 0, lapStart := s.count })).setF (SCR_CHk_STATUS.PROGRESS k) 0
  (s1.setF (MC_CHk_STATUS.STATE k) st).modChan k (fun c => { c with failing := false })

/-- The record of a channel's change of STATE (R217, R526). -/
def State.logChannel (s : State) (k old new : Nat) : State := s.logAt 0x0021 (s.mcLoc k) 5 [k, old, new]

/-- The unit uses both steps of a channel. -/
def State.useChannelSteps (s : State) (k : Nat) (up : Bool) : State :=
  (s.useStep (.channel k 0 up)).useStep (.channel k 1 up)

/-- The steps of a channel that leaves or enters ABSENT, SAFE or EXCLUDED (R495). -/
def State.channelSteps (s : State) (k : Nat) (up : Bool) : State :=
  let c := if up then 5 else 3
  ((s.useChannelSteps k up).postStep (.channel k 0 up) c 0).postStep (.channel k 1 up) c 0

/-- Both steps of a channel are taken. -/
def State.channelStepped (s : State) (k : Nat) (up : Bool) : Bool :=
  (s.stepTaken (.channel k 0 up)).isSome && (s.stepTaken (.channel k 1 up)).isSome

/-! ### The resilver copy (R219) -/

/-- The cells of channel `src` below line `n` stand in channel `dst` too. -/
def copyCells (m : Memory) (src dst n : Nat) : Memory :=
  let base := m.filter (fun c => !(decide (dst * 2 ^ 41 ≤ c.1) && decide (c.1 < dst * 2 ^ 41 + n * 64)))
  (m.filter (fun c => decide (src * 2 ^ 41 ≤ c.1) && decide (c.1 < src * 2 ^ 41 + n * 64))).foldl
    (fun acc c => Memory.write acc (c.1 - src * 2 ^ 41 + dst * 2 ^ 41) c.2) base

/-- The copy engine has copied the lines below `n` from the source of a resilver to its target: the lines that are codewords
as they stand, the others decoded as a read decodes them (R219, R231, R233). Those that the source reads as poison (R217) the target does too. -/
def State.copyLines (s : State) (src dst n : Nat) : State :=
  let odd := (s.checks.filter (fun e => decide (lineKey src 0 ≤ e.1 ∧ e.1 < lineKey src n))).map (fun e => e.1 - lineKey src 0)
  let s1 := { s.modChan dst (fun c => { c with
      voidFrom := (s.chan src).voidFrom.filter (· < n), voidDone := (s.chan src).voidDone.filter (· < n) }) with
    dram := copyCells s.dram src dst n
    checks := s.checks.filter (fun e => !(decide (lineKey dst 0 ≤ e.1) && decide (e.1 < lineKey dst n))) }
  odd.foldl (fun a l =>
    let (a1, r) := a.readCopy src l []
    match r.data with
    | some d => a1.storeData dst l d false
    | none => (if r.bad then a1.poisonStored (a1.addrOf src l) src l (a.suspectsAt src l []) else a1).storeData dst l 0 true) s1

/-! ### Failures (R217) -/

/-- The LAST_LAP of the secondary of a pair, k its lower channel, repeats the primary's (R240). -/
def State.shareLap (s : State) (k : Nat) : State := s.setF (SCR_CHk_STATUS.LAST_LAP (pairOf k)) (s.f (SCR_CHk_STATUS.LAST_LAP k))

/-- The new STATEs of a change take effect at its leaf T (R217, R219). A channel whose STATE has changed since keeps it: a pair whose copy has
ended is MIRRORED only where neither of its channels has failed meanwhile. -/
def State.switchChannels (s : State) (sets : List (Nat × Nat)) : State :=
  let whole (k : Nat) : Bool := decide (s.chState k = 7 ∧ s.chState (pairOf k) = 4 ∨ s.chState k = 4 ∧ s.chState (pairOf k) = 7)
  let s1 := sets.foldl (fun a (p : Nat × Nat) =>
    if p.2 = 3 then (if whole p.1 then a.setChState p.1 3 else a)
    else if a.chState p.1 = 3 then a.setChState p.1 p.2
    else a) s
  let s2 := sets.foldl (fun a (p : Nat × Nat) =>
    let lower := decide (p.1 &&& 4 = 0)
    let st := a.chState p.1
    a.setB (MC_CHk_STATUS.PRIMARY p.1) (decide (st = 4) || (decide (st = 3) && lower))) s1
  let s3 := (sets.foldl (fun a (p : Nat × Nat) => if p.2 = 3 ∧ whole p.1 = true ∧ p.1 &&& 4 = 0 then a.shareLap p.1 else a) s2).raiseIf
    (sets.any (fun (p : Nat × Nat) => decide (p.2 = 3) && whole p.1)) MC_ALARM.RESILVER_DONE
  let s4 := sets.foldl (fun a (p : Nat × Nat) => if (a.chan p.1).leaving then a.channelSteps p.1 false else a) s3
  s4.updateBandwidth

/-- A pair is lost: both channels are FAILED. -/
def State.losePair (s : State) (k : Nat) : State :=
  (((s.setChState k 8).setChState (pairOf k) 8).raise MC_ALARM.CH_FAIL).updateBandwidth

/-- Channel k fails; `copied` is the number of lines that a resilver copy from or to it has done (R217). One that fails while it is trained
for its return is FAILED, and its partner serves on alone (DEDUCED, log entry 61). -/
def State.channelFails (s : State) (k copied : Nat) : State :=
  let q := pairOf k
  match s.chState k with
  | 2 => (((s.setChState k 8).raise MC_ALARM.CH_FAIL).logChannel k 2 8).updateBandwidth
  | 3 =>
    if (s.chan k).failing then s
    else if (s.chan q).failing then s.losePair k
    else (((s.modChan k (fun c => { c with failing := true })).raise MC_ALARM.MIR_ALONE).logChannel k 3 8).startHw s.leaf
      (.channels [(k, 8), (q, 4)])
  | 4 =>
    if s.chState q = 7 then
      let s1 := (s.copyLines k q copied).modChan q (fun c => { c with voidFrom := some (c.voidFrom.getD copied) })
      ((((((s1.setChState q 4).setF (MC_CHk_STATUS.PRIMARY q) 1).setChState k 8).setF (MC_CHk_STATUS.PRIMARY k) 0).raise
        MC_ALARM.CH_FAIL).logChannel k 4 8).updateBandwidth
    else s.losePair k
  | 6 => ((s.setChState k 8).raise MC_ALARM.CH_FAIL).logChannel k 6 8
  | 7 => (((s.setChState k 8).raise MC_ALARM.CH_FAIL).logChannel k 7 8).updateBandwidth
  | _ => s

/-! ### Replacing a DIMM in service (R218 to R220) -/

/-- OFFLINE (R219 steps 1 and 2): the pair goes ALONE by a mode change, or the failed partner of a channel that is ALONE is
taken out; none where R220 refuses. -/
def State.offline (s : State) (k : Nat) : Option State :=
  let q := pairOf k
  if s.chState k = 3 && !(s.chan k).failing && !(s.chan q).failing then
    some ((s.modChan k (fun c => { c with failing := true, leaving := true })).startHw s.leaf (.channels [(k, 8), (q, 4)]))
  else if s.chState k = 4 ∧ s.chState q = 8 then
    some ((s.modChan q (fun c => { c with leaving := true })).channelSteps q false)
  else none

/-- ONLINE (R219 steps 5 and 6); none where R220 refuses. -/
def State.online (s : State) (k : Nat) : Option State :=
  if decide (s.chState k ≠ 5 ∨ s.chState (pairOf k) ≠ 4) || s.scopeLive 4 then none
  else if (s.chan k).mpwr then some s
  else some ((s.modChan k (fun c => { c with mpwr := true })).channelSteps k true)

/-- A write to MC_CHAN_CMD: with GO, the command of its fields (R219); a refused one changes nothing else (R220). -/
def State.actChanCmd (v : Word) (s : State) : State :=
  let k := MC_CHAN_CMD.CHAN.of v
  let s1 := s.applyWrite MC_CHAN_CMD v
  if MC_CHAN_CMD.GO.of v = 0 then s1
  else
    match (if MC_CHAN_CMD.OP.of v = 0 then s1.offline k else s1.online k) with
    | some t => t
    | none => s.raise MC_ALARM.CMD_REFUSED

/-- The channel leaves service for good (R219 step 3): self-refresh, MPWRk low, STATE = SAFE. -/
def State.channelSafe (s : State) (k : Nat) : State :=
  if (s.chan k).leaving && decide (s.chState k = 8) && s.channelStepped k false then
    ((((s.useChannelSteps k false).setF (MC_CHk_STATUS.SR k) 1).setChState k 5).modChan k (fun c =>
      { c with leaving := false, mpwr := false, voidFrom := none, voidDone := [] })).updateBandwidth
  else s

/-- Whether R211 admits devices of a density, in Gbit, and a number of dies in a 3DS stack (1: none). -/
def deviceFits (density stack : Nat) : Bool :=
  decide (density = 16 ∨ density = 24 ∨ density = 32 ∨ density = 64) && decide (stack = 1 ∨ stack = 2 ∨ stack = 4 ∨ stack = 8)

/-- The DIMMs that a controller finds in its slots (R211, R213): their number, TYPE, capacity in GiB, ranks, density in Gbit, dies in a 3DS
stack (1: none), the highest transfer rate that they permit, in units of 100 MT/s, and whether their devices are x4. -/
structure Dimms where
  count   : Nat
  type    : Nat
  gib     : Nat
  ranks   : Nat
  density : Nat
  stack   : Nat
  rate    : Nat
  x4      : Bool
deriving DecidableEq, Repr

/-- Whether new DIMMs are such as R211 supports, match those of channel q, and permit the module's transfer rate (R220). -/
def State.dimmsMatch (s : State) (d : Dimms) (q : Nat) : Bool :=
  let c := s.chan q
  decide (d.count = s.f (MC_CHk_STATUS.DIMMS q) ∧ d.type = s.f (MC_CHk_STATUS.TYPE q) ∧ d.gib = c.dimmGib ∧
    d.ranks = c.ranks ∧ d.density = c.density ∧ s.f (MC_CHk_STATUS.RATE q) ≤ d.rate) && d.x4 && deviceFits d.density d.stack

/-- Power is good and the SPD is read (R219 step 6, R220). -/
def State.powerGood (s : State) (k : Nat) (d : Dimms) : State :=
  if s.chState k = 5 && (s.chan k).mpwr && s.channelStepped k true then
    let s1 := s.useChannelSteps k true
    if s1.dimmsMatch d (pairOf k) && decide (s1.chState (pairOf k) = 4) then
      ((((((s1.setF (MC_CHk_STATUS.CAP k) (d.count * d.gib)).setF (MC_CHk_STATUS.RATE k) (s1.f (MC_CHk_STATUS.RATE (pairOf k)))).setF
        (MC_CHk_STATUS.DIMMS k) d.count).setF (MC_CHk_STATUS.TYPE k) d.type).setF (MC_CHk_STATUS.SR k) 0).setChState k 6).modChan k
          (fun c => { c with dimmGib := d.gib, ranks := d.ranks, density := d.density, stack := d.stack, maxRate := d.rate })
    else ((s1.modChan k (fun c => { c with mpwr := false })).channelSteps k false).raise MC_ALARM.CMD_REFUSED
  else s

/-- Training ends, and the resilver copy begins (R219 steps 7 and 8). -/
def State.channelTrained (s : State) (k : Nat) : State :=
  if s.chState k = 6 ∧ s.chState (pairOf k) = 4 then (s.setChState k 7).updateBandwidth else s

/-- The resilver copy ends (R219 step 9). -/
def State.resilverEnd (s : State) (k : Nat) : State :=
  let q := pairOf k
  if s.chState k = 7 && decide (s.chState q = 4) &&
      !s.hwUnderWay (fun c => decide (c = .channels [(k, 3), (q, 3)])) then
    (s.copyLines q k (s.f (MC_CHk_STATUS.CAP q) * 2 ^ 24)).startHw s.leaf (.channels [(k, 3), (q, 3)])
  else s

/-- An idle channel enters self-refresh (R221). -/
def State.selfRefresh (s : State) (k : Nat) : State :=
  let st := s.chState k
  if s.f MC_CTL.SR_IDLE = 0 ∨ st = 0 ∨ st = 6 ∨ st = 7 then s
  else (s.untilLeaf ((s.chan k).lastReq + s.f MC_CTL.SR_IDLE)).setF (MC_CHk_STATUS.SR k) 1

/-! ### Floors and weights (R224, R225) -/

/-- A write to MC_BWR_ENTRYe: WEIGHT is kept, and FLOOR when it does not break LIMIT. GRANT follows FLOOR at the next leaf edge where nothing
is shed, and every GRANT does where the write ends the shedding (R224, R226); else new GRANTs are asked for. -/
def State.actBwrEntry (e : Nat) (v : Word) (s : State) : State :=
  if 448 ≤ e then s
  else
    let new := (MC_BWR_ENTRYe.FLOOR e).of v
    let old := s.f (MC_BWR_ENTRYe.FLOOR e)
    let s1 := s.setF (MC_BWR_ENTRYe.WEIGHT e) ((MC_BWR_ENTRYe.WEIGHT e).of v)
    let total := s.floorSum - old + new + s.mirrorSum + s.f (MC_BWR_ENTRYe.FLOOR 450)
    if old < new ∧ s.f MC_BWR_TOTAL.LIMIT < total then s1.raise MC_ALARM.BWR_REFUSED
    else
      let s2 := (s1.setF (MC_BWR_ENTRYe.FLOOR e) new).showAdmitted
      if s2.sheds then s2.askGrants (s2.f MC_BWR_TOTAL.DERATED) (s2.f (MC_BWR_ENTRYe.FLOOR 450))
      else { s2 with floorsDue := if s.sheds then List.range 451 else e :: s2.floorsDue }

/-- The WEIGHTs written take effect at the edge that begins gathering g (R225). -/
def State.weightEffect (s : State) (g : Nat) : State :=
  let s1 := s.untilLeaf (1024 * g)
  { s1 with weights := (List.range 448).foldl (fun t e => t.set 1 e (s1.f (MC_BWR_ENTRYe.WEIGHT e))) s1.weights }

/-! ### The commands -/

/-- CHANNEL_FAILURE. -/
def execChannelFailure (k copied : Nat) (s : State) : Host.Outcome State Fault Refusal := .next (s.running (s.channelFails k copied))

/-- OFFLINE: MC_CHAN_CMD written with GO and OP = 0. -/
def execOffline (who : Requester) (k : Nat) (s : State) : Host.Outcome State Fault Refusal :=
  let v := MC_CHAN_CMD.GO.put 1 (MC_CHAN_CMD.OP.put 0 (MC_CHAN_CMD.CHAN.put k 0))
  .next (s.running (s.written who 8 MC_CHAN_CMD v (fun a => a.actChanCmd v)))

/-- ONLINE: MC_CHAN_CMD written with GO and OP = 1. -/
def execOnline (who : Requester) (k : Nat) (s : State) : Host.Outcome State Fault Refusal :=
  let v := MC_CHAN_CMD.GO.put 1 (MC_CHAN_CMD.OP.put 1 (MC_CHAN_CMD.CHAN.put k 0))
  .next (s.running (s.written who 8 MC_CHAN_CMD v (fun a => a.actChanCmd v)))

/-- CHANNEL_SAFE. -/
def execChannelSafe (k : Nat) (s : State) : Host.Outcome State Fault Refusal := .next (s.running (s.channelSafe k))

/-- POWER_GOOD. -/
def execPowerGood (k count type gib ranks density stack rate : Nat) (x4 : Bool) (s : State) : Host.Outcome State Fault Refusal :=
  .next (s.running (s.powerGood k ⟨count, type, gib, ranks, density, stack, rate, x4⟩))

/-- CHANNEL_TRAINED. -/
def execChannelTrained (k : Nat) (s : State) : Host.Outcome State Fault Refusal := .next (s.running (s.channelTrained k))

/-- RESILVER_END. -/
def execResilverEnd (k : Nat) (s : State) : Host.Outcome State Fault Refusal := .next (s.running (s.resilverEnd k))

/-- SELF_REFRESH_ENTRY. -/
def execSelfRefreshEntry (k : Nat) (s : State) : Host.Outcome State Fault Refusal := .next (s.running (s.selfRefresh k))

/-- FLOOR_WRITE: FLOOR of entry e is written, WEIGHT left as it stands. -/
def execFloorWrite (who : Requester) (e floor : Nat) (s : State) : Host.Outcome State Fault Refusal :=
  let v := (MC_BWR_ENTRYe.FLOOR e).put floor (s.reg (MC_BWR_ENTRYe e))
  .next (s.running (s.written who 8 (MC_BWR_ENTRYe e) v (fun a => a.actBwrEntry e v)))

/-- WEIGHT_EFFECT. -/
def execWeightEffect (g : Nat) (s : State) : Host.Outcome State Fault Refusal := .next (s.running (s.weightEffect g))

end Sys2Proof.Machine
end

