-- ==== Sys2Proof/Machine/Protect.lean ====
section
/-! DEFINITION. Scrubbing, row repair, raw access and the guards' lock (chapter Check Codes, Fill, Scrub and Guards, R236 to
R249). -/

namespace Sys2Proof.Machine

open Sys2Proof

/-! ### Scrubbing (R236 to R240) -/

/-- What scrubbing tells of one copy: its data where it is CLEAN or CORRECTED, and whether it was UNCORRECTABLE. -/
def State.scrubView (s : State) (k l : Nat) (e : List (Nat × Symbol)) : Option Line × Bool :=
  match s.decodeAt k l e with
  | (.clean, d) => (some d, false)
  | (.corrected _ fix, d) => (some (applyDiff d fix), false)
  | (.poison _, _) => (none, false)
  | (.uncorrectable, _) => (none, true)

/-- One line of a MIRRORED pair is scrubbed (R239); p is the primary's channel, and the reads of the copies meet the errors `ep` and `eq`. -/
def State.scrubPair (s : State) (p q l : Nat) (ep eq : List (Nat × Symbol)) : State :=
  match s.scrubView p l ep, s.scrubView q l eq with
  | (some d, _), (some d', _) =>
    let s1 := ((s.readCopy p l ep).1.readCopy q l eq).1
    if d = d' then s1
    else (((s1.storeData q l d false).incF (SCR_CHk_COUNTS.DIVERGE p)).raise SCR_ALARM.DIVERGE).logAt 0x0022 (s1.mcLoc p) 5
      [s1.addrOf p l, p, q]
  | (some d, _), (none, b) =>
    let set := s.suspectsAt q l eq
    let s1 := ((s.readCopy p l ep).1.storeData q l d false).countUncorrectable q l set
    if b then s1.rowsDue q l set else s1
  | (none, b), (some d, _) =>
    let set := s.suspectsAt p l ep
    let s1 := ((s.readCopy q l eq).1.storeData p l d false).countUncorrectable p l set
    if b then s1.rowsDue p l set else s1
  | (none, b), (none, b') =>
    let s1 := if b then (s.countUncorrectable p l (s.suspectsAt p l ep)).rowsDue p l (s.suspectsAt p l ep) else s
    let s2 := if b' then (s1.countUncorrectable q l (s.suspectsAt q l eq)).rowsDue q l (s.suspectsAt q l eq) else s1
    ((s2.storeData p l 0 true).storeData q l 0 true).raiseIf (b || b') SCR_ALARM.UE

/-- One line of a channel is scrubbed (R237, R239). In a pair whose line is held, the primary's copy was read in an earlier burst; when both
have been read, the line is let go. -/
def State.scrubLine (s : State) (k l : Nat) (err : LineErr) : State :=
  if s.chState k = 3 then (s.scrubPair k (pairOf k) l ((s.chan k).half.elim (errOf err 0) (·.errs)) (errOf err 1)).letGo k
  else
    let (s1, r) := s.readCopy k l (errOf err 0)
    if r.bad then s1.poisonStored (s1.addrOf k l) k l (s.suspectsAt k l (errOf err 0)) else s1

/-- The lines of a channel: its capacity. -/
def State.chLines (s : State) (k : Nat) : Nat := s.f (MC_CHk_STATUS.CAP k) * 2 ^ 24

/-- A lap ends (R238): its duration in gatherings, rounded up, is shown, the secondary of a pair repeating it, and logged. -/
def State.lapEnd (s : State) (k : Nat) : State :=
  let n := min ((s.count - (s.chan k).lapStart + 262143) / 262144) 0xFFFFFFFF
  let s1 := s.setF (SCR_CHk_STATUS.LAST_LAP k) n
  let s2 := if s.chState k = 3 then s1.setF (SCR_CHk_STATUS.LAST_LAP (pairOf k)) n else s1
  (s2.modChan k (fun c => { c with scrubNext := 0, lapStart := s.count })).logAt 0x0023 (s.mcLoc k) 5 [k, n]

/-- The errors of a burst's line, by its number in the burst. -/
def burstErr (errs : List (Nat × LineErr)) (i : Nat) : LineErr := ((errs.find? (fun e => decide (e.1 = i))).map (·.2)).getD []

/-- The scrubber takes its next line, or the one that an earlier burst has left held. `errs` lists the errors of the lines of this burst by
their number in it. -/
def State.scrubNextLine (s : State) (k i : Nat) (errs : List (Nat × LineErr)) : State :=
  let l := (s.chan k).scrubNext
  let total := s.chLines k
  let s1 := s.scrubLine k l (burstErr errs i)
  let s2 := s1.modChan k (fun c => { c with scrubNext := l + 1 })
  let s3 := if total ≤ l + 1 then s2.lapEnd k else s2
  s3.setF (SCR_CHk_STATUS.PROGRESS k) ((s3.chan k).scrubNext * 100 / max total 1)

/-- The scrubber takes `n` lines. With `half`, the second copy of one more is not read in this leaf: the pair holds that line (R239). -/
def State.scrubLines (s : State) (k n : Nat) (half : Bool) (errs : List (Nat × LineErr)) : State :=
  let s1 := (List.range n).foldl (fun a i => a.scrubNextLine k i errs) s
  if half && decide (s1.chState k = 3) && (s1.chan k).half.isNone then
    s1.modChan k (fun c => { c with half := some { errs := errOf (burstErr errs n) 0 } })
  else s1

/-- Whether a lap of channel k's own scrubber is in progress (R239, R240). -/
def State.laps (s : State) (k : Nat) : Bool :=
  scrubbed (s.chState k) && (decide (s.chState k ≠ 3) || s.on (MC_CHk_STATUS.PRIMARY k)) && decide (0 < s.chLines k)

/-- Whether channel k's own scrubber scrubs (R239, R240). -/
def State.scrubs (s : State) (k : Nat) : Bool := s.on SCR_CTL.EN && s.laps k

/-- The lines that a scrub of at most `most` reads whole, and whether it leaves one more half read. -/
def scrubTake (lines most : Nat) (half : Bool) : Nat × Bool := (min lines most, half && decide (lines < most))

/-- A burst in leaf n reads `lines` lines whole, and with `half` the first copy of one more (R236, R239). One leaf has one burst. -/
def State.scrubBurst (s : State) (k n lines : Nat) (half : Bool) (errs : List (Nat × LineErr)) : State :=
  let p := s.f SCR_CTL.PERIOD
  let (m, h) := scrubTake lines (s.f SCR_CTL.BURST) half
  if s.scrubs k && !s.on (MC_CHk_STATUS.SR k) && decide (n % p = k % p ∧ (s.chan k).burstAt ≤ n) && s.burstTurn n then
    s.atLeaf n (fun a => (a.modChan k (fun c => { c with burstAt := n + 1 })).scrubLines k m h errs)
  else s

/-- A channel in self-refresh wakes in gathering g, once, scrubs `lines` lines and sleeps again (R236). -/
def State.scrubWake (s : State) (k g lines : Nat) (half : Bool) (errs : List (Nat × LineErr)) : State :=
  let n := 1024 * g + 64 * (k % 16)
  let (m, h) := scrubTake lines (s.f SCR_CTL.BURST * (1024 / s.f SCR_CTL.PERIOD)) half
  if s.scrubs k && s.on (MC_CHk_STATUS.SR k) && decide ((s.chan k).wakeAt ≤ g) && s.burstTurn n then
    s.atLeaf n (fun a => (a.modChan k (fun c => { c with wakeAt := g + 1 })).scrubLines k m h errs)
  else s

/-- The lap in progress has run longer than the ceiling (R238). -/
def State.lapWarn (s : State) (k : Nat) : State :=
  if s.laps k then
    (s.until ((s.chan k).lapStart + s.f SCR_CTL.LAP_CEIL * 65536 * 262144 + 1)).raise SCR_ALARM.LAP_WARN
  else s

/-- An interleave change reaches T: every lap restarts (R238). -/
def State.restartLaps (s : State) : State :=
  (List.range 16).foldl (fun a k =>
    ((a.letGo k).modChan k (fun c => { c with scrubNext := 0, lapStart := a.count })).setF (SCR_CHk_STATUS.PROGRESS k) 0) s

/-! ### Row repair (R241 to R243) -/

/-- A row is added to its channel's repair list, or stays unrepaired where the list is full (R243). -/
def State.listRow (s : State) (k row device : Nat) : State :=
  let c := s.chan k
  if c.repairs.contains (row, device) then s
  else if c.repairs.length < 64 then
    (s.modChan k (fun c => { c with repairs := c.repairs ++ [(row, device)] })).setF (SCR_CHk_STATUS.ROWS k) (c.repairs.length + 1)
  else s.rowUnrepaired k row device

/-- A line of the row under repair is read into the buffer (R242 step 1), an UNCORRECTABLE one as poison (R233). -/
def State.bufferLine (s : State) (k : Nat) (e : Nat × LineErr) : State :=
  let (a, r) := s.readCopy k e.1 (errOf e.2 0)
  let b := if r.bad then a.poisonStored (a.addrOf k e.1) k e.1 (s.suspectsAt k e.1 (errOf e.2 0)) else a
  b.modChan k (fun c => { c with repair := c.repair.map (fun x => { x with
    lines := x.lines ++ [(e.1, r.data.getD 0, if r.data.isSome then 0 else packChecks poisonChecks)] }) })

/-- The soft repair of the first due row begins (R242 step 1): `lines` are the lines that the row holds, with the errors that
the buffer's reads meet; of these at most 128 lines count. A row without a soft-repair resource, of a channel that is not ACTIVE, MIRRORED or
ALONE, or whose programming time, in leaves, exceeds 4, waits for R243 in the repair list. What requests to the closed rank wait is timing (log
entry 51). -/
def State.repairBegins (s : State) (k : Nat) (resource : Bool) (time : Nat) (lines : List (Nat × LineErr)) : State :=
  match (s.chan k).due with
  | [] => s
  | (row, device) :: rest =>
    if (s.chan k).repair.isSome then s
    else
      let s1 := s.modChan k (fun c => { c with due := rest })
      if !resource || decide (4 < time) || !scrubbed (s.chState k) then s1.listRow k row device
      else
        let s2 := s1.modChan k (fun c => { c with repair := some { row := row, device := device, lines := [] } })
        (((lines.filter (fun e => decide (Config.rowOf k e.1 = row))).take 128).foldl (State.bufferLine · k ·) s2).raise (SCR_CHk_STATUS.REPAIRING k)

/-- A soft repair ends (R242 step 3): every line is written back, and the row is listed. -/
def State.repairEnds (s : State) (k : Nat) : State :=
  match (s.chan k).repair with
  | none => s
  | some r =>
    let s1 := s.modChan k (fun c => { c with repair := none })
    let s2 := r.lines.foldl (fun a (e : Nat × Line × BitVec 128) => a.storeLine k e.1 e.2.1 e.2.2) s1
    let dev := (match r.lines with
      | e :: _ => deviceLife k e.1 r.device
      | [] => deviceLife k 0 r.device)
    ((((s2.setF (SCR_CHk_STATUS.REPAIRING k) 0).lifeInc dev 48 16).raise SCR_ALARM.ROW_REPAIR).logAt 0x0024 (s.mcLoc k) 5
      [r.row, r.device, 0]).listRow k r.row r.device

/-! ### Raw access (R244, R245) -/

/-- The channel that a raw access touches: that of the line, or the upper one for COPY = 1. -/
def rawChannel (p : Place) (copy : Nat) : Nat := if copy = 0 then p.lower else p.upper.getD p.lower

/-- Whether R245 refuses a raw access to the line at `a`. -/
def State.rawRefused (s : State) (a op copy : Nat) (world : Bool) : Bool :=
  s.on SCR_TEST_CTL.BUSY || decide (a / 2 ^ 46 ≠ s.moduleNo) ||
    match s.place a with
    | none => true
    | some p =>
      !scrubbed (s.chState (rawChannel p copy)) || (decide (copy = 1) && p.upper.isNone) || s.guardRefuses 0 a world (decide (op = 1))

/-- The check symbols of R244's SCR_TEST_CHECKj as they are stored: two registers of four symbols. -/
def State.rawChecks (s : State) : BitVec 128 := (s.reg (SCR_TEST_CHECKj 1)).setWidth 128 <<< 64 ||| (s.reg (SCR_TEST_CHECKj 0)).setWidth 128

/-- The line of SCR_TEST_DATAi. -/
def State.rawData (s : State) : Line :=
  (List.range 8).foldl (fun d i => d ||| ((s.reg (SCR_TEST_DATAi i)).setWidth 512 <<< (64 * i))) 0

/-- RAW_WRITE stores 40 symbols unchanged. -/
def State.rawStore (s : State) (r : RawAccess) : State :=
  s.storeLine r.chan r.place r.data (r.checks ^^^ packChecks (encodeChecks (lineSymbols r.data)))

/-- RAW_READ returns the 40 symbols, with the errors that the cells give, and the outcome that R231 would give. -/
def State.rawLoad (s : State) (k l : Nat) (e : List (Nat × Symbol)) : State :=
  let (d0, c) := s.stored k l
  let out := decodeDiff (checkDiff c ++ e)
  let d := applyDiff d0 e
  let flips := (e.filter (fun p => decide (32 ≤ p.1))).foldl (fun (a : BitVec 128) p => a ^^^ BitVec.shiftLeft (p.2.setWidth 128) (16 * (p.1 - 32))) 0
  let chk := packChecks (encodeChecks (lineSymbols d0)) ^^^ c ^^^ flips
  let s1 := (List.range 8).foldl (fun a i => a.setReg (SCR_TEST_DATAi i) ((d >>> (64 * i)).setWidth 64)) s
  let s2 := (s1.setReg (SCR_TEST_CHECKj 0) (chk.setWidth 64)).setReg (SCR_TEST_CHECKj 1) ((chk >>> 64).setWidth 64)
  let dev := (match out with
    | .corrected x _ => x
    | _ => 0)
  (s2.setF SCR_TEST_CTL.RESULT out.code).setF SCR_TEST_CTL.DEVICE dev

/-- The holder that no snoop reaches: awaiting it holds a line's requests at their home until the raw access ends (R244). -/
def rawHolder : Nat × Nat := (8, 0)

/-- The home takes the line as for a CBO.FLUSH, and holds it; a line whose transaction runs is taken when that has ended. -/
def State.rawHold (s : State) (line : Nat) : State :=
  let home := s.homeSlice (line * 64)
  if (s.slice home).busy line then s
  else
    let r : HomeReq := { kind := .cmoFlush, src := .engine s.moduleNo 0, line := line }
    let (s1, await, got) := s.sendSnoops home r (snoopList r ((s.slice home).dirOf line))
    s1.modSlice home (fun sl => { sl with txns := sl.txns ++ [{ line := line, req := r, await := await ++ [rawHolder], got := got, since := s.leaf }] })

/-- A write to SCR_TEST_CTL: with GO, the home flushes the line and the operation begins (R244), or is refused (R245). -/
def State.actTestCtl (who : Requester) (v : Word) (s : State) : State :=
  let s1 := s.applyWrite SCR_TEST_CTL v
  if SCR_TEST_CTL.GO.of v = 0 then s1
  else
    let a := s.f SCR_TEST_ADDR.LINE * 64
    let op := SCR_TEST_CTL.OP.of v
    let copy := SCR_TEST_CTL.COPY.of v
    let world := decide (who ≠ .text)
    if s.rawRefused a op copy world then s.raise SCR_ALARM.TEST_REFUSED
    else
      match s.place a with
      | none => s
      | some p =>
        let s2 := { s1 with raw := some { line := a / 64, chan := rawChannel p copy, place := p.line, copy := copy, write := decide (op = 1),
                                          data := s.rawData, checks := s.rawChecks } }
        (s2.raise SCR_TEST_CTL.BUSY).rawHold (a / 64)

/-- A raw access ends, once the line is flushed and no scrub of its pair holds it (R239): the operation is done, BUSY falls, and the requests held
for the line are taken. -/
def State.rawEnd (s : State) (err : LineErr) : State :=
  match s.raw with
  | none => s
  | some r =>
    let home := s.homeSlice (r.line * 64)
    match (s.slice home).txns.find? (fun x => decide (x.line = r.line)) with
    | none => s.rawHold r.line
    | some x =>
      if x.await = [rawHolder] ∧ (s.place (r.line * 64)).all (fun p => !s.halfScrubbed p.lower p.line) = true then
        let s1 := s.modSlice home (fun sl => { sl with txns := sl.txns.filter (fun y => decide (y.line ≠ r.line)) })
        let s2 := s1.finish home x.req x.got x.passed
        let s3 := if r.write then s2.rawStore r else s2.rawLoad r.chan r.place (errOf err r.copy)
        ({ s3.setF SCR_TEST_CTL.BUSY 0 with raw := none }).wakeLine home r.line x.queue
      else s

/-! ### The guards' lock (R249) -/

/-- Whether a change with MG in its SCOPE is PENDING or COMMITTED. -/
def State.mgBusy (s : State) : Bool := s.scopeLive 5

/-- A write to MG_CTLg, judged field by field. -/
def State.actMgCtl (g : Nat) (v : Word) (s : State) : State :=
  let s1 := if s.on (MG_CTLg.LOCK g) then s.raise MG_ALARM.DENIED_WRITE
    else if s.mgBusy then s
    else (s.setF (MG_CTLg.DEF_SHADOW g) ((MG_CTLg.DEF_SHADOW g).of v)).markDirty (MG_CTLg g)
  if (MG_CTLg.LOCK g).of v = 1 then s1.raise (MG_CTLg.LOCK g) else s1

/-- A write to a region shadow of guard g. -/
def State.actMgShadow (g k : Nat) (v : Word) (s : State) : State :=
  if s.on (MG_CTLg.LOCK g) then s.raise MG_ALARM.DENIED_WRITE
  else if s.mgBusy then s
  else (s.applyWrite k v).markDirty k

/-! ### The commands -/

/-- SCRUB_BURST. -/
def execScrubBurst (k n lines : Nat) (half : Bool) (errs : List (Nat × LineErr)) (s : State) : Host.Outcome State Fault Refusal :=
  .next (s.running (s.scrubBurst k n lines half errs))

/-- SCRUB_WAKE. -/
def execScrubWake (k g lines : Nat) (half : Bool) (errs : List (Nat × LineErr)) (s : State) : Host.Outcome State Fault Refusal :=
  .next (s.running (s.scrubWake k g lines half errs))

/-- LAP_WARN. -/
def execLapWarn (k : Nat) (s : State) : Host.Outcome State Fault Refusal := .next (s.running (s.lapWarn k))

/-- SOFT_REPAIR: the lines of the first due row are buffered. -/
def execSoftRepair (k : Nat) (resource : Bool) (time : Nat) (lines : List (Nat × LineErr)) (s : State) : Host.Outcome State Fault Refusal :=
  .next (s.running (s.repairBegins k resource time lines))

/-- SOFT_REPAIR_END: sPPR is done. -/
def execSoftRepairEnd (k : Nat) (s : State) : Host.Outcome State Fault Refusal := .next (s.running (s.repairEnds k))

/-- RAW_READ: SCR_TEST_CTL written with GO and OP = 0. -/
def execRawRead (who : Requester) (copy : Nat) (s : State) : Host.Outcome State Fault Refusal :=
  let v := SCR_TEST_CTL.GO.put 1 (SCR_TEST_CTL.OP.put 0 (SCR_TEST_CTL.COPY.put copy 0))
  .next (s.running (s.written who 8 SCR_TEST_CTL v (fun a => a.actTestCtl who v)))

/-- RAW_WRITE: SCR_TEST_CTL written with GO and OP = 1. -/
def execRawWrite (who : Requester) (copy : Nat) (s : State) : Host.Outcome State Fault Refusal :=
  let v := SCR_TEST_CTL.GO.put 1 (SCR_TEST_CTL.OP.put 1 (SCR_TEST_CTL.COPY.put copy 0))
  .next (s.running (s.written who 8 SCR_TEST_CTL v (fun a => a.actTestCtl who v)))

/-- RAW_ACCESS_END, with the errors that the cells give to a read. -/
def execRawAccessEnd (err : LineErr) (s : State) : Host.Outcome State Fault Refusal := .next (s.running (s.rawEnd err))

/-- MG_LOCK: MG_CTLg written with LOCK. -/
def execMgLock (who : Requester) (g : Nat) (v : Word) (s : State) : Host.Outcome State Fault Refusal :=
  let w := (MG_CTLg.LOCK g).put 1 v
  .next (s.running (s.written who 8 (MG_CTLg g) w (fun a => a.actMgCtl g w)))

end Sys2Proof.Machine
end

