-- ==== Sys2Proof/Machine/System.lean ====
section
/-! DEFINITION. How a channel engine or data mover reaches system memory and the memory of the external host (R44, R201, R248,
R297, R319): reads and writes of bytes, with the status of R356. -/

namespace Sys2Proof.Machine

open Sys2Proof

/-- The external host's line at an address, as a key of `FarData`. -/
def hostKey (a : Nat) : Nat := 2 ^ 64 + a / 64

/-- What agents outside the module answer to a read of line `key`. -/
def farAnswer (far : FarData) (key : Nat) : FarAnswer := ((far.find? (fun e => decide (e.1 = key))).map (·.2)).getD .error

/-- The data of an answer, and whether they are poison. -/
def FarAnswer.line : FarAnswer → Option (Line × Bool)
  | .data d p => some (d, p)
  | _ => none

/-- The function that an instance is bound to, if it is bound as FUNCTION (R316). -/
def State.instFunc (s : State) (i : Nat) : Option Nat :=
  if s.f (CSS_SIi_BIND.KIND i) = 2 then some (s.f (CSS_SIi_BIND.FUNC i)) else none

/-- Whether an instance's windows refuse an address of system DRAM (R319); a window written in this leaf acts from the next one (R320). -/
def State.windowRefuses (s : State) (i a : Nat) : Bool :=
  s.on (CSS_SIi_BIND.WINEN i) && !(List.range 4).any (fun w =>
    decide (s.inForce (CSS_SIi_WINw_BASE.EN i w) = 1 ∧ s.inForce (CSS_SIi_WINw_BASE.BASE i w) ≤ a / 4096 ∧
      a / 4096 ≤ s.inForce (CSS_SIi_WINw_LIMIT.LIMIT i w)))

/-- Whether an instance's access to an address is refused: 0 it is admitted, 1 the address falls in a region of R44, 2 guard 0 or
a window refuses it. The windows bound what an instance reaches of other modules' DRAM too (R320; log entry 69). Traffic of engines is text world
(R473). -/
def State.judge (s : State) (i a : Nat) (write : Bool) : Nat :=
  if 2 ^ 49 ≤ a then 1
  else if s.ownDram a then
    (if !s.populated a then 1
    else if s.windowRefuses i a || s.guardRefuses 0 a false write then 2 else 0)
  else if s.moduleReachable (s.windowHost (a / 2 ^ 46)) then (if s.windowRefuses i a then 2 else 0) else 1

/-- A refused access is captured (R248). -/
def State.noteRefusal (s : State) (code a : Nat) (write : Bool) : State := if code = 2 then s.refuse 0 a false write else s

/-- A request for the host's memory leaves: the active group's link leaves its idle state (R468). -/
def State.hostSends (s : State) : State :=
  let a := s.f AEP_STATUS.ACTIVE
  if (s.ep.get {} a).idle = 0 then s
  else { s.setB AEP_STATUS.ACT_L0 (decide (s.f (PRT_Pp_STATUS.STATE (64 * a)) = 4)) with ep := s.ep.set {} a { s.ep.get {} a with idle := 0 } }

/-- The holders of other modules answer the snoop of a read of this module's line (R176, R177): with the data listed in `far`, or, holding it
clean, without. -/
def State.farAnswers (s : State) (line : Nat) (far : FarData) : State :=
  match (s.slice (s.homeSlice (line * 64))).txns.find? (fun x => decide (x.line = line)) with
  | none => s
  | some x =>
    if x.await.all (fun h => decide (h.1 ≠ s.moduleNo ∧ h.1 < 8)) then
      x.await.foldl (fun a h => a.homeAnswer line h false ((farAnswer far line).line.map (fun d => (d.1, d.2, true)))) s
    else s

/-- Whether a write of an engine to a line is not done: a read of the same engine waits for it (R357). -/
def State.writing (s : State) (die line : Nat) : Bool := s.writes.any (fun w => decide (w.die = die ∧ w.line = line ∧ w.left ≠ 0))

/-- An engine's read cannot be answered yet. -/
def State.sticks (s : State) (r : HomeReq) : State := { s with stuck := s.stuck ++ [r] }

/-- What a command does that reads memory for an engine: nothing but the sending of its requests while one of its reads waits at its home; the
command then comes again (log entry 60). -/
def State.reading (s s' : State) : State :=
  s.running (if s'.stuck.isEmpty then s'
    else s'.stuck.foldl (fun a r =>
      match r.src with
      | .engine _ e => if a.writing e r.line || (a.curCopies.get none (copyKey e r.line false)).isSome then a else (a.askHome r).1
      | .tile _ _ => a) s)

/-- The current copy of a line of this module (R177): its data and poison. Where the line is under another transaction the request takes its
place at the home, and the read waits (R182). -/
def State.ownRead (s : State) (die i line : Nat) (far : FarData) : State × Line × Bool :=
  let r : HomeReq := { kind := .rdCur, src := .engine s.moduleNo die, line := line }
  let busy := (s.slice (s.homeSlice (line * 64))).busy line
  if s.writing die line then (s.sticks r, 0, false)
  else
    let s1 := if (s.curCopies.get none (copyKey die line false)).isSome then s
      else if busy then (s.askHome r (some i)).1 else (s.askHome r (some i)).1.farAnswers line far
    match s1.takeCopy die line false with
    | (s2, some (d, p)) => (s2, d, p)
    | (s2, none) => (s2.sticks r, 0, false)

/-- Read one line for instance i: a status of R356 and the data. -/
def State.sysLine (s : State) (die i : Nat) (host : Bool) (a : Nat) (far : FarData) : State × Nat × Line :=
  if host then
    match s.instFunc i with
    | none => (s, 4, 0)
    | some fn =>
      let s1 := s.hostSends.emit (.host fn false (a / 64 * 64) 64 false [])
      match (farAnswer far (hostKey a)).line with
      | none => (s1, 5, 0)
      | some (d, p) => ({ s1 with hostTries := s1.hostTries.set 0 i 0 }, if p then 3 else 0, d)
  else
    let c := s.judge i a false
    if c ≠ 0 then (s.noteRefusal c a false, c, 0)
    else if s.ownDram a then
      match s.ownRead die i (a / 64) far with
      | (s1, d, p) => (s1, if p then 3 else 0, d)
    else if s.writing die (a / 64) then (s.sticks { kind := .rdCur, src := .engine s.moduleNo die, line := a / 64 }, 0, 0)
    else
      let s1 := s.request .rdCur (.engine s.moduleNo die) (a / 64) false false [] (some i)
      match farAnswer far (a / 64) with
      | .error => (s1, 1, 0)
      | .refused => (s1, 2, 0)
      | .data d p => (s1, if p then 3 else 0, d)

/-- What a read of bytes found: the bytes up to the first failure, its status (0 when there is none), and the runs of poisoned bytes among them,
by offset and length. -/
structure BytesRead where
  bytes  : List Byte
  status : Nat
  bad    : List (Nat × Nat)
deriving DecidableEq, Repr

/-- Whether poison was among the bytes read. -/
def BytesRead.poison (r : BytesRead) : Bool := !r.bad.isEmpty

/-- Whether byte `j` of those read is poisoned. -/
def BytesRead.poisonAt (r : BytesRead) (j : Nat) : Bool := r.bad.any (fun p => decide (p.1 ≤ j ∧ j < p.1 + p.2))

/-- Read the lines of a range, at most `n` of them; `left` bytes from address `a`. -/
def State.sysLines (s : State) (die i : Nat) (host : Bool) (far : FarData) : Nat → Nat → Nat → State × BytesRead
  | 0, _, _ => (s, ⟨[], 0, []⟩)
  | n + 1, a, left =>
    if left = 0 then (s, ⟨[], 0, []⟩)
    else
      let k := min (64 - a % 64) left
      match s.sysLine die i host a far with
      | (s1, st, d) =>
        if st = 0 ∨ st = 3 then
          let (s2, r) := s1.sysLines die i host far n (a + k) (left - k)
          (s2, ⟨(List.range k).map (fun j => lineByte d (a % 64 + j)) ++ r.bytes, r.status,
            (if st = 3 then [(0, k)] else []) ++ r.bad.map (fun p => (p.1 + k, p.2))⟩)
        else (s1, ⟨[], st, []⟩)

/-- Read `len` bytes from address `a` for instance i. -/
def State.sysRead (s : State) (die i : Nat) (host : Bool) (a len : Nat) (far : FarData) : State × BytesRead :=
  s.sysLines die i host far (len / 64 + 2) a len

/-- The bytes of a list that fall in line `l`, as data and mask. -/
def cellsOfLine (cells : List (Nat × Byte)) (l : Nat) : Line × BitVec 64 :=
  cells.foldl (fun (acc : Line × BitVec 64) c =>
    if c.1 / 64 = l then (lineSetByte acc.1 (c.1 % 64) c.2, acc.2 ||| (1#64 <<< (c.1 % 64))) else acc) (0, 0)

/-- The lines that a list of bytes touches, in the order of their first bytes. -/
def linesOf (cells : List (Nat × Byte)) : List Nat :=
  cells.foldl (fun acc c => if acc.contains (c.1 / 64) then acc else acc ++ [c.1 / 64]) []

/-- The runs of the positions of those bytes of a list that fall in line `l`, counted from `base`. -/
def spansOf (cells : List (Nat × Byte)) (l base : Nat) : List (Nat × Nat) :=
  cells.zipIdx.foldr (fun c acc =>
    if c.1.1 / 64 = l then
      (match acc with
      | (o, n) :: rest => if o = base + c.2 + 1 then (base + c.2, n + 1) :: rest else (base + c.2, 1) :: acc
      | [] => [(base + c.2, 1)])
    else acc) []

/-- What a data mover knows of a write: the queue, the command with the position of the first byte in its data, and the move of a channel engine that
it is of, whether it is ordered, and whether it may be relaxed (R300). -/
structure WriteOf where
  queue   : Option Nat := none
  part    : Option (Nat × Nat) := none
  move    : Option (Nat × Nat × Nat) := none
  ordered : Bool := false
  relaxed : Bool := false
deriving DecidableEq, Repr

/-- Whether VFn sets the Relaxed Ordering attribute where R300 calls for it (R460). -/
def State.mayRelax (s : State) (n : Nat) : Bool := (s.vfs.get {} (s.f AEP_STATUS.ACTIVE * 256 + n)).relax

/-- Whether two writes are of one order: of one queue, or of one instance where a write is of no queue, as those of its reset report are (R334). -/
def EngWrite.fellow (w x : EngWrite) : Bool := if w.queue.isSome then decide (x.queue = w.queue) else w.ordered && decide (x.inst = w.inst)

/-- Whether a write may be issued (R192, R300): fewer than 64 of its mover are outstanding; an ordered one waits for every earlier write of its
queue, and the others of a command for its ordered one. `before`: the writes that came before it. -/
def State.issuable (s : State) (w : EngWrite) (before : List EngWrite) : Bool :=
  decide ((s.writes.filter (fun x => x.sent && decide (x.die = w.die ∧ x.left ≠ 0))).length < 64) &&
    !before.any (fun x => w.fellow x && decide (x.left ≠ 0) &&
      (w.ordered || (x.ordered && !x.sent && decide (x.part.map (·.1) = w.part.map (·.1)))))

/-- Bytes `o` to `o + n - 1` of a line, as a mask. -/
def runMask (o n : Nat) : BitVec 64 := BitVec.ofNat 64 ((2 ^ n - 1) * 2 ^ o)

/-- The write at place `i` is issued, and keeps its place: a WrFull of a whole line, a WrPart of each run of bytes of a part (R201). -/
def State.issueWrite (s : State) (i : Nat) (w : EngWrite) : State :=
  let src : ReqSrc := .engine s.moduleNo w.die
  let runs := maskRuns w.mask
  if w.mask = BitVec.allOnes 64 then
    ({ s with writes := s.writes.modify i (fun x => { x with sent := true, left := 1 }) }).request (.wrFull w.data w.psn) src w.line false false [] w.inst
  else
    runs.foldl (fun (a : State) r => a.request (.wrPart w.data (runMask r.1 r.2) w.psn) src w.line false false [] w.inst)
      { s with writes := s.writes.modify i (fun x => { x with sent := true, left := runs.length }) }

/-- The writes that wait for room or for their order are issued as far as may be, in their order. -/
def State.issueWaiting (s : State) : State :=
  (List.range s.writes.length).foldl (fun a i =>
    match a.writes[i]? with
    | some w => if !w.sent && a.issuable w (a.writes.take i) then a.issueWrite i w else a
    | none => a) s

/-- Write the bytes of one line, which complete the runs `spans` of the command that they are of; the status is of R356, none where the home has still
to answer (R192). -/
def State.sysWriteLine (s : State) (die i : Nat) (host : Bool) (l : Nat) (d : Line) (mask : BitVec 64) (psn : Bool) (of : WriteOf)
    (spans : List (Nat × Nat)) : State × Option Nat :=
  if host then
    match s.instFunc i with
    | none => (s, some 4)
    | some fn =>
      let idx := (List.range 64).filter (fun j => mask.getLsbD j)
      (s.hostSends.emit (.host fn true (l * 64 + idx.headD 0) idx.length (of.relaxed && s.mayRelax fn) (idx.map (lineByte d))), some 0)
  else
    let a := l * 64
    let c := s.judge i a true
    if c ≠ 0 then (s.noteRefusal c a true, some c)
    else
      let w : EngWrite := { die := die, line := l, data := d, mask := mask, psn := psn, inst := some i, queue := of.queue
                            part := of.part.map (fun p => (p.1, spans)), move := of.move, ordered := of.ordered }
      if s.issuable w s.writes then
        let s1 := ({ s with writes := s.writes ++ [w] }).issueWrite s.writes.length w
        match s1.writes.getLast? with
        | some x => if x.sent ∧ x.left = 0 then ({ s1 with writes := s1.writes.dropLast }, some x.status) else (s1, none)
        | none => (s1, none)
      else ({ s with writes := s.writes ++ [w] }, none)

/-- Write bytes at addresses for instance i, the lines of `bad` as poison: the status of the first line that fails, and the runs of the command's
data whose writes are acknowledged. -/
def State.sysWriteParts (s : State) (die i : Nat) (host : Bool) (cells : List (Nat × Byte)) (bad : List Nat) (of : WriteOf := {}) :
    State × Nat × List (Nat × Nat) :=
  (linesOf cells).zipIdx.foldl (fun (acc : State × Nat × List (Nat × Nat)) l =>
    if acc.2.1 ≠ 0 then acc
    else
      let (d, m) := cellsOfLine cells l.1
      let spans := spansOf cells l.1 (of.part.elim 0 (·.2))
      match acc.1.sysWriteLine die i host l.1 d m (bad.contains l.1) { of with ordered := of.ordered && decide (l.2 = 0) } spans with
      | (s1, some 0) => (s1, 0, acc.2.2 ++ spans)
      | (s1, c) => (s1, c.getD 0, acc.2.2)) (s, 0, [])

/-- Write bytes at addresses for instance i: the status of the first line that fails. -/
def State.sysWrite (s : State) (die i : Nat) (host : Bool) (cells : List (Nat × Byte)) (bad : List Nat) (of : WriteOf := {}) : State × Nat :=
  let r := s.sysWriteParts die i host cells bad of
  (r.1, r.2.1)

/-- The lines that a list of bytes is to poison: those in which a poisoned one of the bytes read lands. -/
def BytesRead.badLines (r : BytesRead) (cells : List (Nat × Byte)) : List Nat :=
  if r.bad.isEmpty then [] else cells.zipIdx.foldl (fun acc c => if r.poisonAt c.2 then c.1.1 / 64 :: acc else acc) []

/-- The bytes of a word at address `a`. -/
def wordCells (a : Nat) (v : BitVec 32) : List (Nat × Byte) := (List.range 4).map (fun k => (a + k, (v >>> (8 * k)).setWidth 8))

/-- Whether a write of a queue is not acknowledged. -/
def State.queueWrites (s : State) (q : Nat) : Bool := s.writes.any (fun w => decide (w.queue = some q ∧ w.left ≠ 0))

/-- Whether a write of a command is not acknowledged. -/
def State.cmdWrites (s : State) (seq : Nat) : Bool := s.writes.any (fun w => w.part.any (fun p => decide (p.1 = seq ∧ w.left ≠ 0)))

/-! ### The staging buffers (R315) -/

/-- Bytes of instance i in the staging half on I/O die d: data in transit, and frames. -/
def State.halfUsed (s : State) (i d : Nat) : Nat :=
  (s.reqs.filter (fun r => decide (r.queue / 64 = i ∧ r.die = d ∧ (r.fate = 0 ∨ r.fate = 3)))).foldl (fun a r => a + r.len) 0 +
    (s.frames.filter (fun f => decide ((match f.closed with
      | some (_, q, _) => q
      | none => s.f (CSS_Pp_STRMs.QUEUE f.port f.stream)) / 64 = i))).foldl (fun a f =>
        a + (if f.port / 64 = d then f.bytes.length - f.across else f.across)) 0

/-- The half that takes `len` bytes more: the one on die d while it has room, and otherwise the other. -/
def State.halfFor (s : State) (i d len : Nat) : Nat := if s.halfUsed i d + len ≤ 131072 then d else 1 - d

/-- Whether guard 1 or 2 refuses data of an instance in its half on die d (R246, R315; log entry 69), as they are stored or read there; a refusal is
captured. -/
def State.stage (s : State) (i d owner off : Nat) (write : Bool) : State × Bool :=
  let o := i * 0x20000 + Config.stagingSpot owner off % 0x20000
  if s.guardRefuses (1 + d) o false write then (s.refuse (1 + d) o false write, true) else (s, false)

/-- Bytes from address `a` upwards. -/
def cellsAt (a : Nat) (bytes : List Byte) : List (Nat × Byte) := bytes.zipIdx.map (fun e => (a + e.2, e.1))

end Sys2Proof.Machine
end

