-- ==== Sys2Proof/Machine/Endpoint.lean ====
section
/-! DEFINITION. The state of the attach endpoint (R454 to R458, R464 to R470) as the channel subsystem and the ports see it. -/

namespace Sys2Proof.Machine

open Sys2Proof

/-- A group of the endpoint: 0 P0 to P7, 1 P64 to P71. -/
def State.group (s : State) (g : Nat) : EpGroup := s.ep.get {} g

/-- Change it. -/
def State.modGroup (s : State) (g : Nat) (f : EpGroup → EpGroup) : State := { s with ep := s.ep.set {} g (f (s.group g)) }

/-- The active group. -/
def State.activeGroup (s : State) : Nat := s.f AEP_STATUS.ACTIVE

/-- The lead port of a group. -/
def groupLead (g : Nat) : Nat := 64 * g

/-- VFn's registers in a group. -/
def State.vf (s : State) (g n : Nat) : VfCfg := s.vfs.get {} (g * 256 + n)

/-- Change them. -/
def State.modVf (s : State) (g n : Nat) (f : VfCfg → VfCfg) : State := { s with vfs := s.vfs.set {} (g * 256 + n) (f (s.vf g n)) }

/-- Whether the endpoint is in forerunner-compatibility mode (R4). -/
def State.forerunner (s : State) : Bool := s.on AEP_STATUS.MODE

/-- Whether a group's link is in L0. -/
def State.groupL0 (s : State) (g : Nat) : Bool :=
  decide (s.f (PRT_Pp_CFG.MODE (groupLead g)) = 3 ∧ s.f (PRT_Pp_STATUS.STATE (groupLead g)) = 4) && decide ((s.group g).idle = 0)

/-- The registers that show the endpoint follow its state. -/
def State.showEndpoint (s : State) : State :=
  let a := s.activeGroup
  let g := s.group a
  let s1 := (((((s.setF AEP_STATUS.NUMVFS g.numVfs).setB AEP_STATUS.VF_EN g.vfEn).setB AEP_STATUS.PME_EN g.pmeEn).setF AEP_STATUS.DSTATE
    g.dstate).setB AEP_STATUS.ACT_L0 (s.groupL0 a)).setB AEP_STATUS.STBY_L0 (s.groupL0 (1 - a))
  let s2 := (List.range 2).foldl (fun b k =>
    let was := if k = a then s.on AEP_STATUS.ACT_L0 else s.on AEP_STATUS.STBY_L0
    if was && !s.groupL0 k then b.modGroup k (fun x => { x with leftL0 := s.leaf }) else b) s1
  (List.range 255).foldl (fun b k =>
    let n := k + 1
    (b.setB (AEP_VFn_STATUS.EXISTS n) (g.vfEn && decide (n ≤ g.numVfs))).setB (AEP_VFn_STATUS.BME n) (s.vf a n).bme) s2

/-- The function that an instance is bound to may reach host memory: it exists, its bus mastering is not withdrawn, PF0 is in D0, and the
active group's link is up (R282, R456, R465, R466). -/
def State.functionOpen (s : State) (n : Nat) : Bool :=
  let st := s.f (PRT_Pp_STATUS.STATE (groupLead s.activeGroup))
  s.on (AEP_VFn_STATUS.EXISTS n) && s.on (AEP_VFn_STATUS.BME n) && decide ((s.group s.activeGroup).dstate = 0) && decide (st = 4 ∨ st = 5)

/-- INTA follows INTX_PEND, Interrupt Disable and the D-state (R469). -/
def State.updateIntx (s : State) : State :=
  let g := s.group s.activeGroup
  let want := s.forerunner && decide (s.intxPend ≠ 0) && !g.intOff && decide (g.dstate = 0)
  if want && !s.intxOn then { s.emit (.epMessage s.activeGroup 1) with intxOn := true }
  else if s.intxOn && (decide (s.intxPend = 0) || g.intOff) then { s.emit (.epMessage s.activeGroup 2) with intxOn := false }
  else s

/-- A record for queue q has been transmitted to the host (R469). -/
def State.intxCause (s : State) (q : Nat) : State :=
  match s.instFunc (q / 64) with
  | none => s
  | some n =>
    if s.forerunner && (s.vf s.activeGroup n).irqEn.getLsbD (q % 64) then
      { s with intxPend := s.intxPend ||| BitVec.shiftLeft 1 n }.updateIntx
    else s

end Sys2Proof.Machine
end

