-- ==== Sys2Proof/Machine/Lines.lean ====
section
/-! DEFINITION. The event lines and FIFOs of the channel engines (R380, R383), through which the other units reach them. -/

namespace Sys2Proof.Machine

open Sys2Proof

/-- Logical engine l. -/
def State.engine (s : State) (l : Nat) : Engine := s.engines.get {} l

/-- Change a logical engine. -/
def State.modEngine (s : State) (l : Nat) (g : Engine → Engine) : State := { s with engines := s.engines.set {} l (g (s.engine l)) }

/-- The logical engine that serves a queue (R254). -/
def State.engineOf (s : State) (q : Nat) : Nat := s.f (CSS_Qq_CTL.ENGINE q)

/-- Whether a logical engine is RUNNING (CE_STATUSl). -/
def State.engineRuns (s : State) (l : Nat) : Bool := decide (s.f (CE_STATUSl.STATE l) = 0)

/-- Whether an engine runs the standard channel program now: that takes its events as they come. -/
def State.takesEvents (s : State) (l : Nat) : Bool := s.engineRuns l && (s.engine l).imem.isEmpty

/-- A source sets its line's bit in EV_PEND (R383). -/
def State.raiseLine (s : State) (l n : Nat) : State :=
  if s.takesEvents l then s else s.modEngine l (fun e => { e with pend := e.pend ||| (1#8 <<< n) })

/-! ### Sockets, guards and the ends of asynchronous operations (R344, R383) -/

/-- A socket's value as it stands. -/
def Engine.sock (e : Engine) (n : Nat) : BitVec 32 := e.sockets.get 0 n

/-- Set a socket. -/
def Engine.setSock (e : Engine) (n : Nat) (v : BitVec 32) : Engine := { e with sockets := e.sockets.set 0 n v }

/-- Set or clear a guard. -/
def Engine.setGuard (e : Engine) (n : Nat) (v : Bool) : Engine :=
  let bit : BitVec 3 := 1#3 <<< (n - 1)
  { e with guards := if v then e.guards ||| bit else e.guards &&& ~~~bit }

/-- A posted write that failed is captured in IO_WERR, or counted there (R370). -/
def State.captureError (s : State) (l a st : Nat) : State :=
  let w := (s.engine l).ioWerr
  if w.getLsbD 31 then
    let c := min (w.toNat / 256 % 65536 + 1) 65535
    s.modEngine l (fun e => { e with ioWerr := BitVec.ofNat 32 (2 ^ 31 + c * 256 + w.toNat % 16) })
  else
    (s.modEngine l (fun e => { e with ioWerr := BitVec.ofNat 32 (2 ^ 31 + st), ioWerrA := BitVec.ofNat 32 a })).raiseLine l 0

/-- An asynchronous operation ends: its result sockets, then its guard, then event line 3 (R344, R383). -/
def State.endAsync (s : State) (l n : Nat) (results : List (Nat × BitVec 32)) : State :=
  (s.modEngine l (fun e =>
    { (results.foldl (fun a r => a.setSock r.1 r.2) e).setGuard n true with async := e.async.set none n none })).raiseLine l 3

/-! ### Events of queues -/

/-- Whether a queue's engine runs the standard channel program (R390): no word of its instruction space was written since. -/
def State.standardFor (s : State) (q : Nat) : Bool := (s.engine (s.engineOf q)).imem.isEmpty

/-- A served queue changes STATE or PAUSE, or its instance starts a reset (line 2): it enters CTL_Q once, or waits for room. -/
def State.controlEvent (s : State) (q : Nat) : State :=
  let l := s.engineOf q
  let e := s.engine l
  let s1 := s.raiseLine l 2
  if s.takesEvents l then s
  else if e.ctlQ.contains q || e.ctlWait.contains q then s1
  else if e.ctlQ.length < 1024 then s1.modEngine l (fun e => { e with ctlQ := e.ctlQ ++ [q] })
  else s1.modEngine l (fun e => { e with ctlWait := e.ctlWait ++ [q] })

/-- A frame for a stream of a served queue is complete in staging (line 5). -/
def State.frameEvent (s : State) (q : Nat) : State :=
  let l := s.engineOf q
  let e := s.engine l
  let s1 := s.raiseLine l 5
  if s.takesEvents l then s
  else if e.frameQ.contains q || e.frameWait.contains q then s1
  else if e.frameQ.length < 1024 then s1.modEngine l (fun e => { e with frameQ := e.frameQ ++ [q] })
  else s1.modEngine l (fun e => { e with frameWait := e.frameWait ++ [q] })

/-- A timer of a served queue's command fires (line 1): the command enters TIMER_Q. Whether it found room. -/
def State.timerEvent (s : State) (q index : Nat) : State × Bool :=
  let l := s.engineOf q
  let s1 := s.raiseLine l 1
  if s.takesEvents l then (s, true)
  else if (s.engine l).timerQ.length < 1024 then (s1.modEngine l (fun e => { e with timerQ := e.timerQ ++ [(q, index)] }), true)
  else (s1, false)

/-- Set a queue's STATE (R255), which its engine is told of. -/
def State.setQState (s : State) (q st : Nat) : State :=
  if s.f (CSS_Qq_STATUS.STATE q) = st then s else (s.setF (CSS_Qq_STATUS.STATE q) st).controlEvent q

end Sys2Proof.Machine
end

