-- ==== Sys2Proof/Machine/Frames.lean ====
section
/-! DEFINITION. Frames on their way into staging (R310, R314, R315, R331, R430 to R432): the adapters' writes, the receive buffers of the ports, and
the frames that leave. -/

namespace Sys2Proof.Machine

open Sys2Proof

/-- Whether port p is the lead of a merged root port in link-up (R278, R582). -/
def State.rootUp (s : State) (p : Nat) : Bool :=
  decide (s.f (PRT_Pp_CFG.MODE p) = 1) && decide (p % 2 ^ (s.f (PRT_Pp_CFG.WIDTH p) - 1) = 0) &&
    decide (s.f (PRT_Pp_STATUS.STATE p) = 4 ∨ s.f (PRT_Pp_STATUS.STATE p) = 5)

/-- Change what port p knows beside its registers. -/
def State.modPort (s : State) (p : Nat) (g : Port → Port) : State := { s with ports := s.ports.set {} p (g (s.ports.get {} p)) }

/-- The bytes of an instance's frames in staging (R310). -/
def State.frameBytes (s : State) (i : Nat) : Nat :=
  (s.frames.filter (fun f => s.on (CSS_Pp_STRMs.VALID f.port f.stream) &&
    decide (s.f (CSS_Pp_STRMs.QUEUE f.port f.stream) / 64 = i))).foldl (fun a f => a + f.bytes.length) 0

/-- The open frame of a stream of a port. -/
def State.openFrame (s : State) (p st : Nat) : Option Frame :=
  s.frames.find? (fun f => decide (f.port = p ∧ f.stream = st) && f.closed.isNone)

/-- Whether a frame is the open one of a stream. -/
def Frame.isOpen (f : Frame) (p st : Nat) : Bool := decide (f.port = p ∧ f.stream = st) && f.closed.isNone

/-- Whether a complete frame waits for queue q. -/
def Frame.waitsFor (f : Frame) (q : Nat) : Bool := f.closed.elim false (fun c => decide (c.2.1 = q))

/-- Whether a port takes frames: it is a root port in link-up, or looped back at depth ECHO (R431, R436). -/
def State.framesTaken (s : State) (p : Nat) : Bool :=
  s.rootUp p || (decide (s.f (PRT_Pp_CFG.MODE p) = 4) && decide ((s.ports.get {} p).depth = 4))

/-! ### Writes into the inbound stream aperture (R431, R432) -/

/-- Whether there is room in the instance's 192 KiB for a data write of a stream (R310). Frames that are dropped in the end need none. -/
def State.roomFor (s : State) (p st off : Nat) (data : List Byte) : Bool :=
  !s.on (CSS_Pp_STRMs.VALID p st) || decide (s.frameBytes (s.f (CSS_Pp_STRMs.QUEUE p st) / 64) + data.length ≤ 196608) ||
    decide (196608 < off + data.length)

/-- A data write goes to staging (R431), in the half on its port's die while that has room (R315). Guard 1 or 2 may refuse it there. -/
def State.stageData (s : State) (p st off : Nat) (data : List Byte) (psn : Bool) : State :=
  let i := s.f (CSS_Pp_STRMs.QUEUE p st) / 64
  let f : Frame := (s.openFrame p st).getD { port := p, stream := st }
  let cells := data.zipIdx.filter (fun e => decide (off + e.2 < 196608))
  let bytes := cells.foldl (fun b e => Table.set 0 b (off + e.2) (e.1.toNat + 1)) f.bytes
  let beyond := f.across + (bytes.length - f.bytes.length - (131072 - s.halfUsed i (p / 64)))
  let (s1, refused) := s.stage i (if f.across < beyond then 1 - p / 64 else p / 64) (2 ^ 63 + 256 * p + st) off true
  let f1 : Frame := { f with long := f.long || decide (196608 < off + data.length) }
  let f2 : Frame := if refused then f1 else { f1 with
    bytes := bytes, across := beyond, poison := if psn then f.poison ++ cells.map (fun e => off + e.2) else f.poison }
  if (s.openFrame p st).isSome then { s1 with frames := s1.frames.map (fun x => if x.isOpen p st then f2 else x) }
  else { s1 with frames := s1.frames ++ [f2] }

/-- The open frame of a stream is discarded, and counted. -/
def State.dropOpen (s : State) (p st : Nat) (fld : Fld) : State :=
  { s.incF fld with frames := s.frames.filter (fun f => !f.isOpen p st) }

/-- A frame that fails R432's last checks. -/
def State.frameError (s : State) (p st : Nat) : State :=
  (s.dropOpen p st (PRT_Pp_COUNTS.FRAME_ERR p)).raise PRT_ALARM.FRAME_ERR

/-- Whether the bytes written are exactly offsets 0 to n − 1. -/
def exactBytes (b : Table Nat) (n : Nat) : Bool := decide (b.length = n) && b.all (fun e => decide (e.1 < n))

/-- The closing write of a frame acts (R432). -/
def State.closeOpen (s : State) (p st : Nat) (v : Word) (len : Nat) (relaxed : Bool) : State :=
  let f : Frame := (s.openFrame p st).getD { port := p, stream := st }
  let n := v.toNat % 2 ^ 18
  let q := s.f (CSS_Pp_STRMs.QUEUE p st)
  if f.long || decide (196608 < n) then s.dropOpen p st (CSS_Pp_STRMs.DROP_LONG p st)
  else if !s.on (CSS_Pp_STRMs.VALID p st) then s.dropOpen p st (CSS_Pp_STRMs.DROP_UNBOUND p st)
  else if relaxed || decide (2 ^ 18 ≤ v.toNat) || decide (len ≠ 8) then s.frameError p st
  else if !exactBytes f.bytes n then s.frameError p st
  else
    let f1 : Frame := { f with closed := some (n, q, s.leaf) }
    ({ s with frames := s.frames.filter (fun (x : Frame) => !x.isOpen p st) ++ [f1] }).frameEvent q

/-! ### Back-pressure (R310, R314, R331) -/

/-- The stream of a write that waits. -/
def Inbound.streamNo : Inbound → Nat
  | .data st _ _ _ => st
  | .close st _ _ _ => st

/-- Whether a write that waits closes a frame. -/
def Inbound.closes : Inbound → Bool
  | .data _ _ _ _ => false
  | .close _ _ _ _ => true

/-- A write of a port is taken; none: there is no room for it in staging. -/
def State.takeInbound (s : State) (p : Nat) : Inbound → Option State
  | .data st off data psn => if s.roomFor p st off data then some (s.stageData p st off data psn) else none
  | .close st v len relaxed => some (s.closeOpen p st v len relaxed)

/-- The writes that wait in a port's receive buffer are taken in the order of their arrival, as far as there is room; `n` bounds them. -/
def State.drainPort (s : State) (p : Nat) : Nat → State
  | 0 => s
  | n + 1 =>
    match (s.ports.get {} p).inbox with
    | [] => s
    | x :: rest =>
      match s.takeInbound p x with
      | none => s
      | some s1 => (s1.modPort p (fun y => { y with inbox := rest })).drainPort p n

/-- The writes that wait at every port are taken as far as there is room. -/
def State.drainPorts (s : State) : State := s.ports.foldl (fun a (e : Nat × Port) => a.drainPort e.1 e.2.inbox.length) s

/-- Frames leave staging, and the room that they leave is taken (R310). -/
def State.removeFrames (s : State) (p : Frame → Bool) : State := { s with frames := s.frames.filter (fun f => !p f) }.drainPorts

/-- A complete frame leaves staging. -/
def State.releaseFrame (s : State) (f : Frame) : State := { s with frames := s.frames.erase f }.drainPorts

/-- A write of an adapter reaches a port (R310): while one waits there for room, every later one of the port waits behind it. -/
def State.inbound (s : State) (p : Nat) (x : Inbound) : State :=
  if !s.framesTaken p then s
  else if (s.ports.get {} p).inbox.isEmpty then
    (match s.takeInbound p x with
    | some s1 => s1.drainPorts
    | none => s.modPort p (fun y => { y with inbox := [x] }))
  else s.modPort p (fun y => { y with inbox := y.inbox ++ [x] })

/-- A data write into the inbound stream aperture (R431). -/
def State.streamData (s : State) (p st off : Nat) (data : List Byte) (psn : Bool) : State := s.inbound p (.data st off data psn)

/-- The closing write of a frame (R432). -/
def State.streamClose (s : State) (p st : Nat) (v : Word) (len : Nat) (relaxed : Bool) : State := s.inbound p (.close st v len relaxed)

/-- The writes of a receive buffer whose frames are complete: their closing writes have been received (R310). -/
def keepClosed : List Inbound → List Inbound
  | [] => []
  | x :: xs => if (x :: xs).any (fun y => y.closes && decide (y.streamNo = x.streamNo)) then x :: keepClosed xs else keepClosed xs

/-- Frames of a port that leaves link-up before their closing writes are cut off (R310); the writes of complete ones stay in the receive buffer. -/
def State.cutFrames (s : State) (p : Nat) : State :=
  let box := (s.ports.get {} p).inbox
  let closing (st : Nat) : Bool := box.any (fun y => y.closes && decide (y.streamNo = st))
  let open_ := ((s.frames.filter (fun f => decide (f.port = p) && f.closed.isNone && !closing f.stream)).map (·.stream))
  let cut := (open_ ++ (box.filter (fun x => !(keepClosed box).contains x)).map (·.streamNo)).dedup
  (cut.foldl (fun a st => a.incF (CSS_Pp_STRMs.DROP_PATH p st)) (s.modPort p (fun y => { y with inbox := keepClosed box }))).removeFrames
    (fun f => decide (f.port = p) && f.closed.isNone && !closing f.stream)

end Sys2Proof.Machine
end

