-- ==== Sys2Proof/Machine/Jobs.lean ====
section
/-! DEFINITION. The list of transform jobs, their slots and the binding of units (R405, R406, R411). -/

namespace Sys2Proof.Machine

open Sys2Proof

/-- The units of a die that are in service. -/
def State.unitsUp (s : State) (die : Nat) : List Nat :=
  ((List.range 8).map (fun j => 8 * die + j)).filter (fun u => decide (s.f (TU_STATUSu.STATE u) = 0))

/-- The number of jobs bound to a unit. -/
def boundTo (jobs : List TuJob) (u : Nat) : Nat := (jobs.filter (fun j => decide (j.unit = some u))).length

/-- The unit that a job takes: the one with the fewest jobs bound, the lowest number breaking ties (R406). -/
def State.freestUnit (s : State) (jobs : List TuJob) (die : Nat) : Option Nat :=
  (s.unitsUp die).foldl (fun best u => match best with
    | none => some u
    | some b => if boundTo jobs u < boundTo jobs b then some u else some b) none

/-- Jobs whose instance has no running job on their die take its slot and a unit, in the order of their triggers; on a die with no unit
in service they end with UNIT_ABSENT (R405, R406, R411). -/
def State.bindAll (s : State) : List TuJob → List TuJob → List TuJob
  | _, [] => []
  | before, j :: js =>
    let others := before ++ js
    let k := if j.unit.isSome || j.fail.isSome || j.ended.isSome then j
      else if (s.unitsUp j.die).isEmpty then { j with fail := some 0x18 }
      else if others.any (fun x => decide (x.die = j.die ∧ x.inst = j.inst) && x.unit.isSome) then j
      else { j with unit := s.freestUnit others j.die }
    k :: s.bindAll (before ++ [k]) js

/-- Put a new list of jobs in place: slots, units and TU_STATUSu.JOBS follow. -/
def State.setJobs (s : State) (jobs : List TuJob) : State :=
  let js := s.bindAll [] jobs
  let s1 := s.raiseIf (js.any (fun j => decide (j.fail = some 0x18) && (s.unitsUp j.die).isEmpty)) TU_ALARM.NO_UNIT
  (List.range 16).foldl (fun a u => a.setF (TU_STATUSu.JOBS u) (boundTo js u)) { s1 with jobs := js }

/-- Change one job. -/
def State.modJob (s : State) (id : Nat) (g : TuJob → TuJob) : State := s.setJobs (s.jobs.map (fun j => if j.id = id then g j else j))

/-- The jobs of a command go, for it starts again or has ended (R411). -/
def State.dropJobOf (s : State) (n seq : Nat) : State :=
  if s.jobs.any (fun j => decide (j.entry = some (n, seq))) then s.setJobs (s.jobs.filter (fun j => decide (j.entry ≠ some (n, seq)))) else s

end Sys2Proof.Machine
end

