-- ==== Sys2Proof/Machine/Queues.lean ====
section
/-! DEFINITION. Queues, doorbells, the in-flight journal and completion records (chapter The Channel Subsystem, R251 to R273,
R283 to R286, R302 to R308). -/

namespace Sys2Proof.Machine

open Sys2Proof

/-! ### Queues and their states -/

/-- The instance of a queue (R251). -/
def instOf (q : Nat) : Nat := q / 64

/-- The ring and doorbell unit's own state of queue q. -/
def State.queue (s : State) (q : Nat) : Queue := s.queues.get {} q

/-- Change it. -/
def State.modQueue (s : State) (q : Nat) (g : Queue → Queue) : State := { s with queues := s.queues.set {} q (g (s.queue q)) }

/-- A queue's STATE: 0 DISABLED, 1 RUNNING, 2 PAUSED, 3 DRAINING, 4 ERROR, 5 STOPPED (R255). -/
def State.qState (s : State) (q : Nat) : Nat := s.f (CSS_Qq_STATUS.STATE q)

/-- The current generation of an instance. -/
def State.gen (s : State) (i : Nat) : Nat := s.f (CSS_SIi_STATUS.GEN i)

/-- Whether an instance's reset runs. -/
def State.resetting (s : State) (i : Nat) : Bool := s.on (CSS_SIi_STATUS.RESETTING i)

/-- The die that serves a queue (R254). -/
def State.queueDie (s : State) (q : Nat) : Nat := s.f (CSS_Qq_CTL.ENGINE q) / 128

/-- The sizes of a queue's rings. -/
def State.sqSize (s : State) (q : Nat) : Nat := 2 ^ s.f (CSS_Qq_CTL.SQ_LOG q)
def State.cqSize (s : State) (q : Nat) : Nat := 2 ^ s.f (CSS_Qq_CTL.CQ_LOG q)

/-- A queue enters ERROR for a cause, or records a further cause (R255, ERR_CAUSE). One of an instance that is reset shows STOPPED (R332). -/
def State.queueError (s : State) (q cause : Nat) : State :=
  if s.resetting (instOf q) then s
  else
  let w := s.f (CSS_Qq_STATUS.CAUSES q)
  let s1 := s.setF (CSS_Qq_STATUS.CAUSES q) (w ||| 2 ^ (cause - 1))
  if s.qState q = 4 then s1
  else (((s1.setF (CSS_Qq_STATUS.CAUSES q) (2 ^ (cause - 1))).setQState q 4).setF (CSS_Qq_STATUS.ERR_CAUSE q) cause).raise
    CSS_ALARM.QUEUE_ERROR

/-- Whether a queue in ERROR has a cause among its causes. -/
def State.hasCause (s : State) (q cause : Nat) : Bool :=
  decide (s.qState q = 4) && (s.f (CSS_Qq_STATUS.CAUSES q)).testBit (cause - 1)

/-! ### The journal -/

/-- A journal entry. -/
def State.entry (s : State) (n : Nat) : Option JEntry := s.journal.get none n

/-- Change a journal entry. -/
def State.modEntry (s : State) (n : Nat) (g : JEntry → JEntry) : State :=
  match s.entry n with
  | none => s
  | some e => { s with journal := s.journal.set none n (some (g e)) }

/-- Put a command into a list in the order of acceptance. -/
def insertCmd (e : Nat × JEntry) : List (Nat × JEntry) → List (Nat × JEntry)
  | [] => [e]
  | x :: xs => if e.2.seq < x.2.seq then e :: x :: xs else x :: insertCmd e xs

/-- Commands in the order of acceptance. -/
def sortCmds (l : List (Nat × JEntry)) : List (Nat × JEntry) := l.foldr insertCmd []

/-- The entries of a queue, in the order of acceptance. -/
def State.cmdsOf (s : State) (q : Nat) : List (Nat × JEntry) :=
  sortCmds (s.journal.filterMap (fun (e : Nat × Option JEntry) =>
    e.2.bind (fun j => if j.queue = q then some (e.1, j) else none)))

/-- The entries of an instance, in the order of acceptance. -/
def State.cmdsOfInst (s : State) (i : Nat) : List (Nat × JEntry) :=
  sortCmds (s.journal.filterMap (fun (e : Nat × Option JEntry) =>
    e.2.bind (fun j => if instOf j.queue = i then some (e.1, j) else none)))

/-- The entry that a command has, by its place in the order of acceptance. -/
def State.entryOfSeq (s : State) (seq : Nat) : Option (Nat × JEntry) :=
  s.journal.findSome? (fun (e : Nat × Option JEntry) => e.2.bind (fun j => if j.seq = seq then some (e.1, j) else none))

/-- The lowest free entry of an instance (R268). -/
def State.freeEntry (s : State) (i : Nat) : Option Nat :=
  (List.range 1024).findSome? (fun k => if (s.entry (1024 * i + k)).isNone then some (1024 * i + k) else none)

/-- Whether a copy of the journal is in service or being rebuilt, so that entries can be written (R267, R270). -/
def State.journalUp (s : State) : Bool := decide (s.f CSS_JOURNAL.COPY0 ≠ 2) || decide (s.f CSS_JOURNAL.COPY1 ≠ 2)

/-- The counts of accepted commands that registers show. -/
def State.countEntries (s : State) (q : Nat) : State :=
  (s.setF (CSS_Qq_STATUS.INFLIGHT q) (s.cmdsOf q).length).setF CSS_JOURNAL.IN_USE s.journal.length

/-- The oldest announced descriptor of a queue is accepted (R267). -/
def State.accept (s : State) (q : Nat) : State :=
  let st := s.qState q
  let c := s.queue q
  if (st = 1 ∨ st = 2 ∨ st = 4) ∧ c.next ≠ s.f (CSS_Qq_PTRS.SQ_TAIL q) ∧ s.journalUp = true then
    match s.freeEntry (instOf q) with
    | none => s
    | some n =>
      (({ s with
        journal := s.journal.set none n (some { seq := s.seqNext, queue := q, index := c.next, gen := s.gen (instOf q) })
        seqNext := s.seqNext + 1 }).modQueue q (fun c => { c with next := (c.next + 1) % s.sqSize q })).countEntries q
  else s

/-! ### Descriptors (R287, R288) -/

/-- Word Dk of a descriptor. -/
def dWord (d : Line) (k : Nat) : Word := (d >>> (64 * k)).setWidth 64

/-- Bits hi to lo of a word. -/
def bitsOf (w : Word) (hi lo : Nat) : Nat := w.toNat / 2 ^ lo % 2 ^ (hi + 1 - lo)

def dOpcode (d : Line) : Nat := bitsOf (dWord d 0) 7 0
def dTarget (d : Line) : Nat := bitsOf (dWord d 0) 11 8
def dSwap (d : Line) : Nat := bitsOf (dWord d 0) 13 12
def dRlx (d : Line) : Bool := (dWord d 0).getLsbD 14
def dIdem (d : Line) : Bool := (dWord d 0).getLsbD 15
def dRbc (d : Line) : Bool := (dWord d 0).getLsbD 16
def dChain (d : Line) : Bool := (dWord d 0).getLsbD 17
def dBhost (d : Line) : Bool := (dWord d 0).getLsbD 18
def dLength (d : Line) : Nat := bitsOf (dWord d 0) 63 32

/-- The elements of an INDEXED (R294): ELEM, COUNT, whether it is a scatter, the width of a table entry, TABLE. -/
def dElem (d : Line) : Nat := bitsOf (dWord d 4) 12 0
def dCount (d : Line) : Nat := bitsOf (dWord d 4) 31 16 + 1
def dScatter (d : Line) : Bool := (dWord d 4).getLsbD 33
def dWidth (d : Line) : Nat := if (dWord d 4).getLsbD 32 then 8 else 4
def dTable (d : Line) : Nat := (dWord d 5).toNat

/-- The unit of a swap mode in bytes (R299). -/
def swapUnit (m : Nat) : Nat := if m = 0 then 1 else if m = 1 then 2 else 4

/-- The mark as BYTES and the journal count it: rounded down to whole swap units (R298). -/
def JEntry.bytesDone (e : JEntry) : Nat :=
  let u := e.desc.elim 1 (fun d => swapUnit (dSwap d))
  e.mark / u * u

/-- AUX of an INDEXED: the elements done in full; of a STREAM_RECEIVE that no frame fills: its stream number (R305). -/
def JEntry.endAux (e : JEntry) : Word :=
  match e.desc with
  | none => 0
  | some d =>
    if dOpcode d = 5 then BitVec.ofNat 64 (e.bytesDone / max (dElem d) 1)
    else if dOpcode d = 6 then e.aux ||| BitVec.ofNat 64 (bitsOf (dWord d 4) 7 0 * 2 ^ 24)
    else e.aux

/-- Whether a command has been started: it sends, or has sent (R255 PROGRAM_REPEAT). -/
def JEntry.started (e : JEntry) : Bool := decide (e.state = 1 ∨ e.state = 2)

/-- The TAG of an entry's command. -/
def JEntry.tag (e : JEntry) : Word := e.desc.elim 0 (fun d => dWord d 1)

/-- The opcode of an entry's command; 0 while its descriptor is not read. -/
def JEntry.opcode (e : JEntry) : Nat := e.desc.elim 0 dOpcode

/-- Whether an entry is a command that takes its place in issue order (R298, R309): read, and no STREAM_RECEIVE. -/
def JEntry.inOrder (e : JEntry) : Bool := e.desc.isSome && decide (e.opcode ≠ 6)

/-! ### Completion records (R263 to R269, R304) -/

/-- Whether a completion slot is free (R253, R265). -/
def State.slotFree (s : State) (q : Nat) : Bool :=
  decide ((s.f (CSS_Qq_STATUS.CQ_TAIL q) + 1) % s.cqSize q ≠ s.f (CSS_Qq_PTRS.CQ_HEAD q))

/-- The record of R304 without P, H and SQ_HEAD. -/
def packRecord (typ status detail path attempts marks : Nat) (aux tag : Word) (index bytes : Nat) : BitVec 256 :=
  BitVec.ofNat 256 (marks % 4 * 2 ^ 252 + attempts % 16 * 2 ^ 220 + typ % 4 * 2 ^ 218 + path % 4 * 2 ^ 216 + detail % 65536 * 2 ^ 200 +
    status % 256 * 2 ^ 192 + aux.toNat * 2 ^ 128 + tag.toNat * 2 ^ 64 + index % 65536 * 2 ^ 32 + bytes % 2 ^ 32)

/-- Whether the instance of a queue may reach host memory now: bus mastering is not withdrawn (R282). -/
def State.hostOpen (s : State) (i : Nat) : Bool :=
  match s.instFunc i with
  | none => true
  | some n => s.functionOpen n

/-- Whether records of a queue may be written now: no CQ_WRITE stands, and host memory may be reached where the ring lies in
it. -/
def State.recordsOpen (s : State) (q : Nat) : Bool :=
  !s.hasCause q 4 && (!s.on (CSS_Qq_CQBASE.HOST q) || s.hostOpen (instOf q)) && decide (s.qState q ≠ 0)

/-- A record as it is written now: with P, H and SQ_HEAD (R263, R264). -/
def State.fullRecord (s : State) (q : Nat) (body : BitVec 256) : BitVec 256 :=
  body ||| BitVec.ofNat 256 (s.f (CSS_Qq_STATUS.PHASE q) * 2 ^ 255 + (if s.holdFlag then 2 ^ 254 else 0) + s.f (CSS_Qq_STATUS.SQ_HEAD q) * 2 ^ 48)

/-- A record is written to a slot as one ordered write (R263); until the home answers it is the record in flight. The status of the write. -/
def State.putRecord (s : State) (q slot : Nat) (r : BitVec 256) (what : OutRec) : State × Nat :=
  let host := s.on (CSS_Qq_CQBASE.HOST q)
  let a := s.f (CSS_Qq_CQBASE.BASE q) * 4096 + slot * 32
  let (s1, st) := s.sysWrite (s.queueDie q) (instOf q) host (cellsAt a ((List.range 32).map (fun k => (r >>> (8 * k)).setWidth 8))) []
    { queue := some q, ordered := true }
  let s2 := s1.modQueue q (fun c => { c with flying := if st = 0 && s1.queueWrites q then some what else none })
  (if st = 0 && host then s2.intxCause q else s2, st)

/-- CQ tail moves on, and the phase with it at the ring's end (R264). -/
def State.advanceTail (s : State) (q : Nat) : State :=
  let t := s.f (CSS_Qq_STATUS.CQ_TAIL q) + 1
  if t = s.cqSize q then (s.setF (CSS_Qq_STATUS.CQ_TAIL q) 0).setF (CSS_Qq_STATUS.PHASE q) (1 - s.f (CSS_Qq_STATUS.PHASE q))
  else s.setF (CSS_Qq_STATUS.CQ_TAIL q) t

/-- The values of STATUS in records of TYPE 0 (R285). -/
def statusList : List Nat := [0, 1, 2, 8, 0x10, 0x11, 0x12, 0x18, 0x19, 0x1A, 0x20, 0x21, 0x28, 0x30, 0x38, 0x3E]

/-- The STATUS that a program's own record carries: a value that R285 does not list is never written, and which one stands in its place the spec
does not say (log entry 70). -/
def ownStatusOf (r : BitVec 256) : Nat :=
  let st := (r >>> 192).toNat % 256
  if statusList.contains st then st else statusList.getD (Config.ownStatus r % statusList.length) 0

/-- The body of a command's record: the one that its program gave, of TYPE 0, with INDEX filled in (R273, R377), or the one that R304 lays down.
PATH is 0 for T0 and for FENCE. -/
def JEntry.body (e : JEntry) : BitVec 256 :=
  match e.own, e.out with
  | some r, _ =>
    (r &&& BitVec.ofNat 256 (2 ^ 254 - 1 - 0xFFFFFFF * 2 ^ 224 - 3 * 2 ^ 252 - 3 * 2 ^ 218 - 255 * 2 ^ 192 - 65535 * 2 ^ 48 - 65535 * 2 ^ 32) |||
      (r &&& BitVec.ofNat 256 (3 * 2 ^ 252))) ||| BitVec.ofNat 256 (ownStatusOf r * 2 ^ 192 + e.index % 65536 * 2 ^ 32)
  | none, none => 0
  | none, some (status, detail, bytes) =>
    let path := if e.desc.elim true (fun d => decide (dTarget d = 0)) then 0 else e.path
    packRecord 0 status detail path e.attempts e.marks e.aux e.tag e.index bytes

/-- A command's entry is COMPLETING: it holds the record, the slot chosen and P (R269 step 1). One that is COMPLETING already keeps them. -/
def State.complete (s : State) (q n : Nat) : State :=
  s.modEntry n (fun e => if e.state = 4 then e else { e with
    state := 4, record := s.fullRecord q e.body, slot := s.f (CSS_Qq_STATUS.CQ_TAIL q), p := s.on (CSS_Qq_STATUS.PHASE q) })

/-- Write the first record that waits at a queue, if a slot is free (R265, R269) and every earlier write of the queue is acknowledged (R192,
R300). A record that R44 or a guard refuses is held, and goes to the same slot later (R255 CQ_WRITE). While the queue's instance is reset, only entries
that are COMPLETING write their records (R332). -/
def State.writeNext (s : State) (q : Nat) : State :=
  if s.recordsOpen q && !s.queueWrites q then
    match (s.queue q).out with
    | [] => s
    | .after r :: rest =>
      if !s.slotFree q || s.resetting (instOf q) then s
      else
        match s.putRecord q (s.f (CSS_Qq_STATUS.CQ_TAIL q)) (s.fullRecord q (packRecord 1 r.status r.detail r.path 0 0 r.aux r.tag r.index r.bytes))
            (.after r) with
        | (s1, 0) => ((s1.raise CSS_ALARM.AFTER).modQueue q (fun c => { c with out := rest })).advanceTail q
        | (s1, _) => s1.queueError q 4
    | .cmd n :: rest =>
      match s.entry n with
      | none => s.modQueue q (fun c => { c with out := rest })
      | some e =>
        if e.state ≠ 4 ∧ (s.slotFree q = false ∨ s.resetting (instOf q) = true) then s
        else
          let s0 := s.complete q n
          let (r, slot) := match s0.entry n with
            | some x => (x.record, x.slot)
            | none => (0, 0)
          match s0.putRecord q slot r (.cmd n) with
          | (s1, 0) =>
            let s2 := s1.modQueue q (fun c => { c with out := rest })
            if slot = s.f (CSS_Qq_STATUS.CQ_TAIL q) ∧ e.again = false then s2.advanceTail q else s2
          | (s1, _) => s1.queueError q 4
  else s

/-- CQ tail goes back to a slot whose record is refused late, and the phase with it. -/
def State.tailBack (s : State) (q slot : Nat) : State :=
  let s1 := s.setF (CSS_Qq_STATUS.CQ_TAIL q) slot
  if slot + 1 = s.cqSize q then s1.setF (CSS_Qq_STATUS.PHASE q) (1 - s.f (CSS_Qq_STATUS.PHASE q)) else s1

/-- The write of a queue's record is refused after it was sent (R255 CQ_WRITE): the record is held, for the same slot. -/
def State.recordRefused (s : State) (q : Nat) : State :=
  match (s.queue q).flying with
  | none => s.queueError q 4
  | some r =>
    let last := (s.f (CSS_Qq_STATUS.CQ_TAIL q) + s.cqSize q - 1) % s.cqSize q
    let slot := match r with
      | .after _ => last
      | .cmd n => (s.entry n).elim last (·.slot)
    let s1 := s.modQueue q (fun c => { c with flying := none, out := r :: c.out })
    (if slot = last then s1.tailBack q slot else s1).queueError q 4

/-- Write every record that waits at a queue and has a slot. -/
def State.flushRecords (s : State) (q : Nat) : State := (List.range (s.queue q).out.length).foldl (fun a _ => a.writeNext q) s

/-- Records of TYPE 1 that wait for slots, over an instance's queues. -/
def State.afterWaiting (s : State) (i : Nat) : Nat :=
  (List.range 64).foldl (fun a j => a + ((s.queue (64 * i + j)).out.filter (fun r => match r with
    | .after _ => true
    | .cmd _ => false)).length) 0

/-- A TYPE 1 record that is not written: it is counted, flagged and logged (R283, R284). -/
def State.dropAfter (s : State) (q : Nat) (r : AfterRec) : State :=
  ((s.incF (CSS_Qq_PTRS.AFTER_DROP q)).raise CSS_ALARM.AFTER_OVERFLOW).logAt 0x0040 { module := s.moduleNo } 1 [q, r.index, r.status]

/-- TYPE 1 records among those that a queue no longer writes are dropped. -/
def State.dropWaiting (s : State) (q : Nat) (l : List OutRec) : State :=
  l.foldl (fun a r => match r with
    | .after x => a.dropAfter q x
    | .cmd _ => a) s

/-- A cause for a TYPE 1 record of a command that has completed (R283, R284): its record waits for a slot, if there is room among 16. -/
def State.after (s : State) (q gen : Nat) (r : AfterRec) : State :=
  if s.afterDone.contains (r.seq, r.status) then s.incF (CSS_Qq_PTRS.AFTER_DROP q)
  else
    let s1 := { s with afterDone := (r.seq, r.status) :: s.afterDone }
    if gen ≠ s1.gen (instOf q) ∨ s1.resetting (instOf q) = true ∨ s1.qState q = 0 ∨ s1.qState q = 5 then s1.dropAfter q r
    else
      let s2 := (s1.modQueue q (fun c => { c with out := c.out ++ [.after r] })).flushRecords q
      if 16 < s2.afterWaiting (instOf q) then (s2.modQueue q (fun c => { c with out := c.out.filter (· ≠ .after r) })).dropAfter q r else s2

/-- The kept writes of a command end their wait for its completion (R283): the leaf and BYTES are noted. -/
def State.endKept (s : State) (seq bytes : Nat) : State :=
  { s with kept := s.kept.map (fun (e : Nat × List Kept) =>
      (e.1, e.2.map (fun k => if k.seq = seq ∧ k.ended.isNone = true then { k with ended := some (s.leaf, bytes) } else k))) }

/-- The outcome of a command is decided: its record waits in the order in which commands finished, and reports held against it
follow (R265, R266, R283). A command of an instance that is reset is left to the report (R332). -/
def State.finishCmd (s : State) (n status detail bytes : Nat) : State :=
  match s.entry n with
  | none => s
  | some e =>
    if e.out.isSome || s.resetting (instOf e.queue) then s
    else
      let s1 := (s.dropJobOf n e.seq).modEntry n (fun e => { e with out := some (status, detail, bytes), timer := none })
      let s2 := (s1.raiseIf (decide (status = 8)) CSS_ALARM.INDETERMINATE).endKept e.seq bytes
      let s3 := { s2 with reqs := (s2.reqs.filter (fun (r : PortReq) => decide (r.seq ≠ e.seq ∨ r.fate ≠ 3))).map (fun (r : PortReq) =>
        if r.seq = e.seq ∧ r.fate = 0 then { r with fate := if status = 8 then 2 else 1, bytes := bytes } else r) }
      let s4 := (s3.modQueue e.queue (fun c => { c with out := c.out ++ [.cmd n] })).flushRecords e.queue
      let mine := s4.reports.filter (fun (r : Nat × AfterRec) => decide (r.1 = e.seq))
      mine.foldl (fun a r => a.after e.queue e.gen { r.2 with bytes := bytes })
        { s4 with reports := s4.reports.filter (fun (r : Nat × AfterRec) => decide (r.1 ≠ e.seq)) }

/-- The outcome of a command is decided: it stands once every write of the command is acknowledged (R192). -/
def State.finishWhen (s : State) (n seq status detail bytes : Nat) : State :=
  if s.cmdWrites seq then s.modEntry n (fun e => { e with later := some (status, detail, bytes) }) else s.finishCmd n status detail bytes

/-- The queue has no accepted command left: a DRAINING one is DISABLED (R257). TYPE 1 records that still wait are dropped
(R283). -/
def State.drained (s : State) (q : Nat) : State :=
  if s.qState q = 3 ∧ (s.cmdsOf q).isEmpty = true then
    ((s.setQState q 0).modQueue q (fun c => { c with out := [], cur := none, chain := none, ended := [] })).dropWaiting q (s.queue q).out
  else s

/-- Whether a STATUS keeps a chain whole (R303). -/
def chainKeeps (status : Nat) : Bool := decide (status ≤ 2)

/-- The status of a command's record. -/
def JEntry.status (e : JEntry) : Nat := e.out.elim 0 (·.1)

/-- The record of a command is acknowledged and its entry freed (R269); a member that waits for it goes on, or is told that the
chain is broken. What is returned beside the state: the members to be completed ABORTED. -/
def State.freeOne (s : State) (n : Nat) : State × List Nat :=
  match s.entry n with
  | none => (s, [])
  | some e =>
    let s1 := (({ s with journal := s.journal.set none n none }).countEntries e.queue).modQueue e.queue (fun c =>
      { c with cur := if c.cur = some n then none else c.cur })
    let chained := e.desc.elim false dChain
    let ok := chainKeeps e.status
    let followers := (s1.cmdsOf e.queue).filter (fun m => decide (m.2.pred = some e.seq))
    let s2 := if chained && followers.isEmpty then s1.modQueue e.queue (fun c => { c with ended := c.ended ++ [(e.seq, ok)] }) else s1
    let s3 := followers.foldl (fun a m => a.modEntry m.1 (fun x => { x with pred := none, state := if ok then 0 else x.state })) s2
    (s3.drained e.queue, if ok then [] else (followers.filter (fun m => m.2.out.isNone)).map (·.1))

/-- Whether the write of a COMPLETING entry's record is acknowledged: it is neither in flight nor held. -/
def State.recordDone (s : State) (q n : Nat) : Bool :=
  decide ((s.queue q).flying ≠ some (.cmd n)) && !(s.queue q).out.contains (.cmd n)

/-- The entry of a record is freed (R269 step 3), and the members of a chain that it breaks end ABORTED (R303). -/
def State.freeCmd (s : State) (n : Nat) : State :=
  let (s1, broken) := s.freeOne n
  broken.foldl (fun a m => a.finishCmd m 0x30 0 0) s1

/-- A record's acknowledgement (R269, RD_DONE_END). -/
def State.ackRecord (s : State) (n : Nat) : State :=
  match s.entry n with
  | none => s
  | some e => if e.state = 4 && s.recordDone e.queue n then s.freeCmd n else s

/-- Whether an entry that waits at a queue holds its record already. -/
def State.holdsRecord (s : State) (r : OutRec) : Bool :=
  match r with
  | .after _ => false
  | .cmd k => (s.entry k).elim false (fun e => decide (e.state = 4))

/-- An engine that has taken a queue over writes the record of a COMPLETING entry again, to the same slot, and then frees the entry (R269). One that
cannot be written now waits before the queue's new records. -/
def State.writeAgain (s : State) (q n : Nat) : State :=
  match s.entry n with
  | none => s
  | some e =>
    if e.state ≠ 4 ∨ s.recordDone q n = false then s
    else
      let s0 := s.modEntry n (fun x => { x with again := true })
      let held (a : State) : State := a.modQueue q (fun c => { c with
        out := c.out.takeWhile s0.holdsRecord ++ [.cmd n] ++ c.out.dropWhile s0.holdsRecord })
      if s.queueWrites q || !s.recordsOpen q then held s0
      else
        match s0.putRecord q e.slot e.record (.cmd n) with
        | (s1, 0) => if (s1.queue q).flying.isSome then s1 else s1.freeCmd n
        | (s1, _) => (held s1).queueError q 4

/-- The record in flight is acknowledged. -/
def State.recordAcked (s : State) (q : Nat) : State :=
  let s1 := s.modQueue q (fun c => { c with flying := none })
  match (s.queue q).flying with
  | some (.cmd n) => if (s.entry n).elim false (·.again) then s1.freeCmd n else s1
  | _ => s1

/-- A command is counted as lost (R271): it has no record. Its entry is freed, and a chain that it was in is broken, its outcome being unknown. -/
def State.loseCommand (s : State) (n : Nat) : State :=
  match s.entry n with
  | none => s
  | some e =>
    let s1 := ((s.incF (CSS_Qq_PTRS.LOST e.queue)).raise CSS_ALARM.COMMANDS_LOST).logAt 0x0040 { module := s.moduleNo } 1
      [e.queue, e.index, e.tag.toNat]
    let s2 := ((s1.dropJobOf n e.seq).endKept e.seq e.bytesDone).modEntry n (fun x => { x with out := some (8, 8, e.bytesDone), timer := none })
    let s3 := { s2 with reqs := (s2.reqs.filter (fun (r : PortReq) => decide (r.seq ≠ e.seq ∨ r.fate ≠ 3))).map (fun (r : PortReq) =>
      if r.seq = e.seq ∧ r.fate = 0 then { r with fate := 1 } else r) }
    let mine := s3.reports.filter (fun (r : Nat × AfterRec) => decide (r.1 = e.seq))
    let s4 := mine.foldl (fun a r => a.dropAfter e.queue r.2) { s3 with reports := s3.reports.filter (fun (r : Nat × AfterRec) => decide (r.1 ≠ e.seq)) }
    (s4.modQueue e.queue (fun c => { c with out := c.out.filter (fun r => decide (r ≠ OutRec.cmd n)) })).freeCmd n

/-! ### Enabling, disabling, resuming (R256 to R258) -/

/-- Whether R256 refuses a one written to ENABLE of a DISABLED queue. -/
def State.enableRefused (s : State) (q : Nat) : Bool :=
  let kind := s.f (CSS_SIi_BIND.KIND (instOf q))
  decide (kind = 0) || ((s.on (CSS_Qq_SQBASE.HOST q) || s.on (CSS_Qq_CQBASE.HOST q)) && decide (kind ≠ 2))

/-- A one written to ENABLE (R256): the four indices are 0 and the expected phase is 1; the counts of PTRS run anew. -/
def State.enableQueue (s : State) (q : Nat) : State :=
    (((((s.setF (CSS_Qq_CTL.ENABLE q) 1).setF (CSS_Qq_STATUS.CQ_TAIL q) 0).setF (CSS_Qq_STATUS.SQ_HEAD q) 0).setReg (CSS_Qq_PTRS q) 0).setF
      (CSS_Qq_STATUS.PHASE q) 1).setQState q 1 |>.modQueue q (fun c => { fault := c.fault })

/-- The STREAM_RECEIVE commands of a queue that no frame fills (R309, R312). -/
def State.unfilled (s : State) (q : Nat) : List (Nat × JEntry) :=
  (s.cmdsOf q).filter (fun m => decide (m.2.opcode = 6) && m.2.out.isNone && m.2.later.isNone)

/-- A command ends with what is done of it: its AUX per R305. -/
def State.endWith (s : State) (n status detail bytes : Nat) : State :=
  (s.modEntry n (fun x => { x with aux := x.endAux })).finishCmd n status detail bytes

/-- A zero written to ENABLE (R257, R308, R312): frames that wait for the queue are discarded, and its unfilled buffers end. Records that CQ_WRITE has
held are written while the queue drains (R255). A STOPPED queue is DISABLED at once: commands whose records still wait for a slot are then counted as
lost (R271, R273; log entry 70). -/
def State.disableQueue (s : State) (q : Nat) : State :=
  let st := s.qState q
  if st = 5 then
    let waiting := s.cmdsOf q
    let s1 := (waiting.filter (fun m => !(decide (m.2.state = 4) && s.recordDone q m.1))).foldl (fun a m => a.loseCommand m.1)
      (waiting.foldl (fun a m => if m.2.state = 4 ∧ s.recordDone q m.1 = true then (a.freeOne m.1).1 else a) s)
    (((s1.setF (CSS_Qq_CTL.ENABLE q) 0).setQState q 0).modQueue q (fun c => { c with out := [], flying := none })).dropWaiting q (s1.queue q).out
  else if st = 1 ∨ st = 2 ∨ st = 4 then
    let s1 := ((s.setF (CSS_Qq_CTL.ENABLE q) 0).setQState q 3).setReg (CSS_Qq_PAUSE q) 0
    let s2 := s1.modQueue q (fun c => { c with next := s1.f (CSS_Qq_PTRS.SQ_TAIL q) })
    let late := s2.frames.filter (fun f => f.waitsFor q)
    let s3 := late.foldl (fun a f => a.incF (CSS_Pp_STRMs.DROP_WAIT f.port f.stream)) (s2.removeFrames (fun f => f.waitsFor q))
    ((((s3.unfilled q).foldl (fun a m => a.endWith m.1 2 0 0) s3).flushRecords q).drained q)
  else s

/-- RESUME (R255): every recorded cause is undone, held records are written, and the queue runs or is PAUSED. -/
def State.resumeQueue (s : State) (q : Nat) : State :=
  if s.qState q = 4 then
    (((s.setF (CSS_Qq_STATUS.CAUSES q) 0).setQState q (if s.on (CSS_Qq_PAUSE.PAUSE q) then 2 else 1))).flushRecords q
  else s

/-- The value that a locked register takes (R258): locked fields keep theirs. -/
def State.lockedCtl (s : State) (q : Nat) (v : Word) : Word :=
  (CSS_Qq_CTL.ENGINE q).put (s.f (CSS_Qq_CTL.ENGINE q)) ((CSS_Qq_CTL.CQ_LOG q).put (s.f (CSS_Qq_CTL.CQ_LOG q))
    ((CSS_Qq_CTL.SQ_LOG q).put (s.f (CSS_Qq_CTL.SQ_LOG q)) v))

/-- A write to CSS_Qq_CTL (R256 to R258). -/
def State.actQueueCtl (q : Nat) (v : Word) (s : State) : State :=
  if s.resetting (instOf q) then s.raise CSS_ALARM.BUSY_WRITE
  else if s.qState q = 0 ∧ (CSS_Qq_CTL.ENABLE q).of v = 1 ∧ s.enableRefused q = true then s.raise CSS_ALARM.ENABLE_REFUSED
  else
    let st := s.qState q
    let w := if st = 0 then v else s.lockedCtl q v
    let changed := decide (st ≠ 0) && decide (w ≠ v)
    let en := (CSS_Qq_CTL.ENABLE q).of v
    let s1 := (((s.setF (CSS_Qq_CTL.TIMEOUT q) ((CSS_Qq_CTL.TIMEOUT q).of w)).setF (CSS_Qq_CTL.ENGINE q) ((CSS_Qq_CTL.ENGINE q).of w)).setF
      (CSS_Qq_CTL.CQ_LOG q) ((CSS_Qq_CTL.CQ_LOG q).of w)).setF (CSS_Qq_CTL.SQ_LOG q) ((CSS_Qq_CTL.SQ_LOG q).of w)
    let s2 := s1.raiseIf changed CSS_ALARM.BUSY_WRITE
    let s3 :=
      if en = 1 then
        (if st = 0 then s2.enableQueue q
        else if st = 3 then s2.raise CSS_ALARM.BUSY_WRITE
        else s2)
      else s2.disableQueue q
    if (CSS_Qq_CTL.RESUME q).of v = 1 then s3.resumeQueue q else s3

/-- A write to CSS_Qq_SQBASE or CSS_Qq_CQBASE (R252, R258): for HOST = 0, bits 63:52 must be zero. DESIGN CHOICE (log entry 70): the spec does not say
what a write does in which they are not; it is dropped under R20, with CSS_ALARM.CFG_ERR. -/
def State.actQueueBase (q k : Nat) (v : Word) (s : State) : State :=
  if s.resetting (instOf q) then s.raise CSS_ALARM.BUSY_WRITE
  else if v.getLsbD 0 = false ∧ 2 ^ 52 ≤ v.toNat then s.raise CSS_ALARM.CFG_ERR
  else if s.qState q = 0 || (s.hasCause q 4 && decide (k = CSS_Qq_CQBASE q)) then s.applyWrite k v
  else
    let new := v &&& BitVec.ofNat 64 (2 ^ 64 - 4096 + 1)
    s.raiseIf (decide (new ≠ s.reg k)) CSS_ALARM.BUSY_WRITE

/-! ### Doorbells (R259 to R262) -/

/-- Whether slot `x` lies from `a` to `b`, both included, in ring order. -/
def inRing (size a b x : Nat) : Bool := decide ((x + size - a) % size ≤ (b + size - a) % size)

/-- A doorbell of queue q (R262). -/
def State.doorbell (s : State) (q : Nat) (cq : Bool) (v : Word) : State :=
  let st := s.qState q
  let drop := s.incF (CSS_Qq_PTRS.DB_DISCARD q)
  let idx := bitsOf v 15 0
  if st = 0 ∨ st = 3 ∨ st = 4 ∨ st = 5 then drop
  else if bitsOf v 31 24 ≠ s.gen (instOf q) then drop
  else if bitsOf v 63 32 ≠ 0 ∨ bitsOf v 23 16 ≠ 0 then drop
  else if (if cq then s.cqSize q else s.sqSize q) ≤ idx then s.queueError q 1
  else if cq then
    if inRing (s.cqSize q) (s.f (CSS_Qq_PTRS.CQ_HEAD q)) (s.f (CSS_Qq_STATUS.CQ_TAIL q)) idx then
      (s.setF (CSS_Qq_PTRS.CQ_HEAD q) idx).flushRecords q
    else s.queueError q 2
  else s.setF (CSS_Qq_PTRS.SQ_TAIL q) idx

/-- A store of fewer than 8 bytes to doorbell space (R261). -/
def State.shortDoorbell (s : State) (off : Nat) : State :=
  let i := off / 4096
  let o := off % 4096
  if i < 256 ∧ o < 0x400 then s.incF (CSS_Qq_PTRS.DB_DISCARD (64 * i + o % 512 / 8)) else s

/-! ### The journal's copies (R270, R271) -/

/-- One journal copy is lost. -/
def State.journalAlone (s : State) (c : Nat) : State :=
  (s.setF (if c = 0 then CSS_JOURNAL.COPY0 else CSS_JOURNAL.COPY1) 2).raise CSS_ALARM.JOURNAL_ALONE

/-- A returned copy is rebuilt. -/
def State.journalRebuilt (s : State) (c : Nat) : State :=
  let fld := if c = 0 then CSS_JOURNAL.COPY0 else CSS_JOURNAL.COPY1
  if s.f fld = 1 then ((s.setF fld 0).setF CSS_JOURNAL.REBUILD 100).raise CSS_ALARM.JOURNAL_REBUILT else s

/-! ### Fetching a descriptor (R267, R287) -/

/-- The next accepted command of a queue whose descriptor is not read. -/
def State.unread (s : State) (q : Nat) : Option (Nat × JEntry) := (s.cmdsOf q).find? (fun e => e.2.desc.isNone && e.2.out.isNone)

/-- The bytes of the ring slot of an entry, read by I/O die `die`. -/
def State.readSlot (s : State) (die q index : Nat) (far : FarData) : State × Nat × Line :=
  s.sysLine die (instOf q) (s.on (CSS_Qq_SQBASE.HOST q)) (s.f (CSS_Qq_SQBASE.BASE q) * 4096 + index * 64) far

/-- A descriptor has been read (R267, R287): SQ head stands at the next one to be read, and the CHAIN bit of the first one (`first`) says whether the
next is its successor (R302). -/
def State.headMoves (s : State) (q : Nat) (e : JEntry) (d : Line) (first : Bool) : State :=
  let next := match s.unread q with
    | some (_, x) => x.index
    | none => (s.queue q).next
  let s1 := if first then s.modQueue q (fun c => { c with chain := if dChain d then some e.seq else none }) else s
  s1.setF (CSS_Qq_STATUS.SQ_HEAD q) next

/-- A command whose journal entry or engine is gone ends with DETAIL `detail` (R271, R272): INDETERMINATE where a request of it has left, NO_PATH
where none has, once its descriptor is read for the TAG; one whose descriptor cannot be read is counted as lost. -/
def State.endLost (s : State) (die n detail : Nat) (far : FarData) : State :=
  match s.entry n with
  | none => s
  | some e =>
    if e.desc.isSome then (if e.left then s.endWith n 8 detail e.bytesDone else s.endWith n 0x21 detail 0)
    else
      let first := (s.unread e.queue).elim false (fun m => decide (m.1 = n))
      match s.readSlot die e.queue e.index far with
      | (s1, 0, d) => ((s1.modEntry n (fun x => { x with desc := some d })).headMoves e.queue e d first).endWith n 0x21 detail 0
      | (s1, _, _) => s1.loseCommand n

/-- An entry whose two copies are lost is completed by its engine, or counted as lost where the engine has failed as well
(R271). -/
def State.journalLost (s : State) (n : Nat) (engineFailed : Bool) (far : FarData) : State :=
  match s.entry n with
  | none => s
  | some e => if engineFailed then s.loseCommand n else s.endLost (s.queueDie e.queue) n 8 far

/-- An I/O die stops as a whole, or an engine of it without a spare (R272, R395): every queue that `p` picks is STOPPED, and a service engine writes
the records of their commands: of those whose descriptors are read now, of the others as it reads them (`State.stoppedFetch`). -/
def State.stopQueues (s : State) (detail : Nat) (p : Nat → Bool) : State :=
  let qs := (List.range 16384).filter p
  let s1 := qs.foldr (fun q a => a.setQState q 5) s
  let mine := sortCmds (s1.journal.filterMap (fun (e : Nat × Option JEntry) =>
    e.2.bind (fun j => if p j.queue ∧ j.out.isNone = true ∧ j.desc.isSome = true then some (e.1, j) else none)))
  mine.foldl (fun a m => a.endLost 0 m.1 detail []) s1

/-- A service engine reads the next descriptor of a STOPPED queue, and ends its command: that of the surviving die, or of the die whose engine is lost
(R272, R395). -/
def State.stoppedFetch (s : State) (q : Nat) (far : FarData) : State :=
  match s.unread q with
  | none => s
  | some (n, _) =>
    let d := s.queueDie q
    if s.deadDies.contains d then s.endLost (1 - d) n 9 far else s.endLost d n 7 far

/-- DIE_STOPPED for I/O die d. Its journal copy and its service engine stop with it (R270, R272). -/
def State.dieStopped (s : State) (d : Nat) : State :=
  let s1 := ((s.journalAlone d).stopQueues 9 (fun q => decide (s.queueDie q = d))).raise CSS_ALARM.DIE_STOPPED
  if s.deadDies.contains d then s1
  else { s1 with deadDies := d :: s.deadDies, svc := { s1.svc with out := if s1.svc.out.contains d then s1.svc.out else d :: s1.svc.out } }

/-! ### The commands -/

/-- QUEUE_ENABLE: CSS_Qq_CTL written with ENABLE = 1, its other fields as they stand. -/
def execQueueEnable (who : Requester) (q : Nat) (s : State) : Host.Outcome State Fault Refusal :=
  let v := (CSS_Qq_CTL.ENABLE q).put 1 (s.reg (CSS_Qq_CTL q))
  .next (s.running (s.written who 8 (CSS_Qq_CTL q) v (fun a => a.actQueueCtl q v)))

/-- QUEUE_DISABLE: CSS_Qq_CTL written with ENABLE = 0, its other fields as they stand. -/
def execQueueDisable (who : Requester) (q : Nat) (s : State) : Host.Outcome State Fault Refusal :=
  let v := (CSS_Qq_CTL.ENABLE q).put 0 (s.reg (CSS_Qq_CTL q))
  .next (s.running (s.written who 8 (CSS_Qq_CTL q) v (fun a => a.actQueueCtl q v)))

/-- RESUME: CSS_Qq_CTL written with RESUME = 1, its other fields as they stand. -/
def execResume (who : Requester) (q : Nat) (s : State) : Host.Outcome State Fault Refusal :=
  let v := (CSS_Qq_CTL.RESUME q).put 1 (s.reg (CSS_Qq_CTL q))
  .next (s.running (s.written who 8 (CSS_Qq_CTL q) v (fun a => a.actQueueCtl q v)))

/-- SQ_DOORBELL. -/
def execSqDoorbell (q : Nat) (v : Word) (s : State) : Host.Outcome State Fault Refusal := .next (s.running (s.doorbell q false v))

/-- CQ_DOORBELL. -/
def execCqDoorbell (q : Nat) (v : Word) (s : State) : Host.Outcome State Fault Refusal := .next (s.running (s.doorbell q true v))

/-- SHORT_DOORBELL. -/
def execShortDoorbell (off : Nat) (s : State) : Host.Outcome State Fault Refusal := .next (s.running (s.shortDoorbell off))

/-- COMMAND_ACCEPTED. -/
def execCommandAccepted (q : Nat) (s : State) : Host.Outcome State Fault Refusal := .next (s.running (s.accept q))

/-- JOURNAL_ALONE. -/
def execJournalAlone (c : Nat) (s : State) : Host.Outcome State Fault Refusal := .next (s.running (s.journalAlone c))

/-- JOURNAL_REBUILT. -/
def execJournalRebuilt (c : Nat) (s : State) : Host.Outcome State Fault Refusal := .next (s.running (s.journalRebuilt c))

/-- JOURNAL_LOST. -/
def execJournalLost (n : Nat) (engineFailed : Bool) (far : FarData) (s : State) : Host.Outcome State Fault Refusal :=
  .next (s.reading (s.journalLost n engineFailed far))

/-- DIE_STOPPED. -/
def execDieStopped (d : Nat) (s : State) : Host.Outcome State Fault Refusal := .next (s.running (s.dieStopped d))

end Sys2Proof.Machine
end

