-- ==== Sys2Proof/Machine/Descriptors.lean ====
section
/-! DEFINITION. Descriptors and what their commands send (chapter Descriptors and Data Movement, R274 to R281, R287 to R303): the
checks, the choice of a path, the requests of a command and their answers, re-issues, timers, chains, fences and pauses. -/

namespace Sys2Proof.Machine

open Sys2Proof

/-! ### Checks (R290, R291, R399) -/

/-- The kinds of transform functions (R396): 0 DEFLATE compress, 1 decompress, 2 GCM encrypt, 3 GCM decrypt, 4 XTS, 5 SHA; 9
reserved. -/
def tuKind (func : Nat) : Nat :=
  if func = 1 then 0 else if func = 2 then 1 else if func = 0x10 then 2 else if func = 0x11 then 3
  else if func = 0x12 ∨ func = 0x13 then 4 else if 0x20 ≤ func ∧ func ≤ 0x23 then 5 else 9

/-- Whether a job word holds a reserved value, or a one where R397 and R398 show zero. -/
def tuReserved (j0 j1 _j2 j3 : Word) : Bool :=
  let k := tuKind (bitsOf j0 7 0)
  decide (k = 9) || decide (bitsOf j0 47 20 ≠ 0 ∨ bitsOf j0 15 14 ≠ 0 ∨ bitsOf j0 11 10 ≠ 0) ||
    (decide (k ≠ 2 ∧ k ≠ 3) && decide (bitsOf j0 63 48 ≠ 0)) ||
    (if k = 4 then decide (bitsOf j0 19 16 < 9 ∨ 12 < bitsOf j0 19 16) else decide (bitsOf j0 19 16 ≠ 0)) ||
    (if k = 0 then decide (bitsOf j0 13 12 = 3) else decide (bitsOf j0 13 12 ≠ 0)) ||
    (if k ≤ 1 then decide (bitsOf j0 9 8 = 3) else decide (bitsOf j0 9 8 ≠ 0)) ||
    (decide (k ≤ 1 ∨ k = 5) && decide (j1 ≠ 0)) || (decide (k = 5) && decide (_j2 ≠ 0)) ||
    (decide (k ≤ 1 ∨ k = 5) && decide (j3 ≠ 0)) || (decide (k = 2 ∨ k = 3) && decide (bitsOf j3 63 32 ≠ 0))

/-- Whether a length or OUTMAX breaks R399. -/
def tuBadLength (j0 j2 : Word) (len : Nat) : Bool :=
  let k := tuKind (bitsOf j0 7 0)
  let aad := bitsOf j0 63 48
  if k ≤ 1 then decide (len = 0 ∨ 2 ^ 30 < len ∨ j2.toNat = 0 ∨ 2 ^ 30 < j2.toNat)
  else if k = 2 then decide (len < aad)
  else if k = 3 then decide (len < aad + 16)
  else if k = 4 then decide (len % 2 ^ bitsOf j0 19 16 ≠ 0)
  else decide (len = 0 ∨ 2 ^ 30 < len)

/-- The byte of a swap unit that byte `x` of the data becomes: an exchange within its unit (R299). -/
def swapAt (m x : Nat) : Nat := if m = 0 then x else if m = 1 then x ^^^ 1 else if m = 2 then x ^^^ 3 else x ^^^ 2

/-- Whether a descriptor fails step 1 of R290. -/
def descReserved (d : Line) : Bool :=
  let op := dOpcode d
  let cw (k : Nat) := dWord d (4 + k)
  let zero (ks : List Nat) := ks.any (fun k => decide (dWord d k ≠ 0))
  let known := decide (op = 1 ∨ op = 2 ∨ op = 3 ∨ op = 4 ∨ op = 5 ∨ op = 6 ∨ op = 7 ∨ op = 15)
  !known || decide (bitsOf (dWord d 0) 31 19 ≠ 0) ||
    (if op = 1 ∨ op = 2 then zero [4, 5, 6, 7]
    else if op = 3 then zero [3, 5, 6, 7] ||
      (decide (dLength d = 1 ∨ dLength d = 2 ∨ dLength d = 4) && decide ((cw 0).toNat / 2 ^ (8 * dLength d) ≠ 0))
    else if op = 4 then zero [3, 4, 5, 6, 7]
    else if op = 5 then zero [6, 7] || decide (bitsOf (cw 0) 63 34 ≠ 0 ∨ bitsOf (cw 0) 15 13 ≠ 0 ∨ bitsOf (cw 1) 2 0 ≠ 0)
    else if op = 6 then zero [2, 5, 6, 7] || decide (bitsOf (cw 0) 63 8 ≠ 0 ∨ dTarget d ≠ 0)
    else if op = 7 then tuReserved (cw 0) (cw 1) (cw 2) (cw 3)
    else zero [2, 3, 5, 6, 7] || decide (bitsOf (cw 0) 63 1 ≠ 0 ∨ dTarget d ≠ 0 ∨ dSwap d ≠ 0))

/-- Whether a target of an instance has a path with VALID = 1. -/
def State.hasPath (s : State) (i t : Nat) : Bool := (List.range 4).any (fun p => s.on (CSS_SIi_TGTt_PATHp.VALID i t p))

/-- Whether a descriptor fails step 2 of R290. -/
def State.descCommand (s : State) (i : Nat) (d : Line) : Bool :=
  let op := dOpcode d
  (decide (dTarget d ≠ 0) && !s.hasPath i (dTarget d)) || (decide (op = 3 ∨ op = 4) && decide (dTarget d = 0)) ||
    (dBhost d && decide (s.f (CSS_SIi_BIND.KIND i) ≠ 2)) || (dChain d && decide (op = 6))

/-- Whether a descriptor fails step 3 of R290. -/
def descLength (d : Line) : Bool :=
  let op := dOpcode d
  let n := dLength d
  let u := swapUnit (dSwap d)
  if op = 1 ∨ op = 2 then decide (n = 0 ∨ 2 ^ 30 < n ∨ n % u ≠ 0)
  else if op = 3 ∨ op = 4 then decide (¬(n = 1 ∨ n = 2 ∨ n = 4 ∨ n = 8)) || decide ((dWord d 2).toNat % n ≠ 0) || decide (n % u ≠ 0)
  else if op = 5 then decide (dElem d = 0 ∨ 4096 < dElem d ∨ n ≠ dElem d * dCount d ∨ dElem d % u ≠ 0)
  else if op = 6 then decide (n = 0 ∨ 1048576 < n ∨ n % u ≠ 0)
  else if op = 7 then decide (n = 0 ∨ 2 ^ 30 < n ∨ n % u ≠ 0) || tuBadLength (dWord d 4) (dWord d 6) n
  else decide (n ≠ 0)

/-- The outcome of R290's checks, if one fails. -/
def State.descCheck (s : State) (i : Nat) (d : Line) : Option Nat :=
  if descReserved d then some 0x10 else if s.descCommand i d then some 0x11 else if descLength d then some 0x12 else none

/-- A queue reads the next accepted descriptor (R267, R290, R302, R303): SQ head moves past it; a check that fails decides the
command's outcome, and so does a broken chain; a buffer of a queue that drains ends unfilled (R312). What is returned beside the state is a status of R356: 0 done, 6 nothing to read; any
other: the fetch failed and the queue is in ERROR. None: the queue reads no descriptor now, in ERROR for one (R267) or while the host's memory is
closed to it (R282), and the fetch goes on later. -/
def State.fetchDescriptor (s : State) (q : Nat) (far : FarData) : State × Option Nat :=
  match s.unread q with
  | none => (s, some 6)
  | some (n, e) =>
    if s.hasCause q 3 || (s.on (CSS_Qq_SQBASE.HOST q) && !s.hostOpen (instOf q)) then (s, none)
    else
      match s.readSlot (s.queueDie q) q e.index far with
      | (s1, 0, d) =>
        let ended := (s1.queue q).chain.bind (fun c => (s1.queue q).ended.find? (fun x => decide (x.1 = c)))
        let waits := (s1.queue q).chain.bind (fun c => if ended.isSome then none else some c)
        let s2 := s1.modEntry n (fun x => { x with
          desc := some d, idem := dIdem d, rbc := dRbc d, pred := waits, state := if waits.isSome then 3 else 0 })
        let s3 := (s2.headMoves q e d true).modQueue q (fun c => { c with
          cur := some n
          ended := match ended with
            | some x => c.ended.filter (· ≠ x)
            | none => c.ended })
        match s3.descCheck (instOf q) d with
        | some st => (s3.finishCmd n st 0 0, some 0)
        | none =>
          if ended.elim false (fun x => !x.2) then (s3.finishCmd n 0x30 0 0, some 0)
          else if dOpcode d = 6 ∧ s3.qState q = 3 then ((s3.endWith n 2 0 0).drained q, some 0)
          else (s3, some 0)
      | (s1, st, _) => (s1.queueError q 3, some st)

/-! ### Paths (R277, R278) -/

/-- A path's condition, by the offset of its register: FAILED with a DETAIL, or IN_SERVICE. -/
def State.pathFault (s : State) (i t p : Nat) : Option Nat := s.pathBad.get none (CSS_SIi_TGTt_PATHp i t p)

/-- STATE as a path shows it (R278). -/
def State.showPath (s : State) (i t p : Nat) : State :=
  s.setF (CSS_SIi_TGTt_PATHp.STATE i t p)
    (if s.on (CSS_SIi_TGTt_PATHp.RETIRE i t p) then 2 else if (s.pathFault i t p).isSome then 1 else 0)

/-- Set a path's condition. -/
def State.setPath (s : State) (i t p : Nat) (c : Option Nat) : State :=
  ({ s with pathBad := s.pathBad.set none (CSS_SIi_TGTt_PATHp i t p) c,
            cto := s.cto.set 0 (CSS_SIi_TGTt_PATHp i t p) 0 }).showPath i t p

/-- The path that R277 selects for a target. -/
def State.selectPath (s : State) (i t : Nat) : Option Nat :=
  (List.range 4).find? (fun p =>
    s.on (CSS_SIi_TGTt_PATHp.VALID i t p) && !s.on (CSS_SIi_TGTt_PATHp.RETIRE i t p) && (s.pathFault i t p).isNone)

/-- The path that a command's next request takes (R277, R279): the one on which it is being sent while that is in service, retired or not;
otherwise the one selected now. -/
def State.pathFor (s : State) (e : JEntry) (t : Nat) : Option Nat :=
  if e.onPath && (s.pathFault (instOf e.queue) t e.path).isNone then some e.path else s.selectPath (instOf e.queue) t

/-- The lead port of a port (R414). -/
def State.leadPort (s : State) (p : Nat) : Nat :=
  if s.f (PRT_Pp_CFG.MODE p) = 1 then p - p % 2 ^ (s.f (PRT_Pp_CFG.WIDTH p) - 1)
  else if s.f (PRT_Pp_CFG.MODE p) = 3 then p - p % 8 else p

/-- The ports that a lead port joins (R414). -/
def State.portMembers (s : State) (p : Nat) : List Nat :=
  let n := if s.f (PRT_Pp_CFG.MODE p) = 1 then 2 ^ (s.f (PRT_Pp_CFG.WIDTH p) - 1) else if s.f (PRT_Pp_CFG.MODE p) = 3 then 8 else 1
  (List.range n).map (fun j => p + j)

/-- Whether a port is a participant of a mode change that stands (R415). -/
def State.portHeld (s : State) (p : Nat) : Bool :=
  (List.range 8).any (fun n => s.slotLive n && (s.slot n).scope.testBit 10 && (s.slot n).participants.any (fun x =>
    (s.portMembers p).any (fun m => decide (x.loc = (s.portLoc m).packed))))

/-- The tags of a root port that are in use (R420, R423). -/
def State.tagsUsed (s : State) (p : Nat) : Nat :=
  (s.reqs.filter (fun r => decide (r.port = p ∧ r.fate ≠ 3) && !r.write && !r.freed)).length

/-- Whether a root port sends a request now: it is in L0, and a non-posted one finds a free tag (R420) and is not held by a mode change (R415,
R582). -/
def State.portSends (s : State) (p : Nat) (posted : Bool) : Bool :=
  decide (s.f (PRT_Pp_STATUS.STATE p) = 4) &&
    (posted || (!s.portHeld p && decide (s.tagsUsed p < 256 * (s.portMembers p).length)))

/-- The paths with VALID = 1 that name port `p`: instance, target, path. No path is VALID at reset, so they stand among the
registers that differ from their reset values. -/
def State.pathsOf (s : State) (p : Nat) : List (Nat × Nat × Nat) :=
  s.regs.filterMap (fun (e : Nat × Word) =>
    let o := e.1 - CSS_SIi_TGTt_PATHp 0 0 0
    let i := o / 0x200
    let t := o % 0x200 / 0x20
    let k := o % 0x20 / 8
    if CSS_SIi_TGTt_PATHp 0 0 0 ≤ e.1 ∧ o < 256 * 0x200 ∧ t ≠ 0 ∧
        (CSS_SIi_TGTt_PATHp.VALID i t k).of e.2 = 1 ∧ (CSS_SIi_TGTt_PATHp.PORT i t k).of e.2 = p then some (i, t, k) else none)

/-! ### What a command still has to do -/

/-- The requests of a command that count for it and are not answered. -/
def State.liveReqs (s : State) (seq : Nat) : List PortReq := s.reqs.filter (fun r => decide (r.seq = seq ∧ r.fate = 0))

/-- Whether a queue's commands may send (R255, R306, R332, R389) under the standard channel program: its engine runs that, and it is RUNNING,
DRAINING, or in ERROR and not paused. -/
def State.maySend (s : State) (q : Nat) : Bool :=
  let st := s.qState q
  !s.resetting (instOf q) && s.engineRuns (s.engineOf q) && s.standardFor q &&
    (decide (st = 1 ∨ st = 3) || (decide (st = 4) && !s.on (CSS_Qq_PAUSE.PAUSE q)))

/-- The command whose turn it is to send in a queue's issue order (R298): the oldest that has not sent all its requests, or a
fence whose record is not written. -/
def State.turn (s : State) (q : Nat) : Option (Nat × JEntry) :=
  (s.cmdsOf q).find? (fun m => m.2.inOrder &&
    (if m.2.opcode = 15 then true
    else m.2.out.isNone && m.2.fail.isNone && decide (m.2.state = 0 ∨ m.2.state = 1 ∨ m.2.state = 3)))

/-- The data of a command in bytes (R292 to R294). -/
def dataLen (d : Line) : Nat := dLength d

/-- The longest answered prefix with a further range, and the ranges beyond it. -/
def mergeDone (mark : Nat) (rs : List (Nat × Nat)) : Nat × List (Nat × Nat) :=
  (List.range rs.length).foldl (fun (acc : Nat × List (Nat × Nat)) _ =>
    match acc.2.find? (fun r => decide (r.1 ≤ acc.1)) with
    | none => acc
    | some r => (max acc.1 (r.1 + r.2), acc.2.filter (· ≠ r))) (mark, rs)

/-- A range of a command is done: its mark moves (R298). -/
def JEntry.markDone (e : JEntry) (off len : Nat) : JEntry :=
  let (m, rest) := mergeDone e.mark (e.done ++ [(off, len)])
  { e with mark := m, done := rest }

/-- Runs of a command's data are done. -/
def JEntry.markSpans (e : JEntry) (spans : List (Nat × Nat)) : JEntry := spans.foldl (fun a x => a.markDone x.1 x.2) e

/-- Whether RBC applies to a command (R301). -/
def rbcApplies (d : Line) : Bool :=
  dRbc d && decide (dTarget d ≠ 0) &&
    (decide (dOpcode d = 2 ∨ dOpcode d = 3 ∨ dOpcode d = 7) || (decide (dOpcode d = 5) && dScatter d))

/-- A port keeps the address of a posted write (R283): of at most 4,096, the oldest dropped first. -/
def State.keepAddr (s : State) (port : Nat) (k : Kept) : State :=
  let l := s.kept.get [] port ++ [k]
  { s with kept := s.kept.set [] port (l.drop (l.length - 4096)) }

/-- A request leaves for a port (R274, R281): it takes its number and its place in staging (R315), the command's timer starts with the first, and a
write's address is kept (R283). -/
def State.sendReq (s : State) (n : Nat) (e : JEntry) (port path : Nat) (write back : Bool) (addr off len : Nat) (data : List Byte)
    (psn : Bool) : State :=
  let d := e.desc.getD 0
  let r : PortReq := { id := s.reqNext, entry := n, seq := e.seq, gen := e.gen, queue := e.queue, index := e.index, tag := e.tag,
                       port := port, path := path, write := write, addr := addr, off := off, len := len, back := back, leaf := s.leaf
                       die := s.halfFor (instOf e.queue) (s.queueDie e.queue) len }
  let deadline := s.leaf + 16 * s.f (CSS_Qq_CTL.TIMEOUT e.queue)
  let s1 := ({ s with reqs := s.reqs ++ [r], reqNext := s.reqNext + 1 }).emit (.tlp port write addr len (dRlx d) data psn)
  let s2 := s1.modEntry n (fun x => { x with
    left := true, path := path, onPath := true
    timer := if x.timer.isSome then x.timer else some deadline
    deadline := if x.timer.isSome then x.deadline else deadline % 2 ^ 24 })
  if write then
    s2.keepAddr port { addr := addr, len := len, seq := e.seq, gen := e.gen, queue := e.queue, index := e.index, tag := e.tag, path := path }
  else s2

/-- The bytes that a read-back covers: the last 4 written, or a whole shorter element or command (R275, R301). -/
def JEntry.backLen (e : JEntry) (d : Line) : Nat :=
  min 4 (if dOpcode d = 5 then dElem d else if dOpcode d = 7 then e.blocks.foldl (fun a b => max a b.1) 0 else dLength d)

/-- Whether a command's read-back is still to be sent. -/
def JEntry.backDue (e : JEntry) (d : Line) : Bool := rbcApplies d && decide (e.back = 0) && decide (0 < e.backLen d)

/-- Whether an entry's timer stops when none of its requests is outstanding: with its last answer (R281), while its queue is PAUSED (R307), and
while it waits only for host memory (R282). -/
def State.timerRests (s : State) (e : JEntry) : Bool :=
  e.desc.elim true (fun d => (decide (e.state = 2) && (e.fail.isSome || !e.backDue d)) || decide (s.qState e.queue = 2) ||
    (dBhost d && !s.hostOpen (instOf e.queue)))

/-- The timers of the entries of `p` that rest stop, where none of their requests is outstanding. -/
def State.restTimers (s : State) (p : JEntry → Bool) : State :=
  { s with journal := s.journal.map (fun (x : Nat × Option JEntry) => (x.1, x.2.map (fun e =>
      if p e && (s.liveReqs e.seq).isEmpty && s.timerRests e then { e with timer := none } else e))) }

/-- A command's outcome is indeterminate for a cause (R276): it is re-issued from its first byte, or ends INDETERMINATE. One of an instance that is
reset goes to the report (R332). -/
def State.indeterminate (s : State) (n detail : Nat) : State :=
  match s.entry n with
  | none => s
  | some e =>
    if e.out.isSome || s.resetting (instOf e.queue) then s
    else if e.idem && decide (e.attempts < s.f CSS_CTL.REISSUE) then
      let s1 := (s.dropJobOf n e.seq).modEntry n (fun x => { x with
        attempts := x.attempts + 1, cause := detail, sent := 0, blocks := [], jobDone := none, mark := 0, done := [], back := 0, fail := none, poison := false
        timer := none, state := 1, onPath := false, issued := false })
      { s1 with reqs := (s1.reqs.filter (fun (r : PortReq) => decide (r.seq ≠ e.seq ∨ r.fate ≠ 3))).map (fun r =>
        if r.seq = e.seq ∧ r.fate = 0 then { r with fate := 1 } else r) }
    else s.endWith n 8 detail e.bytesDone

/-- Whether all the data of a command are done (R292 to R295). -/
def JEntry.dataDone (e : JEntry) (d : Line) : Bool := if dOpcode d = 7 then e.jobDone.isSome else decide (dataLen d ≤ e.mark)

/-- A command all of whose requests are answered goes on: to its read-back, which is sent in its turn (`State.sendBack`), or to its record (R274, R275,
R279, R285). Where the path of the read-back has failed, the outcome is indeterminate (R276, R301). -/
def State.settle (s : State) (n : Nat) : State :=
  match s.entry n with
  | none => s
  | some e =>
    match e.desc with
    | none => s
    | some d =>
      if e.out.isSome || !(s.liveReqs e.seq).isEmpty || s.cmdWrites e.seq then s
      else
        match e.fail with
        | some (st, dt) => s.endWith n st dt e.bytesDone
        | none =>
          if !e.dataDone d then s
          else if e.backDue d then (if (s.pathFault (instOf e.queue) (dTarget d) e.path).isSome then s.indeterminate n 10 else s)
          else if e.poison then s.endWith n 0x1A 0 e.bytesDone
          else if e.jobDone = some true then s.endWith n 0x02 0 e.bytesDone
          else if 0 < e.attempts then s.endWith n 0x01 e.cause e.bytesDone
          else s.endWith n 0x00 0 e.bytesDone

/-- A path's condition becomes FAILED (R278, R279): the commands with requests unanswered on it are indeterminate, and what others still have to
send moves to the path that is then selected. -/
def State.failPath (s : State) (i t p detail : Nat) : State :=
  if (s.pathFault i t p).isSome then s
  else
    let s1 := (s.setPath i t p (some detail)).raise CSS_ALARM.PATH_FAILED
    let s2 := { s1 with journal := s1.journal.map (fun (x : Nat × Option JEntry) => (x.1, x.2.map (fun e =>
      if instOf e.queue = i ∧ e.desc.elim false (fun d => decide (dTarget d = t)) = true ∧ e.path = p then { e with onPath := false } else e))) }
    let hit := (s1.cmdsOfInst i).filter (fun m => m.2.desc.elim false (fun d => decide (dTarget d = t)) &&
      (s1.liveReqs m.2.seq).any (fun r => decide (r.path = p)))
    hit.foldl (fun a m => a.indeterminate m.1 detail) s2

/-- Every path that names a port fails (R278, R426). -/
def State.failPort (s : State) (port detail : Nat) : State :=
  (s.pathsOf port).foldl (fun a (x : Nat × Nat × Nat) => a.failPath x.1 x.2.1 x.2.2 detail) s

/-- A port in link-up that a FAILED path names reads the Vendor ID of its adapter; where the read succeeds (`ok`), every FAILED path that names the
port returns (R278). -/
def State.recoverPort (s : State) (port : Nat) (ok : Bool) : State :=
  let bad := (s.pathsOf port).filter (fun (x : Nat × Nat × Nat) => (s.pathFault x.1 x.2.1 x.2.2).isSome)
  if s.rootUp port && !bad.isEmpty then
    let s1 := s.emit (.cfg port false 0 0 2 0)
    if ok then bad.foldl (fun a (x : Nat × Nat × Nat) => a.setPath x.1 x.2.1 x.2.2 none) s1 else s1
  else s

/-- A write to CSS_SIi_TGTt_PATHp (R278). A path that carries a command in SENDING or WAITING takes only RETIRE. -/
def State.actPath (i t p : Nat) (v : Word) (s : State) : State :=
  let k := CSS_SIi_TGTt_PATHp i t p
  let busy := (s.cmdsOfInst i).any (fun m => decide ((m.2.state = 1 ∨ m.2.state = 2) ∧ m.2.path = p) && m.2.out.isNone &&
    m.2.desc.elim false (fun d => decide (dTarget d = t)))
  let f := CSS_SIi_TGTt_PATHp.RETIRE i t p
  if busy then
    let s1 := s.setF f (f.of v)
    let differs := decide ((CSS_SIi_TGTt_PATHp.VALID i t p).of v ≠ s.f (CSS_SIi_TGTt_PATHp.VALID i t p) ∨
      (CSS_SIi_TGTt_PATHp.PORT i t p).of v ≠ s.f (CSS_SIi_TGTt_PATHp.PORT i t p) ∨
      (CSS_SIi_TGTt_PATHp.OFFSET i t p).of v ≠ s.f (CSS_SIi_TGTt_PATHp.OFFSET i t p))
    (s1.showPath i t p).raiseIf differs CSS_ALARM.BUSY_WRITE
  else
    let s1 := s.applyWrite k v
    let fresh := (s1.on (CSS_SIi_TGTt_PATHp.VALID i t p) && !s.on (CSS_SIi_TGTt_PATHp.VALID i t p)) ||
      decide (s1.f (CSS_SIi_TGTt_PATHp.PORT i t p) ≠ s.f (CSS_SIi_TGTt_PATHp.PORT i t p))
    if fresh then s1.setPath i t p (if s1.rootUp (s1.f (CSS_SIi_TGTt_PATHp.PORT i t p)) then none else some 1)
    else s1.showPath i t p

/-! ### Sending (R292 to R299) -/

/-- The bytes and command tokens of a queue's instance on its die (R328); a rate of 0 is no limit. Requests that together take more than the byte bucket
ever holds go when it is full (log entry 69). -/
def State.takeTokens (s : State) (q bytes : Nat) (first : Bool) : Option State :=
  let i := instOf q
  let key := s.queueDie q * 256 + i
  let b := s.buckets.get {} key
  let byteOk := decide (s.inForce (CSS_SIi_RATE.BYTE_RATE i) = 0 ∨ min bytes (256 * s.f (CSS_SIi_RATE.BYTE_DEPTH i)) ≤ b.bytes)
  let cmdOk := decide (s.inForce (CSS_SIi_RATE.CMD_RATE i) = 0) || !first || decide (1 ≤ b.cmds)
  if byteOk && cmdOk then
    some { s with buckets := s.buckets.set {} key { b with
      bytes := if s.inForce (CSS_SIi_RATE.BYTE_RATE i) = 0 then b.bytes else b.bytes - bytes
      cmds := if s.inForce (CSS_SIi_RATE.CMD_RATE i) = 0 || !first then b.cmds else b.cmds - 1 } }
  else none

/-- The bytes of an instance in transit (R297). -/
def State.inTransit (s : State) (i : Nat) : Nat :=
  (s.reqs.filter (fun r => decide (instOf r.queue = i ∧ (r.fate = 0 ∨ r.fate = 3)))).foldl (fun a r => a + r.len) 0

/-- The offset of element k of an INDEXED, read from its table (R294): a status of R356 and the offset. -/
def State.tableEntry (s : State) (q : Nat) (d : Line) (k : Nat) (far : FarData) : State × Nat × Nat :=
  let (s1, r) := s.sysRead (s.queueDie q) (instOf q) (dBhost d) (dTable d + k * dWidth d) (dWidth d) far
  (s1, r.status, leNat r.bytes)

/-- The status of a record for a status of R356, with its DETAIL (R285, R297, R462). -/
def memStatus (st : Nat) : Nat × Nat := if st = 1 ∨ st = 4 then (0x18, 0) else if st = 2 then (0x19, 0) else (0x20, 5)

/-- Where the data at position `x` of a command lies on its target, and how many bytes follow it in one piece: for an INDEXED the
rest of the element, and otherwise the rest of the data (R292 to R294). The status is of R356. -/
def State.targetAt (s : State) (q : Nat) (d : Line) (x : Nat) (far : FarData) : State × Nat × Nat × Nat :=
  if dOpcode d = 5 then
    match s.tableEntry q d (x / dElem d) far with
    | (s1, st, o) => (s1, st, ((dWord d 2).toNat + o) % 2 ^ 64 + x % dElem d, dElem d - x % dElem d)
  else (s, 0, (dWord d 2).toNat + x, dLength d - x)

/-- The bytes that a move writes at the positions from `x`, `k` of them, with each byte at its place within its swap unit. -/
def swapCells (m base x : Nat) (bytes : List Byte) : List (Nat × Byte) := bytes.zipIdx.map (fun e => (base + swapAt m (x + e.2), e.1))

/-- The buffer bytes that go to the positions from `x`: read from whole swap units (R299), up to the last one before a line that cannot be read. -/
def State.readBuffer (s : State) (q : Nat) (d : Line) (x k : Nat) (far : FarData) : State × BytesRead :=
  let u := swapUnit (dSwap d)
  let lo := x / u * u
  let hi := (x + k + u - 1) / u * u
  let (s1, r) := s.sysRead (s.queueDie q) (instOf q) (dBhost d) ((dWord d 3).toNat + lo) (hi - lo) far
  let at_ (j : Nat) : Nat := swapAt (dSwap d) (x + j) - lo
  let n := if r.status = 0 then k else min k (lo + r.bytes.length / u * u - x)
  (s1, { r with
    bytes := (List.range n).map (fun j => r.bytes.getD (at_ j) 0)
    bad := if r.bad.isEmpty then [] else ((List.range n).filter (fun j => r.poisonAt (at_ j))).map (fun j => (j, 1)) })

/-- A command fails in system memory (R297): it sends nothing more, and ends when its requests are answered. -/
def State.failCmd (s : State) (n : Nat) (st : Nat × Nat) : State :=
  (s.modEntry n (fun x => { x with fail := some st, state := 2 })).settle n

/-! ### Acknowledged writes (R192) -/

/-- The commands of `g`, in this order, whose outcomes wait for the acknowledgement of writes get them, once all of those are acknowledged (R192,
R311). BYTES of one whose write was refused is what is done of it (R297). -/
def State.finishGroup (s : State) (g : List Nat) : State :=
  if g.any (fun q => s.cmdWrites q) then s
  else g.foldl (fun a q =>
    match a.entryOfSeq q with
    | none => a
    | some (n, e) => e.later.elim a (fun x => a.finishCmd n x.1 x.2.1 (if x.2.2 = 0 then e.bytesDone else x.2.2))) s

/-- Blocks of a TRANSFORM all of whose output is answered count as done (R295, R404). -/
def State.confirmBlocks (s : State) (n : Nat) : State :=
  match s.entry n with
  | none => s
  | some e =>
    let open_ := (s.liveReqs e.seq).map (·.off) ++ (s.writes.filter (fun w => decide (w.left ≠ 0))).flatMap (fun w => match w.part with
      | some (q, spans) => if q = e.seq then spans.map (·.1) else []
      | none => [])
    s.modEntry n (fun x => { x with
      mark := (x.blocks.filter (fun b => open_.all (fun o => decide (b.1 ≤ o)))).foldl (fun a b => max a b.2) x.mark })

/-- Output of a TRANSFORM from position `o` on is refused: blocks with output there are never done. -/
def State.blocksFail (s : State) (n o : Nat) : State := s.modEntry n (fun x => { x with blocks := x.blocks.filter (fun b => decide (b.1 ≤ o)) })

/-- A write of an instance's reset report is refused after it was sent (R335): its command is counted and logged as unreported. -/
def State.reportRefused (s : State) (i : Nat) (w : EngWrite) : State :=
  let o := ((List.range 64).find? (fun j => w.mask.getLsbD j)).getD 0
  let r : BitVec 256 := (w.data >>> (8 * o)).setWidth 256
  let fld (lo n : Nat) : Nat := r.toNat / 2 ^ lo % 2 ^ n
  let s1 := ((s.incF (CSS_SIi_COUNTS.UNREPORTED i)).raise CSS_INST_ALARM.UNREPORTED).logAt 0x0040 { module := s.moduleNo } 1
    [64 * i + fld 208 6, fld 32 16, fld 64 64]
  s1.setF (CSS_SIi_STATUS.REPORTED i) (s1.f (CSS_SIi_STATUS.REPORTED i) - 1)

/-- Whether a write of a move is not acknowledged. -/
def State.moveWrites (s : State) (l n : Nat) : Bool := s.writes.any (fun w => decide (w.left ≠ 0 ∧ w.move.map (fun m => (m.1, m.2.1)) = some (l, n)))

/-- A move has done `bytes` bytes, and ends with a status of R356 or R373 once its writes are acknowledged. -/
def State.moveDone (s : State) (l n bytes status : Nat) : State :=
  if s.moveWrites l n then s.modEngine l (fun e => { e with async := e.async.set none n (some (.moved bytes status)) })
  else s.endAsync l n [(0x16F + n, BitVec.ofNat 32 bytes), (0x173 + n, BitVec.ofNat 32 status)]

/-- The write at position `x` of a move is answered, or the posted write at I/O address `x`, of which a failure is captured (R370). -/
def State.moveAnswered (s : State) (l n x status : Nat) : State :=
  if n = 0 then (if status = 0 then s else s.captureError l x status)
  else
  match (s.engine l).async.get none n with
  | some (.moved b st) => if status = 0 then s.moveDone l n b st else s.moveDone l n (min b x) status
  | _ => s

/-- The answer to a write of no command's data has come late: a record (R269), or an entry of a reset report (R335). -/
def State.recordAnswered (s : State) (w : EngWrite) : State :=
  match w.queue with
  | some q => if w.status = 0 then s.recordAcked q else s.recordRefused q
  | none => if w.status ≠ 0 && w.ordered then w.inst.elim s (fun i => s.reportRefused i w) else s

/-- The answer to a write has come late (R192, R297): its part of the command's data is done, or the command fails. -/
def State.writeAnswered (s : State) (w : EngWrite) : State :=
  match w.move, w.part with
  | some (l, n, x), _ => s.moveAnswered l n x w.status
  | none, none => s.recordAnswered w
  | none, some (seq, spans) =>
    match s.entryOfSeq seq with
    | none => s
    | some (n, e) =>
      let bad := memStatus w.status
      if e.later.isSome then
        (if w.status = 0 then s.modEntry n (fun x => x.markSpans spans)
        else s.modEntry n (fun x => { x with later := some (bad.1, bad.2, 0) })).finishGroup (if e.group.isEmpty then [seq] else e.group)
      else if e.opcode = 7 then
        (if w.status = 0 then (s.confirmBlocks n).settle n
        else ((s.blocksFail n ((spans.head?).elim 0 (·.1))).confirmBlocks n).failCmd n bad)
      else if w.status ≠ 0 then s.failCmd n bad
      else (s.modEntry n (fun x => x.markSpans spans)).settle n

/-- The writes that are answered leave the movers, those that waited for room or for their order are issued, and what waited for them goes on. -/
def State.reap (s : State) : State :=
  if s.writes.isEmpty then s
  else
    let step (a : State) : State :=
      let done := a.writes.filter (fun w => w.sent && decide (w.left = 0))
      (done.foldl State.writeAnswered { a with writes := a.writes.filter (fun w => !(w.sent && decide (w.left = 0))) }).issueWaiting
    let s1 := (List.range (s.writes.length + 1)).foldl (fun a _ => step a) s
    (s.writes.filterMap (·.queue)).dedup.foldl State.flushRecords s1

/-! ### Which requests may be made (R297, R298, R306, R321, R326, R328) -/

/-- Whether a command may send requests to a port now: host memory may be reached where it needs it (R282), its instance has room in transit
(R297), and the port of its path, where it has one, sends (R415, R582). -/
def State.mayMove (s : State) (q : Nat) (e : JEntry) (d : Line) (posted : Bool) : Bool :=
  (!dBhost d || s.hostOpen (instOf q)) && decide (s.inTransit (instOf q) + 4096 ≤ 65536) &&
    (decide (dTarget d = 0) || (s.pathFor e (dTarget d)).elim true (fun p =>
      s.portSends (s.f (CSS_SIi_TGTt_PATHp.PORT (instOf q) (dTarget d) p)) posted))

/-- The command whose turn it is, if no chain holds it, and if it may be started where it is not (R255 PROGRAM_REPEAT, R298, R302). -/
def State.nextCmd (s : State) (q : Nat) : Option (Nat × JEntry × Line) :=
  if !s.maySend q then none
  else
    (s.turn q).bind (fun m => m.2.desc.bind (fun d =>
      if m.2.pred.isSome || m.2.opcode = 15 || (s.hasCause q 5 && !m.2.started) then none else some (m.1, m.2, d)))

/-- The command whose read-back is to be sent next: all its data are done (R275, R301). -/
def State.backCmd (s : State) (q : Nat) : Option (Nat × JEntry × Line) :=
  if !s.maySend q then none
  else
    (s.cmdsOf q).findSome? (fun m => m.2.desc.bind (fun d =>
      if m.2.backDue d && m.2.dataDone d && m.2.out.isNone && m.2.fail.isNone && (s.liveReqs m.2.seq).isEmpty && !s.cmdWrites m.2.seq then
        some (m.1, m.2, d)
      else none))

/-- Whether a command moves data from its target to its buffer. -/
def readsTarget (d : Line) : Bool := decide (dOpcode d = 1 ∨ dOpcode d = 4) || (decide (dOpcode d = 5) && !dScatter d)

/-- The most bytes of a command's next request: to a port as its path allows (R297), in system memory one beat of the mover (R321). CONTROL and SENSE
are one request (R293). -/
def State.requestLimit (s : State) (e : JEntry) (d : Line) : Nat :=
  if dOpcode d = 3 ∨ dOpcode d = 4 then dLength d
  else if dTarget d = 0 then 512
  else
    let port := s.f (CSS_SIi_TGTt_PATHp.PORT (instOf e.queue) (dTarget d) ((s.pathFor e (dTarget d)).getD 0))
    if readsTarget d then 128 * 2 ^ s.f (PRT_Pp_CFG.MRRS port) else 128 * 2 ^ s.f (PRT_Pp_CFG.MPS port)

/-- The bytes that the requests of a command take for `k` bytes of data from position `x` (R328): the table's entry and the buffer where they lie in
system memory, and the target. What a port's read brings is charged as it is written. -/
def requestCost (d : Line) (x k : Nat) : Nat :=
  let u := swapUnit (dSwap d)
  let buffer := if dOpcode d = 3 ∨ dBhost d = true ∨ (readsTarget d = true ∧ dTarget d ≠ 0) then 0
    else if readsTarget d then k
    else (x + k + u - 1) / u * u - x / u * u
  (if dOpcode d = 5 ∧ dBhost d = false then dWidth d else 0) + buffer + k

/-- Whether the byte and command tokens of a queue's next request are there. -/
def State.affords (s : State) (q : Nat) : Bool :=
  match s.backCmd q, s.nextCmd q with
  | some (_, e, d), _ => (s.takeTokens q (e.backLen d) false).isSome
  | none, some (_, e, d) =>
    let rest := if dOpcode d = 5 then dElem d - e.sent % max (dElem d) 1 else dLength d - e.sent
    (s.takeTokens q (if dOpcode d = 7 then 0 else requestCost d e.sent (min rest (s.requestLimit e d))) (!e.issued)).isSome
  | none, none => decide (s.inForce (CSS_SIi_RATE.BYTE_RATE (instOf q)) = 0 ∨ 0 < (s.buckets.get {} (s.queueDie q * 256 + instOf q)).bytes)

/-- Whether a queue has a request ready at an arbitration point, and its rate limits permit it (R321): ENGINE points 0 to 271, MOVER 272 and 273, PORT
274 to 401, TU from 402 on. What the program of a customer has in preparation only that program knows: its queue is ready while it has commands. -/
def State.readyAt (s : State) (pt q : Nat) : Bool :=
  if 402 ≤ pt then s.jobs.any (fun j => decide (j.unit = some (pt - 402) ∧ j.queue = q) && j.fail.isNone && j.ended.isNone)
  else if !s.standardFor q then !(s.cmdsOf q).isEmpty && s.affords q
  else
    match (s.backCmd q).orElse (fun _ => s.nextCmd q) with
    | none => false
    | some (n, e, d) =>
      s.affords q && s.mayMove q e d (!readsTarget d) &&
        (if pt < 272 then decide (s.f (CE_STATUSl.PHYS (s.engineOf q)) = pt) && !s.jobs.any (fun j => decide (j.entry = some (n, e.seq)))
        else if pt < 274 then decide (s.queueDie q = pt - 272)
        else decide (dTarget d ≠ 0) && (s.pathFor e (dTarget d)).elim false (fun p =>
          decide (s.f (CSS_SIi_TGTt_PATHp.PORT (instOf q) (dTarget d) p) = pt - 274)))

/-- Whether instance i may take a beat of a MOVER, PORT or TU point now (R321, R324): no grant stands there of another instance that still requests. -/
def State.pointOpen (s : State) (pt i : Nat) : Bool :=
  match s.grants.get none pt with
  | none => true
  | some g => decide (g.inst = i) || !(List.range 64).any (fun j => s.readyAt pt (64 * g.inst + j))

/-- The standard channel program has a decision of its ENGINE point for a queue's next request (R326): the one it has taken, or the next beat of a grant
that goes on (R324). None: it has none. -/
def State.engineBeat (s : State) (q : Nat) : Option State :=
  let l := s.engineOf q
  let pt := s.f (CE_STATUSl.PHYS l)
  if (s.engine l).beat = some q then some (s.modEngine l (fun e => { e with beat := none }))
  else
    match s.grants.get none pt with
    | some g =>
      if g.queue = q ∧ 1 < g.beats ∧ (s.engine l).rdNext.getLsbD 31 = false then
        some { s with grants := s.grants.set none pt (some { g with beats := g.beats - 1 }) }
      else none
    | none => none

/-! ### Requests of commands (R292 to R297) -/

/-- Data of a queue pass through its instance's staging share (R315), where those of `owner` from position `x` lie: whether guard 1 or 2 refuses them. -/
def State.passStaging (s : State) (q owner x k : Nat) : State × Bool :=
  let i := instOf q
  let d := s.halfFor i (s.queueDie q) k
  match s.stage i d owner x true with
  | (s1, true) => (s1, true)
  | (s1, false) => s1.stage i d owner x false

/-- `k` bytes more of a command's copy have been moved: `spans` of its data are done now; `st` and `c` are the statuses of the read and the write. -/
def State.copied (s : State) (n : Nat) (e : JEntry) (d : Line) (k : Nat) (psn : Bool) (st c : Nat) (spans : List (Nat × Nat)) : State :=
  let s1 := s.modEntry n (fun y => { y.markSpans spans with
    sent := e.sent + k, left := true, issued := true, poison := y.poison || psn, state := if e.sent + k = dLength d then 2 else 1 })
  if c ≠ 0 then s1.failCmd n (memStatus c) else if st ≠ 0 then s1.failCmd n (memStatus st) else s1.settle n

/-- One request of a command on T0 (R292): up to 512 bytes copied in system memory. What is read before a line that cannot be read is still
written (R297). None: its tokens are not there. -/
def State.copyStep (s : State) (n : Nat) (e : JEntry) (d : Line) (far : FarData) : Option State :=
  let q := e.queue
  let i := instOf q
  let die := s.queueDie q
  let x := e.sent
  match s.targetAt q d x far with
  | (s0, st, a, piece) =>
    if st ≠ 0 ∧ st ≠ 3 then some (s0.failCmd n (memStatus st))
    else
      let k := min piece (s.requestLimit e d)
      (s0.takeTokens q (requestCost d x k) (!e.issued)).map (fun s1 =>
        let of : WriteOf := { queue := some q, part := some (e.seq, x), ordered := decide (x = 0) && !dRlx d, relaxed := dRlx d }
        match s1.passStaging q e.seq x k with
        | (s2, true) => s2.failCmd n (memStatus 2)
        | (s2, false) =>
          let (s3, r) := if readsTarget d then s2.sysRead die i false a k far else s2.readBuffer q d x k far
          let cells := if readsTarget d then swapCells (dSwap d) (dWord d 3).toNat x r.bytes else cellsAt a r.bytes
          match s3.sysWriteParts die i (dBhost d && readsTarget d) cells (r.badLines cells) of with
          | (s4, c, spans) => s4.copied n e d k r.poison r.status c spans)

/-- The low bytes of CW0 of a CONTROL, swapped (R293, R299). -/
def controlBytes (d : Line) : List Byte := (List.range (dLength d)).map (fun j => ((dWord d 4) >>> (8 * swapAt (dSwap d) j)).setWidth 8)

/-- A command finds no path in service (R277): it ends NO_PATH where nothing of it was sent, and otherwise INDETERMINATE, once its requests are
answered, with the cause for which its path failed (R276, R285; log entry 70). -/
def State.noPath (s : State) (n : Nat) (e : JEntry) (t : Nat) (sent : Bool) : State :=
  if sent then s.failCmd n (8, (s.pathFault (instOf e.queue) t e.path).getD e.cause) else s.endWith n 0x21 0 0

/-- One request of a command to a port (R277, R297): CONTROL and SENSE as one (R293). None: its tokens are not there. -/
def State.portStep (s : State) (n : Nat) (e : JEntry) (d : Line) (p : Nat) (far : FarData) : Option State :=
  let q := e.queue
  let i := instOf q
  let t := dTarget d
  let port := s.f (CSS_SIi_TGTt_PATHp.PORT i t p)
  let off := s.f (CSS_SIi_TGTt_PATHp.OFFSET i t p)
  let x := e.sent
  match s.targetAt q d x far with
  | (s0, st, a, piece) =>
    if st ≠ 0 ∧ st ≠ 3 then some (s0.failCmd n (memStatus st))
    else
      let addr := (a + off) % 2 ^ 64
      let k := if dOpcode d = 3 ∨ dOpcode d = 4 then dLength d else min piece (min (s.requestLimit e d) (4096 - addr % 4096))
      (s0.takeTokens q (requestCost d x k) (!e.issued)).map (fun s1 =>
        let sent (a : State) (psn : Bool) : State := a.modEntry n (fun y => { y with
          sent := x + k, issued := true, lastEnd := addr + k, poison := y.poison || psn, state := if x + k = dLength d then 2 else 1 })
        if readsTarget d then sent (s1.sendReq n e port p false false addr x k [] false) false
        else if dOpcode d = 3 then sent (s1.sendReq n e port p true false addr x k (controlBytes d) false) false
        else
          match s1.passStaging q e.seq x k with
          | (s2, true) => s2.failCmd n (memStatus 2)
          | (s2, false) =>
            let (s3, r) := s2.readBuffer q d x k far
            if r.status ≠ 0 then s3.failCmd n (memStatus r.status)
            else sent (s3.sendReq n e port p true false addr x k r.bytes r.poison) r.poison)

/-- The read-back of a command is sent over its path (R275, R301), in two reads where it would cross a 4 KiB boundary (R297). None: its tokens are not
there. -/
def State.sendBack (s : State) (n : Nat) (e : JEntry) (d : Line) : Option State :=
  let port := s.f (CSS_SIi_TGTt_PATHp.PORT (instOf e.queue) (dTarget d) e.path)
  let len := e.backLen d
  let addr := (e.lastEnd + 2 ^ 64 - len) % 2 ^ 64
  let k := min len (4096 - addr % 4096)
  if !s.portSends port false then none
  else
    (s.takeTokens e.queue len false).map (fun s1 =>
      let s2 := (s1.modEntry n (fun x => { x with back := 1 })).sendReq n e port e.path false true addr 0 k [] false
      if k < len then s2.sendReq n e port e.path false true ((addr + k) % 2 ^ 64) k (len - k) [] false else s2)

/-- The command whose turn it is sends its next request, if it is of the given OPCODE; a read-back that is due goes first (R282, R297, R298, R302,
R326, R328). -/
def State.sendNext (s : State) (q op : Nat) (far : FarData) : State :=
  let i := instOf q
  match s.backCmd q with
  | some (n, e, d) =>
    if dOpcode d ≠ op then s
    else if (s.pathFault i (dTarget d) e.path).isSome then s.indeterminate n 10
    else if !s.pointOpen (274 + s.f (CSS_SIi_TGTt_PATHp.PORT i (dTarget d) e.path)) i then s
    else (s.engineBeat q).elim s (fun s1 => (s1.sendBack n e d).getD s)
  | none =>
    match s.nextCmd q with
    | none => s
    | some (n, e, d) =>
      if dOpcode d ≠ op ∨ op = 7 ∨ s.mayMove q e d (!readsTarget d) = false then s
      else if dTarget d = 0 then
        (if s.pointOpen (272 + s.queueDie q) i then (s.engineBeat q).elim s (fun s1 => (s1.copyStep n e d far).getD s) else s)
      else
        match s.pathFor e (dTarget d) with
        | none => s.noPath n e (dTarget d) e.left
        | some p =>
          if s.pointOpen (274 + s.f (CSS_SIi_TGTt_PATHp.PORT i (dTarget d) p)) i && s.pointOpen (272 + s.queueDie q) i then
            (s.engineBeat q).elim s (fun s1 => (s1.portStep n e d p far).getD s)
          else s

/-! ### Answers (R274, R275, R279, R281, R333) -/

/-- The data that a port's read has brought are written to the command's buffer (R292, R294). None: they are kept until bus mastering returns (R282),
the mover's point is open to the instance (R321) or its tokens are there (R328). -/
def State.landData (s : State) (r : PortReq) (e : JEntry) (d : Line) (data : List Byte) : Option State :=
  let i := instOf r.queue
  if (dBhost d && !s.hostOpen i) || !s.pointOpen (272 + s.queueDie r.queue) i then none
  else
    (s.takeTokens r.queue (if dBhost d then 0 else data.length) false).map (fun s1 =>
      match s1.passStaging r.queue e.seq r.off data.length with
      | (s2, true) => s2.failCmd r.entry (memStatus 2)
      | (s2, false) =>
        match s2.sysWriteParts (s2.queueDie r.queue) i (dBhost d) (swapCells (dSwap d) (dWord d 3).toNat r.off data) []
            { queue := some r.queue, part := some (e.seq, r.off), ordered := !dRlx d && decide (e.mark = 0) && e.done.isEmpty, relaxed := dRlx d } with
        | (s3, c, spans) =>
          let s4 := s3.modEntry r.entry (fun x => x.markSpans spans)
          if c = 0 then s4.settle r.entry else s4.failCmd r.entry (memStatus c))

/-- Data that were kept are written, where that may be now. -/
def State.landKept (s : State) : State :=
  (s.reqs.filter (fun r => decide (r.fate = 3))).foldl (fun a r =>
    match a.entry r.entry with
    | none => a
    | some e =>
      match e.desc with
      | none => a
      | some d => (({ a with reqs := a.reqs.filter (fun x => decide (x.id ≠ r.id)) }).landData r e d r.data).getD a) s

/-- The DETAIL of an answer's error: 5 UNSUPPORTED_REQUEST, 6 COMPLETER_ABORT, 12 MALFORMED, 13 POISONED_TLP (R286); 0 success. -/
def State.requestAnswered (s : State) (id detail : Nat) (data : List Byte) : State :=
  match s.reqs.find? (fun r => decide (r.id = id)) with
  | none => s
  | some r =>
    let i := instOf r.queue
    let s1 := { s with reqs := s.reqs.filter (fun x => decide (x.id ≠ id)) }
    let dt := if detail = 0 ∧ r.write = false ∧ data.length ≠ r.len then 12 else detail
    if r.freed || decide (r.fate = 3) then s
    else if r.gen ≠ s.gen i then s1.incF (CSS_SIi_COUNTS.LATE_DISCARD i)
    else if r.fate = 1 then s1
    else if r.fate = 2 then
      s1.after r.queue r.gen { status := 0x43, detail := dt, aux := 0, index := r.index, tag := r.tag, bytes := r.bytes,
                               path := r.path, seq := r.seq }
    else
      match s1.entry r.entry with
      | none => s1
      | some e =>
        let t := e.desc.elim 0 dTarget
        let s2 := { s1 with cto := s1.cto.set 0 (CSS_SIi_TGTt_PATHp i t r.path) 0 }
        let s3 := s2.restTimers (fun x => decide (x.seq = e.seq))
        if r.back then
          (if dt ≠ 0 then s3.failCmd r.entry (0x28, dt)
          else if (s3.liveReqs e.seq).isEmpty then (s3.modEntry r.entry (fun x => { x with back := 2 })).settle r.entry
          else s3)
        else if dt ≠ 0 then s3.failCmd r.entry (0x20, dt)
        else
          match e.desc with
          | none => s3
          | some d =>
            if r.write ∧ dOpcode d = 7 then (s3.confirmBlocks r.entry).settle r.entry
            else if r.write then (s3.modEntry r.entry (fun x => x.markDone r.off r.len)).settle r.entry
            else if dOpcode d = 4 then
              let v := leNat ((List.range r.len).map (fun j => data.getD (swapAt (dSwap d) j) 0))
              (s3.modEntry r.entry (fun x => { (x.markDone r.off r.len) with aux := BitVec.ofNat 64 v })).settle r.entry
            else (s3.landData r e d data).getD { s3 with reqs := s3.reqs ++ [{ r with fate := 3, data := data }] }

/-- What waited in the movers goes on: the writes that are answered, and data that were kept. -/
def State.goOn (s : State) : State := s.reap.landKept

/-- A response reaches the data mover of I/O die `d` (R192): its write of a line is answered, and what waited for it goes on. -/
def State.moverAnswered (s : State) (d line status : Nat) : State := (s.acked d line status).goOn

/-- The command whose turn it is sends up to `k` requests, if it is of the given OPCODE. -/
def State.sendSome (s : State) (q op k : Nat) (far : FarData) : State := (List.range k).foldl (fun a _ => a.sendNext q op far) s.goOn

/-! ### Timers and kept addresses (R281, R283) -/

/-- The standard channel program acts on a timer that has fired (R278, R279): the path may fail, and the command is re-issued or ends
INDETERMINATE. -/
def State.timeoutAct (s : State) (n : Nat) : State :=
  match s.entry n with
  | none => s
  | some e =>
    let live := s.liveReqs e.seq
    if live.isEmpty || s.resetting (instOf e.queue) then s
    else
      let i := instOf e.queue
      let t := e.desc.elim 0 dTarget
      let key := CSS_SIi_TGTt_PATHp i t e.path
      let c := s.cto.get 0 key + live.length
      let s2 := { s with cto := s.cto.set 0 key c }
      let detail := if live.all (fun r => r.back) then 10 else 11
      let s3 := s2.indeterminate n detail
      if s2.f CSS_CTL.CTO_LIMIT ≤ c then s3.failPath i t e.path 4 else s3

/-- A command's timer fires (R279, R281, R383): the engine is told, and where it runs the standard channel program that acts on it. -/
def State.channelTimeout (s : State) (n : Nat) : State :=
  match s.entry n with
  | none => s
  | some e =>
    match e.timer with
    | none => s
    | some l =>
      if !s.turnOf l 6 then s
      else
      s.atLeaf l (fun a =>
        let (s0, room) := ((a.lateEvent l).modEntry n (fun x => { x with timer := none })).timerEvent e.queue e.index
        let s1 := if room then s0 else s0.modEntry n (fun x => { x with timed := true })
        if s1.takesEvents (s1.engineOf e.queue) then s1.timeoutAct n else s1)

/-- The writes that a port keeps now. -/
def State.keptNow (s : State) (p : Nat) : List Kept :=
  (s.kept.get [] p).filter (fun k => k.ended.elim true (fun e => decide (s.leaf < e.1 + s.f CSS_CTL.AFTER_WINDOW)))

/-- A TYPE 1 record of a kept write: held against a command that has not completed (R283); AUX is the address that the report names, if it names one
(R305). The spec states no DETAIL for it. -/
def State.afterKept (s : State) (k : Kept) (status : Nat) (aux : Word) : State :=
  let (w, s1) := s.draw
  let r : AfterRec := { status := status, detail := w.toNat % 14, aux := aux, index := k.index, tag := k.tag, bytes := 0, path := k.path, seq := k.seq }
  match k.ended with
  | some e => s1.after k.queue k.gen { r with bytes := e.2 }
  | none => { s1 with reports := s1.reports ++ [(k.seq, r)] }

/-- A root port has read what an error report's header names: an address, or nothing (R283, R425). -/
def State.errorReport (s : State) (p : Nat) (hdr : Option Nat) : State :=
  let ks := s.keptNow p
  match hdr.bind (fun a => ks.reverse.find? (fun k => decide (k.addr ≤ a ∧ a < k.addr + k.len))) with
  | some k => s.afterKept k 0x40 (BitVec.ofNat 64 (hdr.getD 0))
  | none =>
    let qs := ks.foldl (fun acc k => if acc.contains k.queue then acc else acc ++ [k.queue]) []
    qs.foldl (fun a q => (ks.reverse.find? (fun k => decide (k.queue = q))).elim a (fun k => a.afterKept k 0x41 0)) s

/-- Reports whose header reads could not be made in time carry no header (R425). -/
def State.lateReports (s : State) (p : Nat) : State :=
  let due := (s.ports.get {} p).msgs.filter (fun m => decide (m.1 + s.f CSS_CTL.AFTER_WINDOW < s.leaf))
  due.foldl (fun a _ => a.errorReport p none)
    (s.modPort p (fun x => { x with msgs := x.msgs.filter (fun m => !decide (m.1 + s.f CSS_CTL.AFTER_WINDOW < s.leaf)) }))

/-- The end of the window that comes first at a port: of a kept address, or of a report that waits. -/
def State.windowEnd (s : State) (port : Nat) : Option Nat :=
  let ends := (s.kept.get [] port).filterMap (fun k => k.ended.map (·.1)) ++ (s.ports.get {} port).msgs.map (fun m => m.1 + 1)
  ends.foldl (fun b e => some (b.elim e (fun x => min x e))) none

/-- The kept addresses of a port whose time is over are released (R283), and reports that have waited as long are made. -/
def State.keptExpiry (s : State) (port : Nat) : State :=
  match s.windowEnd port with
  | none => s
  | some e =>
    let l := e + s.f CSS_CTL.AFTER_WINDOW
    let s1 := (s.untilLeaf l).lateReports port
    { s1 with kept := s1.kept.set [] port (s1.keptNow port) }

/-! ### Fences, pauses (R296, R306 to R308) -/

/-- The commands that a fence waits for (R296). -/
def State.fenceWaits (s : State) (e : JEntry) : Bool :=
  let all := if (e.desc.elim 0 (fun d => (dWord d 4).toNat)) % 2 = 1 then s.cmdsOfInst (instOf e.queue) else s.cmdsOf e.queue
  all.any (fun m => decide (m.2.seq < e.seq) && decide (m.2.opcode ≠ 6))

/-- A fence takes its place: it is HELD until it completes (R296). -/
def State.fenceCommand (s : State) (q : Nat) : State :=
  match s.turn q with
  | none => s
  | some (n, e) => if e.opcode = 15 ∧ e.out.isNone = true ∧ s.standardFor q = true then s.modEntry n (fun x => { x with state := 3 }) else s

/-- A fence completes OK when the commands before it have had their records written. -/
def State.fenceComplete (s : State) (q : Nat) : State :=
  match (s.cmdsOf q).find? (fun m => decide (m.2.opcode = 15) && m.2.out.isNone) with
  | none => s
  | some (n, e) => if s.fenceWaits e || e.pred.isSome || !s.standardFor q then s else s.finishCmd n 0 0 0

/-- The commands of a queue go on after a pause (R308): their next requests take the path that R277 selects, from their marks, where none is
outstanding. -/
def State.newPaths (s : State) (q : Nat) : State :=
  { s with journal := s.journal.map (fun (x : Nat × Option JEntry) => (x.1, x.2.map (fun e =>
      if e.queue = q then { e with
        onPath := false
        sent := if e.state = 1 && e.opcode ≠ 7 && (s.liveReqs e.seq).isEmpty && !s.cmdWrites e.seq && !s.reqs.any (fun r => decide (r.seq = e.seq)) then
          e.bytesDone else e.sent }
      else e))) }

/-- A write to CSS_Qq_PAUSE (R306, R308). -/
def State.actPause (q : Nat) (v : Word) (s : State) : State :=
  let st := s.qState q
  if s.resetting (instOf q) || decide (st = 0 ∨ st = 3 ∨ st = 4 ∨ st = 5) then s.raise CSS_ALARM.BUSY_WRITE
  else if (CSS_Qq_PAUSE.PAUSE q).of v = 1 then
    (if st = 1 then ((s.setF (CSS_Qq_PAUSE.PAUSE q) 1).setQState q 2).restTimers (fun e => decide (e.queue = q)) else s)
  else if st = 2 then ((s.setReg (CSS_Qq_PAUSE q) 0).setQState q 1).newPaths q
  else s

/-- The pause has taken full effect (R306): QUIET, INDEX and OFFSET. -/
def State.quiet (s : State) (q : Nat) : State :=
  if s.qState q = 2 && (s.cmdsOf q).all (fun m => (s.liveReqs m.2.seq).isEmpty) then
    let (i, o) := match (s.cmdsOf q).find? (fun m => m.2.inOrder && m.2.out.isNone && m.2.fail.isNone && decide (m.2.opcode ≠ 15) &&
        (decide (m.2.state ≠ 2) || m.2.desc.elim false m.2.backDue)) with
      | some (_, e) => (e.index, e.bytesDone)
      | none =>
        match s.unread q with
        | some (_, e) => (e.index, 0)
        | none => ((s.queue q).next, 0)
    ((s.setF (CSS_Qq_PAUSE.INDEX q) i).setF (CSS_Qq_PAUSE.OFFSET q) o).setF (CSS_Qq_PAUSE.QUIET q) 1
  else s

/-! ### The commands -/

/-- DONE, from unit u of module m: at the home of the line, to a recovery under its name (R184), or at unit t, a tile or a data mover. -/
def execDoneResponse (m u t line : Nat) (atHome : Bool) (s : State) : Host.Outcome State Fault Refusal :=
  .next (s.running (if atHome then (if s.ownLine line then s.homeAnswer line (m, u) false none else s.recoveryAnswer line (m, u))
    else if t < 216 then s.completeAsk t line else s.moverAnswered (t - 216) line 0))

/-- ACCESS_FAULT. -/
def execAccessFault (t line : Nat) (s : State) : Host.Outcome State Fault Refusal :=
  .next (s.running (if t < 216 then s.failAsk t line 2 else s.moverAnswered (t - 216) line 1))

/-- GUARD_REFUSAL. -/
def execGuardRefusal (t line : Nat) (s : State) : Host.Outcome State Fault Refusal :=
  .next (s.running (if t < 216 then s.failAsk t line 3 else s.moverAnswered (t - 216) line 2))

/-- REQUEST_ANSWERED. -/
def execRequestAnswered (id detail : Nat) (data : List Byte) (s : State) : Host.Outcome State Fault Refusal :=
  .next (s.running (s.requestAnswered id detail data))

/-- PATH_FAILED. -/
def execPathFailed (i t p detail : Nat) (s : State) : Host.Outcome State Fault Refusal := .next (s.running (s.failPath i t p detail))

/-- PATH_RECOVERY_READ. -/
def execPathRecoveryRead (port : Nat) (ok : Bool) (s : State) : Host.Outcome State Fault Refusal :=
  .next (s.running (s.recoverPort port ok))

/-- PATH_WRITE. -/
def execPathWrite (who : Requester) (i t p : Nat) (v : Word) (s : State) : Host.Outcome State Fault Refusal :=
  .next (s.running (s.written who 8 (CSS_SIi_TGTt_PATHp i t p) v (fun a => a.actPath i t p v)))

/-- CHANNEL_TIMEOUT. -/
def execChannelTimeout (n : Nat) (s : State) : Host.Outcome State Fault Refusal := .next (s.running (s.channelTimeout n))

/-- KEPT_ADDRESS_EXPIRY. -/
def execKeptAddressExpiry (port : Nat) (s : State) : Host.Outcome State Fault Refusal := .next (s.running (s.keptExpiry port))

/-- READ: the queue's command whose turn it is sends up to `k` requests. -/
def execReadCommand (q k : Nat) (far : FarData) (s : State) : Host.Outcome State Fault Refusal := .next (s.reading (s.sendSome q 1 k far))

/-- WRITE. -/
def execWriteCommand (q k : Nat) (far : FarData) (s : State) : Host.Outcome State Fault Refusal := .next (s.reading (s.sendSome q 2 k far))

/-- CONTROL. -/
def execControlCommand (q : Nat) (s : State) : Host.Outcome State Fault Refusal := .next (s.running (s.sendSome q 3 1 []))

/-- SENSE. -/
def execSenseCommand (q : Nat) (s : State) : Host.Outcome State Fault Refusal := .next (s.running (s.sendSome q 4 1 []))

/-- INDEXED. -/
def execIndexedCommand (q k : Nat) (far : FarData) (s : State) : Host.Outcome State Fault Refusal := .next (s.reading (s.sendSome q 5 k far))

/-- FENCE_COMMAND. -/
def execFenceCommand (q : Nat) (s : State) : Host.Outcome State Fault Refusal := .next (s.running (s.fenceCommand q))

/-- FENCE_COMPLETE. -/
def execFenceComplete (q : Nat) (s : State) : Host.Outcome State Fault Refusal := .next (s.running (s.fenceComplete q))

/-- QUEUE_PAUSE: CSS_Qq_PAUSE written with PAUSE = 1. -/
def execQueuePause (who : Requester) (q : Nat) (s : State) : Host.Outcome State Fault Refusal :=
  .next (s.running (s.written who 8 (CSS_Qq_PAUSE q) 1 (fun a => a.actPause q 1)))

/-- QUIET. -/
def execQuiet (q : Nat) (s : State) : Host.Outcome State Fault Refusal := .next (s.running (s.quiet q))

/-- QUEUE_UNPAUSE: CSS_Qq_PAUSE written with PAUSE = 0. -/
def execQueueUnpause (who : Requester) (q : Nat) (s : State) : Host.Outcome State Fault Refusal :=
  .next (s.running (s.written who 8 (CSS_Qq_PAUSE q) 0 (fun a => a.actPause q 0)))

end Sys2Proof.Machine
end

