-- ==== Sys2Proof/Machine/Instances.lean ====
section
/-! DEFINITION. Streams (R309 to R312, R431 to R433), instances, their binding, reset and removal (R313 to R320, R332 to R338),
arbitration and rate limits (R321 to R328). -/

namespace Sys2Proof.Machine

open Sys2Proof

/-! ### Streams (R309 to R312, R433) -/

/-- A STREAM_RECEIVE posts its buffer (R302, R309): the first of the queue that no chain holds. -/
def State.postBuffer (s : State) (q : Nat) : State :=
  match (s.cmdsOf q).find? (fun m => decide (m.2.opcode = 6) && m.2.out.isNone && m.2.pred.isNone && decide (m.2.state = 0 ∨ m.2.state = 3)) with
  | none => s
  | some (n, _) => if s.standardFor q then s.modEntry n (fun e => { e with state := 2 }) else s

/-- The stream number of a STREAM_RECEIVE. -/
def dStream (d : Line) : Nat := bitsOf (dWord d 4) 7 0

/-- The buffers posted for a stream, in ring order, up to the first that a chain holds (R311). -/
def State.buffersOf (s : State) (q st : Nat) : List (Nat × JEntry × Line) :=
  (((s.cmdsOf q).filterMap (fun m => m.2.desc.bind (fun d =>
    if dOpcode d = 6 ∧ dStream d = st ∧ m.2.out.isNone = true ∧ m.2.later.isNone = true then some (m.1, m.2, d) else none)))).takeWhile
      (fun m => m.2.1.pred.isNone && decide (m.2.1.state = 2))

/-- The fewestBuffers buffers of a list that hold `n` bytes: at least one. -/
def fewestBuffers : Nat → List (Nat × JEntry × Line) → List (Nat × JEntry × Line)
  | _, [] => []
  | n, b :: bs => if n ≤ dLength b.2.2 then [b] else b :: fewestBuffers (n - dLength b.2.2) bs

/-- The cells of a frame's bytes `off` to `off + k − 1` in a buffer: a part of a swap unit at the frame's end stays unswapped
(R299). -/
def frameCells (f : Frame) (d : Line) (off k : Nat) : List (Nat × Byte) :=
  let u := swapUnit (dSwap d)
  (List.range k).map (fun x =>
    let y := if x / u * u + u ≤ k then swapAt (dSwap d) x else x
    ((dWord d 3).toNat + y, BitVec.ofNat 8 (f.bytes.get 0 (off + x) - 1)))

/-- One buffer of a frame is filled, and its outcome decided (R311, R433): `off` is where the buffer's bytes begin in the frame; `g`: the frame's buffers. -/
def State.fillBuffer (s : State) (q : Nat) (f : Frame) (total : Nat) (g : List Nat) (b : Nat × JEntry × Line) (off : Nat) (last : Bool) : State :=
  let d := b.2.2
  let k := min (dLength d) (total - off)
  let cells := frameCells f d off k
  let badLines := (f.poison.filter (fun o => decide (off ≤ o ∧ o < off + k))).map (fun o => ((dWord d 3).toNat + (o - off)) / 64)
  let of : WriteOf := { queue := some q, part := some (b.2.1.seq, 0), ordered := !dRlx d, relaxed := dRlx d }
  let (s0, refused) := s.stage (instOf q) (f.port / 64) (2 ^ 63 + 256 * f.port + f.stream) off false
  let (s1, c, spans) := if refused then (s0, 2, []) else s0.sysWriteParts (s.queueDie q) (instOf q) (dBhost d) cells badLines of
  let aux : Word := BitVec.ofNat 64 (total % 2 ^ 18 + f.stream % 256 * 2 ^ 24)
  let st := if !f.poison.isEmpty then 0x1A else if last && decide (k < dLength d) then 2 else 0
  s1.modEntry b.1 (fun e => { e.markSpans spans with
    aux := aux, left := true, marks := (if off = 0 then 1 else 0) + (if last then 2 else 0), group := g
    later := some (if c = 0 then (st, 0, k) else ((memStatus c).1, (memStatus c).2, 0)) })

/-- Fill buffers in ring order. -/
def State.fillBuffers (s : State) (q : Nat) (f : Frame) (total : Nat) (g : List Nat) : List (Nat × JEntry × Line) → Nat → State
  | [], _ => s
  | b :: bs, off => (s.fillBuffer q f total g b off bs.isEmpty).fillBuffers q f total g bs (off + dLength b.2.2)

/-- The oldest complete frame of a stream is placed, when its queue is RUNNING and its buffers hold it (R311). -/
def State.placeFrame (s : State) (p st : Nat) : State :=
  match s.frames.find? (fun f => decide (f.port = p ∧ f.stream = st) && f.closed.isSome) with
  | none => s
  | some f =>
    match f.closed with
    | none => s
    | some (n, q, _) =>
      let bufs := s.buffersOf q st
      if s.qState q = 1 && s.standardFor q && !bufs.isEmpty && decide (n ≤ bufs.foldl (fun a b => a + dLength b.2.2) 0) &&
          (bufs.all (fun b => !dBhost b.2.2) || s.hostOpen (instOf q)) && s.pointOpen (272 + s.queueDie q) (instOf q) then
        let bs := fewestBuffers n bufs
        let g := bs.map (·.2.1.seq)
        ((s.fillBuffers q f n g bs 0).finishGroup g).releaseFrame f
      else s

/-- A complete frame has waited longer than 16 × TIMEOUT leaves, and is discarded (R310). -/
def State.frameTimeout (s : State) (p st : Nat) : State :=
  match s.frames.find? (fun f => decide (f.port = p ∧ f.stream = st) && f.closed.isSome) with
  | none => s
  | some f =>
    match f.closed with
    | none => s
    | some (_, q, l) =>
      let s1 := s.untilLeaf (l + 16 * s.f (CSS_Qq_CTL.TIMEOUT q) + 1)
      (s1.incF (CSS_Pp_STRMs.DROP_WAIT p st)).releaseFrame f

/-- A write to CSS_Pp_STRMs: one that changes VALID or QUEUE while a frame of the stream is held is ignored. -/
def State.actStream (p st : Nat) (v : Word) (s : State) : State :=
  let held := s.frames.any (fun f => decide (f.port = p ∧ f.stream = st))
  let differs := decide ((CSS_Pp_STRMs.VALID p st).of v ≠ s.f (CSS_Pp_STRMs.VALID p st) ∨
    (CSS_Pp_STRMs.QUEUE p st).of v ≠ s.f (CSS_Pp_STRMs.QUEUE p st))
  if held && differs then s.raise CSS_ALARM.BUSY_WRITE else s.applyWrite (CSS_Pp_STRMs p st) v

/-! ### Binding (R316, R317) -/

/-- Whether another instance has function n bound. -/
def State.funcBound (s : State) (i n : Nat) : Bool :=
  (List.range 256).any (fun j => decide (j ≠ i ∧ s.f (CSS_SIi_BIND.KIND j) = 2 ∧ s.f (CSS_SIi_BIND.FUNC j) = n))

/-- Whether R317 refuses a write to CSS_SIi_BIND. -/
def State.bindRefused (s : State) (i : Nat) (v : Word) : Bool :=
  let kind := s.f (CSS_SIi_BIND.KIND i)
  let func := s.f (CSS_SIi_BIND.FUNC i)
  let k := (CSS_SIi_BIND.KIND i).of v
  let n := (CSS_SIi_BIND.FUNC i).of v
  (decide (kind ≠ 0) && (decide ((k = 1 ∨ k = 2) ∧ k ≠ kind) || decide (n ≠ func))) ||
    (decide (k = 2) && (decide (n = 0) || s.funcBound i n)) || decide (k ≠ 2 ∧ n ≠ 0) || decide (i = 0 ∧ k ≠ kind) ||
    decide (kind ≠ 0 ∧ k = 0) || (List.range 64).any (fun j => decide (s.qState (64 * i + j) ≠ 0)) || s.resetting i

/-- A write to CSS_SIi_BIND. -/
def State.actBind (i : Nat) (v : Word) (s : State) : State :=
  if s.bindRefused i v then s.raise CSS_INST_ALARM.BIND_REFUSED
  else
    let s1 := s.applyWrite (CSS_SIi_BIND i) v
    if s1.f (CSS_SIi_BIND.KIND i) = 2 then s1.setF (AEP_VFn_STATUS.INST (s1.f (CSS_SIi_BIND.FUNC i))) i else s1

/-! ### Reset and removal (R332 to R337) -/

/-- A reset's own state. -/
def State.inst (s : State) (i : Nat) : InstState := s.insts.get {} i

/-- Change it. -/
def State.modInst (s : State) (i : Nat) (g : InstState → InstState) : State := { s with insts := s.insts.set {} i (g (s.inst i)) }

/-- Whether a frame is held for a queue of instance i. -/
def State.frameOf (s : State) (i : Nat) (f : Frame) : Bool :=
  match f.closed with
  | some (_, q, _) => decide (instOf q = i)
  | none => s.on (CSS_Pp_STRMs.VALID f.port f.stream) && decide (instOf (s.f (CSS_Pp_STRMs.QUEUE f.port f.stream)) = i)

/-- The commands of an instance that have no outcome end with their generation: their kept writes end their wait for it (R283, R333). -/
def State.endGeneration (s : State) (i : Nat) : State :=
  ((s.cmdsOfInst i).filter (fun m => m.2.out.isNone)).foldl (fun a m => a.endKept m.2.seq m.2.bytesDone) s

/-- Records of an instance that were decided and have no slot are not written any more: their entries go to the report (R332, R337). -/
def State.unwritten (s : State) (i : Nat) : State :=
  ((s.cmdsOfInst i).filter (fun m => m.2.out.isSome && decide (m.2.state ≠ 4))).foldl (fun a m =>
    (a.modEntry m.1 (fun e => { e with out := none, own := none })).modQueue m.2.queue (fun c =>
      { c with out := c.out.filter (fun r => decide (r ≠ OutRec.cmd m.1)) })) s

/-- A reset or removal begins in leaf X (R332): what is in preparation is abandoned, and data not yet written is discarded; entries in COMPLETING
finish their record writes. -/
def State.startReset (s : State) (i : Nat) (remove : Bool) : State :=
  let gone := (s.frames.filter (s.frameOf i)).length
  let s0 := { (s.endGeneration i).unwritten i with
    writes := s.writes.filter (fun w => w.sent || w.queue.elim true (fun q => decide (instOf q ≠ i)))
    reqs := s.reqs.filter (fun r => decide (instOf r.queue ≠ i ∨ r.fate ≠ 3)) }
  let s1 := ((s0.setF (CSS_SIi_STATUS.GEN i) ((s.gen i + 1) % 256)).setF (CSS_SIi_STATUS.RESETTING i) 1).setB
    (CSS_SIi_STATUS.REMOVING i) remove
  let s2 := (List.range 64).foldl (fun a j => a.setQState (64 * i + j) 5) s1
  let js := (s2.jobs.filter (fun j => decide (j.inst ≠ i) || j.socket.isSome)).map (fun j => if j.inst = i then { j with fail := some 7 } else j)
  let s3 := ((s2.setJobs js).removeFrames (s2.frameOf i)).addF (CSS_SIi_COUNTS.FRAMES_DROPPED i) gone
  let s4 := { s3 with engines := s3.engines.map (fun (e : Nat × Engine) =>
    (e.1, { e.2 with posted := e.2.posted.filter (fun w => decide (w.1 ≠ i)) })) }
  (List.range 64).foldl (fun a j => if (a.queue (64 * i + j)).out.isEmpty then a else a.writeNext (64 * i + j))
    (s4.modInst i (fun _ => { leafX := s.leaf, hold := s.holdFlag }))

/-- A reset or removal is requested: while one runs it is held, and further requests merge into it (R337). -/
def State.requestReset (s : State) (i : Nat) (remove : Bool) : State :=
  if s.resetting i then
    (s.setF (CSS_SIi_STATUS.PENDING i) 1).modInst i (fun x => { x with heldRemove := x.heldRemove || remove })
  else s.startReset i remove

/-- A write to CSS_SIi_CTL (R332, R336). -/
def State.actInstCtl (i : Nat) (v : Word) (s : State) : State :=
  let reset := decide ((CSS_SIi_CTL.RESET i).of v = 1)
  let remove := decide ((CSS_SIi_CTL.REMOVE i).of v = 1)
  if i = 0 then
    let s1 := s.raiseIf remove CSS_INST_ALARM.CMD_REFUSED
    if reset then s1.requestReset i false else s1
  else if remove then s.requestReset i true
  else if reset then s.requestReset i false
  else s

/-- The report entry of a command (R334). -/
def reportEntry (hold : Bool) (e : JEntry) (d : Line) : BitVec 256 :=
  BitVec.ofNat 256 (e.gen % 256 * 2 ^ 248 + (if e.left then 2 ^ 247 else 0) + (if hold then 2 ^ 246 else 0) + e.attempts % 16 * 2 ^ 220 +
    e.queue % 64 * 2 ^ 208 + dOpcode d * 2 ^ 192 + (dWord d 1).toNat * 2 ^ 64 + e.index % 65536 * 2 ^ 32 + e.bytesDone % 2 ^ 32)

/-- A report entry is not written (R335). -/
def State.unreported (s : State) (i : Nat) (e : JEntry) (d : Line) : State :=
  ((s.incF (CSS_SIi_COUNTS.UNREPORTED i)).raise CSS_INST_ALARM.UNREPORTED).logAt 0x0040 { module := s.moduleNo } 1
    [e.queue, e.index, (dWord d 1).toNat]

/-- Write the report of a reset (R334, R335), as ordered writes: `k` entries are written so far, and `open_` tells that none was refused. A command
whose descriptor was not read has it read from its ring now. -/
def State.report (s : State) (i k : Nat) (open_ : Bool) (far : FarData) : List (Nat × JEntry) → State
  | [] => s.setF (CSS_SIi_STATUS.REPORTED i) k
  | m :: ms =>
    let (s0, d) := match m.2.desc with
      | some d => (s, d)
      | none =>
        match s.readSlot (s.queueDie m.2.queue) m.2.queue m.2.index far with
        | (s1, 0, d) => (s1, d)
        | (s1, _, _) => (s1, 0)
    if !open_ then (s0.unreported i m.2 d).report i k false far ms
    else
      let r := reportEntry (s0.inst i).hold m.2 d
      let a := s0.f (CSS_SIi_RPT.BASE i) * 4096 + 32 * k
      match s0.sysWrite 0 i false (cellsAt a ((List.range 32).map (fun j => (r >>> (8 * j)).setWidth 8))) [] { ordered := true } with
      | (s1, 0) => s1.report i (k + 1) true far ms
      | (s1, _) => (s1.unreported i m.2 d).report i k false far ms

/-- Registers below `hi` and not below `lo` take their Reset values. -/
def State.clearRegs (s : State) (lo hi : Nat) : State := { s with regs := s.regs.filter (fun e => !(decide (lo ≤ e.1) && decide (e.1 < hi))) }

/-- A removal's end (R336): the registers of the instance, its queues, targets and windows take their Reset values, but for GEN;
stream bindings that name its queues lose VALID. -/
def State.endRemoval (s : State) (i : Nat) : State :=
  let g := s.gen i
  let s1 := s.regs.foldl (fun a (e : Nat × Word) =>
    let o := e.1 - CSS_Pp_STRMs 0 0
    let p := o / 0x800
    let t := o % 0x800 / 8
    if CSS_Pp_STRMs 0 0 ≤ e.1 ∧ p < 128 ∧ (CSS_Pp_STRMs.VALID p t).of e.2 = 1 ∧ instOf ((CSS_Pp_STRMs.QUEUE p t).of e.2) = i then
      a.setF (CSS_Pp_STRMs.VALID p t) 0 else a) s
  let s2 := ((s1.clearRegs (CSS_SIi_BIND i) (CSS_SIi_BIND i + 0x100)).clearRegs (CSS_Qq_SQBASE (64 * i)) (CSS_Qq_SQBASE (64 * i) + 64 * 0x40)).clearRegs
    (CSS_SIi_TGTt_PATHp i 0 0) (CSS_SIi_TGTt_PATHp i 0 0 + 0x200)
  let lo := CSS_SIi_TGTt_PATHp i 0 0
  let s3 := { s2 with pathBad := s2.pathBad.filter (fun e => !(decide (lo ≤ e.1) && decide (e.1 < lo + 0x200))) }
  let s4 := if s.f (CSS_SIi_BIND.KIND i) = 2 then s3.setF (AEP_VFn_STATUS.INST (s.f (CSS_SIi_BIND.FUNC i))) 0 else s3
  (s4.setF (CSS_SIi_STATUS.GEN i) g).raise CSS_INST_ALARM.REMOVED

/-- A function-level reset of an instance's VF ends (R463): the VF's registers take their reset values. -/
def State.endFlr (s : State) (i : Nat) : State :=
  match s.instFunc i with
  | none => s
  | some n =>
    if s.on (AEP_VFn_STATUS.FLR n) && !s.on (CSS_SIi_STATUS.PENDING i) then
      ((s.setF (AEP_VFn_STATUS.FLR n) 0).modVf s.activeGroup n (fun _ => {})).showEndpoint
    else s

/-- A reset ends (R332), once no record write of the instance is in flight: the report is written, every entry is free, queues are DISABLED; a held
reset starts in the next leaf. -/
def State.resetEnd (s : State) (i : Nat) (far : FarData) : State :=
  if !s.resetting i || (List.range 64).any (fun j => (s.queue (64 * i + j)).flying.isSome) then s
  else
    let s := s.endFlr i
    let old := s.cmdsOfInst i
    let s1 := s.report i 0 (s.on (CSS_SIi_RPT.VALID i)) far (old.filter (fun m => !(decide (m.2.state = 4) && s.recordDone m.2.queue m.1)))
    let late (r : Nat × AfterRec) : Bool := old.any (fun m => decide (m.2.seq = r.1))
    let waiting := s1.afterWaiting i + (s1.reports.filter late).length
    let s2 := { s1 with reports := s1.reports.filter (fun r => !late r), journal := s1.journal.filter (fun (e : Nat × Option JEntry) => e.2.elim true (fun j => decide (instOf j.queue ≠ i))) }
    let s3 := (List.range 64).foldl (fun a j =>
      let q := 64 * i + j
      (((((a.setF (CSS_Qq_CTL.ENABLE q) 0).setReg (CSS_Qq_PAUSE q) 0).setF (CSS_Qq_STATUS.INFLIGHT q) 0).setQState q 0).modQueue q
        (fun c => { fault := c.fault }))) s2
    let remove := s.on (CSS_SIi_STATUS.REMOVING i)
    let s4 := (((s3.addF (CSS_SIi_COUNTS.AFTER_DISCARD i) waiting).setF (CSS_SIi_STATUS.RESETTING i) 0).setF
      (CSS_SIi_STATUS.REMOVING i) 0).setF CSS_JOURNAL.IN_USE s3.journal.length
    let s5 := (if remove then s4.endRemoval i else s4).raise CSS_INST_ALARM.RESET_DONE
    if s.on (CSS_SIi_STATUS.PENDING i) then
      ((s5.setF (CSS_SIi_STATUS.PENDING i) 0).untilLeaf (s5.leaf + 1)).startReset i (s.inst i).heldRemove
    else s5

/-! ### Arbitration (R321 to R326) -/

/-- One advance of an arbitration point's register (R322). -/
def lfsrNext (r : BitVec 32) : BitVec 32 :=
  let b := (r.getLsbD 31 ^^ r.getLsbD 21) ^^ (r.getLsbD 1 ^^ r.getLsbD 0)
  (r <<< 1) ||| (if b then 1 else 0)

/-- The tickets of an instance at a point (R321): ENGINE, MOVER, PORT, TU points by their numbers. -/
def State.tickets (s : State) (pt i : Nat) : Nat :=
  if pt < 272 then s.f (CSS_SIi_TICKETS.ENGINE i) else if pt < 274 then s.f (CSS_SIi_TICKETS.MOVER i)
  else if pt < 402 then s.f (CSS_SIi_TICKETS.PORT i) else s.f (CSS_SIi_TICKETS.TU i)

/-- The burst limit of a point. -/
def State.burst (s : State) (pt : Nat) : Nat :=
  if pt < 272 then s.f CSS_ARB_CTL.BURST_ENGINE else if pt < 274 then s.f CSS_ARB_CTL.BURST_MOVER
  else if pt < 402 then s.f CSS_ARB_CTL.BURST_PORT else 1

/-- Put a number into a rising list without repeats. -/
def insertNat (x : Nat) : List Nat → List Nat
  | [] => [x]
  | y :: ys => if x < y then x :: y :: ys else if x = y then y :: ys else y :: insertNat x ys

/-- A rising list without repeats. -/
def sortNat (l : List Nat) : List Nat := l.foldr insertNat []

/-- The instance whose cumulative weight range contains `x`. -/
def pickWeight : List (Nat × Nat) → Nat → Option Nat
  | [], _ => none
  | (i, w) :: rest, x => if x < w then some i else pickWeight rest (x - w)

/-- The winner of a draw among requesting instances (R322, R323); `r` is the register's value after the advance. -/
def State.winner (s : State) (pt : Nat) (insts : List Nat) (r : BitVec 32) : Option Nat :=
  let due := insts.filter (fun i => decide (32 ≤ s.losses.get 0 (pt * 256 + i)))
  match due with
  | [] =>
    let ws := insts.map (fun i => (i, s.tickets pt i))
    let w := ws.foldl (fun a e => a + e.2) 0
    let ws1 := if w = 0 then insts.map (fun i => (i, 1)) else ws
    let w1 := if w = 0 then insts.length else w
    pickWeight ws1 (r.toNat * w1 / 2 ^ 32)
  | d :: ds => some (ds.foldl (fun a i => if s.losses.get 0 (pt * 256 + a) < s.losses.get 0 (pt * 256 + i) then i else a) d)

/-- The queue that an instance's grant goes to: the next in round-robin order (R325). -/
def State.nextQueue (s : State) (pt i : Nat) (ready : List Nat) : Nat :=
  let mine := ready.filter (fun q => decide (instOf q = i))
  let last := s.lastQueue.get 0 (pt * 256 + i)
  match mine.find? (fun q => decide (last < q + 1)) with
  | some q => q
  | none => mine.headD 0

/-- The decision of a point: at an ENGINE point it becomes RD_NEXT (R376). -/
def State.decidePoint (s : State) (pt q : Nat) : State :=
  if pt < 272 then
    let l := s.f (CE_PHYSk.LOGICAL pt)
    (s.modEngine l (fun e => { e with rdNext := BitVec.ofNat 32 (2 ^ 31 + q) })).raiseLine l 4
  else s

/-- The draw among requesting instances (R322, R323, R325). -/
def State.newDraw (s : State) (pt : Nat) (insts qs : List Nat) : State :=
  let r := lfsrNext (s.lfsr.get 0 pt)
  let s1 := { s with lfsr := s.lfsr.set 0 pt r }
  match s1.winner pt insts r with
  | none => s1
  | some w =>
    let q := s1.nextQueue pt w qs
    let kept := s1.losses.filter (fun e => decide (e.1 / 256 ≠ pt))
    let losses := (insts.filter (· ≠ w)).foldl (fun t i => Table.set 0 t (pt * 256 + i) (s1.losses.get 0 (pt * 256 + i) + 1)) kept
    ({ s1 with
      losses := losses
      lastQueue := s1.lastQueue.set 0 (pt * 256 + w) (q + 1)
      grants := s1.grants.set none pt (some { inst := w, queue := q, beats := s1.burst pt }) }).decidePoint pt q

/-- Instances that do not request at a point any more lose their counts there (R323). -/
def State.withdrawn (s : State) (pt : Nat) (insts : List Nat) : State :=
  { s with losses := s.losses.filter (fun e => decide (e.1 / 256 ≠ pt) || insts.contains (e.1 % 256)) }

/-- The next beat of a point among those of `ready` that have a request ready there (R321): it belongs to the grant in progress while that has beats
left and its winner still requests, and otherwise is drawn for (R324); with no requester the grant ends. At an ENGINE point the queues are those that
the engine serves, and a decision is made when the last one has been taken (R376). -/
def State.drawAt (s : State) (pt : Nat) (ready : List Nat) : State :=
  let l := if pt < 272 then s.f (CE_PHYSk.LOGICAL pt) else 0
  let served (q : Nat) : Bool := decide (272 ≤ pt) || decide (s.engineOf q = l ∧ s.f (CE_STATUSl.PHYS l) = pt)
  let qs := sortNat (ready.filter (fun q => served q && s.readyAt pt q))
  let insts := sortNat (qs.map instOf)
  let s0 := s.withdrawn pt insts
  if insts.isEmpty then { s0 with grants := s0.grants.set none pt none }
  else if pt < 272 ∧ (s.engine l).rdNext.getLsbD 31 = true then s0
  else
    match s0.grants.get none pt with
    | none => s0.newDraw pt insts qs
    | some g =>
      if 1 < g.beats ∧ insts.contains g.inst = true then
        ({ s0 with grants := s0.grants.set none pt (some { g with beats := g.beats - 1 }) }).decidePoint pt
          (if qs.contains g.queue then g.queue else s0.nextQueue pt g.inst qs)
      else s0.newDraw pt insts qs

/-! ### Rate limits (R328) -/

/-- One bucket at a leaf edge: it gains its rate up to its depth, or is refilled to a new depth. -/
def State.refill (s : State) (i : Nat) (b : Bucket) : Bucket :=
  let bd := s.f (CSS_SIi_RATE.BYTE_DEPTH i) * 256
  let cd := s.f (CSS_SIi_RATE.CMD_DEPTH i)
  if b.fill then { bytes := bd, cmds := cd, fill := false }
  else { b with bytes := min bd (b.bytes + s.f (CSS_SIi_RATE.BYTE_RATE i) * 64), cmds := min cd (b.cmds + s.f (CSS_SIi_RATE.CMD_RATE i)) }

/-- The edge that begins leaf n: every bucket gains its rate, once. -/
def State.bucketRefill (s : State) (n : Nat) : State :=
  if n < s.leaf ∨ s.bucketAt = n + 1 then s
  else
  let s1 := s.untilLeaf n
  { s1 with bucketAt := n + 1, buckets := (List.range 512).foldl (fun t k => Table.set {} t k (s1.refill (k % 256) (Table.get {} t k))) s1.buckets }

/-- A write to CSS_SIi_RATE. -/
def State.actRate (i : Nat) (v : Word) (s : State) : State :=
  let br := (CSS_SIi_RATE.BYTE_RATE i).of v
  let bd := (CSS_SIi_RATE.BYTE_DEPTH i).of v
  let cr := (CSS_SIi_RATE.CMD_RATE i).of v
  let cd := (CSS_SIi_RATE.CMD_DEPTH i).of v
  if (br ≠ 0 ∧ (bd < 16 ∨ 4 * bd < br)) ∨ (cr ≠ 0 ∧ cd < cr) then s.raise CSS_ALARM.CFG_ERR
  else
    let s1 := (s.holdWord (CSS_SIi_RATE i)).applyWrite (CSS_SIi_RATE i) v
    { s1 with buckets := (s1.buckets.modify {} i (fun b => { b with fill := true })).modify {} (256 + i) (fun b => { b with fill := true }) }

/-! ### The commands -/

/-- STREAM_RECEIVE. -/
def execStreamReceive (q : Nat) (s : State) : Host.Outcome State Fault Refusal := .next (s.running (s.postBuffer q))

/-- STREAM_DATA_WRITE. -/
def execStreamDataWrite (p st off : Nat) (data : List Byte) (psn : Bool) (s : State) : Host.Outcome State Fault Refusal :=
  .next (s.running (s.streamData p st off data psn))

/-- STREAM_CLOSING_WRITE. -/
def execStreamClosingWrite (p st : Nat) (v : Word) (len : Nat) (relaxed : Bool) (s : State) : Host.Outcome State Fault Refusal :=
  .next (s.running (s.streamClose p st v len relaxed))

/-- FRAME_PLACEMENT. -/
def execFramePlacement (p st : Nat) (s : State) : Host.Outcome State Fault Refusal := .next (s.running (s.placeFrame p st))

/-- FRAME_WAIT_TIMEOUT. -/
def execFrameWaitTimeout (p st : Nat) (s : State) : Host.Outcome State Fault Refusal := .next (s.running (s.frameTimeout p st))

/-- BIND_WRITE. -/
def execBindWrite (who : Requester) (i : Nat) (v : Word) (s : State) : Host.Outcome State Fault Refusal :=
  .next (s.running (s.written who 8 (CSS_SIi_BIND i) v (fun a => a.actBind i v)))

/-- INSTANCE_RESET: CSS_SIi_CTL written with RESET. -/
def execInstanceReset (who : Requester) (i : Nat) (s : State) : Host.Outcome State Fault Refusal :=
  .next (s.running (s.written who 8 (CSS_SIi_CTL i) 1 (fun a => a.actInstCtl i 1)))

/-- INSTANCE_REMOVE: CSS_SIi_CTL written with REMOVE. -/
def execInstanceRemove (who : Requester) (i : Nat) (s : State) : Host.Outcome State Fault Refusal :=
  .next (s.running (s.written who 8 (CSS_SIi_CTL i) 2 (fun a => a.actInstCtl i 2)))

/-- RESET_END. -/
def execResetEnd (i : Nat) (far : FarData) (s : State) : Host.Outcome State Fault Refusal := .next (s.reading (s.resetEnd i far))

/-- DRAW. -/
def execDraw (pt : Nat) (ready : List Nat) (s : State) : Host.Outcome State Fault Refusal := .next (s.running (s.drawAt pt ready))

/-- BUCKET_REFILL. -/
def execBucketRefill (n : Nat) (s : State) : Host.Outcome State Fault Refusal := .next (s.running (s.bucketRefill n))

/-- RATE_WRITE. -/
def execRateWrite (who : Requester) (i : Nat) (v : Word) (s : State) : Host.Outcome State Fault Refusal :=
  .next (s.running (s.written who 8 (CSS_SIi_RATE i) v (fun a => a.actRate i v)))

end Sys2Proof.Machine
end

