-- ==== Sys2Proof/Machine/Sockets.lean ====
section
/-! DEFINITION. The instruction word, sockets, guards and arithmetic units of a channel engine (chapter Channel Engine Instruction
Set, R339 to R350, R381, R382), as functions of one engine. -/

namespace Sys2Proof.Machine

open Sys2Proof

/-! ### The instruction word (R339 to R341) -/

/-- The fields of an instruction word. -/
structure Move where
  annul : Bool
  guard : Nat
  dest  : Nat
  imm   : Bool
  src   : Nat
deriving DecidableEq, Repr

/-- The fields of a word (R339). -/
def moveOf (w : BitVec 32) : Move :=
  let n := w.toNat
  { annul := w.getLsbD 31, guard := n / 2 ^ 28 % 8, dest := n / 2 ^ 17 % 2048, imm := w.getLsbD 16, src := n % 65536 }

/-- Whether the move is performed, by the guards that it sees (R340). -/
def Move.holds (m : Move) (g : BitVec 3) : Bool :=
  if m.guard = 0 then true
  else if m.guard ≤ 3 then g.getLsbD (m.guard - 1)
  else !g.getLsbD (m.guard - 5)

/-! ### The socket map (R350, R381, R382) -/

/-- Whether a number lies from `a` to `b`. -/
def within (n a b : Nat) : Bool := decide (a ≤ n) && decide (n ≤ b)

/-- Sockets of kind R. -/
def isRegister (n : Nat) : Bool :=
  within n 0 0x3F || decide (n = 0xB1 ∨ n = 0xC4 ∨ n = 0xCA ∨ n = 0xE0 ∨ n = 0x100) || within n 0x120 0x121 || within n 0x160 0x164 ||
    within n 0x600 0x603 || within n 0x608 0x60B

/-- Sockets of kind O. -/
def isOperand (n : Nat) : Bool := decide (n = 0x40 ∨ n = 0x80 ∨ n = 0xA0 ∨ n = 0xB0)

/-- Sockets of kind T. -/
def isTrigger (n : Nat) : Bool :=
  within n 0x50 0x56 || within n 0x58 0x5F || within n 0x60 0x65 || within n 0x88 0x8B || within n 0xA4 0xA5 || within n 0xB4 0xBF ||
    within n 0xC0 0xC3 || within n 0xC8 0xC9 || decide (n = 0xCC) || within n 0xDC 0xDD || within n 0xE4 0xE8 || within n 0xEC 0xEE ||
    within n 0xF0 0xF1 || within n 0x104 0x106 || decide (n = 0x110 ∨ n = 0x122 ∨ n = 0x140) || within n 0x168 0x16A ||
    decide (n = 0x1C1) || within n 0x1C4 0x1C6 || within n 0x1C8 0x1CA || within n 0x1CC 0x1CE || within n 0x610 0x612 ||
    within n 0x700 0x77F || within n 0x780 0x782

/-- Sockets of kind S. -/
def isResult (n : Nat) : Bool :=
  decide (n = 0x41 ∨ n = 0x90) || within n 0xA8 0xAA || decide (n = 0xCB) || within n 0xD0 0xD1 || decide (n = 0xDE ∨ n = 0xE1) ||
    within n 0x108 0x10A || within n 0x10C 0x10E || decide (n = 0x141) || within n 0x150 0x152 || within n 0x170 0x172 ||
    within n 0x174 0x176 || decide (n = 0x1C0) || within n 0x1D0 0x1D2 || within n 0x614 0x616 || within n 0x618 0x61A ||
    within n 0x784 0x786 || within n 0x788 0x78A || decide (n = 0x7F0)

/-- Whether the map defines a socket. -/
def isDefined (n : Nat) : Bool := isRegister n || isOperand n || isTrigger n || isResult n

/-- The control-transfer sockets (R358): JMP, JREL, CALL, CALLR, EV_RET. -/
def isTransfer (n : Nat) : Bool := within n 0xC0 0xC3 || decide (n = 0xC9)

/-- The guard of an asynchronous trigger, by the number at the end of its name (R344). -/
def asyncGuard (n : Nat) : Option Nat :=
  if within n 0x104 0x106 then some (n - 0x103)
  else if within n 0x168 0x16A then some (n - 0x167)
  else if within n 0x1C4 0x1C6 then some (n - 0x1C3)
  else if within n 0x1C8 0x1CA then some (n - 0x1C7)
  else if within n 0x1CC 0x1CE then some (n - 0x1CB)
  else if within n 0x610 0x612 then some (n - 0x60F)
  else if within n 0x780 0x782 then some (n - 0x77F)
  else none

/-- The guard that a compare trigger sets. -/
def compareGuard (n : Nat) : Option Nat := if within n 0xB4 0xBF then some ((n - 0xB4) / 4 + 1) else none

/-- Moves that cost 2 cycles (R365). -/
def costOf (dest : Nat) : Nat :=
  if within dest 0xE4 0xE8 || within dest 0xEC 0xEE || within dest 0xF0 0xF1 || decide (dest = 0x140) then 2 else 1

/-- The first static fault of an instruction (R362, R364), if there is one; `slot`: it stands in a delay slot. -/
def Move.staticFault (m : Move) (slot : Bool) : Option Nat :=
  let s := m.src % 2048
  if m.guard = 4 then some 0x01
  else if !m.imm && decide (2048 ≤ m.src) then some 0x02
  else if !isDefined m.dest then some 0x03
  else if !m.imm && !isDefined s then some 0x04
  else if isResult m.dest then some 0x05
  else if !m.imm && isTrigger s then some 0x06
  else if m.annul && !isTransfer m.dest then some 0x07
  else if slot && isTransfer m.dest then some 0x08
  else none

/-! ### Arithmetic (R350) -/

/-- An ALU trigger's result. -/
def aluOp (d : Nat) (a b : BitVec 32) : BitVec 32 :=
  let k := b.toNat % 32
  if d = 0x50 then a + b else if d = 0x51 then a - b else if d = 0x52 then b - a else if d = 0x53 then a &&& b
  else if d = 0x54 then a ||| b else if d = 0x55 then a ^^^ b else if d = 0x56 then a &&& ~~~b
  else if d = 0x58 then a <<< k else if d = 0x59 then a >>> k else if d = 0x5A then a.sshiftRight k else if d = 0x5B then a.rotateRight k
  else if d = 0x5C then (if a.slt b then a else b) else if d = 0x5D then (if a.ult b then a else b)
  else if d = 0x5E then (if a.slt b then b else a) else if d = 0x5F then (if a.ult b then b else a)
  else if d = 0x60 then BitVec.ofNat 32 (((List.range 32).find? (fun i => b.getLsbD (31 - i))).getD 32)
  else if d = 0x61 then BitVec.ofNat 32 (((List.range 32).find? (fun i => b.getLsbD i)).getD 32)
  else if d = 0x62 then BitVec.ofNat 32 ((List.range 32).filter (fun i => b.getLsbD i)).length
  else if d = 0x63 then
    (b <<< 24) ||| ((b &&& 0xFF00#32) <<< 8) ||| ((b >>> 8) &&& 0xFF00#32) ||| (b >>> 24)
  else if d = 0x64 then (b.setWidth 8).signExtend 32
  else (b.setWidth 16).signExtend 32

/-- A multiplier trigger's result. -/
def mulOp (d : Nat) (a b : BitVec 32) : BitVec 32 :=
  if d = 0x88 then a * b
  else
    let x : BitVec 64 := if d = 0x8A then a.setWidth 64 else a.signExtend 64
    let y : BitVec 64 := if d = 0x89 then b.signExtend 64 else b.setWidth 64
    ((x * y) >>> 32).setWidth 32

/-- A divide's quotient and remainder. -/
def divOp (signed : Bool) (a b : BitVec 32) : BitVec 32 × BitVec 32 :=
  if b = 0 then (BitVec.allOnes 32, a)
  else if signed then (a.sdiv b, a.srem b)
  else (a / b, a % b)

/-- A compare trigger's result: EQ, LTS, LTU, ANY. -/
def compareOp (d : Nat) (a b : BitVec 32) : Bool :=
  let k := (d - 0xB4) % 4
  if k = 0 then decide (a = b) else if k = 1 then a.slt b else if k = 2 then a.ult b else decide (a &&& b ≠ 0)

/-! ### Time within an engine (R344, R347, R348) -/

/-- The divide that runs ends: 34 cycles after its trigger its results are seen. -/
def Engine.endDivide (e : Engine) : Engine :=
  match e.divide with
  | none => e
  | some d =>
    let (q, r) := divOp d.signed d.a d.b
    { (e.setSock 0xA8 q).setSock 0xA9 r with divide := none }

/-- The engine as an instruction issued at cycle `t` sees it. -/
def Engine.settleTo (e : Engine) (t : Nat) : Engine :=
  let due := e.delayed.filter (fun d => decide (d.at_ ≤ t))
  let e1 := due.foldl (fun a d => a.setSock d.socket d.value) { e with delayed := e.delayed.filter (fun d => decide (t < d.at_)) }
  let gs := e1.gDelay.filter (fun g => decide (g.1 ≤ t))
  let e2 := gs.foldl (fun a g => a.setGuard g.2.1 g.2.2) { e1 with gDelay := e1.gDelay.filter (fun g => decide (t < g.1)) }
  if e2.divide.elim false (fun d => decide (d.at_ + 34 ≤ t)) then e2.endDivide else e2

/-- Whether an operation is outstanding on a guard. -/
def Engine.busy (e : Engine) (n : Nat) : Bool := (e.async.get none n).isSome

/-- An asynchronous trigger takes its guard: it reads 0 from the next cycle (R344). -/
def Engine.launch (e : Engine) (n : Nat) (op : AsyncOp) : Engine :=
  { e.setGuard n false with async := e.async.set none n (some op), gDelay := e.gDelay.filter (fun g => decide (g.2.1 ≠ n)) }

/-- The index, after an instruction that is no taken transfer, and the cycle (R358, R359, R366): the last delay slot leads to the
target. -/
def Engine.advance (e : Engine) (cost : Nat) : Engine :=
  let e1 := { e with cycle := e.cycle + cost, entering := none }
  if e.slots = 1 then { e1 with slots := 0, annul := false, pc := e.target }
  else { e1 with slots := e.slots - 1, pc := e.pc + 1 }

/-- A control transfer issues: its two slots follow (R359). -/
def Engine.transfer (e : Engine) (target : Nat) (annul : Bool) : Engine :=
  { e with cycle := e.cycle + 1, entering := none, slots := 2, annul := annul, target := target, pc := e.pc + 1 }

/-- The lines pending and enabled. -/
def Engine.dueLines (e : Engine) : Nat := (e.pend &&& (e.sock 0xCA).setWidth 8).toNat

/-- The highest-priority line pending and enabled (R383). -/
def Engine.dueLine (e : Engine) : Option Nat := (List.range 8).find? (fun n => e.dueLines.testBit n)

/-- After the second slot of an EV_RET: an enabled line is about to be entered, or the interrupted code resumes (R385, R386). -/
def Engine.resumeFrom (e : Engine) : Engine :=
  let e1 := { e with inEvent := false, isRet := false, pc := e.resume }
  match e.saved with
  | none => e1
  | some (_, k) =>
    if e.dueLine.isSome then { e1 with divide := none }
    else { e1 with saved := none, cycle := max e.cycle (e.retAt + max 3 k) }

/-- The event line `n` is entered at cycle `t` (R384, R386): the running divide is saved, unless an earlier one still waits. -/
def Engine.enterLine (e : Engine) (n t : Nat) : Engine :=
  let e0 := e.settleTo t
  let e1 := match e0.saved, e0.divide with
    | none, some d => { e0 with saved := some (d, t - d.at_), divide := none }
    | _, _ => e0
  { e1 with
    pend := e1.pend &&& ~~~(1#8 <<< n), resume := e1.pc, pc := 4 * (n + 1), inEvent := true, waiting := false, cycle := t + 3, entering := some n }

/-- A line of higher priority takes over an entry (R384). -/
def Engine.displace (e : Engine) (old n : Nat) : Engine :=
  { e with pend := (e.pend &&& ~~~(1#8 <<< n)) ||| (1#8 <<< old), pc := 4 * (n + 1), entering := some n }

/-! ### Data space (R351, R352) -/

/-- The bytes of data space from an address, least significant first, as a number. -/
def Engine.loadData (e : Engine) (a n : Nat) : Nat := leNat ((List.range n).map (fun i => e.dmem.get 0 (a + i)))

/-- Store the low bytes of a word. -/
def Engine.storeData (e : Engine) (a n : Nat) (v : BitVec 32) : Engine :=
  { e with dmem := (List.range n).foldl (fun t i => t.set 0 (a + i) ((v >>> (8 * i)).setWidth 8)) e.dmem }

/-- The access size of a data-space trigger. -/
def dataSize (dest : Nat) : Nat :=
  if dest = 0xE5 ∨ dest = 0xE6 ∨ dest = 0xED then 2 else if dest = 0xE7 ∨ dest = 0xE8 ∨ dest = 0xEE then 1 else 4

/-- The fault of a data-space access (R352). -/
def dataFault (a n : Nat) : Option Nat := if a % n ≠ 0 then some 0x12 else if 2 ^ 17 ≤ a then some 0x13 else none

/-- A load's result (LDW, LDH, LDHS, LDB, LDBS, LDW_INC). -/
def loadResult (dest v : Nat) : BitVec 32 :=
  if dest = 0xE6 then (BitVec.ofNat 16 v).signExtend 32 else if dest = 0xE8 then (BitVec.ofNat 8 v).signExtend 32 else BitVec.ofNat 32 v

/-- The instruction word at an index: one written since the standard channel program was loaded, or that program's own, which the
spec does not list (R390). -/
def Engine.word (e : Engine) (k : Nat) : BitVec 32 := (e.imem.get none k).getD (Config.standardWord k)

end Sys2Proof.Machine
end

