-- ==== Sys2Proof/Machine/EngineIo.lean ====
section
/-! DEFINITION. What a channel engine reaches beside its own registers: I/O space, translated windows, the data mover and the ring
and doorbell unit (chapter Channel Engine Units, R354 to R357, R369 to R380, R430, R435). -/

namespace Sys2Proof.Machine

open Sys2Proof

/-! ### Asynchronous operations (R344, R385) -/

/-- Whether an engine serves a queue (R254). -/
def State.serves (s : State) (l q : Nat) : Bool := decide (q < 16384) && decide (s.engineOf q = l)

/-- Whether an engine is HALTING (R388). -/
def State.engineHalting (s : State) (l : Nat) : Bool := decide (s.f (CE_STATUSl.STATE l) = 1)

/-- Whether an operation of a queue ends STOPPED (R356). -/
def State.queueStopped (s : State) (q : Nat) : Bool := decide (s.qState q = 5) || s.resetting (instOf q)

/-! ### Translated windows (R355) -/

/-- Whether instance i has a queue that the engine serves. -/
def State.servesInst (s : State) (l i : Nat) : Bool := (List.range 64).any (fun j => s.serves l (64 * i + j))

/-- What an I/O address in a translated window reaches: the window's instance, whether it is host memory, and the address; none for
status WINDOW. -/
def State.throughWindow (s : State) (l : Nat) (ws : Table IoWindow) (a : Nat) : Option (Nat × Bool × Nat) :=
  let w := ws.get {} (a / 2 ^ 28 - 8)
  if w.valid && s.servesInst l w.inst && (!w.host || (s.instFunc w.inst).isSome) then some (w.inst, w.host, (w.base + a % 2 ^ 28) % 2 ^ 64)
  else none

/-! ### The port window (R375, R435) -/

/-- Whether frames and posted writes of a channel engine reach port p: a root port in link-up, or a loop-back of depth LINK or ECHO
(R436). -/
def State.portTakes (s : State) (p : Nat) : Bool :=
  s.rootUp (s.leadPort p) ||
    (decide (s.f (PRT_Pp_CFG.MODE p) = 4 ∧ s.f (PRT_Pp_STATUS.STATE p) = 6) &&
      decide ((s.ports.get {} p).depth = 3 ∨ (s.ports.get {} p).depth = 4))

/-- Whether port p is looped back at depth ECHO. -/
def State.portEchoes (s : State) (p : Nat) : Bool := decide (s.f (PRT_Pp_CFG.MODE p) = 4 ∧ (s.ports.get {} p).depth = 4)

/-- The LINK word (R435). -/
def State.linkWord (s : State) (p : Nat) : Nat :=
  let k := s.leadPort p
  let st := s.f (PRT_Pp_STATUS.STATE k)
  (if st = 4 ∨ st = 5 then 1 else 0) + s.f (PRT_Pp_STATUS.NWIDTH k) * 2 + s.f (PRT_Pp_STATUS.GEN k) * 16 + s.f (PRT_Pp_STATUS.PRESENT k) * 256 +
    (if st = 7 then 512 else 0)

/-- The queue that RX_SEL names and the part that RX_BASE shows. -/
def State.rxView (s : State) (l p : Nat) : Nat × Nat := s.rxSel.get (0, 0) (l * 128 + p)

/-- Set it. -/
def State.setRx (s : State) (l p q b : Nat) : State := { s with rxSel := s.rxSel.set (0, 0) (l * 128 + p) (q, b) }

/-- The head frame that the RX region shows. -/
def State.headFrame (s : State) (l p : Nat) : Option Frame :=
  let q := (s.rxView l p).1
  if s.serves l q then s.frames.find? (fun f => decide (f.port = p) && f.closed.elim false (fun c => decide (c.2.1 = q))) else none

/-- A word of the port window above its TX and RX regions. -/
def State.portWord (s : State) (l p o : Nat) : Nat :=
  if o = 0x1F000 then (s.rxView l p).1
  else if o = 0x1F004 then
    (match (s.headFrame l p).bind (fun f => f.closed.map (fun c => (f.stream, c.1))) with
    | some (st, n) => 2 ^ 31 + st % 256 * 2 ^ 18 + n % 2 ^ 18
    | none => 0)
  else if o = 0x1F00C then s.linkWord p
  else if o = 0x1F010 then (s.rxView l p).2 * 4096
  else 0

/-- A write to RX_SEL. -/
def State.writeRxSel (s : State) (l p : Nat) (v : BitVec 32) : State := s.setRx l p (v.toNat % 16384) 0

/-- A write to RX_BASE: a position of 48 to 63, or a non-zero bit elsewhere, is ignored. -/
def State.writeRxBase (s : State) (l p : Nat) (v : BitVec 32) : State :=
  if v.toNat % 4096 = 0 ∧ v.toNat / 4096 < 48 then s.setRx l p (s.rxView l p).1 (v.toNat / 4096) else s

/-- A write to RX_POP: a one in bit 0 releases the head frame. -/
def State.writeRxPop (s : State) (l p : Nat) (v : BitVec 32) : State :=
  if v.getLsbD 0 then
    let s1 := s.setRx l p (s.rxView l p).1 0
    (s.headFrame l p).elim s1 s1.releaseFrame
  else s

/-! ### The queue window (R378) -/

/-- The command that a queue's window shows: its entry as it stands, or as it was when its record was acknowledged. -/
def State.shown (s : State) (q : Nat) : Option JEntry :=
  match (s.queue q).cur with
  | some n => (s.entry n).orElse (fun _ => (s.queue q).wEntry)
  | none => (s.queue q).wEntry

/-- STATE of the journal work copy as the window shows it: COMPLETING from the moment at which its entry is, and otherwise what the program wrote. -/
def State.shownState (s : State) (q : Nat) : Nat :=
  if (s.shown q).elim false (fun e => decide (e.state = 4)) then 4 else (s.queue q).wState % 8

/-- A word of the queue window. -/
def State.queueWord (s : State) (q o : Nat) : Nat :=
  let c := s.queue q
  let e := s.shown q
  let bit (b : Bool) (k : Nat) : Nat := if b then 2 ^ k else 0
  if o = 0 then
    bit ((s.cmdsOf q).any (fun m => m.2.orphan)) 16 + s.gen (instOf q) * 256 + s.f (CSS_Qq_PAUSE.PAUSE q) * 8 + s.qState q
  else if o = 4 then s.f (CSS_Qq_STATUS.SQ_HEAD q) * 65536 + s.f (CSS_Qq_PTRS.SQ_TAIL q)
  else if o = 8 then s.f (CSS_Qq_STATUS.CQ_TAIL q) * 65536 + s.f (CSS_Qq_PTRS.CQ_HEAD q)
  else if o = 12 then
    s.f (CSS_Qq_STATUS.PHASE q) * 2 ^ 31 + s.f (CSS_Qq_CTL.CQ_LOG q) * 2 ^ 24 + s.f (CSS_Qq_CTL.SQ_LOG q) * 2 ^ 16 + s.f (CSS_Qq_CTL.TIMEOUT q)
  else if 0x40 ≤ o ∧ o < 0x80 then e.elim 0 (fun e => e.desc.elim 0 (fun d => d.toNat / 2 ^ (8 * (o - 0x40)) % 2 ^ 32))
  else if o = 0x80 then e.elim 0 (fun e => e.index * 65536 + q)
  else if o = 0x84 then
    e.elim 0 (fun e => e.gen % 256 * 2 ^ 24 + bit e.timed 21 + bit e.orphan 20 + s.shownState q * 2 ^ 16 + c.wPath % 4 * 2 ^ 12 +
      c.wAttempts % 16 * 2 ^ 8 + bit e.rbc 1 + bit e.idem 0)
  else if o = 0x88 then c.wMark
  else if o = 0x8C then e.elim 0 (fun e => e.deadline % 2 ^ 24)
  else if 0xA0 ≤ o ∧ o < 0xC0 then c.wRecord.toNat / 2 ^ (8 * (o - 0xA0)) % 2 ^ 32
  else if 0xC0 ≤ o ∧ o < 0x100 then
    let t := e.elim 0 (fun e => e.desc.elim 0 dTarget)
    let i := instOf q
    let p := (o - 0xC0) / 16
    if t = 0 then 0
    else if o % 16 = 0 then
      s.f (CSS_SIi_TGTt_PATHp.STATE i t p) * 2 ^ 30 + s.f (CSS_SIi_TGTt_PATHp.RETIRE i t p) * 2 ^ 29 +
        s.f (CSS_SIi_TGTt_PATHp.VALID i t p) * 2 ^ 28 + s.f (CSS_SIi_TGTt_PATHp.PORT i t p)
    else if o % 16 = 4 then s.f (CSS_SIi_TGTt_PATHp.OFFSET i t p) % 2 ^ 32
    else if o % 16 = 8 then s.f (CSS_SIi_TGTt_PATHp.OFFSET i t p) / 2 ^ 32
    else 0
  else 0

/-- A write to a word of the queue window: only the work copies take it. STATE takes no 4, which is read-only. -/
def State.writeQueueWord (s : State) (q o : Nat) (v : BitVec 32) : State :=
  let n := v.toNat
  if o = 0x84 then
    s.modQueue q (fun c => { c with wState := if n / 2 ^ 16 % 8 = 4 then c.wState else n / 2 ^ 16 % 8, wPath := n / 2 ^ 12 % 4, wAttempts := n / 2 ^ 8 % 16 })
  else if o = 0x88 then s.modQueue q (fun c => { c with wMark := n })
  else if 0xA0 ≤ o ∧ o < 0xC0 then
    let k := 8 * (o - 0xA0)
    s.modQueue q (fun c => { c with
      wRecord := (c.wRecord &&& ~~~((BitVec.ofNat 256 (2 ^ 32 - 1)) <<< k)) ||| ((v.setWidth 256) <<< k) })
  else s

/-! ### The engine window (R380) -/

/-- A word of the engine window. -/
def State.engineWord (s : State) (l o : Nat) : Nat :=
  let e := s.engine l
  let head (x : Option Nat) : Nat := x.elim 0 (fun q => 2 ^ 31 + q)
  if o = 0 then e.pred % 256 * 256 + s.f (CE_STATUSl.START l)
  else if o = 4 then e.tick
  else if o = 8 then head (e.timerQ.head?.map (·.1))
  else if o = 12 then e.timerQ.head?.elim 0 (·.2)
  else if o = 16 then head e.frameQ.head?
  else if o = 20 then head e.ctlQ.head?
  else if o = 24 then e.ioWerr.toNat
  else if o = 28 then e.ioWerrA.toNat
  else 0

/-- The journal entry of an engine's queues whose fired timer has waited longest for room in TIMER_Q. -/
def State.timedOf (s : State) (l : Nat) : Option (Nat × JEntry) :=
  let age (e : JEntry) : Nat := (s.leaf + 2 ^ 24 - e.deadline) % 2 ^ 24
  (s.journal.filterMap (fun (e : Nat × Option JEntry) =>
    e.2.bind (fun j => if j.timed = true ∧ s.engineOf j.queue = l then some (e.1, j) else none))).foldl
      (fun best m => match best with
        | none => some m
        | some b => if age b.2 < age m.2 then some m else some b) none

/-- Events that wait in a journal entry or a queue's state enter the FIFOs as room frees (R380). -/
def State.refillFifos (s : State) (l : Nat) : State :=
  let e := s.engine l
  let s1 := if e.timerQ.length < 1024 then
      (match s.timedOf l with
      | none => s
      | some (n, j) => (s.modEntry n (fun x => { x with timed := false })).modEngine l (fun e =>
          { e with timerQ := e.timerQ ++ [(j.queue, j.index)] }))
    else s
  s1.modEngine l (fun e =>
    let e1 := if e.frameQ.length < 1024 then { e with frameQ := e.frameQ ++ e.frameWait.take 1, frameWait := e.frameWait.drop 1 } else e
    if e1.ctlQ.length < 1024 then { e1 with ctlQ := e1.ctlQ ++ e1.ctlWait.take 1, ctlWait := e1.ctlWait.drop 1 } else e1)

/-- A write to POP. -/
def State.writePop (s : State) (l : Nat) (v : BitVec 32) : State :=
  (s.modEngine l (fun e => { e with
    timerQ := if v.getLsbD 0 then e.timerQ.drop 1 else e.timerQ
    frameQ := if v.getLsbD 1 then e.frameQ.drop 1 else e.frameQ
    ctlQ := if v.getLsbD 2 then e.ctlQ.drop 1 else e.ctlQ
    ioWerr := if v.getLsbD 3 then 0 else e.ioWerr
    ioWerrA := if v.getLsbD 3 then 0 else e.ioWerrA })).refillFifos l

/-- Whether events of a line still wait outside its FIFO, so that the line stays pending (R380). -/
def State.lineStays (s : State) (l n : Nat) : Bool :=
  (decide (n = 1) && (s.timedOf l).isSome) || (decide (n = 2) && !(s.engine l).ctlWait.isEmpty) ||
    (decide (n = 5) && !(s.engine l).frameWait.isEmpty)

/-! ### The I/O-space unit (R354, R356, R369, R370) -/

/-- The fault of an access by the I/O-space unit. -/
def State.ioFault (s : State) (l a : Nat) : Option Nat :=
  if a % 4 ≠ 0 then some 0x15
  else if a < 0x1000000 then (if a % 0x20000 < 0x1F000 then some 0x16 else none)
  else if a < 0x2000000 then (if s.serves l ((a - 0x1000000) / 0x400) then none else some 0x16)
  else if a < 0x2010000 then none
  else if a < 0x80000000 then some 0x16
  else none

/-- A read of one word: its status and data. A status other than OK leaves the data at zero. While bus mastering is withdrawn no read of host memory
starts (R282). -/
def State.ioRead (s : State) (l a : Nat) (far : FarData) : State × Nat × BitVec 32 :=
  if a < 0x1000000 then (s, 0, BitVec.ofNat 32 (s.portWord l (a / 0x20000) (a % 0x20000)))
  else if a < 0x2000000 then (s, 0, BitVec.ofNat 32 (s.queueWord ((a - 0x1000000) / 0x400) (a % 0x400)))
  else if a < 0x2010000 then (s, 0, BitVec.ofNat 32 (s.engineWord l (a - 0x2000000)))
  else
    match s.throughWindow l (s.engine l).windows a with
    | none => (s, 4, 0)
    | some (i, host, addr) =>
      if host && !s.hostOpen i then (s.sticks { kind := .rdCur, src := .tile 0 0, line := addr / 64 }, 0, 0)
      else
      match s.sysRead (l / 128) i host addr 4 far with
      | (s1, r) => if r.status ≠ 0 then (s1, r.status, 0) else if r.poison then (s1, 3, 0) else (s1, 0, BitVec.ofNat 32 (leNat r.bytes))

/-- A posted write of one word, through a window of instance i. While bus mastering is withdrawn a write to host memory waits (R282). -/
def State.postedWrite (s : State) (l i a addr : Nat) (host : Bool) (v : BitVec 32) : State :=
  if host && !s.hostOpen i then s.modEngine l (fun e => { e with posted := e.posted ++ [(i, a, addr, v)] })
  else
    match s.sysWrite (l / 128) i host (wordCells addr v) [] { move := some (l, 0, a) } with
    | (s1, 0) => s1
    | (s1, c) => s1.captureError l a c

/-- The posted writes of an engine that waited for bus mastering leave, in their order. -/
def State.sendPosted (s : State) (l : Nat) : State :=
  if (s.engine l).posted.isEmpty then s
  else (s.engine l).posted.foldl (fun a w => a.postedWrite l w.1 w.2.1 w.2.2.1 true w.2.2.2) (s.modEngine l (fun e => { e with posted := [] }))

/-- A posted write of one word. -/
def State.ioWrite (s : State) (l a : Nat) (v : BitVec 32) : State :=
  if a < 0x1000000 then
    let p := a / 0x20000
    let o := a % 0x20000
    if o = 0x1F000 then s.writeRxSel l p v else if o = 0x1F010 then s.writeRxBase l p v else if o = 0x1F008 then s.writeRxPop l p v else s
  else if a < 0x2000000 then s.writeQueueWord ((a - 0x1000000) / 0x400) (a % 0x400) v
  else if a < 0x2010000 then
    (if a = 0x2000004 then s.modEngine l (fun e => { e with tick := v.toNat }) else if a = 0x2000020 then s.writePop l v else s)
  else
    match s.throughWindow l (s.engine l).windows a with
    | none => s.captureError l a 4
    | some (i, host, addr) => s.postedWrite l i a addr host v

/-! ### The data mover (R372 to R374, R430) -/

/-- Whether a range lies in one translated window. -/
def inOneWindow (a n : Nat) : Bool := decide (0x80000000 ≤ a ∧ a % 2 ^ 28 + n ≤ 2 ^ 28)

/-- Whether a range begins in the RX region of a port window. -/
def inRx (a : Nat) : Bool := decide (a < 0x1000000 ∧ 0x10000 ≤ a % 0x20000 ∧ a % 0x20000 < 0x1F000)

/-- Whether a range lies in the TX region of a port window. -/
def inTx (a n : Nat) : Bool := decide (a < 0x1000000 ∧ a % 0x20000 + n ≤ 0x10000)

/-- Whether a DM_GO raises BAD_OPERAND (R350, R372). -/
def State.badMove (s : State) (l src dst len mode q : Nat) : Bool :=
  decide (32 ≤ mode) || decide (len = 0) || decide ((if mode.testBit 4 then 65536 else 16777216) < len) ||
    !(inOneWindow src len || inRx src) || !(inOneWindow dst len || inTx dst len) || (mode.testBit 4 && !inTx dst len) || !s.serves l q

/-- The bytes that a move's source can give: all of them, or what the head frame still holds (R373, R375). -/
def State.moveLen (s : State) (l src len : Nat) : Nat :=
  if src < 0x1000000 then
    let p := src / 0x20000
    match s.headFrame l p with
    | none => 0
    | some f => min len (min (f.closed.elim 0 (·.1) - (s.rxView l p).2 * 4096) 61440 - (src % 0x20000 - 0x10000))
  else len

/-- Bytes of a move's source at positions x to x + k − 1: those found before the first failure, its status, and the poison among them. -/
def State.moveRead (s : State) (l : Nat) (ws : Table IoWindow) (q src x k : Nat) (far : FarData) : State × BytesRead :=
  if src < 0x1000000 then
    let p := src / 0x20000
    let f := (s.headFrame l p).getD { port := p, stream := 0 }
    let at_ (j : Nat) : Nat := (s.rxView l p).2 * 4096 + (src % 0x20000 - 0x10000) + x + j
    (s, ⟨(List.range k).map (fun j => BitVec.ofNat 8 (f.bytes.get 0 (at_ j) - 1)), 0,
      ((List.range k).filter (fun j => f.poison.contains (at_ j))).map (fun j => (j, 1))⟩)
  else
    match s.throughWindow l ws (src + x) with
    | none => (s, ⟨[], 4, []⟩)
    | some (i, host, addr) => s.sysRead (l / 128) (if host then i else instOf q) host addr k far

/-- The byte of the data that lands at position y of a move of `len` bytes: an exchange within its unit, whole units only (R299). -/
def moveSwap (mode len y : Nat) : Nat :=
  let m := mode % 4
  let u := swapUnit m
  if y / u * u + u ≤ len then swapAt m y else y

/-- Bytes of a move as its destination takes them, at positions x to x + k − 1: read in whole swap units. -/
def State.moveBytes (s : State) (l : Nat) (ws : Table IoWindow) (q src len mode x k : Nat) (far : FarData) : State × BytesRead :=
  let u := swapUnit (mode % 4)
  let lo := x / u * u
  let hi := min len ((x + k + u - 1) / u * u)
  let (s1, r) := s.moveRead l ws q src lo (hi - lo) far
  let whole := if r.bytes.length = hi - lo then hi else (lo + r.bytes.length) / u * u
  let at_ (j : Nat) : Nat := moveSwap mode len (x + j) - lo
  let n := min k (whole - x)
  (s1, { r with
    bytes := (List.range n).map (fun j => r.bytes.getD (at_ j) 0)
    bad := if r.bad.isEmpty then [] else ((List.range n).filter (fun j => r.poisonAt (at_ j))).map (fun j => (j, 1)) })

/-- A write on a port as it is kept for error reports (R283): of a queue's current command, on the path of its work copy. -/
def State.keptOf (s : State) (q addr len : Nat) : Option Kept :=
  (s.queue q).cur.bind (fun n => (s.entry n).map (fun e =>
    { addr := addr, len := len, seq := e.seq, gen := e.gen, queue := q, index := e.index, tag := e.tag, path := (s.queue q).wPath }))

/-- A posted write of a channel engine leaves on a root port, on behalf of queue q. -/
def State.postOn (s : State) (p q addr : Nat) (bytes : List Byte) (relaxed psn : Bool) : State :=
  let s1 := s.emit (.tlp p true addr bytes.length relaxed bytes psn)
  (s1.keptOf q addr bytes.length).elim s1 (s1.keepAddr p)

/-- Bytes of a move for queue q reach a port at position `off` of its frame: as posted writes, or back into staging (R430, R436). -/
def State.moveToPort (s : State) (p q off : Nat) (bytes : List Byte) (relaxed psn : Bool) : State :=
  if s.portEchoes p then s.streamData p 255 off bytes psn
  else if s.rootUp (s.leadPort p) then
    s.postOn (s.leadPort p) q (s.f (PRT_Pp_TXBASE.TXBASE (s.leadPort p)) * 2 ^ 17 + off) bytes relaxed psn
  else s

/-- A frame of n bytes is closed (R430). -/
def State.closeFrame (s : State) (p q n : Nat) : State :=
  if s.portEchoes p then s.streamClose p 255 (BitVec.ofNat 64 n) 8 false
  else if s.rootUp (s.leadPort p) then
    s.postOn (s.leadPort p) q (s.f (PRT_Pp_TXBASE.TXBASE (s.leadPort p)) * 2 ^ 17 + 0x10000)
      ((List.range 8).map (fun k => BitVec.ofNat 8 (n / 2 ^ (8 * k)))) false false
  else s

/-- Bytes of a frame leave in posted writes of at most `mps` bytes; `n` bounds their number. -/
def State.sendPieces (s : State) (p q mps : Nat) (relaxed psn : Bool) : Nat → Nat → List Byte → State
  | 0, _, _ => s
  | n + 1, off, bytes =>
    if bytes.isEmpty then s
    else
      let k := mps - off % mps
      (s.moveToPort p q off (bytes.take k) relaxed psn).sendPieces p q mps relaxed psn n (off + k) (bytes.drop k)

/-- The operands of a move: engine, guard, the windows of its trigger, queue, source, destination, mode, and the bytes that its source can give. -/
structure MoveJob where
  l    : Nat
  n    : Nat
  ws   : Table IoWindow
  q    : Nat
  src  : Nat
  dst  : Nat
  mode : Nat
  len  : Nat
deriving DecidableEq, Repr

/-- Whether a move shifts a frame. -/
def MoveJob.frame (m : MoveJob) : Bool := m.mode.testBit 4

/-- Whether a move's destination is a port. -/
def MoveJob.toPort (m : MoveJob) : Bool := decide (m.dst < 0x1000000)

/-- The instance whose function's host memory an I/O address reaches, where it reaches host memory. -/
def MoveJob.hostAt (m : MoveJob) (a : Nat) : Option Nat :=
  let w := m.ws.get {} (a / 2 ^ 28 - 8)
  if 0x80000000 ≤ a ∧ w.host = true then some w.inst else none

/-- The bytes that the requests for `k` bytes of a move take (R328): what is read from system memory, and what is written there or sent to a port. -/
def MoveJob.cost (m : MoveJob) (k : Nat) : Nat :=
  (if m.src < 0x1000000 ∨ (m.hostAt m.src).isSome = true then 0 else k) + (if (m.hostAt m.dst).isSome then 0 else k)

/-- A move may make its next requests, for `k` bytes: host memory may be reached where it needs it (R282), the points of its route are open to its
instance (R321) and its tokens are there (R328). The first request of the current command of its queue takes the command token. -/
def State.moveMay (s : State) (m : MoveJob) (k : Nat) : Option State :=
  let i := instOf m.q
  let shut (a : Nat) : Bool := (m.hostAt a).elim false (fun x => !s.hostOpen x)
  let first := (s.queue m.q).cur.elim false (fun c => (s.entry c).elim false (fun e => !e.issued))
  if shut m.src || shut m.dst || !s.pointOpen (272 + m.l / 128) i || (m.toPort && !s.pointOpen (274 + s.leadPort (m.dst / 0x20000)) i) then none
  else
    (s.takeTokens m.q (m.cost k) first).map (fun s1 =>
      (s1.queue m.q).cur.elim s1 (fun c => s1.modEntry c (fun e => { e with issued := true, onPath := true })))

/-- The `k` bytes of a move at position x, on their way through staging (R315). -/
def State.moveStaged (s : State) (m : MoveJob) (x k : Nat) (far : FarData) : State × BytesRead :=
  match s.passStaging m.q (2 ^ 62 + 4 * m.l + m.n) x k with
  | (s1, true) => (s1, ⟨[], 2, []⟩)
  | (s1, false) => s1.moveBytes m.l m.ws m.q m.src m.len m.mode x k far

/-- How far a move has come: its position, whether poison was carried, and what ended it: 0 it has reached its limit, a status of R356; none: it waits. -/
structure MoveEnd where
  pos    : Nat
  poison : Bool
  status : Option Nat
deriving DecidableEq, Repr

/-- A move goes on from position x up to `lim`, request by request; `fuel` bounds them. -/
def State.moveOn (s : State) (m : MoveJob) (lim : Nat) (far : FarData) : Nat → Nat → Bool → State × MoveEnd
  | 0, x, psn => (s, ⟨x, psn, none⟩)
  | fuel + 1, x, psn =>
    if lim ≤ x then (s, ⟨x, psn, some 0⟩)
    else
      let mps := 128 * 2 ^ s.f (PRT_Pp_CFG.MPS (m.dst / 0x20000))
      let k := min (lim - x) (if m.toPort then mps - (m.dst + x) % mps else 64 - (m.dst + x) % 64)
      match s.moveMay m k with
      | none => (s, ⟨x, psn, none⟩)
      | some s0 =>
        match s0.moveStaged m x k far with
        | (s1, r) =>
          let c := r.bytes.length
          let p := psn || r.poison
          if m.toPort then
            let s2 := if c = 0 then s1 else s1.moveToPort (m.dst / 0x20000) m.q (m.dst % 0x20000 + x) r.bytes (m.mode.testBit 2) r.poison
            if r.status ≠ 0 then (s2, ⟨x + c, p, some r.status⟩) else s2.moveOn m lim far fuel (x + k) p
          else
            match s1.throughWindow m.l m.ws (m.dst + x) with
            | none => (s1, ⟨x, p, some 4⟩)
            | some (i, host, addr) =>
              let cells := cellsAt addr r.bytes
              match s1.sysWrite (m.l / 128) (if host then i else instOf m.q) host cells (r.badLines cells)
                  { queue := some m.q, move := some (m.l, m.n, x), ordered := m.mode.testBit 3 && decide (x = 0), relaxed := m.mode.testBit 2 } with
              | (s2, 0) => if r.status ≠ 0 then (s2, ⟨x + c, p, some r.status⟩) else s2.moveOn m lim far fuel (x + k) p
              | (s2, st) => (s2, ⟨x, p, some st⟩)

/-- A FRAME move (R374, R430): the frame goes whole or not at all, or is cut off after `lim` bytes by its link. -/
def State.frameMove (s : State) (m : MoveJob) (lim : Nat) (far : FarData) : State × MoveEnd :=
  let p := m.dst / 0x20000
  let mps := 128 * 2 ^ s.f (PRT_Pp_CFG.MPS p)
  match s.moveMay m m.len with
  | none => (s, ⟨0, false, none⟩)
  | some s0 =>
    match s0.moveStaged m 0 m.len far with
    | (s1, r) =>
      if r.status ≠ 0 then (s1, ⟨0, r.poison, some r.status⟩)
      else
        let s2 := s1.sendPieces p m.q mps (m.mode.testBit 2) r.poison (lim / mps + 2) (m.dst % 0x20000) (r.bytes.take lim)
        (if lim = m.len ∧ s2.portTakes p = true then s2.closeFrame p m.q m.len else s2, ⟨lim, r.poison, some 0⟩)

/-- The port of the path on which a queue's current command is sent. -/
def State.pathPort (s : State) (q : Nat) : Option Nat :=
  (s.queue q).cur.bind (fun n => (s.entry n).bind (fun e => e.desc.bind (fun d =>
    if e.onPath = true ∧ dTarget d ≠ 0 then some (s.f (CSS_SIi_TGTt_PATHp.PORT (instOf q) (dTarget d) (s.queue q).wPath)) else none)))

/-- What stops a move early (R306, R356, R373, R388): a stopped queue, a port out of link-up, a pause, a timer that fired, or an error
of the far side, where `st` names it and the machine's state bears it out. -/
def State.moveStop (s : State) (src dst q st : Nat) : Option Nat :=
  let port := decide (dst < 0x1000000)
  let down (a : Nat) : Bool := decide (a < 0x1000000) && !s.portTakes (a / 0x20000)
  let fired := (s.queue q).cur.elim false (fun n => (s.entry n).elim false (fun e => e.timer.isNone && e.left))
  if s.queueStopped q then some 7
  else if down src || down dst || (s.pathPort q).elim false (fun p => !s.portTakes p) then some 8
  else if st = 9 ∧ (s.qState q = 2 ∨ s.engineHalting (s.engineOf q) = true) then some 9
  else if st = 10 ∧ port = true ∧ fired = true then some 10
  else if st = 5 ∧ port = true then some 5
  else none

/-- A move has ended (R373): what it met, at which position, `have_` bytes being in its source of `len` asked for. The answers to what it sent to a
port stop the current command's timer (R281). -/
def State.moveEnds (s : State) (m : MoveJob) (len : Nat) (x : Nat) (psn : Bool) (status : Nat) : State :=
  let short := decide (m.len < len) && (m.frame || decide (x = m.len))
  let st := if status ≠ 0 then status else if short then 11 else if psn then 3 else 0
  let u := swapUnit (m.mode % 4)
  let bytes := if st = 11 then m.len else if x = len then x else x / u * u
  let s1 := if m.toPort && decide (st ≠ 10) then (s.queue m.q).cur.elim s (fun n => s.modEntry n (fun e => { e with timer := none })) else s
  s1.moveDone m.l m.n bytes st

/-- A data-mover move ends (R373): `reached` bytes moved before what `st` names stopped it. A FRAME move stops only before its first
byte, or with its link (R374). A move that waits for host memory, for its points or for tokens keeps what it has done, and goes on later. -/
def State.endMove (s : State) (l n st reached : Nat) (far : FarData) : State :=
  match (s.engine l).async.get none n with
  | some (.move src dst len mode q ws done psn) =>
    let m : MoveJob := { l := l, n := n, ws := ws, q := q, src := src, dst := dst, mode := mode, len := s.moveLen l src len }
    let stop := s.moveStop src dst q st
    let shifting := m.frame && decide (0 < reached) && stop.elim false (fun c => decide (c ≠ 8))
    let lim := if stop.isNone || shifting then m.len else max done (min reached m.len)
    let after := if shifting && decide (stop = some 7 ∨ stop = some 9) then 0 else stop.getD 0
    let (s1, r) :=
      if m.frame && (decide (m.len < len) || decide (lim = 0)) then (s, ⟨0, false, some 0⟩)
      else if m.frame then s.frameMove m lim far
      else s.moveOn m lim far (m.len / 64 + 2) done psn
    match r.status, stop with
    | none, none =>
      s1.modEngine l (fun e => { e with async := e.async.set none n (some (.move src dst len mode q ws r.pos r.poison)) })
    | none, some c => s1.moveEnds m len r.pos r.poison c
    | some c, _ => s1.moveEnds m len r.pos r.poison (if c ≠ 0 then c else after)
  | _ => s

/-- The current command of a queue sends its first request: its timer starts (R281). -/
def State.startTimer (s : State) (q : Nat) : State :=
  match (s.queue q).cur with
  | none => s
  | some n =>
    let d := s.leaf + 16 * s.f (CSS_Qq_CTL.TIMEOUT q)
    s.modEntry n (fun e => if e.timer.isSome then { e with left := true } else { e with left := true, timer := some d, deadline := d % 2 ^ 24 })

/-! ### The ring and doorbell unit (R376, R377) -/

/-- The queue window shows entry n as the current command. -/
def State.present (s : State) (q n : Nat) : State :=
  match s.entry n with
  | none => s
  | some e => s.modQueue q (fun c => { c with
      cur := some n, wEntry := some e, wState := e.state, wPath := e.path, wAttempts := e.attempts, wMark := e.mark })

/-- RD_FETCH: the queue's next command comes to its window; commands that were already fetched first (R377). The status of R356;
none while the queue reads no descriptor. -/
def State.fetchNext (s : State) (q : Nat) (far : FarData) : State × Option Nat :=
  if s.queueStopped q then (s, some 7)
  else
    let again := (s.queue q).again.filter (fun n => (s.entry n).elim false (fun e => decide (e.queue = q) && e.out.isNone))
    match again with
    | n :: rest => ((s.modQueue q (fun c => { c with again := rest })).present q n, some 0)
    | [] =>
      let next := s.unread q
      match (s.modQueue q (fun c => { c with again := [] })).fetchDescriptor q far with
      | (s1, some 0) =>
        (match next with
        | none => (s1, some 0)
        | some (n, _) => (s1.present q n, some 0))
      | (_, none) => (s, none)
      | (s1, st) => (s1, st)

/-- RD_JNL: the work copy goes to both journal copies. A further attempt is a new issue (R328). -/
def State.writeJournal (s : State) (entry : Option Nat) (state path attempts mark : Nat) : State :=
  match entry with
  | none => s
  | some n => s.modEntry n (fun e => { e with
      state := if e.state = 4 then 4 else state, path := path, attempts := attempts, mark := mark, orphan := false
      issued := e.issued && decide (attempts ≤ e.attempts) })

/-- RD_DONE: the current command completes with the record of the work copy, unless its queue is stopped (R356). -/
def State.giveRecord (s : State) (q : Nat) : State :=
  match (s.queue q).cur with
  | none => s
  | some n =>
    if (s.entry n).elim true (fun e => e.out.isSome) || s.queueStopped q then s
    else
      let r := (s.queue q).wRecord
      let fld (hi lo : Nat) : Nat := r.toNat / 2 ^ lo % 2 ^ (hi + 1 - lo)
      (s.modEntry n (fun e => { e with own := some r })).finishCmd n (fld 199 192) (fld 215 200) (fld 31 0)

/-- An engine's completions whose records are acknowledged, or whose queue is stopped, end (R356, R377). -/
def State.endCompletes (s : State) (l : Nat) : State :=
  [1, 2, 3].foldl (fun a n =>
    match (a.engine l).async.get none n with
    | some (.complete q cmd) =>
      (match cmd with
      | none =>
        let (w, a1) := a.draw
        a1.endAsync l n [(0x1CF + n, BitVec.ofNat 32 (w.toNat % 8))]
      | some (k, seq) =>
        if (a.entry k).elim true (fun e => decide (e.seq ≠ seq)) then
          a.endAsync l n [(0x1CF + n, if a.queueStopped q then 7 else 0)]
        else if a.queueStopped q then a.endAsync l n [(0x1CF + n, 7)]
        else a)
    | _ => a) s

end Sys2Proof.Machine
end

