-- ==== Sys2Proof/Machine/Engine.lean ====
section
/-! DEFINITION. Issuing the instructions of a channel engine, its faults, events, halting and sparing (chapters Channel Engine
Instruction Set, R342 to R364, and Channel Engine Units, R365 to R395). -/

namespace Sys2Proof.Machine

open Sys2Proof

/-! ### Failing and sparing (R391 to R395) -/

/-- The record of an engine's fault or takeover (R526). -/
def State.logEngine (s : State) (k l code : Nat) : State := s.logAt 0x0041 (s.engineLoc k) 5 [l, code]

/-- The entries of an engine's queues, in the order of acceptance. -/
def State.cmdsOfEngine (s : State) (l : Nat) : List (Nat × JEntry) :=
  sortCmds (s.journal.filterMap (fun (e : Nat × Option JEntry) =>
    e.2.bind (fun j => if s.engineOf j.queue = l then some (e.1, j) else none)))

/-- A failed engine stops (R393 step 1): its asynchronous operations are abandoned, with the completions that have no slot yet; entries
with requests outstanding are marked ORPHAN, and answers to those are discarded. -/
def State.engineStops (s : State) (l : Nat) : State :=
  let mine := s.cmdsOfEngine l
  let s1 := mine.foldl (fun a m =>
    if m.2.own.isSome ∧ m.2.state ≠ 4 then
      (a.modEntry m.1 (fun e => { e with own := none, out := none })).modQueue m.2.queue (fun c =>
        { c with out := c.out.filter (fun r => decide (r ≠ OutRec.cmd m.1)) })
    else if (a.liveReqs m.2.seq).isEmpty then a
    else a.modEntry m.1 (fun e => { e with orphan := true })) s
  let s2 := s1.setJobs (s1.jobs.filter (fun j => j.socket.elim true (fun x => decide (x.1 ≠ l))))
  { s2.modEngine l (fun e => { e with async := [], divide := none, slots := 0, waiting := false, beat := none }) with
    reqs := s2.reqs.map (fun r => if mine.any (fun m => decide (m.2.seq = r.seq)) && decide (r.fate = 0) then { r with fate := 1 } else r) }

/-- The spare that a takeover goes to: the lowest-numbered one of the die, not yet taken for another (R393). -/
def State.spareFor (s : State) (l : Nat) : Option Nat :=
  ((List.range 136).map (fun j => l / 128 * 136 + j)).find? (fun k =>
    decide (s.f (CE_PHYSk.STATE k) = 1) && s.engines.all (fun e => decide (e.2.spare ≠ some k)))

/-- No spare stands by (R395): the logical engine and its queues are STOPPED. -/
def State.noSpare (s : State) (l : Nat) : State :=
  ((s.setF (CE_STATUSl.STATE l) 4).raise CE_ALARM.NO_SPARE).stopQueues 7 (fun q => decide (s.engineOf q = l))

/-- The takeover of a logical engine begins (R393): a step for its spare, and slot 6 or 7 once its image is copied. After a program
fault without a spare, the faulted engine waits for its own self-test (R395). -/
def State.startTakeover (s : State) (l k : Nat) (program : Bool) : State :=
  let s1 := (s.setF (CE_STATUSl.STATE l) 3).leaveService (s.engineLoc k)
  match s1.spareFor l with
  | some n =>
    ((s1.modEngine l (fun e => { e with spare := some n })).postStep (.engine n true) 2 (s1.leaf + 3)).startHw (s1.leaf + 17) (.engine l n true)
  | none =>
    if program then { s1 with selfTests := s1.selfTests.map (fun t => if t.1 = k then (k, some l) else t) }
    else s1.noSpare l

/-- A program fault (R362, R392): code, B[7:0] of a HALT move, and the word. -/
def State.programFault (s : State) (l code b : Nat) (w : BitVec 32) : State :=
  let e := s.engine l
  let k := s.f (CE_STATUSl.PHYS l)
  let s1 := if s.on (CE_FAULTl.VALID l) then s
    else ((s.setF (CE_FAULTl.INDEX l) e.pc).setF (CE_FAULTl.WORD l) w.toNat).raise (CE_FAULTl.VALID l)
  let s2 := (((s1.setF (CE_STATUSl.FAULT_CODE l) code).raise CE_ALARM.PROG_FAULT).lifeInc (0x6800 + 8 * k) 0 32).logEngine k l code
  let s3 := match e.taken.bind (fun q => (s2.queue q).cur.bind (fun n => (s2.entry n).bind (fun j =>
      if j.queue = q ∧ j.out.isNone = true then some (q, n, j) else none))) with
    | none => s2
    | some (q, n, j) =>
      let a := s2.endWith n 0x3E (code + 256 * (b % 256)) j.bytesDone
      let again := decide ((a.queue q).fault = some s.gathering)
      let a1 := a.modQueue q (fun c => { c with fault := some s.gathering })
      if again then a1.queueError q 5 else a1
  let s4 := { (s3.engineStops l).setF (CE_PHYSk.STATE k) 2 with selfTests := s3.selfTests ++ [(k, none)] }
  (s4.modEngine l (fun e => { e with progFault := true, pred := code })).startTakeover l k true

/-- Physical engine k fails for a hardware cause (R391). A spare that fails on its way is replaced (R393). -/
def State.hardwareFault (s : State) (k cause : Nat) : State :=
  let st := s.f (CE_PHYSk.STATE k)
  if st = 3 then s
  else
    let s1 := (((s.setF (CE_PHYSk.STATE k) 3).lifeInc (0x6800 + 8 * k) 32 32).raise CE_ALARM.HW_FAULT)
    if st = 0 then
      let l := s.f (CE_PHYSk.LOGICAL k)
      let s2 := (s1.setF (CE_STATUSl.HW_CAUSE l) cause).logEngine k l cause
      ((s2.engineStops l).modEngine l (fun e => { e with progFault := false, pred := cause })).startTakeover l k false
    else
      let s2 := { s1 with selfTests := s1.selfTests.filter (fun t => decide (t.1 ≠ k)) }
      match (List.range 256).find? (fun l => decide ((s.engine l).spare = some k)) with
      | none => s2
      | some l =>
        ({ s2.modEngine l (fun e => { e with spare := none }) with
          waiting := s2.waiting.filter (fun w => decide (w.change ≠ HwChange.engine l k true)) }).startTakeover l k false

/-- A self-test ends (R392, R395). -/
def State.selfTestEnd (s : State) (k : Nat) (pass : Bool) : State :=
  match s.selfTests.find? (fun t => decide (t.1 = k)) with
  | none => s
  | some (_, wait) =>
    let s1 := { s with selfTests := s.selfTests.filter (fun t => decide (t.1 ≠ k)) }
    if pass then
      let s2 := s1.setF (CE_PHYSk.STATE k) 1
      match wait with
      | none => s2
      | some l => (s2.modEngine l (fun e => { e with spare := some k })).startHw (s2.leaf + 5) (.engine l k true)
    else
      let s2 := s1.setF (CE_PHYSk.STATE k) 3
      match wait with
      | none => s2
      | some l => s2.noSpare l

/-! ### Starting again (R377, R389, R393, R394) -/

/-- The commands already fetched are to be presented again (R377). -/
def State.presentAgain (s : State) (l : Nat) : State :=
  (s.cmdsOfEngine l).foldl (fun a m =>
    if m.2.desc.isSome && m.2.out.isNone then a.modQueue m.2.queue (fun c => { c with again := c.again ++ [m.1] }) else a)
      ((s.cmdsOfEngine l).foldl (fun a m => a.modQueue m.2.queue (fun c => { c with again := [] })) s)

/-- The records of the COMPLETING entries of an engine's queues are written again by the engine that takes them over (R269). -/
def State.completingAgain (s : State) (l : Nat) : State :=
  (s.cmdsOfEngine l).foldl (fun a m => a.writeAgain m.2.queue m.1) s

/-- The standard channel program settles what it finds: orphans, and timers that have fired (R279, R394). -/
def State.standardSettles (s : State) (l : Nat) : State :=
  if (s.engine l).imem.isEmpty then
    (s.cmdsOfEngine l).foldl (fun a m =>
      if m.2.orphan then (a.modEntry m.1 (fun e => { e with orphan := false })).indeterminate m.1 7
      else if m.2.left && m.2.timer.isNone then (a.modEntry m.1 (fun e => { e with timed := false })).timeoutAct m.1
      else a)
      (s.modEngine l (fun e => { e with pend := 0, timerQ := [], frameQ := [], ctlQ := [], frameWait := [], ctlWait := [] }))
  else s

/-- A halted engine restarts at index 0 (R389). -/
def State.restartEngine (s : State) (l : Nat) : State :=
  let start := if (s.engine l).loaded then 1 else 3
  let s1 := s.modEngine l (fun e0 =>
    let e := e0.settleTo (e0.cycle + 64)
    { e.setSock 0xCA 0 with
      guards := 7, gDelay := [], saved := none, pc := 0, slots := 0, annul := false, isRet := false, cycle := 0, waiting := false
      inEvent := false, entering := none, loaded := false, runHeld := false, pred := 0 })
  (((s1.setF (CE_STATUSl.STATE l) 0).setF (CE_STATUSl.START l) start).presentAgain l).standardSettles l

/-- At T the spare takes the logical identity (R393 step 6): it starts at index 0 with the image, and its data space zero. -/
def State.switchEngine (s : State) (l k : Nat) : State :=
  let old := s.engine l
  let fresh : Engine := { imem := old.imem, pend := old.pend, timerQ := old.timerQ, frameQ := old.frameQ, ctlQ := old.ctlQ,
                          frameWait := old.frameWait, ctlWait := old.ctlWait, posted := old.posted, pred := old.pred, progFault := old.progFault }
  let s1 := { s with engines := s.engines.set {} l fresh }
  let s2 := ((((s1.setF (CE_STATUSl.PHYS l) k).setF (CE_STATUSl.STATE l) 0).setF (CE_STATUSl.START l) 2).setF (CE_PHYSk.STATE k) 0).setF
    (CE_PHYSk.LOGICAL k) l
  ((((s2.raise CE_ALARM.TAKEOVER).logEngine k l old.pred).completingAgain l).presentAgain l).standardSettles l

/-! ### Issuing an instruction -/

/-- The kinds of moves that the opcode table tells apart. -/
inductive MoveClass where
  | plain | alu | mul | div | compare | guards | lih | lil | jmp | jrel | call | callr | wait | ret | halt | load | store | ldwInc | stwInc
  | isRd | ioRd | ioWr | pop | rxSel | rxBase | rxPop | ioWctl | dmGo | rdTake | rdFetch | rdJnl | rdDone | tuGo | extPost | extRd
deriving DecidableEq, Repr

/-- The kind of a posted I/O write, by its address. -/
def writeClass (a : Nat) : MoveClass :=
  if a = 0x2000020 then .pop
  else if a < 0x1000000 then
    (if a % 0x20000 = 0x1F000 then .rxSel else if a % 0x20000 = 0x1F010 then .rxBase else if a % 0x20000 = 0x1F008 then .rxPop else .ioWr)
  else .ioWr

/-- The kind of a move; `a` is IO_ADDR. -/
def classOf (d a : Nat) : MoveClass :=
  if within d 0x50 0x56 || within d 0x58 0x5F || within d 0x60 0x65 then .alu
  else if within d 0x88 0x8B then .mul
  else if within d 0xA4 0xA5 then .div
  else if within d 0xB4 0xBF then .compare
  else if d = 0xB1 then .guards
  else if d = 0xDC then .lih
  else if d = 0xDD then .lil
  else if d = 0xC0 then .jmp
  else if d = 0xC1 then .jrel
  else if d = 0xC2 then .call
  else if d = 0xC3 then .callr
  else if d = 0xC8 then .wait
  else if d = 0xC9 then .ret
  else if d = 0xCC then .halt
  else if within d 0xE4 0xE8 then .load
  else if within d 0xEC 0xEE then .store
  else if d = 0xF0 then .ldwInc
  else if d = 0xF1 then .stwInc
  else if d = 0x140 then .isRd
  else if within d 0x104 0x106 then .ioRd
  else if d = 0x110 then writeClass a
  else if d = 0x122 then .ioWctl
  else if within d 0x168 0x16A then .dmGo
  else if d = 0x1C1 then .rdTake
  else if within d 0x1C4 0x1C6 then .rdFetch
  else if within d 0x1C8 0x1CA then .rdJnl
  else if within d 0x1CC 0x1CE then .rdDone
  else if within d 0x610 0x612 then .tuGo
  else if within d 0x700 0x77F then .extPost
  else if within d 0x780 0x782 then .extRd
  else .plain

/-- The value of a source socket in the present issue cycle (R350). -/
def State.sourceValue (s : State) (l n : Nat) : BitVec 32 :=
  let e := s.engine l
  if n = 0xB1 then e.guards.setWidth 32
  else if n = 0xAA then (if e.divide.elim false (fun d => decide (d.at_ < e.cycle)) then 1 else 0)
  else if n = 0xCB then e.pend.setWidth 32
  else if n = 0xD0 then BitVec.ofNat 32 e.cycle
  else if n = 0xD1 then BitVec.ofNat 32 (s.dieCount (4 + l / 128) / 256)
  else if n = 0x150 then BitVec.ofNat 32 (s.f (CE_STATUSl.PHYS l))
  else if n = 0x151 then BitVec.ofNat 32 l
  else if n = 0x152 then BitVec.ofNat 32 (s.reg (CE_PROGl l)).toNat
  else if n = 0x1C0 then e.rdNext
  else if n = 0x7F0 then BitVec.ofNat 32 (s.extCredit.get 0 (s.f (CE_CTLl.EXT_PORT l)))
  else e.sock n

/-- The largest output of a job (R398, R399). -/
def tuOutMax (j0 j2 : Word) (len : Nat) : Nat :=
  let func := bitsOf j0 7 0
  let k := tuKind func
  let aad := bitsOf j0 63 48
  if k ≤ 1 then j2.toNat
  else if k = 2 then len - aad + 16
  else if k = 3 then len - aad - 16
  else if k = 4 then len
  else if func = 0x21 then 48 else if func = 0x22 then 64 else 32

/-- Whether a TU_GO raises BAD_OPERAND (R410). -/
def State.badJob (s : State) (l : Nat) : Bool :=
  let e := s.engine l
  let j (k : Nat) : Word := (e.sock (0x600 + k)).setWidth 64
  let n := (e.sock 0x60A).toNat
  !s.serves l (e.sock 0x60B).toNat || tuReserved (j 0) (j 1) (j 2) (j 3) || tuBadLength (j 0) (j 2) n ||
    !inOneWindow (e.sock 0x608).toNat n || !inOneWindow (e.sock 0x609).toNat (tuOutMax (j 0) (j 2) n)

/-- The base that a move to IO_WCTL loads (R355). -/
def Engine.windowBase (e : Engine) (b : Nat) : Nat := b / 2 ^ 8 % 16 * 2 ^ 60 + (e.sock 0x121).toNat * 2 ^ 28

/-- Whether a performed move raises BAD_OPERAND (R344, R350, R355, R372, R377, R382, R385, R410). -/
def State.badOperand (s : State) (l d n : Nat) : Bool :=
  let e := s.engine l
  if d = 0xB1 then decide (8 ≤ n)
  else if d = 0xC8 then e.inEvent
  else if d = 0xC9 then !e.inEvent
  else if d = 0x122 then
    decide (7 < (e.sock 0x120).toNat) || decide (2 ^ 14 ≤ n) || (!n.testBit 12 && decide (2 ^ 52 ≤ e.windowBase n))
  else if within d 0x168 0x16A then
    s.badMove l (e.sock 0x160).toNat (e.sock 0x161).toNat (e.sock 0x162).toNat (e.sock 0x163).toNat (e.sock 0x164).toNat
  else if d = 0x1C1 then !(e.rdNext.getLsbD 31 && decide (n = e.rdNext.toNat))
  else if within d 0x1C8 0x1CA then !s.serves l n || decide (4 ≤ s.shownState n)
  else if within d 0x1C4 0x1CE then !s.serves l n
  else if within d 0x610 0x612 then s.badJob l
  else if within d 0x700 0x77F then s.on (CE_CTLl.EXT_EN l) && decide (s.extCredit.get 0 (s.f (CE_CTLl.EXT_PORT l)) = 0)
  else false

/-- The first fault of a performed move (R364), if there is one; `b` is its operand. -/
def State.moveFault (s : State) (l : Nat) (m : Move) (b : BitVec 32) : Option Nat :=
  let e := s.engine l
  let d := m.dest
  let n := b.toNat
  let target : Int := (e.pc : Int) + b.toInt
  let badTarget := (decide (d = 0xC0 ∨ d = 0xC2) && decide (16384 ≤ n)) || (decide (d = 0xC1 ∨ d = 0xC3) && decide (target < 0 ∨ 16383 < target)) ||
    (decide (d = 0xC9) && e.inEvent && decide (16383 < e.resume))
  let ext := decide (0x700 ≤ d) || (!m.imm && decide (0x700 ≤ m.src % 2048))
  let busy := ((asyncGuard d).orElse (fun _ => compareGuard d)).elim false e.busy
  let data := if within d 0xE4 0xE8 then dataFault n (dataSize d)
    else if within d 0xEC 0xEE || within d 0xF0 0xF1 then dataFault (e.sock 0xE0).toNat (dataSize d) else none
  let io := if within d 0x104 0x106 then s.ioFault l n else if d = 0x110 then s.ioFault l (e.sock 0x100).toNat else none
  [if badTarget then some 0x10 else none, data, if d = 0x140 ∧ 16383 < n then some 0x14 else none, io,
    if busy then some 0x17 else none, if s.badOperand l d n then some 0x18 else none,
    if ext && !s.on (CE_CTLl.EXT_EN l) then some 0x19 else none, if d = 0xCC then some 0x20 else none].findSome? id

/-- After an instruction: the last slot of an EV_RET ends the handler (R385). -/
def Engine.done (e : Engine) (cost : Nat) : Engine :=
  let e1 := e.advance cost
  if e.isRet ∧ e.slots = 1 then e1.resumeFrom else e1

/-- The job of a TU_GO (R410). -/
def State.socketJob (s : State) (l n : Nat) : TuJob :=
  let e := s.engine l
  let src := s.throughWindow l e.windows (e.sock 0x608).toNat
  let dst := s.throughWindow l e.windows (e.sock 0x609).toNat
  let q := (e.sock 0x60B).toNat
  let host (x : Option (Nat × Bool × Nat)) : Option Nat := x.bind (fun r => if r.2.1 then some r.1 else none)
  { id := s.jobNext, die := l / 128, inst := instOf q, queue := q, socket := some (l, n)
    j0 := (e.sock 0x600).setWidth 64, j1 := (e.sock 0x601).setWidth 64, j2 := (e.sock 0x602).setWidth 64, j3 := (e.sock 0x603).setWidth 64
    src := src.elim 0 (·.2.2), srcHost := host src, dst := dst.elim 0 (·.2.2), dstHost := host dst, len := (e.sock 0x60A).toNat
    fail := if src.isNone || dst.isNone then some 4 else none }

/-- A performed move's effect beside its cost (R342): `b` is its operand, `far` what agents outside the module answer to an I/O
read. -/
def State.effect (s : State) (l d : Nat) (b : BitVec 32) (far : FarData) : State :=
  let e := s.engine l
  let t := e.cycle
  let n := b.toNat
  let on (g : Engine → Engine) : State := s.modEngine l g
  let later (k sock : Nat) (v : BitVec 32) : State := on (fun e => { e with delayed := e.delayed ++ [⟨t + k, sock, v⟩] })
  if d = 0xB1 then
    on (fun e => { e with gDelay := e.gDelay ++ ([1, 2, 3].filter (fun g => !e.busy g)).map (fun g => (t + 2, g, b.getLsbD (g - 1))) })
  else if d = 0xCA then on (fun e => e.setSock d (BitVec.ofNat 32 (n % 256)))
  else if isRegister d || isOperand d then on (fun e => e.setSock d b)
  else match classOf d (e.sock 0x100).toNat with
  | .alu => later 2 0x41 (aluOp d (e.sock 0x40) b)
  | .mul => later 3 0x90 (mulOp d (e.sock 0x80) b)
  | .div => on (fun e => { e with divide := some ⟨t, decide (d = 0xA5), e.sock 0xA0, b⟩ })
  | .compare =>
    on (fun e => { e with gDelay := e.gDelay ++ [(t + 2, (compareGuard d).getD 1, compareOp d (e.sock 0xB0) b)] })
  | .lih => on (fun e => e.setSock 0xDE (BitVec.ofNat 32 (n % 65536 * 65536)))
  | .lil => on (fun e => e.setSock 0xDE (BitVec.ofNat 32 ((e.sock 0xDE).toNat / 65536 * 65536 + n % 65536)))
  | .call | .callr => on (fun e => e.setSock 0xC4 (BitVec.ofNat 32 (e.pc + 3)))
  | .wait => on (fun e => { e with waiting := true })
  | .ret => on (fun e => { e with isRet := true, retAt := t, divide := if e.saved.isSome then e.saved.map (fun x => { x.1 with at_ := t }) else e.divide })
  | .load => later 2 0xE1 (loadResult d (e.loadData n (dataSize d)))
  | .store => on (fun e => e.storeData (e.sock 0xE0).toNat (dataSize d) b)
  | .ldwInc =>
    on (fun e => { e.setSock 0xE0 (e.sock 0xE0 + 4) with
      delayed := e.delayed ++ [⟨t + 2, 0xE1, loadResult d (e.loadData (e.sock 0xE0).toNat 4)⟩] })
  | .stwInc => on (fun e => (e.storeData (e.sock 0xE0).toNat 4 b).setSock 0xE0 (e.sock 0xE0 + 4))
  | .isRd => later 2 0x141 (e.word n)
  | .ioRd =>
    let (s1, st, v) := s.ioRead l n far
    s1.modEngine l (fun e => e.launch (d - 0x103) (.ioRead st v))
  | .ioWr | .pop | .rxSel | .rxBase | .rxPop => s.ioWrite l (e.sock 0x100).toNat b
  | .ioWctl =>
    let w : IoWindow := { valid := b.getLsbD 13, host := b.getLsbD 12, base := e.windowBase n, inst := n % 256 }
    on (fun e => { e with windows := e.windows.set {} (e.sock 0x120).toNat w })
  | .dmGo =>
    let dst := (e.sock 0x161).toNat
    let q := (e.sock 0x164).toNat
    let s1 := if dst < 0x1000000 then s.startTimer q else s
    s1.modEngine l (fun e => e.launch (d - 0x167) (.move (e.sock 0x160).toNat dst (e.sock 0x162).toNat (e.sock 0x163).toNat q e.windows 0 false))
  | .rdTake => on (fun e => { e with rdNext := 0, taken := some (n % 16384) })
  | .rdFetch => on (fun e => e.launch (d - 0x1C3) (.fetch n))
  | .rdJnl =>
    let c := s.queue n
    on (fun e => e.launch (d - 0x1C7) (.journal n c.cur c.wState c.wPath c.wAttempts c.wMark))
  | .rdDone =>
    let cmd := (s.queue n).cur.bind (fun k => (s.entry k).map (fun j => (k, j.seq)))
    (s.giveRecord n).modEngine l (fun e => e.launch (d - 0x1CB) (.complete n cmd))
  | .tuGo =>
    let j := s.socketJob l (d - 0x60F)
    ({ s.setJobs (s.jobs ++ [j]) with jobNext := s.jobNext + 1 }).modEngine l (fun e => e.launch (d - 0x60F) (.transform j.id))
  | .extPost =>
    let p := s.f (CE_CTLl.EXT_PORT l)
    let s1 := { s with extCredit := s.extCredit.set 0 p (s.extCredit.get 0 p - 1) }
    if s.rootUp (s.leadPort p) then
      s1.emit (.tlp p true (s.f (PRT_Pp_EXT_BASE.EXT_BASE p) * 512 + 4 * (d - 0x700)) 4 false
        ((List.range 4).map (fun k => (b >>> (8 * k)).setWidth 8)) false)
    else s1
  | .extRd =>
    let p := s.f (CE_CTLl.EXT_PORT l)
    let s1 := on (fun e => e.launch (d - 0x77F) (.extRead (n % 128)))
    if s.rootUp (s.leadPort p) then
      s1.emit (.tlp p false (s.f (PRT_Pp_EXT_BASE.EXT_BASE p) * 512 + 4 * (n % 128)) 4 false [] false)
    else s1
  | .plain | .guards | .jmp | .jrel | .halt => s

/-- Where a control transfer that is taken leads (R350, R358). -/
def Engine.targetOf (e : Engine) (d : Nat) (b : BitVec 32) : Nat :=
  if d = 0xC0 ∨ d = 0xC2 then b.toNat else if d = 0xC9 then e.resume else ((e.pc : Int) + b.toInt).toNat

/-- Whether the engine is at a point where it issues its next instruction: it runs a program other than the standard one, has been
started (R390), waits for no event, and no event is about to be entered (R366, R384). -/
def State.mayIssue (s : State) (l : Nat) : Bool :=
  let e := s.engine l
  decide (0xB0 ≤ s.boot ∧ s.boot < 0xE000) && s.engineRuns l && !e.imem.isEmpty && !e.waiting &&
    !(decide (e.slots = 0) && !e.inEvent && e.dueLine.isSome)

/-- The instruction at the engine's index issues: its static faults, its guard, its faults, its effect (R342, R343, R359, R362). -/
def State.issue (s0 : State) (l : Nat) (far : FarData) : State :=
  let s := s0.modEngine l (fun e => e.settleTo e.cycle)
  let e := s.engine l
  if 16383 < e.pc then
    let (w, s1) := s.draw
    s1.programFault l 0x11 0 (w.setWidth 32)
  else
    let w := e.word e.pc
    let m := moveOf w
    match m.staticFault (decide (e.slots ≠ 0)) with
    | some c => s.programFault l c 0 w
    | none =>
      if (decide (e.slots ≠ 0) && e.annul) || !m.holds e.guards then
        (if isTransfer m.dest then s.modEngine l (fun e => e.transfer (e.pc + 3) m.annul) else s.modEngine l (fun e => e.done 1))
      else
        let b := if m.imm then (BitVec.ofNat 16 m.src).signExtend 32 else s.sourceValue l (m.src % 2048)
        match s.moveFault l m b with
        | some c => s.programFault l c (if c = 0x20 then b.toNat % 256 else 0) w
        | none =>
          let s1 := s.effect l m.dest b far
          if isTransfer m.dest then s1.modEngine l (fun e => e.transfer (e.targetOf m.dest b) false)
          else s1.modEngine l (fun e => e.done (costOf m.dest))

/-- The kind of the engine's next instruction. Past the end of instruction space it counts as a plain move. -/
def State.nextClass (s : State) (l : Nat) : MoveClass :=
  let e := (s.engine l).settleTo (s.engine l).cycle
  if 16383 < e.pc then .plain else classOf (moveOf (e.word e.pc)).dest (e.sock 0x100).toNat

/-- The engine's next instruction issues, if it is of the given kind. -/
def State.issueIf (s : State) (l : Nat) (c : MoveClass) (far : FarData) : State :=
  if s.mayIssue l && decide (s.nextClass l = c) then s.issue l far else s

/-! ### Events and the ends of operations -/

/-- A pending enabled line is entered (R384, R387): at cycle `t` where the engine waits, and otherwise in place of the instruction that
is due; or a line of higher priority takes over the entry that has begun. -/
def State.eventEntry (s : State) (l t : Nat) : State :=
  let e := s.engine l
  let keep (n : Nat) (a : State) : State := if a.lineStays l n then a.modEngine l (fun e => { e with pend := e.pend ||| (1#8 <<< n) }) else a
  match e.dueLine with
  | none => s
  | some n =>
    if !s.engineRuns l || decide (e.slots ≠ 0) then s
    else
      match e.entering with
      | some old => if n < old then keep n (s.modEngine l (fun e => e.displace old n)) else s
      | none =>
        if e.inEvent then s
        else keep n (s.modEngine l (fun e => e.enterLine n (if e.waiting then max e.cycle t else e.cycle)))

/-- A running divide ends while the engine waits: its quotient and remainder appear (R348). -/
def State.divideEnd (s : State) (l : Nat) : State :=
  let e := s.engine l
  match e.divide with
  | none => s
  | some d =>
    if e.waiting then s.modEngine l (fun e => { e.endDivide with cycle := max e.cycle (d.at_ + 34) })
    else if d.at_ + 34 ≤ e.cycle then s.modEngine l (fun e => e.endDivide)
    else s

/-- An I/O read completes (R369). -/
def State.ioReadEnd (s : State) (l n : Nat) : State :=
  match (s.engine l).async.get none n with
  | some (.ioRead st v) => s.endAsync l n [(0x107 + n, v), (0x10B + n, BitVec.ofNat 32 st)]
  | _ => s

/-- A descriptor fetch ends (R377). Under the standard channel program it is that program's own fetch for queue `q`; of a STOPPED queue it is a service
engine's (R272). -/
def State.fetchEnd (s : State) (l n q : Nat) (far : FarData) : State :=
  if s.serves l q && decide (s.qState q = 5) && !s.resetting (instOf q) && ((s.engine l).async.get none n).isNone then s.stoppedFetch q far
  else if s.takesEvents l && decide (s.boot ≥ 0xB0) then
    (if s.serves l q && !s.queueStopped q then (s.fetchDescriptor q far).1 else s)
  else
    match (s.engine l).async.get none n with
    | some (.fetch q) =>
      match s.fetchNext q far with
      | (s1, some st) => s1.endAsync l n [(0x1CF + n, BitVec.ofNat 32 st)]
      | (_, none) => s
    | _ => s

/-- A journal write ends (R377). -/
def State.journalEnd (s : State) (l n : Nat) : State :=
  match (s.engine l).async.get none n with
  | some (.journal q entry st path attempts mark) =>
    if s.queueStopped q then s.endAsync l n [(0x1CF + n, 7)]
    else (s.writeJournal entry st path attempts mark).endAsync l n [(0x1CF + n, 0)]
  | _ => s

/-- A customer read completes (R434): status OK, FAR_ERROR or LINK_DOWN. -/
def State.extReadEnd (s : State) (l n st : Nat) (data : BitVec 32) : State :=
  match (s.engine l).async.get none n with
  | some (.extRead _) =>
    let up := s.rootUp (s.leadPort (s.f (CE_CTLl.EXT_PORT l)))
    let code := if !up then 8 else if st = 0 then 0 else 5
    s.endAsync l n [(0x783 + n, if code = 0 then data else 0), (0x787 + n, BitVec.ofNat 32 code)]
  | _ => s

/-! ### Halting and loading (R368, R388, R389) -/

/-- A write to CE_CTLl. -/
def State.actEngineCtl (l : Nat) (v : Word) (s : State) : State :=
  let s1 := s.applyWrite (CE_CTLl l) v
  let st := s.f (CE_STATUSl.STATE l)
  if (CE_CTLl.RUN l).of v = 0 then
    (if st = 0 then (s1.setF (CE_STATUSl.STATE l) 1).modEngine l (fun e => { e with haltAt := s.leaf, runHeld := false })
    else if st = 1 then s1.modEngine l (fun e => { e with runHeld := false })
    else s1)
  else if st = 2 then s1.restartEngine l
  else if st = 1 then s1.modEngine l (fun e => { e with runHeld := true })
  else s1

/-- Nothing remains outstanding: a HALTING engine is HALTED (R388). -/
def State.haltedNow (s : State) (l : Nat) : State :=
  let quiet := (s.engine l).async.all (fun e => e.2.isNone) && (s.cmdsOfEngine l).all (fun m => (s.liveReqs m.2.seq).isEmpty)
  if s.f (CE_STATUSl.STATE l) = 1 ∧ quiet = true then
    let s1 := s.setF (CE_STATUSl.STATE l) 2
    if (s.engine l).runHeld then s1.restartEngine l else s1
  else s

/-- A write to CE_PROGl (R368). -/
def State.actEngineProg (l : Nat) (v : Word) (s : State) : State :=
  if s.f (CE_STATUSl.STATE l) = 2 then (s.applyWrite (CE_PROGl l) v).modEngine l (fun e => { e with loaded := true })
  else s.raise CE_ALARM.LOAD_REFUSED

/-- What an offset of block CE in an engine-memory window reaches (R539): the die, the offset in its window, the logical engine, and the
offset within the engine's 256 KiB. -/
def engineWindow (off : Nat) : Option (Nat × Nat × Nat × Nat) :=
  if 0x4000000 ≤ off ∧ off < 0x8000000 then
    let die := off / 0x2000000 - 2
    let o := off % 0x2000000
    some (die, o, die * 128 + o / 0x40000, o % 0x40000)
  else none

/-- A write to an engine-memory window that its guard lets through (R368). -/
def State.writeEngineMemory (s : State) (l o size : Nat) (v : Word) : State :=
  if s.f (CE_STATUSl.STATE l) ≠ 2 then s.raise CE_ALARM.LOAD_REFUSED
  else if o < 0x10000 then
    s.modEngine l (fun e => { e with
      loaded := true
      imem := (List.range (size / 4)).foldl (fun t k => t.set none (o / 4 + k) (some ((v >>> (32 * k)).setWidth 32))) e.imem })
  else if 0x20000 ≤ o then
    s.modEngine l (fun e => { e with
      dmem := (List.range size).foldl (fun t k => t.set 0 (o - 0x20000 + k) ((v >>> (8 * k)).setWidth 8)) e.dmem })
  else s

/-- A set-up write to an engine-memory window (R246, R368, R536, R539). -/
def State.engineMemoryWrite (s : State) (who : Requester) (off size : Nat) (v : Word) : State :=
  match engineWindow off with
  | none => s
  | some (die, o, l, k) =>
    let world := decide (who = .endpaper)
    if s.deadDies.contains die then s
    else if ¬(size = 4 ∨ size = 8) ∨ off % size ≠ 0 then (s.raise SVC_ALARM.BAD_ACCESS).captureBad (9 * 0x10000000 + off)
    else if s.locked who 9 then (s.raise SVC_ALARM.LOCKED_WRITE).captureBad (9 * 0x10000000 + off)
    else if decide (who ≠ .serviceEngine) && s.guardRefuses (5 + die) o world true then s.refuse (5 + die) o world true
    else s.writeEngineMemory l k size v

/-- A set-up read of an engine-memory window: zero while the engine is not HALTED (R368). None: its guard refuses it, or its
die has stopped (R530). -/
def State.engineMemoryRead (s : State) (who : Requester) (off size : Nat) : State × Option Nat :=
  match engineWindow off with
  | none => (s, some 0)
  | some (die, o, l, k) =>
    let world := decide (who = .endpaper)
    let e := s.engine l
    if s.deadDies.contains die then (s, none)
    else if decide (who ≠ .serviceEngine) && s.guardRefuses (5 + die) o world false then (s.refuse (5 + die) o world false, none)
    else if s.f (CE_STATUSl.STATE l) ≠ 2 then (s, some 0)
    else if k < 0x10000 then
      (s, some (((e.word (k / 4)).toNat + (if k / 4 < 16383 then (e.word (k / 4 + 1)).toNat else 0) * 2 ^ 32) / 2 ^ (8 * (k % 4)) % 2 ^ (8 * size)))
    else if 0x20000 ≤ k then (s, some (e.loadData (k - 0x20000) size))
    else (s, some 0)

/-- The fault of an engine that does nothing for too long (R388, R391). -/
def State.haltHung (s : State) (l : Nat) : State :=
  if s.f (CE_STATUSl.STATE l) = 1 then
    (s.untilLeaf ((s.engine l).haltAt + 2049)).hardwareFault (s.f (CE_STATUSl.PHYS l)) 6
  else s

/-- No instruction has issued for WDOG × 65,536 cycles (R391). -/
def State.watchdog (s : State) (l : Nat) : State :=
  if s.engineRuns l && !(s.engine l).waiting then s.hardwareFault (s.f (CE_STATUSl.PHYS l)) 4 else s

/-- RD_TAKE of an engine that runs the standard channel program, which takes each decision before a request (R326): the queue's next request is its
beat. -/
def State.standardTake (s : State) (l : Nat) : State :=
  let e := s.engine l
  if s.takesEvents l && e.rdNext.getLsbD 31 then
    s.modEngine l (fun e => { e with rdNext := 0, taken := some (e.rdNext.toNat % 16384), beat := some (e.rdNext.toNat % 16384) })
  else s

end Sys2Proof.Machine
end

