-- ==== Sys2Proof/Machine/Ports.lean ====
section
/-! DEFINITION. Ports and root ports (chapter Ports, Lanes and Root Ports, R413 to R416, R420 to R436, R582): training and back-off,
link-up, Recovery and loss of a link, containment, error messages, requests from adapters, and the switch of a port's
configuration. -/

namespace Sys2Proof.Machine

open Sys2Proof

/-! ### A port's state -/

/-- What port p knows beside its registers. -/
def State.port (s : State) (p : Nat) : Port := s.ports.get {} p

/-- The STATE of port p: 0 DISABLED, 1 DETECT, 2 TRAINING, 3 BACKOFF, 4 LINK_UP, 5 RECOVERY, 6 LOOPBACK, 7 CONTAINED. -/
def State.portState (s : State) (p : Nat) : Nat := s.f (PRT_Pp_STATUS.STATE p)

/-- Set a field of STATUS in every member of a merged port. -/
def State.setMembers (s : State) (p : Nat) (fld : Nat → Fld) (v : Nat) : State :=
  (s.portMembers p).foldl (fun a m => a.setF (fld m) v) s

/-- Set the STATE of a merged port. -/
def State.setPortState (s : State) (p st : Nat) : State := s.setMembers p PRT_Pp_STATUS.STATE st

/-- Whether port p is a lead port in a mode that trains a link of PCI Express (R413, R427). -/
def State.trains (s : State) (p : Nat) : Bool :=
  let m := s.f (PRT_Pp_CFG.MODE p)
  decide (s.leadPort p = p) && (decide (m = 1 ∨ m = 3) || (decide (m = 4) && decide ((s.port p).depth = 2)))

/-- What waited for the host goes on, where its memory may be reached again (R282, R465): records, data of answers, and posted writes of the
engines. -/
def State.resumeHost (s : State) : State :=
  let s1 := (List.range 256).foldl (fun a i =>
    if (a.instFunc i).isSome && a.hostOpen i then
      (List.range 64).foldl (fun b j => if (b.queue (64 * i + j)).out.isEmpty then b else b.flushRecords (64 * i + j)) a
    else a) s
  (s1.engines.foldl (fun a (e : Nat × Engine) => a.sendPosted e.1) s1).landKept

/-- The endpoint's registers follow the link of a group's port. -/
def State.portShown (s : State) (p : Nat) : State :=
  if s.f (PRT_Pp_CFG.MODE p) = 3 then
    (if s.portState p = 4 then s.showEndpoint.resumeHost else (s.modGroup (p / 64) (fun g => { g with idle := 0 })).showEndpoint)
  else s

/-- Whether port p is in link-up (R582). -/
def State.portUp (s : State) (p : Nat) : Bool := decide (s.portState p = 4 ∨ s.portState p = 5)

/-- A port enters Detect (R427). -/
def State.detect (s : State) (p : Nat) : State :=
  let s1 := if (s.port p).everUp then s.incF (PRT_Pp_COUNTS.RETRAINS p) else s
  (s1.setPortState p 1).modPort p (fun x => { x with since := s.leaf })

/-- The width code that a port's enabled lanes allow: the widest aligned block of its lanes without a disabled one; none where every
lane is disabled (R419). -/
def State.widthLeft (s : State) (p : Nat) : Option Nat :=
  let n := 2 ^ s.f (PRT_Pp_CFG.WIDTH p)
  let bad (k : Nat) : Bool := (s.f (PRT_Gj_LANES.DISABLED ((2 * p + k) / 8))).testBit ((2 * p + k) % 8)
  [4, 3, 2, 1, 0].find? (fun w => decide (2 ^ w ≤ n) &&
    (List.range (n / 2 ^ w)).any (fun b => (List.range (2 ^ w)).all (fun k => !bad (b * 2 ^ w + k))))

/-- What the link has negotiated, and the flags of a link below its configuration (R416). -/
def State.negotiated (s : State) (p gen w : Nat) : State :=
  let g := min gen (s.f (PRT_Pp_CFG.MAXGEN p))
  let v := min (min w (s.f (PRT_Pp_CFG.WIDTH p))) ((s.widthLeft p).getD 0)
  let s1 := (s.setMembers p PRT_Pp_STATUS.GEN g).setMembers p PRT_Pp_STATUS.NWIDTH v
  (s1.raiseIf (decide (g < s.f (PRT_Pp_CFG.MAXGEN p))) PRT_ALARM.SPEED_DEGRADED).raiseIf
    (decide (v < s.f (PRT_Pp_CFG.WIDTH p))) PRT_ALARM.WIDTH_DEGRADED

/-- The commands whose next read waits for port p go on. -/
def State.releasePort (s : State) (p : Nat) : State :=
  let mine := s.journal.filterMap (fun (e : Nat × Option JEntry) => e.2.bind (fun j =>
    if j.left = true ∧ j.out.isNone = true ∧
        (j.desc.elim false (fun d => decide (dTarget d ≠ 0 ∧ s.f (CSS_SIi_TGTt_PATHp.PORT (instOf j.queue) (dTarget d) j.path) = p))) = true
    then some (e.1, j) else none))
  (sortCmds mine).foldl (fun a m => a.settle m.1) s

/-! ### Link-up and its loss (R426, R427, R582) -/

/-- The link reaches L0 after training: link-up begins, the extension's credits are 16, and header reads that waited are made. -/
def State.linkUp (s : State) (p gen w : Nat) : State :=
  if s.trains p && decide (s.portState p = 1 ∨ s.portState p = 2) && (s.widthLeft p).isSome &&
      !(decide (s.f (PRT_Pp_CFG.MODE p) = 3) && (s.group (p / 64)).perst) then
    let s1 := ((s.negotiated p gen w).setMembers p PRT_Pp_STATUS.PRESENT 1).setMembers p PRT_Pp_STATUS.BACKOFF_K 0
    let s2 := s1.setPortState p (if s.f (PRT_Pp_CFG.MODE p) = 4 then 6 else 4)
    let late := (s.port p).msgs
    let s3 := { s2 with extCredit := s2.extCredit.set 0 p 16 }.modPort p (fun x => { x with everUp := true, found := true, msgs := [] })
    (late.foldl (fun a m => a.errorReport p (if s.leaf ≤ m.1 + s.f CSS_CTL.AFTER_WINDOW then m.2 else none)) s3).portShown p
  else s

/-- The engines that serve enabled queues of an instance. -/
def State.enginesOf (s : State) (i : Nat) : List Nat :=
  ((List.range 64).filter (fun j => decide (s.qState (64 * i + j) ≠ 0))).foldl (fun acc j =>
    let l := s.engineOf (64 * i + j)
    if acc.contains l then acc else acc ++ [l]) []

/-- Event line 0 of the engines that serve a queue with a path on the port (R383). -/
def State.portLines (s : State) (p : Nat) : State :=
  let ls := (s.pathsOf p).foldl (fun acc x => (s.enginesOf x.1).foldl (fun acc l => if acc.contains l then acc else acc ++ [l]) acc) []
  ls.foldl (fun a l => a.raiseLine l 0) s

/-- A port leaves link-up with a DETAIL of R286; `st` is the STATE that follows. -/
def State.leaveLink (s : State) (p detail st : Nat) : State :=
  let s1 := ((s.setMembers p PRT_Pp_STATUS.GEN 0).setMembers p PRT_Pp_STATUS.NWIDTH 0).raise PRT_ALARM.LINK_DOWN
  let s2 := if st = 1 then s1.detect p else (s1.setPortState p st).modPort p (fun x => { x with since := s.leaf })
  let s3 := ((((s2.unpost (.retrain p)).cutFrames p).failPort p detail).portLines p).portShown p
  s3.raiseIf (decide (s.f (PRT_Pp_CFG.MODE p) = 3 ∧ p = groupLead s.activeGroup)) AEP_ALARM.LINK_DOWN

/-- Whether a loss of link-up triggers DPC. -/
def State.contains (s : State) (p : Nat) : Bool := decide (s.f (PRT_Pp_CFG.MODE p) = 1) && s.on (PRT_Pp_CFG.DPC p)

/-- A link leaves link-up (R426). -/
def State.linkDown (s : State) (p : Nat) (loss : LinkLoss) : State :=
  if s.trains p && s.portUp p then
    match loss with
    | .receivers => (s.setMembers p PRT_Pp_STATUS.PRESENT 1).leaveLink p 1 1
    | .absent => (s.setMembers p PRT_Pp_STATUS.PRESENT 0).leaveLink p 3 1
    | .surprise => (s.setMembers p PRT_Pp_STATUS.PRESENT 0).leaveLink p 3 (if s.contains p then 7 else 1)
  else s

/-- A port enters Recovery; a posted retrain event is dropped (R429, R582). -/
def State.enterRecovery (s : State) (p : Nat) : State :=
  if s.trains p && decide (s.portState p = 4) then
    (((s.setPortState p 5).incF (PRT_Pp_COUNTS.RETRAINS p)).unpost (.retrain p)).portShown p
  else s

/-- Recovery ends in L0: requests that were held go on (R582). -/
def State.leaveRecovery (s : State) (p gen w : Nat) : State :=
  if s.trains p && decide (s.portState p = 5) then (((s.negotiated p gen w).setPortState p 4).releasePort p).portShown p else s

/-- DPC releases the link after 10 leaves (R426). -/
def State.dpcRelease (s : State) (p : Nat) : State :=
  if s.portState p = 7 then (s.untilLeaf ((s.port p).since + 10)).detect p else s

/-! ### Failed attempts and back-off (R427, R428) -/

/-- A training attempt fails at a leaf: with a receiver found, 100 ms after Detect. -/
def State.trainingFails (s : State) (p : Nat) (found : Bool) (l : Nat) : State :=
  if s.trains p && decide (s.portState p = 1 ∨ s.portState p = 2) then
    let s1 := s.untilLeaf (if found then (s.port p).since + 100000 else l)
    let n := s1.f (PRT_Pp_STATUS.BACKOFF_K p) + 1
    let s2 := ((s1.setMembers p PRT_Pp_STATUS.BACKOFF_K (min n 15)).setMembers p PRT_Pp_STATUS.PRESENT (if found then 1 else 0)).setPortState p 3
    (s2.modPort p (fun x => { x with since := s1.leaf, found := found })).raiseIf (decide (n = 3)) PRT_ALARM.TRAIN_FAIL
  else s

/-- The wait of 2^k gatherings ends. -/
def State.backoffEnd (s : State) (p : Nat) : State :=
  if s.portState p = 3 then
    let k := min (s.f (PRT_Pp_STATUS.BACKOFF_K p) - 1) (s.f PRT_CTL.BACKOFF_MAX)
    (s.untilLeaf ((s.port p).since + 1024 * 2 ^ k)).detect p
  else s

/-- Receiver detection finds a receiver where the last attempt found none. -/
def State.backoffDetect (s : State) (p : Nat) : State :=
  if s.portState p = 3 ∧ (s.port p).found = false then
    ((s.setMembers p PRT_Pp_STATUS.BACKOFF_K 0).setMembers p PRT_Pp_STATUS.PRESENT 1).detect p
  else s

/-! ### Messages and requests from the partner (R423 to R425, R434) -/

/-- An error message of an adapter (R425): `sev` 0 ERR_COR, 1 ERR_NONFATAL, 2 ERR_FATAL; `hdr` is the address in the memory-request
header that the AER log gives. -/
def State.errorMessage (s : State) (p sev : Nat) (hdr : Option Nat) : State :=
  if s.rootUp p then
    let s1 := s.incF (PRT_Pp_STATUS.ERR_MSGS p)
    if sev = 0 then s1
    else if sev = 2 ∧ s.contains p = true then
      (s1.modPort p (fun x => { x with msgs := x.msgs ++ [(s.leaf, hdr)] })).leaveLink p 1 7
    else s1.errorReport p hdr
  else s

/-- A request of an adapter outside the apertures (R424). -/
def State.inboundUr (s : State) (p : Nat) (posted : Bool) : State :=
  if s.rootUp p then
    let s1 := (s.incF (PRT_Pp_COUNTS.INBOUND_UR p)).raise PRT_ALARM.INBOUND_UR
    if posted then s1 else s1.emit (.unsupported p)
  else s

/-- A completion timeout of a request of a channel engine: its tag is freed, and it stays unanswered (R423). -/
def State.completionTimeout (s : State) (id : Nat) : State :=
  match s.reqs.find? (fun r => decide (r.id = id)) with
  | none => s
  | some r =>
    if r.write || r.freed then s
    else
      let s1 := s.untilLeaf (r.leaf + 1024 * s.f PRT_CTL.CTO)
      { s1 with reqs := s1.reqs.map (fun x => if x.id = id then { x with freed := true } else x) }

/-- A credit write that R434 refuses. -/
def State.creditError (s : State) (p : Nat) : State := (s.incF (PRT_Pp_COUNTS.FRAME_ERR p)).raise PRT_ALARM.FRAME_ERR

/-- Customer logic returns credits (R434): those above 16 are dropped and counted. -/
def State.creditReturn (s : State) (p : Nat) (v : BitVec 32) : State :=
  if s.rootUp p then
    let n := v.toNat % 32
    let c := s.extCredit.get 0 p + n
    if n = 0 ∨ 16 < n then s.creditError p
    else
      let s1 := { s with extCredit := s.extCredit.set 0 p (min c 16) }
      if 16 < c then s1.creditError p else s1
  else s

/-- Customer logic signals (R434): event line 6 of every engine with EXT_EN and this EXT_PORT. -/
def State.extSignal (s : State) (p : Nat) : State :=
  if s.rootUp p then
    (List.range 256).foldl (fun a l =>
      if s.on (CE_CTLl.EXT_EN l) && decide (s.f (CE_CTLl.EXT_PORT l) = p) then a.raiseLine l 6 else a) s
  else s

/-! ### Registers of a port -/

/-- A write to PRT_Pp_CMD: RETRAIN posts a retrain event for leaf L + 2 (R429). -/
def State.actPortCmd (p : Nat) (v : Word) (s : State) : State :=
  let k := s.leadPort p
  if (PRT_Pp_CMD.RETRAIN p).of v = 1 ∧ s.portUp k = true ∧ (s.postedEvent (.retrain k)).isNone = true then s.post (s.leaf + 2) (.retrain k) else s

/-- A write to PRT_Pp_LOOP: a change of DEPTH waits for a mode change (R436). -/
def State.actPortLoop (p : Nat) (v : Word) (s : State) : State :=
  let s1 := s.applyWrite (PRT_Pp_LOOP p) v
  if (PRT_Pp_LOOP.DEPTH p).of v = (s.port p).depth then s1.clearDirty (PRT_Pp_LOOP p) else s1.markDirty (PRT_Pp_LOOP p)

/-- Whether a FRAME move or an extension access to a port is outstanding (R430, R434). -/
def State.portMoving (s : State) (p : Nat) : Bool :=
  s.engines.any (fun (e : Nat × Engine) => e.2.async.any (fun a => match a.2 with
    | some (.move _ dst _ mode _ _ _ _) => mode.testBit 4 && decide (dst < 0x1000000) && decide (s.leadPort (dst / 0x20000) = p)
    | some (.extRead _) => decide (s.f (CE_CTLl.EXT_PORT e.1) = p)
    | _ => false))

/-- A write to TXBASE or EXT_BASE. -/
def State.actPortBase (p k : Nat) (v : Word) (s : State) : State :=
  let s1 := s.applyWrite k v
  if s.portMoving p && decide (s1.reg k ≠ s.reg k) then s.raise PRT_ALARM.CFG_ERR else s1

/-! ### The switch of a port's configuration (R416, R436) -/

/-- Whether a shadow obeys R413 and R414, with the shadows of its merged port. -/
def State.portShadowOk (s : State) (p : Nat) : Bool :=
  let sh (m : Nat) : Word := s.reg (PRT_Pp_CFG_SHADOW m)
  let mode (m : Nat) : Nat := (PRT_Pp_CFG_SHADOW.MODE m).of (sh m)
  let w (m : Nat) : Nat := (PRT_Pp_CFG_SHADOW.WIDTH m).of (sh m)
  let same (lo n : Nat) : Bool := (List.range n).all (fun j => decide (sh (lo + j) = sh p))
  let ends := decide (p < 8 ∨ (64 ≤ p ∧ p < 72))
  let endpoint := decide (mode p = 3)
  (match mode p with
  | 1 => same (p - p % 2 ^ (w p - 1)) (2 ^ (w p - 1))
  | 2 => decide (w p = 3)
  | 3 => decide (w p = 4) && ends && (decide (p < 8) || (List.range 8).all (fun j => decide (mode j = 3)))
  | _ => true) &&
    (!ends || (List.range 8).all (fun j => decide (mode (p / 8 * 8 + j) = 3) == endpoint)) &&
    (endpoint || !decide (64 ≤ p ∧ p < 72) || !s.standby) &&
    (endpoint || !decide (p < 8) || (List.range 8).all (fun j => decide (mode (64 + j) ≠ 3))) &&
    (List.range 4).all (fun j => decide (mode (p / 4 * 4 + j) = 2) == decide (mode p = 2)) &&
    (List.range 8).all (fun j =>
      let m := p / 8 * 8 + j
      !decide (mode m = 1 ∧ m / 2 ^ (w m - 1) = p / 2 ^ (w m - 1)) || decide (sh m = sh p))

/-- The ports that a mode change of PRT changes: those whose shadow differs, and those whose loop-back depth waits. -/
def State.portParticipants (s : State) : List Nat :=
  (List.range 128).filter (fun p => decide (s.reg (PRT_Pp_CFG p) ≠ s.reg (PRT_Pp_CFG_SHADOW p)) || s.dirty.contains (PRT_Pp_LOOP p))

/-- The links of merged ports end whose mode, width or member set changes, with the DETAIL of R426. -/
def State.endOldLinks (s : State) (ps : List Nat) : State :=
  ps.foldl (fun a p =>
    let cfg := s.reg (PRT_Pp_CFG p)
    let sh := s.reg (PRT_Pp_CFG_SHADOW p)
    let mode := (PRT_Pp_CFG.MODE p).of sh
    let w := (PRT_Pp_CFG.WIDTH p).of sh
    if s.leadPort p = p ∧ (mode ≠ (PRT_Pp_CFG.MODE p).of cfg ∨ w ≠ (PRT_Pp_CFG.WIDTH p).of cfg) then
      let lead := decide (mode = 1) && decide (p % 2 ^ (w - 1) = 0)
      let detail := if lead then 1 else 2
      if a.portUp p then a.leaveLink p detail 0 else if lead then a.setPortState p 0 else (a.setPortState p 0).failPort p detail
    else a) s

/-- The ports take their new configuration at T. -/
def State.takePortCfg (s : State) (ps : List Nat) : State :=
  ps.foldl (fun a p => a.setReg (PRT_Pp_CFG p) (s.reg (PRT_Pp_CFG_SHADOW p))) s

/-- What a port does with its new configuration: it trains afresh, enters Recovery for a new rate, or goes on. -/
def State.startNewLink (old : State) (s : State) (p : Nat) : State :=
  let changed := decide (s.f (PRT_Pp_CFG.MODE p) ≠ old.f (PRT_Pp_CFG.MODE p) ∨ s.f (PRT_Pp_CFG.WIDTH p) ≠ old.f (PRT_Pp_CFG.WIDTH p)) ||
    old.dirty.contains (PRT_Pp_LOOP p)
  let s0 := s.clearDirty (PRT_Pp_LOOP p)
  let s1 := if changed then (s0.modPort p (fun x => { x with depth := s.f (PRT_Pp_LOOP.DEPTH p) })).setF (PRT_Pp_LOOP.ERRS p) 0 else s0
  if changed then
    (if s1.f (PRT_Pp_CFG.MODE p) = 4 then
      (if (s1.port p).depth = 2 then s1.detect p else s1.setPortState p 6)
    else if s1.trains p then s1.detect p
    else if s1.leadPort p = p then s1.setPortState p 0 else s1)
  else if s1.f (PRT_Pp_CFG.MAXGEN p) ≠ old.f (PRT_Pp_CFG.MAXGEN p) then s1.enterRecovery p
  else s1

/-- The ports switch at T (R416); the requests that they held are released. -/
def State.switchPorts (s : State) (ps : List Nat) : State :=
  let s1 := (s.endOldLinks ps).takePortCfg ps
  let s2 := ps.foldl (fun a p => a.startNewLink s p) s1
  ps.foldl (fun a p => if a.portState p = 4 then a.releasePort p else a) s2

/-! ### The commands -/

/-- LINK_UP. -/
def execLinkUp (p gen w : Nat) (s : State) : Host.Outcome State Fault Refusal := .next (s.running (s.linkUp p gen w))

/-- LINK_DOWN. -/
def execLinkDown (p : Nat) (loss : LinkLoss) (s : State) : Host.Outcome State Fault Refusal := .next (s.running (s.linkDown p loss))

/-- RECOVERY. -/
def execRecovery (p : Nat) (s : State) : Host.Outcome State Fault Refusal := .next (s.running (s.enterRecovery p))

/-- RECOVERY_END. -/
def execRecoveryEnd (p gen w : Nat) (s : State) : Host.Outcome State Fault Refusal := .next (s.running (s.leaveRecovery p gen w))

/-- COMPLETION_TIMEOUT. -/
def execCompletionTimeout (id : Nat) (s : State) : Host.Outcome State Fault Refusal := .next (s.running (s.completionTimeout id))

/-- INBOUND_UR. -/
def execInboundUr (p : Nat) (posted : Bool) (s : State) : Host.Outcome State Fault Refusal := .next (s.running (s.inboundUr p posted))

/-- ERROR_MESSAGE. -/
def execErrorMessage (p sev : Nat) (hdr : Option Nat) (s : State) : Host.Outcome State Fault Refusal :=
  .next (s.running (s.errorMessage p sev hdr))

/-- DPC_RELEASE. -/
def execDpcRelease (p : Nat) (s : State) : Host.Outcome State Fault Refusal := .next (s.running (s.dpcRelease p))

/-- TRAINING_FAILURE. -/
def execTrainingFailure (p : Nat) (found : Bool) (l : Nat) (s : State) : Host.Outcome State Fault Refusal :=
  .next (s.running (s.trainingFails p found l))

/-- BACKOFF_END. -/
def execBackoffEnd (p : Nat) (s : State) : Host.Outcome State Fault Refusal := .next (s.running (s.backoffEnd p))

/-- BACKOFF_DETECTION. -/
def execBackoffDetection (p : Nat) (s : State) : Host.Outcome State Fault Refusal := .next (s.running (s.backoffDetect p))

/-- RETRAIN: PRT_Pp_CMD written with RETRAIN = 1. -/
def execRetrain (who : Requester) (p : Nat) (s : State) : Host.Outcome State Fault Refusal :=
  .next (s.running (s.written who 8 (PRT_Pp_CMD p) 1 (fun a => a.actPortCmd p 1)))

/-- RETRAIN_EVENT. -/
def execRetrainEvent (p : Nat) (s : State) : Host.Outcome State Fault Refusal :=
  .next (s.running (s.fire (.retrain p) (fun a => a.enterRecovery p)))

/-- CREDIT_RETURN. -/
def execCreditReturn (p : Nat) (v : BitVec 32) (s : State) : Host.Outcome State Fault Refusal := .next (s.running (s.creditReturn p v))

/-- EXTENSION_SIGNAL. -/
def execExtensionSignal (p : Nat) (s : State) : Host.Outcome State Fault Refusal := .next (s.running (s.extSignal p))

end Sys2Proof.Machine
end

