-- ==== Sys2Proof/Machine/Aep.lean ====
section
/-! DEFINITION. The attach endpoint (chapter The Attach Endpoint, R454 to R472): the host's accesses to the BARs, function resets,
bus-master withdrawal, power states and wake, INTx, and the standby group. -/

namespace Sys2Proof.Machine

open Sys2Proof

/-! ### Functions -/

/-- The instance that VFn is bound to (R316). -/
def State.instanceOf (s : State) (n : Nat) : Option Nat := (List.range 256).find? (fun i => decide (s.instFunc i = some n))

/-- The VFs that exist (R456). -/
def State.existing (s : State) : List Nat := ((List.range 255).map (· + 1)).filter (fun n => s.on (AEP_VFn_STATUS.EXISTS n))

/-- The VFs that the host's two registers name in a group. -/
def EpGroup.named (g : EpGroup) (n : Nat) : Bool := g.vfEn && decide (n ≤ g.numVfs)

/-- A reset of VFn (R463), on the active group; one of the standby group resets its configuration only (R464). -/
def State.vfReset (s : State) (g n : Nat) : State :=
  if g ≠ s.activeGroup then s.modVf g n (fun _ => {})
  else
    let s1 := s.raise AEP_ALARM.FLR
    match s.instanceOf n with
    | none => s1.modVf g n (fun _ => {})
    | some i => (s1.setF (AEP_VFn_STATUS.FLR n) 1).requestReset i false

/-- PF0's configuration takes its reset values, but for the power-management bits that Aux power keeps (R466). -/
def State.pf0Reset (s : State) (g : Nat) : State :=
  (s.modVf g 0 (fun _ => {})).modGroup g (fun x => {
    perst := x.perst, wake := x.wake, pmeEn := x.pmeEn, pmeStatus := x.pmeStatus,
    pmeAt := x.pmeAt, leftL0 := x.leftL0, aspm := if s.forerunner then 3 else 0 })

/-- Every VF of a group that exists is reset in one leaf (R464). -/
def State.resetVfs (s : State) (g : Nat) (p : Nat → Bool) : State :=
  (((List.range 255).map (· + 1)).filter (fun n => (s.group g).named n && p n)).foldl (fun a n => a.vfReset g n) s

/-- An FLR of PF0. -/
def State.pf0Flr (s : State) (g : Nat) : State := ((s.resetVfs g (fun _ => true)).pf0Reset g).showEndpoint.updateIntx

/-- The host writes VF Enable: clearing it resets every VF. -/
def State.writeVfEn (s : State) (g : Nat) (en : Bool) : State :=
  let s1 := if en then s else s.resetVfs g (fun _ => true)
  (s1.modGroup g (fun x => { x with vfEn := en })).showEndpoint.resumeHost

/-- The host writes NumVFs: the VFs above a lower value are reset. -/
def State.writeNumVfs (s : State) (g n : Nat) : State :=
  ((s.resetVfs g (fun k => decide (n < k))).modGroup g (fun x => { x with numVfs := n })).showEndpoint.resumeHost

/-- A conventional reset of a group (R464): PERST# (with main power removed, D3cold), Hot Reset or Link Disable. -/
def State.conventional (s : State) (g : Nat) (perst cold : Bool) : State :=
  let s1 := ((s.resetVfs g (fun _ => true)).pf0Reset g).modGroup g (fun x => { x with
    perst := x.perst || perst, dstate := if perst && cold then 2 else 0 })
  let s2 := if g ≠ s.activeGroup then { s1 with vfs := s1.vfs.filter (fun (e : Nat × VfCfg) => decide (e.1 / 256 ≠ g)) } else s1
  let s3 := if s2.trains (groupLead g) && s2.portUp (groupLead g) then s2.leaveLink (groupLead g) 1 1 else s2
  s3.showEndpoint.updateIntx

/-- PERST# of a group is deasserted: WAKE# is released, and PF0 is in D0 again. -/
def State.perstOff (s : State) (g : Nat) : State :=
  if (s.group g).perst then (s.modGroup g (fun x => { x with perst := false, wake := false, dstate := 0 })).showEndpoint else s

/-! ### Bus-master withdrawal and power states (R465, R466) -/

/-- The host clears Bus Master Enable of VFn. -/
def State.clearBme (s : State) (g n : Nat) : State :=
  ((s.modVf g n (fun x => { x with bme := false })).raiseIf (decide (g = s.activeGroup) && (s.vf g n).bme) AEP_ALARM.BME_HELD).showEndpoint.restTimers (fun _ => true)

/-- The host sets Bus Master Enable of VFn: what was held goes on. -/
def State.setBme (s : State) (g n : Nat) : State := (s.modVf g n (fun x => { x with bme := true })).showEndpoint.resumeHost

/-- The host writes PF0's power-management register: D3hot, with PME_En. Every VF is held as if its bus mastering were withdrawn. -/
def State.enterD3 (s : State) (g : Nat) (pmeEn : Bool) : State :=
  (s.modGroup g (fun x => { x with dstate := 3, pmeEn := pmeEn })).showEndpoint.restTimers (fun _ => true)

/-- The host writes PF0's power-management register: D0, with PME_En, and a one to PME_Status where `clear`. Nothing is reset. -/
def State.enterD0 (s : State) (g : Nat) (pmeEn clear : Bool) : State :=
  if (s.group g).dstate = 3 ∨ (s.group g).dstate = 0 then
    (s.modGroup g (fun x => { x with dstate := 0, pmeEn := pmeEn, pmeStatus := x.pmeStatus && !clear })).showEndpoint.resumeHost.updateIntx
  else s

/-! ### Wake (R467) -/

/-- What a wake event does. -/
def State.wakeUp (s : State) : State :=
  let a := s.activeGroup
  let g := s.group a
  if g.pmeEn && decide (g.dstate = 3) then
    ((s.emit (.epMessage a 0)).modGroup a (fun x => { x with pmeStatus := true, pmeAt := s.leaf })).raise AEP_ALARM.WAKE_SENT
  else if g.pmeEn && decide (g.dstate = 2) then (s.modGroup a (fun x => { x with wake := true })).raise AEP_ALARM.WAKE_SENT
  else s

/-- Whether a record is held for host memory while PF0 is in D3hot, or a frame is complete for a FUNCTION instance. -/
def State.wakeDue (s : State) (frame : Bool) : Bool :=
  if frame then s.frames.any (fun f => f.closed.elim false (fun c => decide (s.f (CSS_SIi_BIND.KIND (instOf c.2.1)) = 2)))
  else decide ((s.group s.activeGroup).dstate = 3) && s.queues.any (fun (e : Nat × Queue) =>
    !e.2.out.isEmpty && s.on (CSS_Qq_CQBASE.HOST e.1) && (s.instFunc (instOf e.1)).isSome)

/-- PM_PME is sent again every 100 ms while PME_Status stays set. -/
def State.pmeAgain (s : State) : State :=
  let a := s.activeGroup
  let g := s.group a
  if g.pmeStatus && decide (g.dstate = 3) then
    let s1 := s.untilLeaf (g.pmeAt + 100000)
    (s1.emit (.epMessage a 0)).modGroup a (fun x => { x with pmeAt := s1.leaf })
  else s

/-! ### Idle states (R468) -/

/-- The link enters L0s (non-flit mode) or L1, which PF0's D3hot requires (R466). -/
def State.linkIdle (s : State) (g st l : Nat) (flit : Bool) : State :=
  let x := s.group g
  let allowed := if st = 1 then decide (x.aspm % 2 = 1) && !flit else decide (x.aspm / 2 % 2 = 1) || decide (x.dstate = 3)
  if s.groupL0 g && allowed then ((s.untilLeaf l).modGroup g (fun y => { y with idle := st })).showEndpoint else s

/-! ### INTx (R469) -/

/-- The host clears INTX_PEND bits. -/
def State.clearIntx (s : State) (v : BitVec 256) : State :=
  if s.forerunner then { s with intxPend := s.intxPend &&& ~~~ v }.updateIntx else s

/-- The host writes Interrupt Disable. -/
def State.writeIntOff (s : State) (g : Nat) (v : Bool) : State := (s.modGroup g (fun x => { x with intOff := v })).updateIntx

/-! ### The standby group (R470 to R472) -/

/-- Steps 1 to 4 of a failover at leaf F. -/
def State.exchange (s : State) (f : Nat) : State :=
  let b := 1 - s.activeGroup
  let s1 := (s.restTimers (fun e => (s.instFunc (instOf e.queue)).isSome)).untilLeaf (f + 1)
  let s2 := ((List.range 255).map (· + 1)).foldl (fun a n =>
    match a.instanceOf n with
    | none => a
    | some i => if (a.group b).named n then a else ((a.raise AEP_ALARM.FLR).setF (AEP_VFn_STATUS.FLR n) 1).requestReset i false) s1
  ((((s2.untilLeaf (f + 2)).setF AEP_STATUS.ACTIVE b).raise AEP_ALARM.FAILOVER).showEndpoint.resumeHost).updateIntx

/-- A failover (R471): the active group's link is down, or it has been out of L0 for FO_WAIT leaves. -/
def State.failover (s : State) (f : Nat) (waited : Bool) : State :=
  let a := s.activeGroup
  let due := if waited then !s.groupL0 a && decide ((s.group a).leftL0 + s.f AEP_CTL.FO_WAIT ≤ max f s.leaf) else !s.portUp (groupLead a)
  if s.standby && s.groupL0 (1 - a) && !(s.group a).perst && due then (s.untilLeaf f).exchange (max f s.leaf) else s

/-- A write to AEP_CMD: SWITCH and WAKE (R467, R472). -/
def State.actAepCmd (v : Word) (s : State) : State :=
  let s1 := if AEP_CMD.WAKE.of v = 1 then s.wakeUp else s
  if AEP_CMD.SWITCH.of v = 1 then
    (if !s1.standby || !s1.groupL0 0 || !s1.groupL0 1 || (List.range 255).any (fun n => s1.on (AEP_VFn_STATUS.FLR (n + 1))) then
      s1.raise AEP_ALARM.SWITCH_REFUSED
    else s1.exchange s1.leaf)
  else s1

/-- A write to AEP_CTL: STANDBY_EN waits for a mode change (R470). -/
def State.actAepCtl (v : Word) (s : State) : State :=
  let s1 := s.applyWrite AEP_CTL v
  if s1.on AEP_CTL.STANDBY_EN = s.standby then s1.clearDirty AEP_CTL else s1.markDirty AEP_CTL

/-- STANDBY_EN takes effect at T, while the standby group is not active. -/
def State.switchStandby (s : State) : State :=
  if s.dirty.contains AEP_CTL && decide (s.activeGroup = 0) then { s.clearDirty AEP_CTL with standby := s.on AEP_CTL.STANDBY_EN } else s

/-! ### Host completion timeouts (R462) -/

/-- A read of host memory for queue q times out: of its ring, or of a buffer or table of the command whose turn it is. -/
def State.hostTimeout (s : State) (q : Nat) (ring : Bool) : State :=
  let i := instOf q
  if (s.instFunc i).isNone then s
  else
    let s1 := s.raise AEP_ALARM.HOST_TIMEOUT
    let n := s.hostTries.get 0 i + 1
    if n ≤ s.f AEP_CTL.HRETRY then { s1 with hostTries := s1.hostTries.set 0 i n }
    else
      let s2 := { s1 with hostTries := s1.hostTries.set 0 i 0 }
      if ring then (if s2.on (CSS_Qq_SQBASE.HOST q) then s2.queueError q 3 else s2)
      else
        match s2.turn q with
        | some (k, e) => if e.desc.elim false dBhost then s2.failCmd k (0x20, 11) else s2
        | none => s2

/-! ### The host's accesses to the BARs (R456 to R459) -/

/-- A BAR access to a VF page that is discarded, and counted (R456, R459). -/
def State.barDiscard (s : State) (n : Nat) : State := s.incF (AEP_VFn_STATUS.DISCARD n)

/-- The register of queue q that a word of its queue page mirrors (R458). -/
def pageReg (q o : Nat) : Option Nat :=
  [CSS_Qq_SQBASE q, CSS_Qq_CQBASE q, CSS_Qq_CTL q, CSS_Qq_STATUS q, CSS_Qq_PTRS q, CSS_Qq_PAUSE q][o / 8]?

/-- A host write of 8 bytes to a queue page (R459). -/
def State.pageWrite (s : State) (q o : Nat) (v : Word) : State :=
  match pageReg q o with
  | none => s
  | some k =>
    if k = CSS_Qq_CTL q ∧ (CSS_Qq_CTL.ENGINE q).of v ≠ s.f (CSS_Qq_CTL.ENGINE q) then s.raise CSS_ALARM.BUSY_WRITE
    else if (k = CSS_Qq_SQBASE q ∨ k = CSS_Qq_CQBASE q) ∧ v.getLsbD 0 = false then s.raise CSS_ALARM.BUSY_WRITE
    else s.written .text 8 k v (fun a =>
      if k = CSS_Qq_CTL q then a.actQueueCtl q v
      else if k = CSS_Qq_PAUSE q then a.actPause q v
      else if k = CSS_Qq_SQBASE q ∨ k = CSS_Qq_CQBASE q then a.actQueueBase q k v
      else a.applyWrite k v)

/-- Some bytes of a word replaced. -/
def putBytes (w : Word) (o n : Nat) (v : Word) : Word :=
  (List.range n).foldl (fun a i => (a &&& ~~~ ((255#64) <<< (8 * (o + i)))) ||| (((v >>> (8 * i)) &&& 255#64) <<< (8 * (o + i)))) w

/-- A write of the host to a BAR of a function that is served: function n (0: PF0), offset, size, value. -/
def State.barWrite (s : State) (n off size : Nat) (v : Word) : State :=
  if n = 0 then
    (if 0x200 ≤ off ∧ off < 0x220 then s.clearIntx (BitVec.shiftLeft (BitVec.ofNat 256 (v.toNat % 2 ^ (8 * size))) (8 * (off - 0x200))) else s)
  else if !s.on (AEP_VFn_STATUS.EXISTS n) || s.on (AEP_VFn_STATUS.FLR n) then s
  else
    match s.instanceOf n with
    | none => s.barDiscard n
    | some i =>
      if off < 0x1000 then
        (if size = 8 ∧ off % 8 = 0 then
          (if off < 0x200 then s.doorbell (64 * i + off / 8) false v
          else if off < 0x400 then s.doorbell (64 * i + (off - 0x200) / 8) true v
          else s)
        else s.shortDoorbell (i * 4096 + off))
      else if ¬(size = 4 ∨ size = 8) ∨ off % size ≠ 0 then s.barDiscard n
      else if off / 8 * 8 = 0x1008 then
        (if s.forerunner then s.modVf s.activeGroup n (fun x => { x with irqEn := putBytes x.irqEn (off % 8) size v }) else s)
      else if 0x2000 ≤ off ∧ off < 0x3000 ∧ off % 0x40 < 0x30 then
        (if size = 8 then s.pageWrite (64 * i + (off - 0x2000) / 0x40) (off % 0x40) v else s.raise SVC_ALARM.BAD_ACCESS)
      else s

/-- The 64-bit word of PF0's BAR at an offset, through group g (R457). -/
def State.pf0Word (s : State) (g off : Nat) : Word :=
  if off = 0 then s.reg SVC_IDENT0
  else if off = 8 then
    BitVec.ofNat 64 ((if s.forerunner then 1 else 0) + (if g = s.activeGroup then 2 else 0) + (if s.groupL0 (1 - g) then 4 else 0) + (if s.standby then 8 else 0) +
      (s.f SVC_IDENT1.GRADE * 4 + s.f SVC_IDENT1.STEP) * 256)
  else if 0x100 ≤ off ∧ off < 0x200 then
    BitVec.ofNat 64 ((List.range 8).foldl (fun w k => w + (if off - 0x100 + k = 0 then 0 else (s.instanceOf (off - 0x100 + k)).getD 0) * 256 ^ k) 0)
  else if 0x200 ≤ off ∧ off < 0x220 then (s.intxPend >>> (8 * (off - 0x200))).setWidth 64
  else 0

/-- The 64-bit word of VFn's BAR at an offset, but for the report window (R458). -/
def State.vfWord (s : State) (n i off : Nat) : Word :=
  if off = 0x1000 then
    BitVec.ofNat 64 (s.f (CSS_SIi_STATUS.REPORTED i) * 2 ^ 32 + s.gen i * 256 + (if s.functionOpen n then 0 else 8) +
      s.f (CSS_SIi_STATUS.PENDING i) * 4 + s.f (CSS_SIi_STATUS.REMOVING i) * 2 + s.f (CSS_SIi_STATUS.RESETTING i))
  else if off = 0x1008 then (if s.forerunner then (s.vf s.activeGroup n).irqEn else 0)
  else if 0x2000 ≤ off ∧ off < 0x3000 then ((pageReg (64 * i + (off - 0x2000) / 0x40) (off % 0x40)).map s.reg).getD 0
  else 0

/-- Some bytes of a word, in the lowest. -/
def someBytes (w : Word) (o n : Nat) : Word := (w >>> (8 * o)) &&& BitVec.ofNat 64 (2 ^ (8 * n) - 1)

/-- Whether a function's BAR is served through a group (R456, R466, R470): PF0's of a group in use, and a VF's of the active group, while PF0 is
in D0 there. -/
def State.barServed (s : State) (g n : Nat) : Bool :=
  decide ((s.group g).dstate = 0) && !(s.group g).perst && (decide (g = s.activeGroup) || (s.standby && decide (n = 0)))

/-- A read of the host from a BAR of a function, through group g. -/
def State.barRead (s : State) (g n off size : Nat) (far : FarData) : State :=
  let ans (a : State) (v : BarAnswer) : State := a.emit (.bar n off v)
  if !s.barServed g n then ans s .unsupported
  else if n = 0 then ans s (.value (someBytes (s.pf0Word g (off / 8 * 8)) (off % 8) size))
  else if !s.on (AEP_VFn_STATUS.EXISTS n) || s.on (AEP_VFn_STATUS.FLR n) then ans s .unsupported
  else
    match s.instanceOf n with
    | none => ans s (.value 0)
    | some i =>
      if off < 0x1000 then ans s (.value 0)
      else if ¬(size = 4 ∨ size = 8) ∨ off % size ≠ 0 then ans s .unsupported
      else if 0x8000 ≤ off then
        (if !s.on (CSS_SIi_RPT.VALID i) then ans s (.value 0)
        else
          match s.sysRead 0 i false (s.f (CSS_SIi_RPT.BASE i) * 4096 + (off - 0x8000)) size far with
          | (s1, r) => ans s1 (if r.status = 0 then .value (BitVec.ofNat 64 (leNat r.bytes)) else .abort))
      else ans s (.value (someBytes (s.vfWord n i (off / 8 * 8)) (off % 8) size))

/-! ### Configuration requests (R454, R455, R463, R470) -/

/-- Whether a function has a capability (R454, R455). -/
def hasCapability (n : Nat) : Capability → Bool
  | .pcie | .aer | .readinessTime => true
  | .msi | .msix => false
  | _ => decide (n = 0)

/-- What an item of function n reads as, through group g. What only PF0 has reads as zero of a VF. -/
def State.cfgItem (s : State) (g n : Nat) (item : CfgItem) : Nat :=
  let pf := decide (n = 0)
  let x := s.group g
  let v := s.vf g n
  let pf0 (k : Nat) : Nat := if pf then k else 0
  match item with
  | .vendorId => 0x1E9B
  | .deviceId => if s.forerunner then (if pf then 0x7200 else 0x7201) else if pf then 0x9624 else 0x9625
  | .classCode => 0x088000
  | .interruptPin => if pf && s.forerunner then 1 else 0
  | .capability c => (hasCapability n c).toNat
  | .bar0Size => if pf then 16384 else 65536
  | .vfBar0Size => pf0 65536
  | .serialNumber => pf0 (s.reg SVC_IDENT0).toNat
  | .totalVfs | .initialVfs => pf0 255
  | .firstVfOffset | .vfStride => pf0 1
  | .pageSizes => pf0 1
  | .vfDeviceId => pf0 (if s.forerunner then 0x7201 else 0x9625)
  | .flrTime => 1000
  | .vfEnable => pf0 x.vfEn.toNat
  | .numVfs => pf0 x.numVfs
  | .busMaster => v.bme.toNat
  | .interruptDisable => pf0 x.intOff.toNat
  | .interruptStatus => pf0 (decide (s.intxPend ≠ 0)).toNat
  | .maxPayload => pf0 x.mps
  | .maxReadRequest => v.mrrs
  | .completionTimeout => pf0 x.timeout
  | .relaxedOrdering => v.relax.toNat
  | .aspm => pf0 x.aspm
  | .powerState => pf0 x.dstate
  | .pmeEnable => pf0 x.pmeEn.toNat
  | .pmeStatus => pf0 x.pmeStatus.toNat
  | .initiateFlr => 0

/-- What a configuration request to function n through group g is answered, `v` where it succeeds: a VF that is being reset asks for another try,
and one that does not exist is none. -/
def State.cfgAnswer (s : State) (g n v : Nat) : CfgAnswer :=
  if n ≠ 0 && !(s.group g).named n then .unsupported
  else if n ≠ 0 && decide (g = s.activeGroup) && s.on (AEP_VFn_STATUS.FLR n) then .retry
  else .value v

/-- What a write of the host to an item of function n through group g does. Items that rows of their own write take those rows' meanings; the
identity is read-only. -/
def State.cfgSet (s : State) (g n : Nat) (item : CfgItem) (v : Nat) : State :=
  let pf := decide (n = 0)
  match item with
  | .vfEnable => if pf then s.writeVfEn g (decide (v % 2 = 1)) else s
  | .numVfs => if pf && decide (v ≤ 255) then s.writeNumVfs g v else s
  | .busMaster =>
    if pf then s.modVf g 0 (fun x => { x with bme := decide (v % 2 = 1) })
    else if v % 2 = 1 then s.setBme g n else s.clearBme g n
  | .interruptDisable => if pf then s.writeIntOff g (decide (v % 2 = 1)) else s
  | .maxPayload => if pf && decide (v ≤ 2) then s.modGroup g (fun x => { x with mps := v }) else s
  | .maxReadRequest => if v ≤ 5 then s.modVf g n (fun x => { x with mrrs := v }) else s
  | .completionTimeout => if pf && decide (v < 16) then s.modGroup g (fun x => { x with timeout := v }) else s
  | .relaxedOrdering => s.modVf g n (fun x => { x with relax := decide (v % 2 = 1) })
  | .aspm => if pf then s.modGroup g (fun x => { x with aspm := v % 4 }) else s
  | .initiateFlr => if v % 2 = 0 then s else if pf then s.pf0Flr g else (s.vfReset g n).showEndpoint
  | .powerState =>
    if !pf then s
    else if v = 3 then s.enterD3 g (s.group g).pmeEn
    else if v = 0 then s.enterD0 g (s.group g).pmeEn false
    else s
  | .pmeEnable => if pf then (s.modGroup g (fun x => { x with pmeEn := decide (v % 2 = 1) })).showEndpoint else s
  | .pmeStatus => if pf && decide (v % 2 = 1) then s.modGroup g (fun x => { x with pmeStatus := false }) else s
  | _ => s

/-- A configuration request of the host; `write`: the value that it writes. While PERST# is asserted none arrives. -/
def State.configRequest (s : State) (g n : Nat) (item : CfgItem) (write : Option Nat) : State :=
  if (s.group g).perst then s
  else
    match s.cfgAnswer g n (s.cfgItem g n item), write with
    | .value _, some v => (s.cfgSet g n item v).emit (.config g n item (.value 0))
    | a, _ => s.emit (.config g n item a)

/-! ### The commands -/

/-- FUNCTION_LEVEL_RESET of VFn through group g. -/
def execFunctionLevelReset (g n : Nat) (s : State) : Host.Outcome State Fault Refusal :=
  .next (s.running (if (s.group g).named n then (s.vfReset g n).showEndpoint else s))

/-- PF0_FLR. -/
def execPf0Flr (g : Nat) (s : State) : Host.Outcome State Fault Refusal := .next (s.running (s.pf0Flr g))

/-- VF_ENABLE_CLEARED: the host writes VF Enable. -/
def execVfEnableCleared (g : Nat) (en : Bool) (s : State) : Host.Outcome State Fault Refusal := .next (s.running (s.writeVfEn g en))

/-- NUMVFS_LOWERED: the host writes NumVFs. -/
def execNumvfsLowered (g n : Nat) (s : State) : Host.Outcome State Fault Refusal := .next (s.running (s.writeNumVfs g n))

/-- CONVENTIONAL_RESET: PERST# (with main power removed), or Hot Reset or Link Disable. -/
def execConventionalReset (g : Nat) (perst cold : Bool) (s : State) : Host.Outcome State Fault Refusal :=
  .next (s.running (s.conventional g perst cold))

/-- BUS_MASTER_ENABLE_CLEARED. -/
def execBusMasterEnableCleared (g n : Nat) (s : State) : Host.Outcome State Fault Refusal := .next (s.running (s.clearBme g n))

/-- BUS_MASTER_ENABLE_SET. -/
def execBusMasterEnableSet (g n : Nat) (s : State) : Host.Outcome State Fault Refusal := .next (s.running (s.setBme g n))

/-- D3HOT_ENTRY. -/
def execD3hotEntry (g : Nat) (pmeEn : Bool) (s : State) : Host.Outcome State Fault Refusal := .next (s.running (s.enterD3 g pmeEn))

/-- D0_RETURN. -/
def execD0Return (g : Nat) (pmeEn clear : Bool) (s : State) : Host.Outcome State Fault Refusal := .next (s.running (s.enterD0 g pmeEn clear))

/-- WAKE_EVENT: a held record, or a complete frame. -/
def execWakeEvent (frame : Bool) (s : State) : Host.Outcome State Fault Refusal :=
  .next (s.running (if s.wakeDue frame then s.wakeUp else s))

/-- AEP_WAKE: AEP_CMD written with WAKE = 1. -/
def execAepWake (who : Requester) (s : State) : Host.Outcome State Fault Refusal :=
  .next (s.running (s.written who 8 AEP_CMD 2 (fun a => a.actAepCmd 2)))

/-- PME_REPEAT. -/
def execPmeRepeat (s : State) : Host.Outcome State Fault Refusal := .next (s.running s.pmeAgain)

/-- L0S_ENTRY. -/
def execL0sEntry (g l : Nat) (flit : Bool) (s : State) : Host.Outcome State Fault Refusal := .next (s.running (s.linkIdle g 1 l flit))

/-- L1_ENTRY. -/
def execL1Entry (g l : Nat) (s : State) : Host.Outcome State Fault Refusal := .next (s.running (s.linkIdle g 2 l false))

/-- INTX_PEND_CLEAR. -/
def execIntxPendClear (v : BitVec 256) (s : State) : Host.Outcome State Fault Refusal := .next (s.running (s.clearIntx v))

/-- INTERRUPT_DISABLE: the host writes Interrupt Disable. -/
def execInterruptDisable (g : Nat) (v : Bool) (s : State) : Host.Outcome State Fault Refusal := .next (s.running (s.writeIntOff g v))

/-- PERST_DEASSERTION. -/
def execPerstDeassertion (g : Nat) (s : State) : Host.Outcome State Fault Refusal := .next (s.running (s.perstOff g))

/-- FAILOVER. -/
def execFailover (f : Nat) (waited : Bool) (s : State) : Host.Outcome State Fault Refusal := .next (s.running (s.failover f waited))

/-- SWITCH: AEP_CMD written with SWITCH = 1. -/
def execSwitchGroups (who : Requester) (s : State) : Host.Outcome State Fault Refusal :=
  .next (s.running (s.written who 8 AEP_CMD 1 (fun a => a.actAepCmd 1)))

/-- HOST_COMPLETION_TIMEOUT. -/
def execHostCompletionTimeout (q : Nat) (ring : Bool) (s : State) : Host.Outcome State Fault Refusal := .next (s.running (s.hostTimeout q ring))

end Sys2Proof.Machine
end

