-- ==== Sys2Proof/Machine/Integer.lean ====
section
/-! DEFINITION. INTEGER_INSTRUCTION (R78, R79, R87, R91): integer, branch, jump, trap-return, fence-of-translations, hint and
vector-integer instructions; floating-point and illegal ones. -/

namespace Sys2Proof.Machine

open Sys2Proof

/-- The hart goes to an address, the instruction retired. -/
def State.jump (s : State) (h : Nat) (target : Word) : State := (s.retired h).modHart h (fun t => { t with pc := target })

/-! ### Returns from traps -/

/-- MRET: the previous mode, and its virtualization, from mstatus. -/
def Hart.mret (t : Hart) : Hart :=
  let ms := t.rd 0x300
  let p := if t.world then (if wbits ms 12 11 = 3 then 3 else 0) else wbits ms 12 11
  let w := wput (wput (wput ms 3 3 (wbits ms 7 7)) 7 7 1) 12 11 0
  let w1 := if p < 3 then wput w 17 17 0 else w
  let v := !t.world && decide (p < 3) && ms.getLsbD 39
  { (t.wr 0x300 (if t.world then w1 else wflag w1 39 false)) with priv := p, virt := v, pc := t.rd 0x341 }

/-- SRET of M-mode and HS-mode. -/
def Hart.sret (t : Hart) : Hart :=
  let ms := t.rd 0x300
  let hs := t.rd 0x600
  let w := wput (wput (wput (wput ms 1 1 (wbits ms 5 5)) 5 5 1) 8 8 0) 17 17 0
  { ((t.wr 0x300 w).wr 0x600 (wflag hs 7 false)) with priv := wbits ms 8 8, virt := hs.getLsbD 7, pc := t.rd 0x141 }

/-- SRET of VS-mode. -/
def Hart.vsret (t : Hart) : Hart :=
  let ms := t.rd 0x200
  { (t.wr 0x200 (wput (wput (wput ms 1 1 (wbits ms 5 5)) 5 5 1) 8 8 0)) with priv := wbits ms 8 8, pc := t.rd 0x241 }

/-- What a mode check answers: allowed, illegal, or a virtual-instruction exception. -/
def Hart.sretCheck (t : Hart) : CsrCheck :=
  if t.world then .illegal
  else if t.virt then (if t.priv = 0 ∨ (t.rd 0x600).getLsbD 22 then .virtual else .ok)
  else if t.priv = 3 then .ok
  else if t.priv = 0 ∨ (t.rd 0x300).getLsbD 22 then .illegal
  else .ok

/-- The fences of translations: SFENCE.VMA and SINVAL.VMA (`vm`), the guest's own fences, HFENCE and HINVAL. -/
def Hart.fenceCheck (t : Hart) (w : Nat) : CsrCheck :=
  let f := iF7 w
  if t.priv = 3 then .ok
  else if t.world then .illegal
  else if t.virt ∧ t.priv = 0 then .virtual
  else if t.priv = 0 then .illegal
  else if f = 0x11 ∨ f = 0x13 ∨ f = 0x31 ∨ f = 0x33 then
    (if t.virt then .virtual else if (f = 0x31 ∨ f = 0x33) ∧ (t.rd 0x300).getLsbD 20 then .illegal else .ok)
  else if f = 0x0C then .ok
  else if t.virt then (if (t.rd 0x600).getLsbD 20 then .virtual else .ok)
  else if (t.rd 0x300).getLsbD 20 then .illegal else .ok

/-- The cause of ECALL by mode. -/
def Hart.ecallCause (t : Hart) : Nat := if t.priv = 3 then 11 else if t.priv = 0 then 8 else if t.virt then 10 else 9

/-- Whether EBREAK enters debug mode, by dcsr. -/
def Hart.ebreakDebug (t : Hart) : Bool :=
  (t.csrIn false 0x7B0).getLsbD (if t.priv = 3 then 15 else if t.virt then (if t.priv = 1 then 17 else 16) else if t.priv = 1 then 13 else 12)

/-- The translations that a fence removes from the TLBs (R81, R115): SFENCE.VMA and SINVAL.VMA, those of the mode's own first stage; HFENCE.VVMA
and HINVAL.VVMA, those of the guest that hgatp names; HFENCE.GVMA and HINVAL.GVMA, those of a guest. An address in rs1 narrows nothing. -/
def State.fenceTlb (s : State) (h w : Nat) : State :=
  let t := s.hart h
  let f := iF7 w
  let b := (t.getX (iRs2 w)).toNat
  let ofAsid (e : TlbEntry) : Bool := decide (iRs2 w = 0 ∨ e.asid = b % 2 ^ 16)
  let ofGuest (e : TlbEntry) : Bool := e.virt && decide (e.vmid = wbits (t.rd 0x680) 57 44)
  let goes (e : TlbEntry) : Bool :=
    if f = 0x09 ∨ f = 0x0B then (if t.virt then ofGuest e else !e.virt) && ofAsid e
    else if f = 0x11 ∨ f = 0x13 then ofGuest e && ofAsid e
    else if f = 0x31 ∨ f = 0x33 then e.virt && decide (iRs2 w = 0 ∨ e.vmid = b % 2 ^ 14)
    else false
  s.modCore (coreOf h) (fun c => { c with tlb := c.tlb.filter (fun e => !goes e) })

/-- The SYSTEM instructions of this class. -/
def State.systemInt (s : State) (h raw w len : Nat) : State × Bool :=
  let t := s.hart h
  if iF3 w = 4 then (s.modHart h (fun x => x.setX (iRd w) 0)).completes h len
  else if w = 0x73 then (s.exception h t.ecallCause 0 0, true)
  else if w = 0x00100073 then
    (if s.debugActs h && t.ebreakDebug then (s.enterDebug h 1, true) else (s.exception h 3 t.pc 0, true))
  else if w = 0x30200073 then
    (if t.priv = 3 then ((s.retired h).modHart h Hart.mret, true)
     else s.notLegal h raw)
  else if w = 0x10200073 then
    (match t.sretCheck with
    | .ok => ((s.retired h).modHart h (fun x => if x.virt then x.vsret else x.sret), true)
    | r => (s.refuseCsr h (rawBits raw) r, true))
  else if w = 0x00D00073 ∨ w = 0x01D00073 then s.completes h len
  else
    match t.fenceCheck w with
    | .ok => (s.fenceTlb h w).completes h len
    | r => (s.refuseCsr h (rawBits raw) r, true)

/-- The instructions of this class. -/
def State.integer (s : State) (h raw w len : Nat) : State × Bool :=
  let t := s.hart h
  let a := t.getX (iRs1 w)
  let b := t.getX (iRs2 w)
  let put (v : Option Word) : State × Bool :=
    match v with
    | some v => (s.modHart h (fun x => x.setX (iRd w) v)).completes h len
    | none => s.notLegal h raw
  let vector (r : Option Hart) : State × Bool :=
    match (if t.vsOff then none else r) with
    | some t' => (s.modHart h (fun _ => t')).completes h len
    | none => s.notLegal h raw
  let link := t.pc + BitVec.ofNat 64 len
  match iOp w with
  | 0x13 => put (aluImm w a)
  | 0x1B => put (aluImmW w a)
  | 0x33 => put (rvAluOp (iF7 w) (iF3 w) a b)
  | 0x3B => put (rvAluOpW (iF7 w) (iF3 w) (iRs2 w) a b)
  | 0x37 => put (some (word (immU w)))
  | 0x17 => put (some (t.pc + word (immU w)))
  | 0x6F =>
    let target := t.pc + word (immJ w)
    (((s.retireJump h t.pc target link (iRd w) 0 false).modHart h (fun x => x.setX (iRd w) link)).jump h target, true)
  | 0x67 =>
    let target := (a + word (immI w)) &&& ~~~(1 : Word)
    (((s.retireJump h t.pc target link (iRd w) (iRs1 w) true).modHart h (fun x => x.setX (iRd w) link)).jump h target, true)
  | 0x63 =>
    (match branchTaken (iF3 w) a b with
    | some taken =>
      let target := t.pc + word (immB w)
      ((s.retireBranch h t.pc target taken).jump h (if taken then target else link), true)
    | none => s.notLegal h raw)
  | 0x57 => vector (if iF3 w = 7 then t.execVset w else if iF3 w = 2 ∨ iF3 w = 6 then t.execOpm w else t.execOpi w)
  | 0x77 => vector (t.execOpve w)
  | _ => s.systemInt h raw w len

/-- INTEGER_INSTRUCTION (R87). -/
def execIntegerInstruction (h raw : Nat) (wrong : List WrongAcc) (s : State) : Host.Outcome State Fault Refusal :=
  .next (s.running (s.hartRun h raw .int wrong (fun b w len => b.integer h raw w len)))

/-- ILLEGAL_INSTRUCTION (R90, R92, R93): cause 2 with the instruction's bits. -/
def execIllegalInstruction (h raw : Nat) (wrong : List WrongAcc) (s : State) : Host.Outcome State Fault Refusal :=
  .next (s.running (s.hartRun h raw .illegal wrong (fun b _ _ => b.notLegal h raw)))

/-- A floating-point instruction: its result, or the exceptions it raises (R89, R101, R102). The order of an unordered sum is drawn. -/
def State.floating (s : State) (h raw w len : Nat) : State × Bool :=
  let t := s.hart h
  let s1 := { s with free := s.free + 600 }
  match t.execFp (fun k => (Config.freeWord (s.free + k)).toNat) w with
  | .illegal => s.notLegal h raw
  | .done t' => (s1.modHart h (fun _ => t')).completes h len
  | .trap t' v => ((s1.modHart h (fun _ => t')).exception h 24 (BitVec.ofNat 64 v) 0, true)

/-- FLOATING_POINT_INSTRUCTION (R101). -/
def execFloatingPointInstruction (h raw : Nat) (wrong : List WrongAcc) (s : State) : Host.Outcome State Fault Refusal :=
  .next (s.running (s.hartRun h raw .fp wrong (fun a w len => a.floating h raw w len)))

end Sys2Proof.Machine
end

