-- ==== Sys2Proof/Machine/Atomic.lean ====
section
/-! DEFINITION. LR, SC, AMO, the fences, the cache-block operations and prefetches (R81, R84 to R86, R91, R150, R171, R178, R190,
R191). -/

namespace Sys2Proof.Machine

open Sys2Proof

/-! ### What they share -/

/-- A memory exception ends the instruction. -/
def State.memStop (s : State) (h : Nat) (f : MemFault) : State × Bool := (s.memFaultIn h (s.hart h).dataMode f, true)

/-- Whether the trigger of a load (0) or store (1) address fires, the address as the instruction gives it. -/
def State.dataTrigger (s : State) (h : Nat) (kinds : List Nat) (va : Word) : Option Nat := kinds.findSome? (fun k => s.trigOf h k va)

/-- The address of an access that must be aligned and lie in memory: translated, or what ends the instruction. `io`: the cause in an I/O
region. -/
def State.atomicPlace (s : State) (h : Nat) (a : MemAcc) (misaligned io : Nat) (kinds : List Nat) (va0 : Word) (n : Nat)
    (k : State → Nat × Nat × Word → State × Bool) : State × Bool :=
  let t := s.hart h
  let m := t.dataMode
  let va := t.maskAddr m a va0
  match s.dataTrigger h kinds va with
  | some act => (s.trigger h act va, true)
  | none =>
    if va.toNat % n ≠ 0 then s.memStop h { cause := misaligned, tval := va }
    else
      match s.locateOne h m a va n with
      | (s1, .fault f) => s1.memStop h f
      | (s1, .need _) => (s1, false)
      | (s1, .ok pa) =>
        match s1.region pa with
        | .dram => k s1 (pa, n, va)
        | .none => s1.memStop h { cause := a.fault, tval := va }
        | _ => s1.memStop h { cause := io, tval := va }

/-- A line is owned for an atomic access (R190): its data, an access fault, or a wait. -/
def State.ownLineFor (s : State) (h : Nat) (need : Need) (p : Nat × Nat × Word) : State × Option (Option Line) :=
  let t := s.tileOfHart h
  let l1 := s.l1Hit t true p.2.2.toNat (p.1 / 64) (s.hart h).world
  match (s.l1Miss t h (p.1 / 64) true l1).reach t h (p.1 / 64) need (s.hart h).world (s.hart h).ntl l1 with
  | (s1, .held) =>
    (match (s1.tile t).lineData (p.1 / 64), s1.mayWrite t (p.1 / 64) with
    | some (d, poison), true =>
      if poison then (s1, some none)
      else (s1.modTile t (fun x => x.fillL1 true p.2.2.toNat (p.1 / 64) (s.hart h).ntl (s1.usable t .l1d)), some (some d))
    | _, _ => (s1, none))
  | (s1, .waits) => (s1, none)
  | (s1, _) => (s1, some none)

/-- An AMO, SC or compare-and-swap has asked for its line: it is never repeated, and commits once the line has come (R133). -/
def State.awaitsLine (s : State) (h w : Nat) : State := s.modHart h (fun t => { t with atomic := some w })

/-- Bytes of an owned line are written. -/
def State.writeOwned (s : State) (h : Nat) (p : Nat × Nat × Word) (v : Nat) : State :=
  let m := (2 ^ (8 * p.2.1) - 1) * 2 ^ (8 * (p.1 % 64))
  let put (old : Line) : Line :=
    (old &&& ~~~(BitVec.ofNat 512 m)) ||| BitVec.ofNat 512 (v % 2 ^ (8 * p.2.1) * 2 ^ (8 * (p.1 % 64)))
  (s.modTile (s.tileOfHart h) (fun x => x.writeLine (p.1 / 64) put false)).otherLoses h (p.1 / 64)

/-- A retired store's bytes over a value read from memory at `pa` (R112). -/
def RetiredStore.over (st : RetiredStore) (pa n v : Nat) : Nat :=
  (List.range 32).foldl (fun a i =>
    if st.mask.getLsbD i && decide (pa ≤ st.addr + i ∧ st.addr + i < pa + n) then
      let o := 8 * (st.addr + i - pa)
      a - a / 2 ^ o % 256 * 2 ^ o + st.data.toNat / 2 ^ (8 * i) % 256 * 2 ^ o
    else a) v

/-- The hart's own retired stores forwarded to a value read (R112). -/
def Hart.forward (t : Hart) (pa n v : Nat) : Nat := t.stores.foldl (fun a st => st.over pa n a) v

/-! ### LR, SC, AMO -/

/-- LR (R84, R85, R175, R190): the line is owned; the value, and the reservation of the line. -/
def State.loadReserved (s : State) (h w len : Nat) : State × Bool :=
  let n := 2 ^ iF3 w
  s.atomicPlace h .load 4 7 [0] ((s.hart h).getX (iRs1 w)) n (fun s0 p =>
    match s0.ownLineFor h .reserve p with
    | (s1, some (some d)) =>
      let v := (s1.hart h).forward p.1 n (lineBits d (p.1 % 64) n)
      let s2 := s1.dropReservation h
      (s2.modHart h (fun t => { t.setX (iRd w) (word (sgn (8 * n) v)) with resv := some (p.1 / 64), constrained := true })).completes h len
    | (s1, some none) => s1.memStop h { cause := 5, tval := p.2.2 }
    | (s1, none) => (s1, false))

/-- SC (R84, R85): it stores and writes 0 where the reservation of the line is held, and writes 1 otherwise; the reservation ends. -/
def State.storeConditional (s : State) (h w len : Nat) : State × Bool :=
  let n := 2 ^ iF3 w
  let fails (a : State) : State × Bool := ((a.dropReservation h).modHart h (fun t => t.setX (iRd w) 1)).completes h len
  s.atomicPlace h .store 6 7 [1] ((s.hart h).getX (iRs1 w)) n (fun a p =>
    if (a.hart h).resv ≠ some (p.1 / 64) then fails a
    else
      let s0 := a.drain h
      if !(s0.hart h).stores.isEmpty then (s0, false)
      else
        match s0.ownLineFor h .write p with
        | (s1, none) => (s1.awaitsLine h w, false)
        | (s1, some none) => s1.memStop h { cause := 7, tval := p.2.2 }
        | (s1, some (some _)) =>
          if (s1.hart h).resv ≠ some (p.1 / 64) then fails s1
          else
            (((s1.writeOwned h p ((s1.hart h).getX (iRs2 w)).toNat).dropReservation h).modHart h (fun t => t.setX (iRd w) 0)).completes h len)

/-- The value that an AMO stores, from the old value `a` and rs2's `b` of `n` bits. -/
def amoValue (f5 n a b : Nat) : Nat :=
  let x := sgn n a
  let y := sgn n b
  match f5 with
  | 0x00 => (a + b) % 2 ^ n
  | 0x01 => b
  | 0x04 => a ^^^ b
  | 0x08 => a ||| b
  | 0x0C => a &&& b
  | 0x10 => if x ≤ y then a else b
  | 0x14 => if x ≤ y then b else a
  | 0x18 => min a b
  | _ => max a b

/-- A register pair of AMOCAS.Q; the pair of x0 is zero. -/
def Hart.pair (t : Hart) (r : Nat) : Nat := if r = 0 then 0 else (t.getX r).toNat + (t.getX (r + 1)).toNat * 2 ^ 64

/-- AMO and compare-and-swap (R84, R150, R190): performed with the line in E or M, after the hart's older stores. -/
def State.amoAccess (s : State) (h w len : Nat) : State × Bool :=
  let n := 2 ^ iF3 w
  let f5 := ib w 31 27
  let rd := iRd w
  s.atomicPlace h .store 6 7 [0, 1] ((s.hart h).getX (iRs1 w)) n (fun a p =>
    let s0 := a.drain h
    if !(s0.hart h).stores.isEmpty then (s0, false)
    else
      match s0.ownLineFor h .write p with
      | (s1, none) => (s1.awaitsLine h w, false)
      | (s1, some none) => s1.memStop h { cause := 7, tval := p.2.2 }
      | (s1, some (some d)) =>
        let t := s1.hart h
        let old := lineBits d (p.1 % 64) n
        let src := if n = 16 then t.pair (iRs2 w) else (t.getX (iRs2 w)).toNat % 2 ^ (8 * n)
        let want := if n = 16 then t.pair rd else (t.getX rd).toNat % 2 ^ (8 * n)
        let s2 := if f5 = 5 then (if old = want then s1.writeOwned h p src else s1) else s1.writeOwned h p (amoValue f5 (8 * n) old src)
        let put (t : Hart) : Hart :=
          if n = 16 then (if rd = 0 then t else (t.setX rd (BitVec.ofNat 64 old)).setX (rd + 1) (BitVec.ofNat 64 (old / 2 ^ 64)))
          else t.setX rd (word (sgn (8 * n) old))
        (s2.modHart h put).completes h len)

/-! ### Fences -/

/-- Whether no cache-block operation of a hart is still under way (R171). -/
def State.cmosDone (s : State) (h : Nat) : Bool :=
  !(s.tile (s.tileOfHart h)).asks.any (fun a => decide (a.hart = h ∧ a.ans = 0) && a.kind.cmo) &&
    !s.slices.any (fun e => e.2.stands (fun r => decide (r.hart = h) && r.kind.cmo))

/-- Whether a fence with W or O among its predecessors orders everything that it must: the hart's stores are performed, and no
cache-block operation of it is still under way (R171, R191). -/
def State.storesDone (s : State) (h : Nat) : Bool := (s.hart h).stores.isEmpty && s.cmosDone h

/-- FENCE (R91, R191): a HINT, with an empty predecessor or successor set, does nothing; an undefined fm or bit pattern orders all of I, O, R and W;
FENCE.TSO does not hold loads behind stores, but waits for cache-block operations (R171). -/
def State.fenceInstr (s : State) (h w len : Nat) : State × Bool :=
  let fm := ib w 31 28
  let pred := ib w 27 24
  let succ := ib w 23 20
  let plain := decide (fm = 0 ∧ iRd w = 0 ∧ iRs1 w = 0)
  let tso := decide (fm = 8 ∧ pred = 3 ∧ succ = 3 ∧ iRd w = 0 ∧ iRs1 w = 0)
  let hint := decide (fm = 0 ∧ (pred = 0 ∨ succ = 0) ∧ (iRd w = 0 ∨ iRs1 w = 0))
  let waits := if tso || hint then false else if plain then decide (succ ≠ 0) && (pred.testBit 0 || pred.testBit 2) else true
  if waits then
    let s1 := s.drain h
    if s1.storesDone h then s1.completes h len else (s1, false)
  else if tso && !s.cmosDone h then (s, false)
  else s.completes h len

/-- FENCE.I (R171): the hart's older stores are in the L1 data cache, and fetch restarts. -/
def State.fenceI (s : State) (h len : Nat) : State × Bool :=
  let s1 := s.drain h
  if (s1.hart h).stores.isEmpty then s1.completes h len else (s1, false)

/-! ### Cache-block operations -/

/-- The check of the envcfg enables: `ok v` says whether a level's bits allow the operation. -/
def Hart.cboCheck (t : Hart) (ok : Word → Bool) : CsrCheck :=
  if t.priv = 3 then .ok
  else if t.world then .illegal
  else if !ok (t.rd 0x30A) then .illegal
  else if t.virt && !ok (t.rd 0x60A) then .virtual
  else if decide (t.priv = 0) && !ok (t.rd 0x10A) then (if t.virt then .virtual else .illegal)
  else .ok

/-- Whether CBO.INVAL acts as CBO.FLUSH: a level's CBIE is 0b01 (R81, R171). -/
def Hart.invalFlushes (t : Hart) : Bool :=
  decide (t.priv < 3) &&
    (decide (wbits (t.rd 0x30A) 5 4 = 1) || (t.virt && decide (wbits (t.rd 0x60A) 5 4 = 1)) ||
      (decide (t.priv = 0) && decide (wbits (t.rd 0x10A) 5 4 = 1)))

/-- A clean, flush or invalidation of a line by a hart goes to the home, which acts on every copy, the hart's own tile's among them
(R171, R176). -/
def State.cmo (s : State) (h line : Nat) (k : ReqKind) : State × HoldResult :=
  s.tileRequest (s.tileOfHart h) h line k (s.hart h).world 0 []

/-- CBO.CLEAN, CBO.FLUSH and CBO.INVAL: permitted where a load or a store is; ordered as stores; a guard's refusal is cause 7 and changes no
cache. They retire once the request has reached the home; of another module's home only its answer tells that. -/
def State.cboLine (s : State) (h raw w len : Nat) (chk : CsrCheck) (k : ReqKind) : State × Bool :=
  let t := s.hart h
  if chk ≠ .ok then (s.refuseCsr h (rawBits raw) chk, true)
  else
    let m := t.dataMode
    let va := t.maskAddr m .store (t.getX (iRs1 w))
    match s.dataTrigger h [1] va with
    | some act => (s.trigger h act va, true)
    | none =>
      let tr : State × Trans := match s.locateOne h m .store va 1 with
        | (s1, .fault f) => (match s1.locateOne h m .load va 1 with
          | (s2, .ok pa) => (s2, .ok pa)
          | (s2, _) => (s2, .fault f))
        | r => r
      match tr with
      | (s1, .fault f) => s1.memStop h f
      | (s1, .need _) => (s1, false)
      | (s1, .ok pa) =>
        if s1.region pa ≠ .dram then s1.memStop h { cause := 7, tval := va }
        else if s1.ownDram pa && s1.guardRefuses 0 pa t.world true then (s1.refuse 0 pa t.world true).memStop h { cause := 7, tval := va }
        else
          let s2 := s1.drain h
          if !(s2.hart h).stores.isEmpty then (s2, false)
          else
            match s2.cmo h (pa / 64) k with
            | (s3, .held) => s3.completes h len
            | (s3, .waits) => if s3.ownDram pa then s3.completes h len else (s3, false)
            | (s3, _) => s3.memStop h { cause := 7, tval := va }

/-- CBO.ZERO (R86, R150): the line is owned and zeroed without being read, its poison cleared. -/
def State.cboZeroLine (s : State) (h raw w len : Nat) : State × Bool :=
  let t := s.hart h
  let chk := t.cboCheck (fun v => v.getLsbD 7)
  if chk ≠ .ok then (s.refuseCsr h (rawBits raw) chk, true)
  else
    let m := t.dataMode
    let va := t.maskAddr m .store (t.getX (iRs1 w))
    match s.dataTrigger h [1] va with
    | some act => (s.trigger h act va, true)
    | none =>
      match s.locateOne h m .store va 1 with
      | (a, .fault f) => a.memStop h f
      | (a, .need _) => (a, false)
      | (a, .ok pa) =>
        if a.region pa ≠ .dram then a.memStop h { cause := 7, tval := va }
        else
          let s1 := a.drain h
          let tile := s1.tileOfHart h
          let line := pa / 64
          if !(s1.hart h).stores.isEmpty then (s1, false)
          else
            let asked :=
              let l1 := s1.l1Hit tile true va.toNat line t.world
              if ((s1.tile tile).holds line).any (fun e => decide (e.st = .modified ∨ e.st = .exclusive)) then
                (s1.l1Miss tile h line true l1).reach tile h line .write t.world t.ntl l1
              else
                match ((s1.l1Miss tile h line true l1).countReach tile h line t.world).tileRequest tile h line .zero t.world t.ntl [] with
                | (s2, .held) => (s2.modTile tile (fun x => x.took line), .held)
                | r => r
            match asked with
            | (s2, .held) =>
              if s2.mayWrite tile line then
                (((s2.modTile tile (fun x => (x.fillL1 true va.toNat line t.ntl (s2.usable tile .l1d)).writeLine line (fun _ => 0) true)).otherLoses
                  h line)).completes h len
              else (s2, false)
            | (s2, .waits) => (s2, false)
            | (s2, _) => s2.memStop h { cause := 7, tval := va }

/-- PREFETCH.I, PREFETCH.R and PREFETCH.W (R91): the line is fetched; an access that would fault, or an address outside DRAM, does
nothing. -/
def State.prefetchLine (s : State) (h w len : Nat) : State × Bool :=
  let t := s.hart h
  let kind := iRs2 w
  let acc := if kind = 0 then MemAcc.fetch else if kind = 3 then .store else .load
  let m := if kind = 0 then t.fetchMode else t.dataMode
  let va := t.maskAddr m acc (t.getX (iRs1 w) + word (sgn 12 (iF7 w * 32)))
  match s.locateOne h m acc va 1 with
  | (s0, .ok pa) =>
    if s0.region pa ≠ .dram || (s0.ownDram pa && s0.guardRefuses 0 pa t.world (decide (kind = 3))) then s0.completes h len
    else
      let tile := s0.tileOfHart h
      let l1 := s0.l1Hit tile (decide (kind ≠ 0)) va.toNat (pa / 64) t.world
      let (s1, r) := (s0.l1Miss tile h (pa / 64) (decide (kind ≠ 0)) l1).reach tile h (pa / 64)
        (if kind = 3 then .write else .read true) t.world t.ntl l1
      (match r with
      | .held => s1.modTile tile (fun x => x.fillL1 (decide (kind ≠ 0)) va.toNat (pa / 64) t.ntl
          (s1.usable tile (if kind = 0 then .l1i else .l1d)))
      | _ => s1).completes h len
  | (s0, _) => s0.completes h len

/-- LR_HOLD_END (R178): 64 core cycles have passed; the tile answers the snoops that it held. -/
def State.lrHoldEnd (s : State) (h : Nat) : State :=
  if (s.hart h).constrained then (s.modHart h (fun t => { t with constrained := false })).freeHeld h else s

/-! ### The commands -/

/-- LR (R85). -/
def execLr (h raw : Nat) (wrong : List WrongAcc) (s : State) : Host.Outcome State Fault Refusal :=
  .next (s.running (s.hartRun h raw .lr wrong (fun a w len => a.loadReserved h w len)))

/-- An AMO, SC or compare-and-swap: the instruction, or, where its core waits for it with a retry or is failed, its commitment, upon which the
retry begins (R133, R140). -/
def State.atomicRun (s : State) (h raw : Nat) (k : InstrClass) (wrong : List WrongAcc) (act : State → Nat → Nat → State × Bool) : State :=
  let c := classify raw
  if decide (c.1 = k) && s.owesAtomic h c.2.1 then
    match act s c.2.1 c.2.2 with
    | (s1, true) => (s1.ended h c.2.1 k (s.hart h)).retryNow (coreOf h)
    | (s1, false) => s1.waitsOn h
  else s.hartRun h raw k wrong act

/-- SC (R85). -/
def execSc (h raw : Nat) (wrong : List WrongAcc) (s : State) : Host.Outcome State Fault Refusal :=
  .next (s.running (s.atomicRun h raw .sc wrong (fun a w len => a.storeConditional h w len)))

/-- AMO (R84). -/
def execAmo (h raw : Nat) (wrong : List WrongAcc) (s : State) : Host.Outcome State Fault Refusal :=
  .next (s.running (s.atomicRun h raw .amo wrong (fun a w len => a.amoAccess h w len)))

/-- LR_HOLD_END (R178). -/
def execLrHoldEnd (h : Nat) (s : State) : Host.Outcome State Fault Refusal := .next (s.running (s.lrHoldEnd h))

/-- FENCE (R191). -/
def execFence (h raw : Nat) (s : State) : Host.Outcome State Fault Refusal :=
  .next (s.running (s.hartInstr h raw .fence (fun a w len => a.fenceInstr h w len)))

/-- FENCE_I (R171). -/
def execFenceI (h raw : Nat) (s : State) : Host.Outcome State Fault Refusal :=
  .next (s.running (s.hartInstr h raw .fenceI (fun a _ len => a.fenceI h len)))

/-- CBO_ZERO (R86). -/
def execCboZero (h raw : Nat) (wrong : List WrongAcc) (s : State) : Host.Outcome State Fault Refusal :=
  .next (s.running (s.hartRun h raw .zero wrong (fun a w len => a.cboZeroLine h raw w len)))

/-- CBO_CLEAN (R171). -/
def execCboClean (h raw : Nat) (wrong : List WrongAcc) (s : State) : Host.Outcome State Fault Refusal :=
  .next (s.running (s.hartRun h raw .clean wrong (fun a w len =>
    a.cboLine h raw w len ((a.hart h).cboCheck (fun v => v.getLsbD 6)) .cmoClean)))

/-- CBO_FLUSH (R171). -/
def execCboFlush (h raw : Nat) (wrong : List WrongAcc) (s : State) : Host.Outcome State Fault Refusal :=
  .next (s.running (s.hartRun h raw .flush wrong (fun a w len =>
    a.cboLine h raw w len ((a.hart h).cboCheck (fun v => v.getLsbD 6)) .cmoFlush)))

/-- CBO_INVAL (R171). -/
def execCboInval (h raw : Nat) (wrong : List WrongAcc) (s : State) : Host.Outcome State Fault Refusal :=
  .next (s.running (s.hartRun h raw .inval wrong (fun a w len =>
    a.cboLine h raw w len ((a.hart h).cboCheck (fun v => decide (wbits v 5 4 ≠ 0)))
      (if (a.hart h).invalFlushes then .cmoFlush else .cmoInval))))

/-- PREFETCH (R91). -/
def execPrefetch (h raw : Nat) (s : State) : Host.Outcome State Fault Refusal :=
  .next (s.running (s.hartInstr h raw .prefetch (fun a w len => a.prefetchLine h w len)))

end Sys2Proof.Machine
end

