-- ==== Sys2Proof/Machine/Colophon.lean ====
section
/-! DEFINITION. The Colophon (chapter Colophon Store and Lifetime Records, R513 to R527): its two copies, the settings slots
and the working copy, the repair record, the lifetime counters and the event log. -/

namespace Sys2Proof.Machine

open Sys2Proof

/-! ### The store (R513, R514) -/

/-- Change the Colophon's state. -/
def State.modCol (s : State) (g : Colophon → Colophon) : State := { s with col := g s.col }

/-- The STATE of a copy. -/
def copyField (c : Nat) : Fld := if c = 0 then COL_STATUS.COPY0 else COL_STATUS.COPY1

/-- The copy that a read is served from: copy 0, or copy 1 while copy 0 is not in service. -/
def State.colCopy (s : State) : Nat := if s.f COL_STATUS.COPY0 = 0 then 0 else 1

/-- Word `w` of the Colophon. -/
def State.colWord (s : State) (w : Nat) : Word := s.col.mram.get 0 (s.colCopy * 2 ^ 20 + w)

/-- Write a word to every copy that has not failed. -/
def State.setColWord (s : State) (w : Nat) (v : Word) : State :=
  s.modCol (fun c => { c with mram :=
    ([0, 1].filter (fun k => decide (s.f (copyField k) ≠ 2))).foldl (fun m k => m.set 0 (k * 2 ^ 20 + w) v) c.mram })

/-- Byte `o` of a table of words. -/
def byteOf (t : Nat → Word) (o : Nat) : Byte := (t (o / 8) >>> (8 * (o % 8))).setWidth 8

/-- Bytes from `o` upwards of a table of words. -/
def bytesFrom (t : Nat → Word) (o n : Nat) : List Byte := (List.range n).map (fun i => byteOf t (o + i))

/-- The CRC-32C of a half of 512 KiB: over all its bytes but the last four (R515, R520, R521). -/
def halfCrc (t : Nat → Word) : Nat := (crc32c (bytesFrom t 0 0x7FFFC)).toNat

/-- Whether a half's CRC is right. -/
def halfValid (t : Nat → Word) : Bool := decide (halfCrc t = (t 0xFFFF).toNat / 2 ^ 32)

/-- Replace the words from `base` on, a half of 512 KiB, in every copy in use. -/
def State.setHalf (s : State) (base : Nat) (ws : Table Word) : State :=
  let inside (k : Nat) : Bool := decide (base ≤ k % 2 ^ 20 ∧ k % 2 ^ 20 < base + 0x10000) &&
    decide (s.f (copyField (k / 2 ^ 20)) ≠ 2)
  let s1 := s.modCol (fun c => { c with mram := c.mram.filter (fun e => !inside e.1) })
  ws.foldl (fun a e => a.setColWord (base + e.1) e.2) s1

/-- Give a half its SEQ and, last, its CRC. -/
def State.sealHalf (s : State) (base seq : Nat) : State :=
  let s1 := s.setColWord base (BitVec.ofNat 64 seq)
  let crc := halfCrc (fun w => s1.colWord (base + w))
  s1.setColWord (base + 0xFFFF) (BitVec.ofNat 64 ((s1.colWord (base + 0xFFFF)).toNat % 2 ^ 32 + crc * 2 ^ 32))

/-- Whether a word of half `h` is listed: a half of zeros is not valid, since their CRC-32C is not zero. -/
def State.halfListed (s : State) (base h : Nat) : Bool :=
  let b := s.colCopy * 2 ^ 20 + base + h * 0x10000
  s.col.mram.any (fun e => decide (b ≤ e.1 ∧ e.1 < b + 0x10000))

/-- The newer valid half of two, by its number; none when neither is valid. -/
def State.newerHalf (s : State) (base : Nat) : Option Nat :=
  let word (h w : Nat) : Word := s.colWord (base + h * 0x10000 + w)
  match s.halfListed base 0 && halfValid (word 0), s.halfListed base 1 && halfValid (word 1) with
  | true, true => some (if (word 0 0).toNat < (word 1 0).toNat then 1 else 0)
  | true, false => some 0
  | false, true => some 1
  | false, false => none

/-! ### Settings slots (R515, R516) -/

/-- Word `w` of a copy's slot. -/
def State.slotWord (s : State) (copy slot w : Nat) : Word := s.col.mram.get 0 (copy * 2 ^ 20 + slot * 0x10000 + w)

/-- MAGIC and FORMAT of a slot, as they stand in its second word. -/
def slotMagic : Word := 0x0000000153455447

/-- Whether a copy's slot is valid (R515). -/
def State.slotValid (s : State) (copy slot : Nat) : Bool :=
  decide (s.f (copyField copy) = 0) && decide (s.slotWord copy slot 1 = slotMagic) && halfValid (s.slotWord copy slot)

/-- The winning slot (R516): copy, slot and SEQ. -/
def State.newestSlot (s : State) : Option (Nat × Nat × Nat) :=
  [(0, 0), (0, 1), (1, 0), (1, 1)].foldl (fun b (p : Nat × Nat) =>
    if s.slotValid p.1 p.2 then
      let q := (s.slotWord p.1 p.2 0).toNat
      match b with
      | none => some (p.1, p.2, q)
      | some (_, _, q') => if q' < q then some (p.1, p.2, q) else b
    else b) none

/-- The words of a slot that are listed. -/
def State.slotWords (s : State) (copy slot : Nat) : Table Word :=
  let base := copy * 2 ^ 20 + slot * 0x10000
  (s.col.mram.filter (fun e => decide (base ≤ e.1 ∧ e.1 < base + 0x10000))).map (fun e => (e.1 - base, e.2))

/-- Every field at its default (R515, R546), as a slot would hold it. -/
def defaultSlot : Table Word :=
  let head : Table Word := [(1, slotMagic), (2, BitVec.ofNat 64 (0xC + 10 * 2 ^ 16))]
  let ports : Table Word := (List.range 128).map (fun p => (8 + p, resetOf (PRT_Pp_CFG p)))
  head ++ ports ++ [(0x88, BitVec.ofNat 64 (100 * 2 ^ 16)), (0x89, BitVec.ofNat 64 (0x10000 + 2 ^ 52)),
    (0x8A, BitVec.ofNat 64 (0x1010000 + 2 ^ 52)), (0x8B, 0x200000)]

/-- A field of a slot word outside its range takes its default: the word, and whether one did. -/
def inRange (hi lo min max dflt : Nat) (acc : Word × Bool) : Word × Bool :=
  let v := wbits acc.1 hi lo
  if min ≤ v ∧ v ≤ max then acc
  else (acc.1 &&& ~~~(BitVec.ofNat 64 ((2 ^ (hi + 1 - lo) - 1) * 2 ^ lo)) ||| BitVec.ofNat 64 (dflt * 2 ^ lo), true)

/-- An image location of the boot options (R546). -/
def imageRange (offset : Nat) (acc : Word × Bool) : Word × Bool :=
  let o := wbits acc.1 31 0
  let n := wbits acc.1 63 32
  let acc1 := if o % 4096 = 0 then acc else inRange 31 0 1 0 offset acc
  if 4096 ≤ n ∧ n ≤ 16777216 ∧ n % 4096 = 0 then acc1 else inRange 63 32 1 0 1048576 acc1

/-- The ranges of the fields of word `w` of a slot (R415, R515, R546). -/
def slotRanges (w : Nat) (v : Word) : Word × Bool :=
  if w = 2 then inRange 31 16 1 3600 10 (v, false)
  else if 8 ≤ w ∧ w < 136 then
    inRange 31 28 0 5 2 (inRange 27 24 1 6 6 (inRange 18 16 0 4 0 (inRange 10 8 1 4 1 (v, false))))
  else if w = 0x88 then inRange 15 8 0 191 0 (inRange 23 16 25 200 100 (v, false))
  else if w = 0x89 then imageRange 0x10000 (v, false)
  else if w = 0x8A then imageRange 0x1010000 (v, false)
  else (v, false)

/-- The words of a slot whose fields have ranges. -/
def rangedWords : List Nat := 2 :: (List.range 128).map (· + 8) ++ [0x88, 0x89, 0x8A]

/-- A settings word in force since the last cold reset, its fields within their ranges. -/
def State.setting (s : State) (w : Nat) : Word := (slotRanges w (s.col.image.get 0 w)).1

/-- Whether a settings bit of GENERAL is set. -/
def State.general (s : State) (b : Nat) : Bool := (s.setting 2).getLsbD b

/-- The settings are selected and loaded (R516). -/
def State.loadSettings (s : State) : State :=
  match s.newestSlot with
  | none => (s.modCol (fun c => { c with work := defaultSlot, image := defaultSlot })).raise COL_ALARM.NO_SETTINGS
  | some (c, k, q) =>
    let ws := s.slotWords c k
    let other := 1 - c
    let s1 := if s.f (copyField other) = 0 ∧ s.slotWords other k ≠ ws then
        let base := other * 2 ^ 20 + k * 0x10000
        let rest := s.col.mram.filter (fun e => !decide (base ≤ e.1 ∧ e.1 < base + 0x10000))
        s.modCol (fun x => { x with mram := ws.foldl (fun m e => m.set 0 (base + e.1) e.2) rest })
      else s
    let s2 := (s1.modCol (fun x => { x with work := ws, image := ws })).setF COL_STATUS.SLOT k
    (s2.setF COL_STATUS.SEQ q).raiseIf (rangedWords.any (fun w => (slotRanges w (ws.get 0 w)).2)) COL_ALARM.SETTING_BAD

/-! ### The working copy and STORE (R517, R519) -/

/-- The bytes of the working copy that ignore writes: SEQ, MAGIC, FORMAT and CRC. -/
def workFixed (o : Nat) : Bool := decide (o < 16) || decide (0x7FFFC ≤ o)

/-- Write bytes of the working copy, least significant first. -/
def Colophon.putWork (c : Colophon) (o size : Nat) (v : Word) : Colophon :=
  (List.range size).foldl (fun c i =>
    if workFixed (o + i) then c
    else { c with work := c.work.modify 0 ((o + i) / 8) (fun w =>
      let sh := 8 * ((o + i) % 8)
      (w &&& ~~~((0xFF : Word) <<< sh)) ||| (((v >>> (8 * i)) &&& 0xFF) <<< sh)) }) c

/-- A write to the window COL_WORK at offset `o` of the slot (R517, R536). -/
def State.workWrite (s : State) (who : Requester) (size o : Nat) (v : Word) : State :=
  if ¬(size = 4 ∨ size = 8) ∨ o % size ≠ 0 ∨ 0x80000 < o + size then s
  else if s.locked who 15 then (s.raise SVC_ALARM.LOCKED_WRITE).captureBad (15 * 0x10000000 + 0x100000 + o)
  else if s.on COL_STATUS.STORE then s.raise COL_ALARM.BUSY_WRITE
  else
    let denied := decide (who = .text) && decide (o ≤ 0x10 ∧ 0x10 < o + size)
    let old := s.col.work.get 0 2
    let s1 := (s.modCol (fun c => c.putWork o size v)).raiseIf denied COL_ALARM.DENIED_WRITE
    if denied then s1.modCol (fun c => { c with work := c.work.modify 0 2 (fun w => (w &&& ~~~(0x30 : Word)) ||| (old &&& 0x30)) })
    else s1

/-- STORE begins (R519 steps 1 and 2): the other slot is written with the working copy, but for its SEQ and CRC. `unlock`: the
unlock store of R560. -/
def State.beginStore (s : State) (unlock : Bool) : State :=
  let win := s.newestSlot
  let slot := match win with
    | some (_, k, _) => 1 - k
    | none => 1 - s.f COL_STATUS.SLOT
  let work := s.col.work.get 0 2
  let general := match win with
    | some (c, k, _) =>
      let w := s.slotWord c k 2
      if unlock then work &&& ~~~(2 : Word)
      else if w.getLsbD 1 then (work &&& ~~~(0x3E : Word)) ||| (w &&& 0x3E) else work
    | none => if unlock then work &&& ~~~(2 : Word) else work
  let base := slot * 0x10000
  let body := ((((s.col.work.set 0 0 (s.colWord base)).set 0 1 slotMagic).set 0 2 general).modify 0 0xFFFF
    (fun w => (w &&& 0xFFFFFFFF) ||| (s.colWord (base + 0xFFFF) &&& 0xFFFFFFFF00000000)))
  ((s.setHalf base body).modCol (fun c => { c with target := some slot })).raise COL_STATUS.STORE

/-- Change what service port p's wires hold. -/
def State.modWires (s : State) (p : Nat) (f : Wires → Wires) : State :=
  { s with svc := { s.svc with wires := s.svc.wires.set {} p (f (s.svc.wires.get {} p)) } }

/-- A response of service port p to a request with OP `op` and TAG `tag` (R555); none where no service engine serves the port (R552). -/
def State.answer (s : State) (p op tag status : Nat) (payload : List Byte) : State :=
  if s.svc.out.contains 0 && s.svc.out.contains 1 then s
  else
    let head := leBytes 1 (op + 0x80) ++ leBytes 1 tag ++ leBytes 2 payload.length ++ leBytes 4 status ++ payload
    let frame := head ++ leBytes 4 (crc32c head).toNat
    (s.modWires p (fun w => { w with response := frame })).record (.drufy p frame)

/-- Outstanding requests of the service ports that `what` picks are answered with a status. -/
def State.answerOwed (s : State) (status : Nat) (what : OwedFor → Bool) : State :=
  [0, 1].foldl (fun a p => match a.svc.owed.get none p with
    | none => a
    | some o =>
      if what o.what then ({ a with svc := { a.svc with owed := a.svc.owed.set none p none } }).answer p o.op o.tag status [] else a) s

/-- The unlock store that waited for another STORE begins (R519, R560). -/
def State.unlockGoesOn (s : State) : State :=
  if [0, 1].any (fun p => decide ((s.svc.owed.get none p).map (·.what) = some OwedFor.unlockWaits)) then
    ({ s with svc := { s.svc with owed := s.svc.owed.map (fun (e : Nat × Option Owed) =>
        (e.1, e.2.map (fun (o : Owed) => if o.what = OwedFor.unlockWaits then { o with what := .unlockStore } else o))) } }).beginStore true
  else s

/-- STORE ends (R519 steps 2 to 4): SEQ and the CRC are written last. `fails`: a copy of the target still fails its check after
it was written again. -/
def State.endStore (s : State) (fails : Bool) : State :=
  match s.col.target with
  | none => s
  | some k =>
    let s1 := (s.modCol (fun c => { c with target := none })).setF COL_STATUS.STORE 0
    if fails then ((s1.raise COL_ALARM.STORE_FAILED).answerOwed 7 (fun w => decide (w = .unlockStore))).unlockGoesOn
    else
      let seq := s.newestSlot.elim 1 (fun w => w.2.2 + 1)
      let s2 := s1.sealHalf (k * 0x10000) seq
      let crc := s2.colWord (k * 0x10000 + 0xFFFF) &&& 0xFFFFFFFF00000000
      let s3 := s2.modCol (fun c =>
        { c with work := (c.work.set 0 0 (BitVec.ofNat 64 seq)).modify 0 0xFFFF (fun w => (w &&& 0xFFFFFFFF) ||| crc) })
      ((((s3.setF COL_STATUS.SLOT k).setF COL_STATUS.SEQ seq).raise COL_ALARM.STORE_DONE).answerOwed 0
        (fun w => decide (w = .unlockStore))).unlockGoesOn

/-- A write to COL_CMD that R20 lets through (R519, R521). -/
def State.actColCmd (s : State) (v : Word) : State :=
  let s1 := if COL_CMD.STORE.of v = 1 then
      (if s.on COL_STATUS.STORE then s.raise COL_ALARM.CMD_REFUSED else s.beginStore false) else s
  let s2 := if COL_CMD.DISCARD.of v = 1 then
      (if s1.on COL_STATUS.STORE then s1.raise COL_ALARM.CMD_REFUSED
       else s1.modCol (fun c => { c with work := s1.newestSlot.elim defaultSlot (fun w => s1.slotWords w.1 w.2.1) })) else s1
  if COL_CMD.COMMIT.of v = 1 then s2.post (s2.leaf + 2) .lifetimeCommit else s2

/-! ### The repair record (R520) -/

/-- The register that word `w` of the repair record stands for: its key, and whether the word holds the register itself. -/
def repairReg (w : Nat) : Option Nat :=
  if 1 ≤ w ∧ w < 25 then some (CPU_SPARE_MAPn (w - 1))
  else if 0x20 ≤ w ∧ w < 0x20 + 216 then some (CPU_CACHE_RETs (w - 0x20))
  else if 0x200 ≤ w ∧ w < 0x208 then some (if w % 2 = 0 then MESH_RET_Hd ((w - 0x200) / 2) else MESH_RET_Vd ((w - 0x200) / 2))
  else if 0x210 ≤ w ∧ w < 0x210 + 272 then some (CE_PHYSk (w - 0x210))
  else if 0x340 ≤ w ∧ w < 0x360 then some (PRT_Gj_LANES (w - 0x340))
  else none

/-- The words of the repair record that hold registers. -/
def repairWords : List Nat :=
  (List.range 24).map (· + 1) ++ (List.range 216).map (· + 0x20) ++ (List.range 8).map (· + 0x200) ++
    (List.range 272).map (· + 0x210) ++ (List.range 32).map (· + 0x340)

/-- The content of the repair record now. -/
def State.repairRecord (s : State) : Table Word :=
  let t0 := repairWords.foldl (fun (t : Table Word) w => t.set 0 w ((repairReg w).elim 0 s.reg)) []
  let t1 := (List.range 216).foldl (fun (t : Table Word) n =>
    t.set 0 (0x100 + n) (BitVec.ofNat 64 (s.f (L3_SLICE_STATUSs.WAYS_RET n) + if s.f (L3_SLICE_STATUSs.STATE n) < 2 then 0 else 2 ^ 12))) t0
  let t2 := (List.range 16).foldl (fun (t : Table Word) u =>
    t.set 0 (0x320 + u) (BitVec.ofNat 64 (s.f (TU_STATUSu.STATE u)))) t1
  (List.range 16).foldl (fun (t : Table Word) k =>
    (List.range 64).foldl (fun (t : Table Word) i =>
      let e := Config.repairRow (match (s.chan k).repairs[i]? with
        | some (row, device) => (BitVec.ofNat 64 row, BitVec.ofNat 64 (device + 2 ^ 63))
        | none => (0, 0))
      (t.set 0 (0x380 + 128 * k + 2 * i) e.1).set 0 (0x381 + 128 * k + 2 * i) e.2) t) t2

/-- A word of the repair record as a requalified unit changes it. A tile whose router failed becomes its quire's spare only where the quire then
has none, and otherwise stays out of service (R146). -/
def mended (m : Nat × Word × Word) (w : Word) : Word :=
  if 1 ≤ m.1 ∧ m.1 ≤ 24 ∧ (CPU_SPARE_MAPn.SPARE (m.1 - 1)).of w ≠ 15 then w else (w &&& ~~~m.2.1) ||| (m.2.2 &&& m.2.1)

/-- The service engine writes the older half with the unit states (R520), and with those that units requalified for the next cold reset will
have (R563). -/
def State.writeRepair (s : State) : State :=
  let n := s.newerHalf 0x20000
  let seq := n.elim 1 (fun h => (s.colWord (0x20000 + h * 0x10000)).toNat + 1)
  let base := 0x20000 + n.elim 0 (fun h => 1 - h) * 0x10000
  let rec_ := s.svc.mend.foldl (fun (t : Table Word) m => t.modify 0 m.1 (mended m)) s.repairRecord
  (s.setHalf base rec_).sealHalf base seq

/-- The repair list of channel k in a half. -/
def repairList (word : Nat → Word) (k : Nat) : List (Nat × Nat) :=
  (List.range 64).filterMap (fun i =>
    let e := Config.repairRow.symm (word (0x380 + 128 * k + 2 * i), word (0x381 + 128 * k + 2 * i))
    if e.2.getLsbD 63 then some (e.1.toNat, wbits e.2 62 0) else none)

/-- Word `w` of the repair record as a warm reset takes it: what was requalified for the next cold reset stays out of service (R166, R170,
R563). -/
def State.notYet (s : State) (w : Nat) (v : Word) : Word :=
  let now := s.repairRecord
  s.svc.mend.foldl (fun v m => if m.1 = w then (v &&& ~~~m.2.1) ||| (now.get 0 w &&& m.2.1) else v) v

/-- The registers are loaded from the newer valid half (R520). `fix`: what a reset makes of each word. -/
def State.loadRepair (s : State) (fix : Nat → Word → Word) : State :=
  match s.newerHalf 0x20000 with
  | none => s.raise COL_ALARM.NO_REPAIR
  | some h =>
    let word (w : Nat) : Word := fix w (s.colWord (0x20000 + h * 0x10000 + w))
    let s1 := repairWords.foldl (fun a w => (repairReg w).elim a (fun k => a.setReg k (word w))) s
    let s2 := (List.range 216).foldl (fun a n =>
      let a1 := a.setF (L3_SLICE_STATUSs.WAYS_RET n) (wbits (word (0x100 + n)) 11 0)
      if (word (0x100 + n)).getLsbD 12 then (a1.setF (L3_SLICE_STATUSs.STATE n) 3).setF (L3_SLICE_STATUSs.ENTRIES n) 0 else a1) s1
    let s3 := (List.range 16).foldl (fun a u => a.setF (TU_STATUSu.STATE u) (word (0x320 + u)).toNat) s2
    let s4 := (List.range 16).foldl (fun a k =>
      (a.modChan k (fun c => { c with repairs := repairList word k })).setF (SCR_CHk_STATUS.ROWS k) (repairList word k).length) s3
    (List.range 192).foldl (fun a c =>
      a.setF (CPU_CORE_STATUSc.TILE c) (a.f (CPU_SPARE_MAPn.LC (c / 8)) / 16 ^ (c % 8) % 16)) s4

/-! ### Lifetime counters (R521 to R523) -/

/-- The counts in the eight bytes at offset `o` of a lifetime half: offset, bit and width of each. -/
def lifeFields (o : Nat) : List (Nat × Nat × Nat) :=
  if o = 0x18 then [(o, 0, 32), (o, 32, 16)]
  else if 0x100 ≤ o ∧ o < 0x1C00 then
    (match (o - 0x100) % 32 with
    | 0 => [(o, 0, 64)]
    | 8 => [(o, 0, 32), (o + 4, 0, 32)]
    | 16 => [(o, 0, 32), (o + 4, 0, 16)]
    | _ => [])
  else if 0x1C00 ≤ o ∧ o < 0x3700 then
    (match (o - 0x1C00) % 32 with
    | 0 => [(o, 0, 64)]
    | 8 => [(o, 0, 64)]
    | 16 => [(o, 0, 32)]
    | _ => [])
  else if 0x3800 ≤ o ∧ o < 0x6000 then [(o, 0, 32), (o, 32, 16), (o, 48, 16)]
  else if 0x6000 ≤ o ∧ o < 0x6800 then [(o, 0, 48), (o, 48, 16)]
  else if 0x6800 ≤ o ∧ o < 0x7080 then [(o, 0, 32), (o, 32, 32)]
  else if (0x7100 ≤ o ∧ o < 0x72A8) ∨ (0x7300 ≤ o ∧ o < 0x73F0) ∨ o = 0x10 then [(o, 0, 64)]
  else []

/-- The powered time, in leaves. -/
def State.poweredTime (s : State) : Nat := s.life.get 0 (64 * 0x10) + s.col.powered + (s.leaf - s.col.poweredTo)

/-- What a lifetime commit captures, but for SEQ and CRC (R521). -/
def State.lifeHalf (s : State) : Table Word :=
  let t := s.life.foldl (fun (t : Table Word) e =>
    let p := 8 * (e.1 / 64) + e.1 % 64
    t.modify 0 (p / 64) (fun w => w + BitVec.ofNat 64 (e.2 * 2 ^ (p % 64)))) []
  let t1 := (t.set 0 1 (BitVec.ofNat 64 s.count)).set 0 2 (BitVec.ofNat 64 s.poweredTime)
  t1.modify 0 3 (fun w => w + BitVec.ofNat 64 ((if s.holdFlag then 2 ^ 48 else 0) + if s.on TB_STATUS.EVER_LOCKED then 2 ^ 49 else 0))

/-- The counters and the calendar are captured, and the older half is being written (R521). -/
def State.commitLife (s : State) : State :=
  let half := (s.newerHalf 0x40000).elim 0 (fun h => 1 - h)
  let base := 0x40000 + half * 0x10000
  let body := (s.lifeHalf.set 0 0 (s.colWord base)).modify 0 0xFFFF (fun w => w ||| (s.colWord (base + 0xFFFF) &&& 0xFFFFFFFF00000000))
  ((s.setHalf base body).modCol (fun c => { c with half := some half })).raise COL_STATUS.LIFE

/-- A commit at leaf `l`: of the gatherings whose number is a multiple of 1,024, or the extra one posted for that leaf. -/
def State.lifetimeCommit (s : State) (l : Nat) : State :=
  if l % 1048576 = 0 then
    (if s.firingLeaf l < s.leaf ∨ l < s.col.commitAt ∨ s.turnOf l 7 = false then s
    else
      s.atLeaf l (fun a =>
        let s1 := (a.lateEvent l).modCol (fun c => { c with commitAt := l + 1 })
        (match s1.postedEvent .lifetimeCommit with
        | some e => if e.leaf ≤ l then s1.unpost .lifetimeCommit else s1
        | none => s1).commitLife))
  else s.fire .lifetimeCommit (fun a => (a.lateEvent a.leaf).commitLife)

/-- The half is written and read back. -/
def State.lifetimeCommitEnd (s : State) : State :=
  match s.col.half with
  | none => s
  | some h =>
    let seq := (s.newerHalf 0x40000).elim 1 (fun n => (s.colWord (0x40000 + n * 0x10000)).toNat + 1)
    ((s.sealHalf (0x40000 + h * 0x10000) seq).modCol (fun c => { c with half := none })).setF COL_STATUS.LIFE 0

/-- The starting values of every count, and the calendar (R521, R527). -/
def State.loadLife (s : State) : State × Nat :=
  match s.newerHalf 0x40000 with
  | none => ({ s with life := [] }.raise COL_ALARM.NO_LIFE, 0)
  | some h =>
    let base := 0x40000 + h * 0x10000
    let words := s.col.mram.filterMap (fun e =>
      if s.colCopy * 2 ^ 20 + base ≤ e.1 ∧ e.1 < s.colCopy * 2 ^ 20 + base + 0x10000 then
        some (8 * (e.1 - s.colCopy * 2 ^ 20 - base), e.2)
      else none)
    let life := words.foldl (fun (t : Table Nat) e =>
      (lifeFields e.1).foldl (fun (t : Table Nat) (f : Nat × Nat × Nat) =>
        t.set 0 (64 * f.1 + f.2.1) (e.2.toNat / 2 ^ (8 * (f.1 - e.1) + f.2.1) % 2 ^ f.2.2)) t) []
    ({ s with life := life }, (s.colWord (base + 1)).toNat)

/-- The 1/16 stress leaves that a gathering adds (R523), at a supply of `mv` mV and a temperature of `t` °C, rounded down: 16,384 × 2 ^ (e / 50);
and whether the value is whole. -/
def stressGain (mv t : Nat) : Nat × Bool :=
  let e : Int := 2 * ((mv : Int) - 800) + 5 * ((t : Int) - 85)
  let k : Int := e / 50 + 14
  let f := (e % 50).toNat
  let a : Nat := if 0 ≤ k then k.toNat else 0
  let r := root50scaled a f
  if k < 0 then (0, false) else (r, decide (f = 0))
where
  /-- 2 ^ a × 2 ^ (f / 50), rounded down. -/
  root50scaled (a f : Nat) : Nat := iter (2 ^ (50 * a + f)) (a + 1) 0
  /-- Bit by bit from the highest, the greatest r with r ^ 50 ≤ n. -/
  iter (n : Nat) : Nat → Nat → Nat
    | 0, r => r
    | b + 1, r => if (r + 2 ^ b) ^ 50 ≤ n then iter n b (r + 2 ^ b) else iter n b r

/-- A tile's aging monitor records its drift and stress at a gathering edge (R523). Rounding to 1/16 stress leaf is a free value. -/
def State.ageTile (s : State) (t drift mv temp : Nat) : State :=
  let o := 0x100 + 32 * t
  let (gain, whole) := stressGain mv temp
  let (w, s1) := if whole then ((0 : Word), s) else s.draw
  let stress := min (s.life.get 0 (64 * o) + gain + w.toNat % 2) (2 ^ 64 - 1)
  let was := s.life.get 0 (64 * (o + 8))
  let s2 := { s1 with life := (s1.life.set 0 (64 * o) stress).set 0 (64 * (o + 8)) drift }
  let warn := s.f COL_CTL.AGE_WARN
  if warn ≠ 0 ∧ was < warn ∧ warn ≤ drift then
    (s2.raise COL_ALARM.AGE_WARN).logAt 0x0060 (s.tileLoc (t / 9) (t % 9) 13) 5 [drift, stress]
  else s2

/-- Each tile's monitor measures at gathering edge `g`: tile, drift in ppm, mean supply in mV, mean temperature in °C. -/
def State.ageAll (s : State) (g : Nat) (ms : List (Nat × Nat × Nat × Nat)) : State :=
  ms.foldl (fun a (m : Nat × Nat × Nat × Nat) => a.ageTile (m.1 % 216) m.2.1 m.2.2.1 m.2.2.2) (s.untilLeaf (g * 1024))

/-! ### Copies and the event log (R514, R524) -/

/-- A copy stops (R514). -/
def State.copyFails (s : State) (c : Nat) : State :=
  if s.f (copyField c) = 2 then s
  else ((s.setF (copyField c) 2).raise COL_ALARM.COPY_ALONE).logAt 0x0061 (s.dieLoc (4 + c) 281) 5 [c, 0]

/-- A returned copy is rebuilt from the survivor (R514). -/
def State.copyRebuilt (s : State) (c : Nat) : State :=
  if s.f (copyField c) ≠ 1 then s
  else
    let from_ := (1 - c) * 2 ^ 20
    let kept := s.col.mram.filter (fun e => decide (e.1 / 2 ^ 20 ≠ c))
    let copied := (kept.filter (fun e => decide (from_ ≤ e.1))).map (fun e => (c * 2 ^ 20 + e.1 % 2 ^ 20, e.2))
    let s1 := s.modCol (fun x => { x with mram := copied.foldl (fun m e => m.set 0 e.1 e.2) kept })
    ((s1.setF (copyField c) 0).raise COL_ALARM.COPY_REBUILT).logAt 0x0061 (s.dieLoc (4 + c) 281) 5 [c, 1]

/-- LOC as R525 packs it. -/
def Loc.word (l : Loc) (n : Nat) : Nat :=
  let f (i v : Nat) : Nat := if i < n then v else 0
  f 0 (l.module % 8) * 2 ^ 61 + f 1 (l.die % 8) * 2 ^ 58 + f 2 (l.quire % 16) * 2 ^ 54 + f 3 (l.tile % 16) * 2 ^ 50 +
    f 4 (l.unit % 1024) * 2 ^ 40 + f 5 (l.array % 4096) * 2 ^ 28 + f 6 (l.cell % 2 ^ 20) * 2 ^ 8 + n

/-- The eight words of an event log record, without its CRC (R524). -/
def LogRecord.words (r : LogRecord) (seq now : Nat) : List Nat :=
  let late := r.late || decide (r.time.toNat + 262144 < now)
  let flags := (if r.hold then 1 else 0) + (if late then 2 else 0) + (if r.source then 4 else 0)
  let p := (Config.payload r.type r.payload).toNat
  [seq % 2 ^ 32 + r.type * 2 ^ 32 + flags * 2 ^ 48, r.time.toNat, r.loc.word r.fields] ++
    (List.range 4).map (fun i => p / 2 ^ (64 * i) % 2 ^ 64) ++ [p / 2 ^ 256]

/-- The oldest waiting record is written to the ring slot after the last (R524). -/
def State.writeRecord (s : State) : State :=
  match s.logQueue with
  | [] => s
  | r :: rest =>
    let seq := (s.f COL_LOG_STATUS.LAST_SEQ + 1) % 2 ^ 32
    let n := s.f COL_LOG_STATUS.NEXT
    let ws := { r with source := decide (s.svc.out.contains 0) }.words seq s.count
    let crc := (crc32c ((List.range 60).map (byteOf (fun i => BitVec.ofNat 64 (ws.getD i 0))))).toNat
    let s1 := ({ s with logQueue := rest }.setF COL_LOG_STATUS.LAST_SEQ seq).setF COL_LOG_STATUS.NEXT ((n + 1) % 65536)
    (List.range 8).foldl (fun a i =>
      a.setColWord (0x80000 + 8 * n + i) (BitVec.ofNat 64 (ws.getD i 0 + if i = 7 then crc * 2 ^ 32 else 0))) s1

/-! ### The commands -/

/-- COL_WORK_WRITE. -/
def execColWorkWrite (who : Requester) (size o : Nat) (v : Word) (s : State) : Host.Outcome State Fault Refusal :=
  .next (s.onKeep (s.workWrite who size o v))

/-- STORE: COL_CMD is written with STORE = 1. -/
def execStoreSettings (who : Requester) (s : State) : Host.Outcome State Fault Refusal :=
  let w := COL_CMD.STORE.put 1 0
  .next (s.onKeep (s.written who 8 COL_CMD w (fun s => s.actColCmd w)))

/-- STORE_END. -/
def execStoreEnd (fails : Bool) (s : State) : Host.Outcome State Fault Refusal := .next (s.onKeep (s.endStore fails))

/-- DISCARD: COL_CMD is written with DISCARD = 1. -/
def execDiscardSettings (who : Requester) (s : State) : Host.Outcome State Fault Refusal :=
  let w := COL_CMD.DISCARD.put 1 0
  .next (s.onKeep (s.written who 8 COL_CMD w (fun s => s.actColCmd w)))

/-- COMMIT: COL_CMD is written with COMMIT = 1. -/
def execCommitLifetime (who : Requester) (s : State) : Host.Outcome State Fault Refusal :=
  let w := COL_CMD.COMMIT.put 1 0
  .next (s.onKeep (s.written who 8 COL_CMD w (fun s => s.actColCmd w)))

/-- LIFETIME_COMMIT. -/
def execLifetimeCommit (l : Nat) (s : State) : Host.Outcome State Fault Refusal := .next (s.onKeep (s.lifetimeCommit l))

/-- LIFETIME_COMMIT_END. -/
def execLifetimeCommitEnd (s : State) : Host.Outcome State Fault Refusal := .next (s.onKeep s.lifetimeCommitEnd)

/-- REPAIR_RECORD_WRITE. -/
def execRepairRecordWrite (s : State) : Host.Outcome State Fault Refusal := .next (s.onKeep s.writeRepair)

/-- COLOPHON_COPY_FAILURE. -/
def execColophonCopyFailure (c : Nat) (s : State) : Host.Outcome State Fault Refusal := .next (s.onKeep (s.copyFails c))

/-- COLOPHON_REBUILT. -/
def execColophonRebuilt (c : Nat) (s : State) : Host.Outcome State Fault Refusal := .next (s.onKeep (s.copyRebuilt c))

/-- EVENT_LOG_RECORD. -/
def execEventLogRecord (s : State) : Host.Outcome State Fault Refusal := .next (s.onKeep s.writeRecord)

/-- AGING_MEASURE. -/
def execAgingMeasure (g : Nat) (ms : List (Nat × Nat × Nat × Nat)) (s : State) : Host.Outcome State Fault Refusal :=
  .next (s.onKeep (s.ageAll g ms))

end Sys2Proof.Machine
end

