-- ==== Sys2Proof/Machine/Endpaper.lean ====
section
/-! DEFINITION. The Endpaper world (R473 to R493): the image and its hart areas, the watchdog and restarts, and the key service.
Entering and leaving are in Trap and in the hart instructions. -/

namespace Sys2Proof.Machine

open Sys2Proof

/-! ### The service engines -/

/-- Change what the service engines hold. -/
def State.modSvc (s : State) (g : Service → Service) : State := { s with svc := g s.svc }

/-- The service engine that works for compute die `d` (R141): its own, or the other where that is out of service. -/
def State.seFor (s : State) (d : Nat) : Option Nat :=
  let own := if d < 2 then 0 else 1
  if !s.svc.out.contains own then some own else if !s.svc.out.contains (1 - own) then some (1 - own) else none

/-- A service engine reads the lines of a range of the module's DRAM, at most `n` of them, Endpaper-tagged: the bytes, and whether
poison was among them; none where a line is refused or not answered. -/
def State.seLines (s : State) : Nat → Nat → Nat → State × Option (List Byte × Bool)
  | 0, _, _ => (s, some ([], false))
  | n + 1, a, left =>
    if left = 0 then (s, some ([], false))
    else if !s.populated a then (s, none)
    else if s.guardRefuses 0 a true false then (s.refuse 0 a true false, none)
    else
      let k := min (64 - a % 64) left
      match s.readCur 4 (a / 64) true with
      | (s1, none) => (s1, none)
      | (s1, some (d, q)) =>
        match s1.seLines n (a + k) (left - k) with
        | (s2, none) => (s2, none)
        | (s2, some (l, p)) => (s2, some ((List.range k).map (fun j => lineByte d (a % 64 + j)) ++ l, p || q))

/-- A service engine reads `len` bytes from address `a`. -/
def State.seRead (s : State) (a len : Nat) : State × Option (List Byte × Bool) := s.seLines (len / 64 + 2) a len

/-- A service engine writes bytes of the module's DRAM, Endpaper-tagged, line by line. -/
def State.seWrite (s : State) (cells : List (Nat × Byte)) : State :=
  (linesOf cells).foldl (fun a l =>
    let (d, m) := cellsOfLine cells l
    a.request (if m = BitVec.allOnes 64 then .wrFull d false else .wrPart d m false) (.engine s.moduleNo 4) l true false []) s

/-! ### The image (R485, R486) -/

/-- Byte `o` of the sealed area. -/
def State.sealedByte (s : State) (o : Nat) : Byte := byteOf (fun w => s.colWord (0x60000 + w)) o

/-- The fields of the sealed area's header. -/
def State.sealedField (s : State) (o n : Nat) : Nat := leNat ((List.range n).map (fun i => s.sealedByte (o + i)))

/-- CODE_LEN, TMPL_LEN, HART_AREA. -/
def State.codeLen (s : State) : Nat := s.sealedField 4 4
def State.tmplLen (s : State) : Nat := s.sealedField 8 4
def State.areaPages (s : State) : Nat := s.sealedField 12 1

/-- Bytes of the sealed area from `o`. -/
def State.sealedBytes (s : State) (o n : Nat) : List Byte := (List.range n).map (fun i => s.sealedByte (o + i))

/-- The first byte of the Endpaper region. -/
def State.endpBase (s : State) : Nat := s.f ENDP_REGION.BASE * 4096

/-- Whether the image is valid (R486). -/
def State.imageValid (s : State) : Bool :=
  decide (s.sealedField 0 4 = 0x45504E44) && decide (4096 ≤ s.codeLen ∧ s.codeLen ≤ 786432) && decide (s.tmplLen ≤ 258048) &&
    decide (1 ≤ s.areaPages) && decide (s.tmplLen ≤ s.areaPages * 4096) &&
    decide ((crc32c (s.sealedBytes 0 16 ++ s.sealedBytes 0x1000 (s.codeLen + s.tmplLen))).toNat = s.sealedField 16 4) &&
    s.populated s.endpBase && s.populated (s.endpBase + 0x100000 + 384 * s.areaPages * 4096 - 1)

/-- Where hart area `h` begins, and its bytes. -/
def State.areaBase (s : State) (h : Nat) : Nat := s.endpBase + 0x100000 + h * s.f ENDP_REGION.HART_AREA * 4096
def State.areaLen (s : State) : Nat := s.f ENDP_REGION.HART_AREA * 4096

/-- The service engine copies the code section to the region. -/
def State.copyCode (s : State) : State := s.seWrite (cellsAt s.endpBase (s.sealedBytes 0x1000 s.codeLen))

/-- The hart area is written with the template, and the rest of it zeroed (R482 step 1). -/
def State.writeArea (s : State) (h : Nat) : State :=
  s.seWrite (cellsAt (s.areaBase h) (s.sealedBytes (0x1000 + s.codeLen) s.tmplLen ++
    List.replicate (s.areaLen - s.tmplLen) 0))

/-- A digest, as the words that ENDP_MEAS_BOOTk and ENDP_MEAS_IMAGEk hold. -/
def digestWord (d : List Byte) (k : Nat) : Word := BitVec.ofNat 64 (leNat ((d.drop (8 * k)).take 8))

/-- Whether a digest is ENDP_MEAS_IMAGE. -/
def State.isImage (s : State) (d : List Byte) : Bool :=
  (List.range 6).all (fun k => decide (s.reg (ENDP_MEAS_IMAGEk k) = digestWord d k))

/-- What a measurement of the code section comes to (R482 step 2): it does not end, or whether the digest agrees. -/
def State.measureCode (s : State) : State × Option Bool :=
  match s.seRead s.endpBase s.codeLen with
  | (s1, none) => (s1, none)
  | (s1, some (l, p)) => (s1, some (!p && s1.isImage (sha384 l)))

/-! ### Watchdog and restart (R480 to R484) -/

/-- The watchdog of a hart reaches CALL_LIMIT (R480). Leaves of a takeover and of debug halts do not count. -/
def State.endpaperHang (s : State) (h : Nat) : State :=
  let t := s.hart h
  if t.world ∧ t.run ≠ .debug ∧ (s.core (coreOf h)).takeover.isNone = true then
    (s.untilLeaf (t.enterLeaf + t.skipLeaves + s.f ENDP_CTL.CALL_LIMIT)).leaveFailed h 1 0
  else s

/-- An event record of Endpaper for a hart. -/
def State.logEndpaper (s : State) (h : Nat) : State :=
  s.logAt 0x0050 (s.tileLoc (s.tileOfHart h / 9) (s.tileOfHart h % 9) 0) 5 [h, s.f (ENDP_HARTn_STATUS.LAST_CAUSE h)]

/-- A hart's Endpaper is disabled. -/
def State.disableEndpaper (s : State) (h : Nat) : State :=
  ((s.setF (ENDP_HARTn_STATUS.STATE h) 5).raise ENDP_ALARM.DISABLED).logEndpaper h

/-- A restart ends (R482 step 3): the predictors are scrubbed (R120), and it is counted, and disables the hart when it is one too many (R484). -/
def State.restarted (s : State) (h : Nat) : State :=
  let s1 := (s.modHart h (fun t => { t with csr := t.csr.filter (fun (e : Nat × Word) => !decide (0x1000 ≤ e.1 ∧ e.1 < 0x2000)) })).scrub h 0
  let s2 := (((s1.setF (ENDP_HARTn_STATUS.STATE h) 1).raise ENDP_ALARM.RESTARTED).incF (ENDP_HARTn_STATUS.RESTARTS h)).logEndpaper h
  let past := s.leaf :: s.svc.restarts.get [] h
  let s3 := s2.modSvc (fun v => { v with restarts := v.restarts.set [] h (past.take 15) })
  match past[s.f ENDP_CTL.RESTART_LIMIT - 1]? with
  | some l => if s.leaf < l + 1024 * 1024 then s3.disableEndpaper h else s3
  | none => s3

/-- The digests disagree (R483): every call is left, every hart restarts, and the code is restored and measured again. None: that measurement does
not end yet. -/
def State.imageMismatch (s : State) : Option State :=
  let s1 := s.raise ENDP_ALARM.MEASURE_MISMATCH
  let s2 := (List.range 384).foldl (fun a n =>
    let a1 := if (a.hart n).world then a.leaveFailed n 3 0 else a
    if a1.f (ENDP_HARTn_STATUS.STATE n) = 5 then a1 else a1.setF (ENDP_HARTn_STATUS.STATE n) 4) s1
  match s2.copyCode.measureCode with
  | (s3, some true) => some s3
  | (s3, some false) => some ((List.range 384).foldl (fun a n =>
    if a.f (ENDP_HARTn_STATUS.STATE n) = 5 then a else a.disableEndpaper n) s3)
  | (_, none) => none

/-- The service engine rewrites a hart's area and measures the code section, by leaf `l` (R482). -/
def State.restartMeasured (s : State) (h l : Nat) : State :=
  if s.f (ENDP_HARTn_STATUS.STATE h) ≠ 4 ∨ (s.seFor (coreOf h / 48)).isNone = true then s
  else
    let s1 := (s.untilLeaf l).writeArea h
    match s1.measureCode with
    | (_, none) => s
    | (s2, some true) => s2.restarted h
    | (s2, some false) => s2.imageMismatch.getD s

/-! ### The key service (R409, R491 to R493) -/

/-- Bytes that the spec leaves open, eight to a draw. -/
def State.drawBytes (s : State) : Nat → List Byte × State
  | 0 => ([], s)
  | n + 1 =>
    let (w, s1) := s.draw
    let (l, s2) := s1.drawBytes n
    ((List.range 8).map (fun i => (w >>> (8 * i)).setWidth 8) ++ l, s2)

/-- The bytes of a key, or key pair, of a KIND. -/
def keyLen (kind : Nat) : Nat := [16, 32, 32, 64].getD kind 0

/-- Whether a key of a KIND is an XTS pair of two equal keys (R402). -/
def weakPair (kind : Nat) (key : List Byte) : Bool := decide (2 ≤ kind) && decide (key.take (keyLen kind / 2) = key.drop (keyLen kind / 2))

/-- The handle of an entry (R409). -/
def State.handleOf (s : State) (i : Nat) : Word :=
  let e := s.keys.get {} i
  Config.handlePerm s.handleKey (BitVec.ofNat 64 (e.inst * 2 ^ 40 + e.epoch * 2 ^ 24 + i * 2 ^ 12))

/-- The entry that a current handle names. -/
def State.entryOf (s : State) (handle : Word) : Option Nat :=
  let v := (Config.handlePerm s.handleKey).symm handle
  let i := wbits v 23 12
  let e := s.keys.get {} i
  if wbits v 63 48 = 0 ∧ wbits v 11 0 = 0 ∧ e.valid = true ∧ e.epoch = wbits v 39 24 ∧ e.inst = wbits v 47 40 then some i else none

/-- A key takes a free entry of the table: RESULT and OUT. -/
def State.storeKey (s : State) (arg0 : Word) (key : List Byte) : State × (Nat × Option Word) :=
  let kind := wbits arg0 9 8
  if weakPair kind key then (s, 2, none)
  else
    match (List.range 4096).find? (fun i => !(s.keys.get {} i).valid) with
    | none => (s, 1, none)
    | some i =>
      let s1 := { s with keys := s.keys.modify {} i (fun e => { e with kind := kind, inst := wbits arg0 7 0, valid := true, key := key }) }
      (s1, 0, some (s1.handleOf i))

/-- One step of the wrapping of RFC 3394, by its number t. -/
def wrapStep (keys : List (List Byte)) (n : Nat) (acc : List Byte × List (List Byte)) (t : Nat) : List Byte × List (List Byte) :=
  let i := (t - 1) % n
  let b := aesEncrypt keys (acc.1 ++ acc.2.getD i [])
  (xorBytes (b.take 8) (beBytes 8 t), acc.2.set i (b.drop 8))

/-- One step of the unwrapping. -/
def unwrapStep (keys : List (List Byte)) (n : Nat) (acc : List Byte × List (List Byte)) (t : Nat) : List Byte × List (List Byte) :=
  let i := (t - 1) % n
  let b := aesDecrypt keys (xorBytes acc.1 (beBytes 8 t) ++ acc.2.getD i [])
  (b.take 8, acc.2.set i (b.drop 8))

/-- AES Key Wrap (RFC 3394). -/
def keyWrap (kek key : List Byte) : List Byte :=
  let n := key.length / 8
  let r := ((List.range (6 * n)).map (· + 1)).foldl (wrapStep (aesKeys kek) n) (List.replicate 8 0xA6, chunksOf 8 n key)
  r.1 ++ r.2.flatten

/-- Its inverse; none where the integrity check fails. -/
def keyUnwrap (kek blob : List Byte) : Option (List Byte) :=
  let n := blob.length / 8 - 1
  let r := ((List.range (6 * n)).map (· + 1)).reverse.foldl (unwrapStep (aesKeys kek) n) (blob.take 8, chunksOf 8 n (blob.drop 8))
  if r.1 = List.replicate 8 0xA6 then some r.2.flatten else none

/-- The storage key (R491). -/
def State.kek (s : State) : List Byte :=
  beBytes 32 (Config.storageKey ((List.range 6).map (fun k => s.reg (ENDP_MEAS_IMAGEk k))) (s.reg ENDP_DEBUG)).toNat

/-- What the key service does for a request (R491, R492): RESULT, and OUT where it is written. -/
def State.keyRequest (s : State) (op : Nat) (arg0 arg1 : Word) : State × (Nat × Option Word) :=
  let kind := wbits arg0 9 8
  match op with
  | 1 =>
    let (key, s1) := s.drawBytes (keyLen kind / 8)
    s1.storeKey arg0 key
  | 2 =>
    match s.seRead arg1.toNat (keyLen kind + 8) with
    | (s1, some (blob, false)) => (keyUnwrap s.kek blob).elim (s1, 4, none) (s1.storeKey arg0)
    | (s1, _) => (s1, 4, none)
  | 3 =>
    match s.entryOf arg0 with
    | none => (s, 3, none)
    | some i =>
      let blob := keyWrap s.kek (s.keys.get {} i).key
      (s.seWrite (cellsAt arg1.toNat blob), 0, some (BitVec.ofNat 64 blob.length))
  | _ =>
    match s.entryOf arg0 with
    | none => (s, 3, none)
    | some i =>
      ({ s with keys := s.keys.modify {} i (fun e => { e with epoch := (e.epoch + 1) % 2 ^ 16, valid := false, key := [] }) }, 0, none)

/-- One is written to GO of hart h's mailbox (R492). One with OP at its reset value, which names no operation, is ignored while the key service
is not absent (DEDUCED, log entry 40). -/
def State.actMailbox (h : Nat) (v : Word) (s : State) : State :=
  if (ENDP_KSn_CTL.GO h).of v = 0 ∨ s.on (ENDP_KSn_CTL.BUSY h) ∨ (s.svc.keySe.isSome = true ∧ s.f (ENDP_KSn_OP.OP h) = 0) then s
  else
    let (s1, r) := match s.svc.keySe with
      | none => (s, ((5 : Nat), (none : Option Word)))
      | some _ => s.keyRequest (s.f (ENDP_KSn_OP.OP h)) (s.reg (ENDP_KSn_ARG0 h)) (s.reg (ENDP_KSn_ARG1 h))
    (s1.modSvc (fun x => { x with ksWait := x.ksWait.set none h (some r) })).raise (ENDP_KSn_CTL.BUSY h)

/-- The request words are written, and then GO: each is a write of its own (R474, R20). -/
def State.mailboxGo (s : State) (who : Requester) (h op : Nat) (arg0 arg1 : Word) : State :=
  let put (s : State) (k : Nat) (v : Word) : State := s.written who 8 k v (fun s => s.applyWrite k v)
  let s1 := put (put (put s (ENDP_KSn_OP h) (BitVec.ofNat 64 op)) (ENDP_KSn_ARG0 h) arg0) (ENDP_KSn_ARG1 h) arg1
  let go := (ENDP_KSn_CTL.GO h).put 1 0
  s1.written who 8 (ENDP_KSn_CTL h) go (fun s => s.actMailbox h go)

/-- The key service answers a request (R492); a hart that has left its call has abandoned it (R481). -/
def State.mailboxResult (s : State) (h : Nat) : State :=
  if !s.on (ENDP_KSn_CTL.BUSY h) then s
  else
    match s.svc.ksWait.get none h with
    | none => s
    | some (r, out) =>
      let s1 := ((s.setF (ENDP_KSn_CTL.RESULT h) r).setF (ENDP_KSn_CTL.BUSY h) 0).modSvc (fun x => { x with ksWait := x.ksWait.set none h none })
      out.elim s1 (s1.setReg (ENDP_KSn_OUT h))

/-- SE0 fails, and SE1 takes the service over; or neither can run it (R493). -/
def State.keyTakeover (s : State) (works : Bool) : State :=
  if s.svc.keySe = none then s
  else
    let out := if s.svc.out.contains 0 then s.svc.out else 0 :: s.svc.out
    if works ∧ s.svc.out.contains 1 = false then s.modSvc (fun x => { x with out := out, keySe := some 1 })
    else (s.modSvc (fun x => { x with out := out, keySe := none })).raise ENDP_ALARM.KEY_ABSENT

/-! ### The commands -/

/-- ENDPAPER_HANG. -/
def execEndpaperHang (h : Nat) (s : State) : Host.Outcome State Fault Refusal := .next (s.running (s.endpaperHang h))

/-- RESTART_MEASURED. -/
def execRestartMeasured (h l : Nat) (s : State) : Host.Outcome State Fault Refusal := .next (s.running (s.restartMeasured h l))

/-- GENERATE. -/
def execGenerateKey (who : Requester) (h : Nat) (arg0 : Word) (s : State) : Host.Outcome State Fault Refusal :=
  .next (s.running (s.mailboxGo who h 1 arg0 0))

/-- IMPORT. -/
def execImportKey (who : Requester) (h : Nat) (arg0 arg1 : Word) (s : State) : Host.Outcome State Fault Refusal :=
  .next (s.running (s.mailboxGo who h 2 arg0 arg1))

/-- EXPORT. -/
def execExportKey (who : Requester) (h : Nat) (arg0 arg1 : Word) (s : State) : Host.Outcome State Fault Refusal :=
  .next (s.running (s.mailboxGo who h 3 arg0 arg1))

/-- REVOKE. -/
def execRevokeKey (who : Requester) (h : Nat) (arg0 : Word) (s : State) : Host.Outcome State Fault Refusal :=
  .next (s.running (s.mailboxGo who h 4 arg0 0))

/-- KEY_SERVICE_RESULT. -/
def execKeyServiceResult (h : Nat) (s : State) : Host.Outcome State Fault Refusal := .next (s.running (s.mailboxResult h))

/-- KEY_SERVICE_TAKEOVER. -/
def execKeyServiceTakeover (works : Bool) (s : State) : Host.Outcome State Fault Refusal := .next (s.onKeep (s.keyTakeover works))

end Sys2Proof.Machine
end

