-- ==== Sys2Proof/Machine/Control.lean ====
section
/-! DEFINITION. CSR access, PAUSE, WFI and interrupts, and the Icmora extensions Xagw, Xags and Xage (R80 to R82, R91, R94 to R109,
R114, R120, R127, R136, R476 to R478, R505, R545). -/

namespace Sys2Proof.Machine

open Sys2Proof

/-! ### CSR access -/

/-- The value that a set or clear starts from: of mip.SEIP, only the bit that software writes. -/
def Hart.rmwBase (t : Hart) (a : Nat) (old : Word) : Word :=
  if a = 0x344 then wflag old 9 ((t.rd 0x344).getLsbD 9) else old

/-- The state of a unit is dirty once its CSRs are written. -/
def Hart.csrDirty (t : Hart) (a : Nat) : Hart :=
  if 1 ≤ a ∧ a ≤ 3 then t.dirty 14 13
  else if a = 0x008 ∨ a = 0x009 ∨ a = 0x00A ∨ a = 0x00F then t.dirty 10 9
  else t

/-- The address-space number of a translation register. -/
def asidOf (a : Nat) (v : Word) : Nat := if a = 0x680 then wbits v 57 44 else wbits v 59 44

/-- A CSR is written, with what follows from it: settled counters, dirty units, and the scrub that SCRUB_ATP asks for. -/
def State.csrStore (s : State) (h a : Nat) (v : Word) : State :=
  let s1 := if a = 0x320 ∨ (0x323 ≤ a ∧ a ≤ 0x33F) ∨ (0xB03 ≤ a ∧ a ≤ 0xB1F) then s.settleCounts h else s
  let old := (s1.hart h).rd a
  let s2 := s1.modHart h (fun t => (t.csrWrite a v).csrDirty a)
  if (a = 0x180 ∨ a = 0x280 ∨ a = 0x680) ∧ asidOf a old ≠ asidOf a ((s2.hart h).rd a) ∧
      s2.on (CPU_SPEC_CTLc.SCRUB_ATP (coreOf h)) = true then s2.scrub h 0
  else s2

/-- CSRRW, CSRRS, CSRRC and their immediate forms. The instruction is counted before the write, which then stands. -/
def State.csrInstr (s : State) (h raw w len : Nat) : State × Bool :=
  let t := s.hart h
  let f3 := iF3 w
  let writes := decide (f3 % 4 = 1) || decide (iRs1 w ≠ 0)
  let chk := t.csrCheck (iF12 w) writes
  if chk ≠ .ok then (s.refuseCsr h (rawBits raw) chk, true)
  else
    let a := t.csrTarget (iF12 w)
    let src : Word := if 4 ≤ f3 then BitVec.ofNat 64 (iRs1 w) else t.getX (iRs1 w)
    let (s1, old) := if f3 % 4 = 1 ∧ iRd w = 0 then (s, (0 : Word)) else s.csrRead h a
    let base := (s1.hart h).rmwBase a old
    let v := if f3 % 4 = 1 then src else if f3 % 4 = 2 then base ||| src else base &&& ~~~src
    let s2 := s1.next h len
    let s3 := if writes then s2.csrStore h a v else s2
    (s3.modHart h (fun x => x.setX (iRd w) old), true)

/-! ### Waiting and pausing -/

/-- Whether a single step holds interrupts off: dcsr.step without stepie, where debug acts (Sdext). -/
def State.stepMasks (s : State) (h : Nat) : Bool :=
  s.debugActs h && ((s.hart h).csrIn false 0x7B0).getLsbD 2 && !((s.hart h).csrIn false 0x7B0).getLsbD 11

/-- The interrupt that the hart would take now. -/
def State.intFor (s : State) (h : Nat) : Option (Nat × Nat) := if s.stepMasks h then none else (s.hart h).takeable (s.hartCount h)

/-- PAUSE (R91): the hart's slots go to the other hart until it goes on. -/
def State.pauseInstr (s : State) (h len : Nat) : State × Bool :=
  let s1 := s.next h len
  if (s1.intFor h).isSome then (s1, true)
  else ((s1.modHart h (fun t => { t with run := .paused })), true)

/-- Whether WFI may execute in the mode (R81); in Endpaper it is a no-op (R478). -/
def Hart.wfiCheck (t : Hart) : CsrCheck :=
  if t.priv = 3 ∨ t.world then .ok
  else if (t.rd 0x300).getLsbD 21 then .illegal
  else if t.virt then (if t.priv = 0 ∨ (t.rd 0x600).getLsbD 21 then .virtual else .ok)
  else if t.priv = 0 then .illegal
  else .ok

/-- WFI (R81, R478, R505): the hart waits unless an enabled interrupt is pending. -/
def State.wfiInstr (s : State) (h raw len : Nat) : State × Bool :=
  let t := s.hart h
  if t.wfiCheck ≠ .ok then (s.refuseCsr h (rawBits raw) t.wfiCheck, true)
  else
    let s1 := s.next h len
    if t.world ∨ t.mip (s.hartCount h) &&& (t.rd 0x304).toNat ≠ 0 ∨ (t.rd 0x7B0).getLsbD 2 then (s1, true)
    else ((s1.modHart h (fun x => { x with run := .wfi })).idleCore (coreOf h), true)

/-- A pending interrupt ends WFI, PAUSE, and is taken where the mode admits it (R96, R109, R478); a core that sleeps deeper than CS1 wakes
first (R505). An access that must not be repeated is awaited (R133). -/
def State.takeInterrupt (s : State) (h : Nat) : State :=
  let t := s.hart h
  let awake := decide (s.f (CPU_CORE_STATUSc.STATE (coreOf h)) < 2) && decide (s.cs (coreOf h) < 2)
  let take (a : State) : State := match a.intFor h with
    | some (lvl, n) => a.interrupt h lvl n
    | none => a
  if !awake || t.io.isSome || t.atomic.isSome then s
  else
    match t.run with
    | .running => take s
    | .paused =>
      if (s.intFor h).isSome then take (s.modHart h (fun x => { x with run := .running })) else s
    | .wfi =>
      if t.mip (s.hartCount h) &&& (t.rd 0x304).toNat ≠ 0 then
        take ((s.modHart h (fun x => { x with run := .running })).idleCore (coreOf h))
      else s
    | .agw _ _ => if (s.intFor h).isSome then take (s.endWait h 2) else s
    | .agwLost c _ _ =>
      if (s.intFor h).isSome then take (s.endWait h (if c = 0 then 0 else 2)) else s
    | _ => s

/-! ### Xagw (R95 to R98) -/

/-- A wait begins: what has already happened ends it at once, the highest in the table of R95 first. -/
def State.beginWait (s : State) (h rd len deadline : Nat) : State × Bool :=
  let t := s.hart h
  let done (code : Nat) : State × Bool :=
    (((s.dropReservation h).modHart h (fun x => x.setX rd (BitVec.ofNat 64 code))).next h len, true)
  if t.resv.isNone then done 0
  else if (s.intFor h).isSome then done 2
  else if deadline ≤ s.hartCount h then done 1
  else (((s.modHart h (fun x => { x with run := .agw deadline rd, constrained := false })).freeHeld h).idleCore (coreOf h), false)

/-- The ending event of a wait reaches the core (R95, R97): what ends it is the highest event of the table that is present; with none, the
deadline `reach`es. A core in CS2 or CS3 must wake first (R505). -/
def State.waitEnds (s : State) (h : Nat) (reach : Bool) : State :=
  let t := s.hart h
  if 1 < s.cs (coreOf h) ∨ 1 < s.f (CPU_CORE_STATUSc.STATE (coreOf h)) then s
  else
    let int := (s.intFor h).isSome
    match t.run with
    | .agwLost c d _ => s.endWait h (if c = 0 then 0 else if int then 2 else if d ≤ s.hartCount h then 1 else c)
    | .agw d _ =>
      if int then s.endWait h 2 else if d ≤ s.hartCount h ∨ reach then (s.until (s.countFor h d)).endWait h 1 else s
    | _ => s

/-! ### Xage (R105 to R109, R476, R477) -/

/-- Whether AGE.CALL may be executed in the mode (R105). -/
def Hart.callCheck (t : Hart) : CsrCheck :=
  if t.world ∨ t.priv = 0 then .illegal else if t.virt then .virtual else .ok

/-- The registers that a call clears: every x but a0 to a7, every f and v (R476). -/
def Hart.clearForCall (t : Hart) : Hart :=
  { t with x := t.x.filter (fun (e : Nat × Word) => decide (10 ≤ e.1 ∧ e.1 ≤ 17)), f := [], v := [] }

/-- The hart enters its Endpaper (R476): `caller` is the text-world mode that mtval shows, `back` the pc of the return. -/
def State.enterEndpaper (s : State) (h caller : Nat) (callPc back : Word) : State :=
  let first := decide (s.f (ENDP_HARTn_STATUS.STATE h) = 1)
  let s1 := (s.settleCounts h).modHart h (fun t =>
    let t1 := t.clearForCall
    let t2 := (((t1.setCsrIn true 0x341 callPc).setCsrIn true 0x342 (if first then 49 else 48)).setCsrIn true 0x343
      (BitVec.ofNat 64 caller)).setCsrIn true 0x300 (wflag (t1.csrIn true 0x300) 3 false)
    { t2 with world := true, retPriv := caller, retPc := back, priv := 3, virt := false, resv := none, constrained := false, ntl := 0
              pc := wput (t2.csrIn true 0x305) 1 0 0, enterLeaf := s.leaf, skipLeaves := 0, run := .running })
  ((s1.freeHeld h).setF (ENDP_HARTn_STATUS.STATE h) 3).scrub h 0

/-- AGE.CALL (R105, R107, R109, R476): a pending interrupt first; an answer of the hardware; or the call. -/
def State.callInstr (s : State) (h raw len : Nat) : State × Bool :=
  let t := s.hart h
  let st := s.f (ENDP_HARTn_STATUS.STATE h)
  let answer (v : Word) : State × Bool := (s.modHart h (fun x => x.setX 10 v)).completes h len
  match s.intFor h with
  | some (lvl, n) => (s.interrupt h lvl n, true)
  | none =>
    if t.callCheck ≠ .ok then (s.refuseCsr h (rawBits raw) t.callCheck, true)
    else if st = 4 then answer 0xFFFFFFFFFFFFFFF0
    else if st ≠ 1 ∧ st ≠ 2 then answer 0xFFFFFFFFFFFFFFEF
    else ((s.retired h).enterEndpaper h t.priv t.pc (t.pc + BitVec.ofNat 64 len), true)

/-- BOOT.LOAD_BASE of the settings. -/
def State.loadBase (s : State) : Word := BitVec.ofNat 64 ((s.setting 0x8B).toNat / 4096 % 2 ^ 40 * 4096)

/-- A hart is released in the text world in M-mode at LOAD_BASE (R545): `a0`. -/
def State.releaseHart (s : State) (h : Nat) (a0 : Word) : State :=
  s.modHart h (fun t => { ({ t with x := [], f := [], v := [] }).setX 10 a0 with
    pc := s.loadBase, priv := 3, virt := false, world := false, run := .running, resv := none, constrained := false, ntl := 0 })

/-- Every other hart of every core that is not LOST is released, with a0 = 1 (R545). -/
def State.releaseOthers (s : State) : State :=
  let s1 := (List.range 384).foldl (fun a h =>
    if (a.hart h).run = .held ∧ a.lostCore (coreOf h) = false then a.releaseHart h 1 else a) s
  s1.modSvc (fun v => { v with othersHeld := false })

/-- AGE.RET (R106, R477, R545): in Endpaper M-mode, back to the text world; the boot hart's first one releases the others. -/
def State.retInstr (s : State) (h raw : Nat) : State × Bool :=
  let t := s.hart h
  if t.world = false ∨ t.priv ≠ 3 then s.notLegal h raw
  else
    let s1 := (((s.retired h).toText h).freeHeld h).setF (ENDP_HARTn_STATUS.STATE h) 2
    (if s1.svc.othersHeld then s1.releaseOthers else s1, true)

/-! ### Interrupt files (R136, R538) -/

/-- An MSI sets the pending bit of an identity in a file; the files go on accepting them whatever the core does (R136, R151). -/
def State.msi (s : State) (h file id : Nat) : State :=
  if id = 0 ∨ 255 < id ∨ 8 < file then s
  else s.modHart h (fun t => t.modFile file (fun f => { f with pend := f.pend ||| BitVec.shiftLeft (1 : BitVec 256) id }))

/-! ### The commands -/

/-- CSR_ACCESS (R92, R475). -/
def execCsrAccess (h raw : Nat) (wrong : List WrongAcc) (s : State) : Host.Outcome State Fault Refusal :=
  .next (s.running (s.hartRun h raw .csr wrong (fun a w len => a.csrInstr h raw w len)))

/-- AGFTE_WRITE (R99, R100). -/
def execAgfteWrite (h raw : Nat) (wrong : List WrongAcc) (s : State) : Host.Outcome State Fault Refusal :=
  .next (s.running (s.hartRun h raw .agfte wrong (fun a w len => a.csrInstr h raw w len)))

/-- MHPMEVENT_WRITE (R127). -/
def execMhpmeventWrite (h raw : Nat) (wrong : List WrongAcc) (s : State) : Host.Outcome State Fault Refusal :=
  .next (s.running (s.hartRun h raw .mhpm wrong (fun a w len => a.csrInstr h raw w len)))

/-- PAUSE (R91). -/
def execPauseHint (h raw : Nat) (s : State) : Host.Outcome State Fault Refusal :=
  .next (s.running (s.hartInstr h raw .pause (fun a _ len => a.pauseInstr h len)))

/-- WFI (R505). -/
def execWfi (h raw : Nat) (wrong : List WrongAcc) (s : State) : Host.Outcome State Fault Refusal :=
  .next (s.running (s.hartRun h raw .wfi wrong (fun a _ len => a.wfiInstr h raw len)))

/-- INTERRUPT (R96). -/
def execInterrupt (h : Nat) (s : State) : Host.Outcome State Fault Refusal := .next (s.running (s.takeInterrupt h))

/-- MSI (R136). -/
def execMsi (h file id : Nat) (s : State) : Host.Outcome State Fault Refusal := .next (s.running (s.msi h file id))

/-- AGW_WAIT (R95): the deadline is x[rs1]. -/
def execAgwWait (h raw : Nat) (s : State) : Host.Outcome State Fault Refusal :=
  .next (s.running (s.hartInstr h raw .wait (fun a w len => a.beginWait h (iRd w) len ((a.hart h).getX (iRs1 w)).toNat)))

/-- AGW_WAITR (R95): the deadline is the time plus x[rs1], saturating. -/
def execAgwWaitr (h raw : Nat) (s : State) : Host.Outcome State Fault Refusal :=
  .next (s.running (s.hartInstr h raw .waitr (fun a w len =>
    a.beginWait h (iRd w) len (min (2 ^ 64 - 1) (a.hartCount h + ((a.hart h).getX (iRs1 w)).toNat)))))

/-- AGW_WAIT_END (R95, R97). -/
def execAgwWaitEnd (h : Nat) (reach : Bool) (s : State) : Host.Outcome State Fault Refusal :=
  .next (s.running (s.waitEnds h reach))

/-- A speculation barrier completes (R103): nothing older is unresolved, and no load behind it runs ahead of a store before it. -/
def State.barrier (s : State) (h : Nat) : State := s.modHart h (fun t => { t with resolved := true, fresh := 0 })

/-- AGS_SB (R103). -/
def execAgsSb (h raw : Nat) (s : State) : Host.Outcome State Fault Refusal :=
  .next (s.running (s.hartInstr h raw .sb (fun a _ len => (a.barrier h).completes h len)))

/-- AGS_SCRUB (R104): a barrier, with the scrub. -/
def execAgsScrub (h raw : Nat) (s : State) : Host.Outcome State Fault Refusal :=
  .next (s.running (s.hartInstr h raw .scrub (fun a w len =>
    ((a.barrier h).scrub h (((a.hart h).getX (iRs1 w)).toNat % 8)).completes h len)))

/-- AGE_CALL (R105). -/
def execAgeCall (h raw : Nat) (wrong : List WrongAcc) (s : State) : Host.Outcome State Fault Refusal :=
  .next (s.running (s.hartRun h raw .call wrong (fun a _ len => a.callInstr h raw len)))

/-- AGE_RET (R106). -/
def execAgeRet (h raw : Nat) (wrong : List WrongAcc) (s : State) : Host.Outcome State Fault Refusal :=
  .next (s.running (s.hartRun h raw .ret wrong (fun a _ _ => a.retInstr h raw)))

end Sys2Proof.Machine
end

