-- ==== Sys2Proof/Machine/Debug.lean ====
section
/-! DEFINITION. The debug module that the service ports reach (R489, R559; the RISC-V Debug Specification, log entry 6), with the requests
that a takeover holds until its leaf T (R141 step 7). -/

namespace Sys2Proof.Machine

open Sys2Proof

/-! ### The debug module (R489, R559; the RISC-V Debug Specification, log entry 6) -/

/-- What the debug module knows of hart h. -/
def State.dmHart (s : State) (h : Nat) : BitVec 32 := s.svc.dm.get 0 (0x1000 + h)

/-- Change a register of the debug module. -/
def State.setDm (s : State) (a : Nat) (v : BitVec 32) : State := s.modSvc (fun x => { x with dm := x.dm.set 0 a v })

/-- The hart that dmcontrol selects. -/
def State.dmSel (s : State) : Nat :=
  let c := s.svc.dm.get 0 0x10
  (c.toNat / 2 ^ 16 % 2 ^ 10) + (c.toNat / 2 ^ 6 % 2 ^ 10) * 2 ^ 10

/-- Whether a hart can be reached: it has been released and its logical core is not LOST (R151). -/
def State.dmAvail (s : State) (h : Nat) : Bool := decide ((s.hart h).run ≠ .held ∧ (s.hart h).run ≠ .stopped) && !s.lostCore (coreOf h)

/-- dmstatus for the selected hart. -/
def State.dmStatus (s : State) : Nat :=
  let h := s.dmSel
  let two (b : Bool) (n : Nat) : Nat := if b then 3 * 2 ^ n else 0
  let there := decide (h < 384)
  let up := there && s.dmAvail h
  let halted := decide ((s.hart h).run = .debug)
  3 + 2 ^ 7 + two (up && halted) 8 + two (up && !halted) 10 + two (there && !up) 12 + two (!there) 14 +
    two (there && (s.dmHart h).getLsbD 2) 16 + two (there && (s.dmHart h).getLsbD 1) 18

/-- Which harts of a group of 32 are halted. -/
def State.haltSum (s : State) (g : Nat) : Nat :=
  (List.range 32).foldl (fun a i => if 32 * g + i < 384 ∧ (s.hart (32 * g + i)).run = .debug then a + 2 ^ i else a) 0

/-- Whether debug requests for a hart's core are held: its takeover has not reached T (R141). -/
def State.debugHeld (s : State) (h : Nat) : Bool := decide (s.f (CPU_CORE_STATUSc.STATE (coreOf h)) = 2)

/-- Whether an abstract command is held for a core in a takeover; what holds it are words 0x2000, the command, and 0x2001, its hart plus one. -/
def State.dmBusy (s : State) : Bool :=
  let w := (s.svc.dm.get 0 0x2001).toNat
  decide (w ≠ 0) && s.debugHeld (w - 1)

/-- A register of the debug module: data0, data1, dmcontrol, dmstatus, abstractcs, haltsum0 and haltsum1; the others read zero. -/
def State.dmRead (s : State) (a : Nat) : Nat :=
  if a = 0x04 ∨ a = 0x05 ∨ a = 0x10 then (s.svc.dm.get 0 a).toNat
  else if a = 0x11 then s.dmStatus
  else if a = 0x16 then (s.svc.dm.get 0 0x16).toNat + 2 + (if s.dmBusy then 2 ^ 12 else 0)
  else if a = 0x40 then s.haltSum (s.dmSel / 32)
  else if a = 0x13 then (List.range 12).foldl (fun acc g => if s.haltSum g = 0 then acc else acc + 2 ^ g) 0
  else 0

/-- An abstract command ends with an error, which stands until it is cleared. -/
def State.dmError (s : State) (e : Nat) : State := s.setDm 0x16 (BitVec.ofNat 32 (e * 2 ^ 8))

/-- The debug module is used while a command runs: error 1, unless another stands. -/
def State.dmBusyError (s : State) : State := if s.svc.dm.get 0 0x16 = 0 then s.dmError 1 else s

/-- Whether the hart's CSR can be reached from debug mode. -/
def Hart.debugCsr (t : Hart) (a : Nat) (write : Bool) : Bool := decide (({ t with priv := 3, virt := false } : Hart).csrCheck a write = .ok)

/-- An Access Register command on a halted hart: register `r`, 32 or 64 bits read, 64 bits written. -/
def State.accessReg (s : State) (h r : Nat) (wide write : Bool) : State :=
  let v : Word := (s.svc.dm.get 0 4).setWidth 64 ||| ((s.svc.dm.get 0 5).setWidth 64 <<< 32)
  let shown (a : State) (w : Word) : State :=
    let a1 := a.setDm 4 (w.setWidth 32)
    if wide then a1.setDm 5 ((w >>> 32).setWidth 32) else a1
  if write && !wide then s.dmError 2
  else if 0x1000 ≤ r ∧ r < 0x1020 then
    (if write then s.modHart h (fun t => t.setX (r - 0x1000) v) else shown s ((s.hart h).getX (r - 0x1000)))
  else if 0x1020 ≤ r ∧ r < 0x1040 then
    (if write then s.modHart h (fun t => { t with f := t.f.set 0 (r - 0x1020) v }) else shown s ((s.hart h).f.get 0 (r - 0x1020)))
  else if r < 0x1000 then
    (if !(s.hart h).debugCsr r write then s.dmError 3
     else if write then s.csrStore h r v
     else
       let (s1, w) := s.csrRead h r
       shown s1 w)
  else s.dmError 2

/-- An abstract command for hart `h` runs: only Access Register is implemented, without a program buffer. -/
def State.dmRun (s : State) (h v : Nat) : State :=
  if v / 2 ^ 24 ≠ 0 ∨ v.testBit 18 then s.dmError 2
  else if 383 < h ∨ (s.hart h).run ≠ .debug ∨ s.debugActs h = false then s.dmError 4
  else
    let size := v / 2 ^ 20 % 8
    let s1 := if !v.testBit 17 then s
      else if size = 2 ∨ size = 3 then s.accessReg h (v % 2 ^ 16) (decide (size = 3)) (v.testBit 16) else s.dmError 2
    if v.testBit 19 ∧ s1.svc.dm.get 0 0x16 = 0 then s1.setDm 0x17 (BitVec.ofNat 32 (v - v % 2 ^ 16 + (v + 1) % 2 ^ 16)) else s1

/-- A write to `command`; in a takeover the command waits for T (R141). -/
def State.dmCommand (s : State) (v : Nat) : State :=
  let h := s.dmSel
  if s.svc.dm.get 0 0x16 ≠ 0 then s
  else if h < 384 ∧ s.debugHeld h = true then (s.setDm 0x2000 (BitVec.ofNat 32 v)).setDm 0x2001 (BitVec.ofNat 32 (h + 1))
  else s.dmRun h v

/-- A halted hart resumes at dpc in the mode that dcsr holds. -/
def State.dmResume (s : State) (h : Nat) : State :=
  if (s.hart h).run ≠ .debug ∨ s.debugActs h = false then s
  else
    (s.modHart h (fun t =>
      let d := t.rd 0x7B0
      let pr := wbits d 1 0
      let t1 := if pr < 3 then t.wr 0x300 (wflag (t.rd 0x300) 17 false) else t
      { t1 with run := .running, priv := pr, virt := d.getLsbD 5 && decide (pr < 3), pc := t.rd 0x7B1 })).setDm (0x1000 + h) (s.dmHart h ||| 4)

/-- A hart halts where its halt request stands and may act. -/
def State.dmHalt (s : State) (h : Nat) : State :=
  if s.haltDue h && s.dmAvail h && decide ((s.hart h).run ≠ .debug) then s.enterDebug h 3 else s

/-- A write to dmcontrol: halt and resume requests of the selected hart; the module is not reset by it (R541). -/
def State.dmControl (s : State) (v : Nat) : State :=
  if !v.testBit 0 then s.modSvc (fun x => { x with dm := [] })
  else
    let sel := v / 2 ^ 6 % 2 ^ 20 * 2 ^ 6
    let s1 := s.setDm 0x10 (BitVec.ofNat 32 (1 + sel))
    let h := s1.dmSel
    if 383 < h ∨ s.lostCore (coreOf h) then s1
    else
      let old := s1.dmHart h
      let a := if v.testBit 28 then old &&& ~~~2 else old
      if v.testBit 31 then
        let s2 := s1.setDm (0x1000 + h) (a ||| 1)
        if s2.debugHeld h then s2 else s2.dmHalt h
      else
        let s2 := s1.setDm (0x1000 + h) (a &&& ~~~1)
        if v.testBit 30 then
          (if s2.debugHeld h then s2.setDm (0x1000 + h) ((a &&& ~~~5) ||| 8) else (s2.setDm (0x1000 + h) (a &&& ~~~5)).dmResume h)
        else s2

/-- A write to a register of the debug module; all but dmcontrol are writable only while dmactive is 1. -/
def State.dmWrite (s : State) (a v : Nat) : State :=
  if a = 0x10 then s.dmControl v
  else if (s.svc.dm.get 0 0x10).getLsbD 0 = false then s
  else if s.dmBusy then (if a = 0x04 ∨ a = 0x05 ∨ a = 0x16 ∨ a = 0x17 then s.dmBusyError else s)
  else if a = 0x04 ∨ a = 0x05 then s.setDm a (BitVec.ofNat 32 v)
  else if a = 0x16 then s.setDm 0x16 (s.svc.dm.get 0 0x16 &&& ~~~(BitVec.ofNat 32 v &&& 0x700))
  else if a = 0x17 then s.dmCommand v
  else s

/-- At leaf T of a takeover, the debug requests held for the core's harts are delivered (R141 step 7). -/
def State.dmDeliver (s : State) (c : Nat) : State :=
  if s.f (CPU_CORE_STATUSc.STATE c) = 2 then s
  else
    let w := (s.svc.dm.get 0 0x2001).toNat
    let s1 : State := [2 * c, 2 * c + 1].foldl (fun (a : State) h =>
      let d := a.dmHart h
      let a1 := if d.getLsbD 3 then (a.setDm (0x1000 + h) (d &&& ~~~8)).dmResume h else a
      a1.dmHalt h) s
    if w ≠ 0 ∧ coreOf (w - 1) = c then ((s1.dmRun (w - 1) (s1.svc.dm.get 0 0x2000).toNat).setDm 0x2000 0).setDm 0x2001 0 else s1

end Sys2Proof.Machine
end

