-- ==== Sys2Proof/Machine/Links.lean ====
section
/-! DEFINITION. Module links (chapter Module Links and Evacuation, R437 to R447, R451 to R453): flits and replay, training and
retraining, lost partners, and the evacuation of a module. -/

namespace Sys2Proof.Machine

open Sys2Proof

/-! ### A link's state -/

/-- The STATE of link j: 0 DISABLED, 1 TRAINING, 2 BACKOFF, 3 ACTIVE, 4 RETRAIN, 5 CLASH, 6 DOWN. -/
def State.linkStateOf (s : State) (j : Nat) : Nat := s.f (BL_Lj_STATUS.STATE j)

/-- The STATE that a link's ports show (PRT_Pp_STATUS). -/
def portStateOfLink (st : Nat) : Nat :=
  if st = 0 then 0 else if st = 1 then 2 else if st = 2 then 3 else if st = 3 then 4 else if st = 4 then 5 else 1

/-- Set a link's STATE, which its four ports show as well. -/
def State.setLinkState (s : State) (j st : Nat) : State :=
  (List.range 4).foldl (fun a i =>
    let p := 4 * j + i
    let up := decide (st = 3 ∨ st = 4)
    ((a.setF (PRT_Pp_STATUS.STATE p) (portStateOfLink st)).setF (PRT_Pp_STATUS.GEN p)
      (if up then min 6 (max 5 (s.f (PRT_Pp_CFG.MAXGEN (4 * j)))) else 0)).setF (PRT_Pp_STATUS.NWIDTH p)
      (if up then s.f (BL_Lj_STATUS.WIDTH j) else 0)) (s.setF (BL_Lj_STATUS.STATE j) st)

/-- Whether a route of R438 to module m has an ACTIVE link, as BL_PEERm is written. -/
def State.hasRoute (s : State) (m : Nat) : Bool := ({ s with held := [] }.routeTo m 0).isSome

/-- Messages that waited for a link are sent, where a route has come (R438). -/
def State.retryWaiting (s : State) : State :=
  s.blWaiting.foldl (fun a (x : Nat × LinkMsg) =>
    let addr := match x.2 with
      | .packet _ _ _ _ _ ad _ _ _ _ _ => ad
      | _ => 0
    let link := match x.2 with
      | .raw _ => pickLink (a.directLinks x.1) addr
      | _ => a.routeTo x.1 addr
    match link with
    | some j => a.sendOn j x.2
    | none => { a with blWaiting := a.blWaiting ++ [x] }) { s with blWaiting := [] }

/-- The STATE of every partner follows its routes (R447): 0 ABSENT, 1 LINKED, 2 ISOLATED; LOST and DEPARTED stay. -/
def State.showPeers (s : State) : State :=
  ((List.range 8).foldl (fun a m =>
    let st := a.f (BL_PEERm.STATE m)
    if m = a.moduleNo then a
    else if a.hasRoute m then (if st = 0 ∨ st = 2 then a.setF (BL_PEERm.STATE m) 1 else a)
    else if st = 1 then { a.setF (BL_PEERm.STATE m) 2 with peerSince := a.peerSince.set 0 m a.leaf }
    else a) s).retryWaiting

/-- What waits in a link's queue is sent, as far as the link takes it; `fuel` bounds the messages. -/
def State.pump (s : State) (j : Nat) : Nat → State
  | 0 => s
  | fuel + 1 =>
    let b := s.blink j
    match b.queue with
    | [] => s
    | m :: rest =>
      if b.unacked.length < 1024 ∧ b.halted = false ∧ s.linkStateOf j = 3 then
        let s1 := (s.modLink j (fun b => { b with queue := [] })).sendOn j m
        (s1.modLink j (fun b => { b with queue := rest })).pump j fuel
      else s

/-- The distance from one sequence number to another. -/
def seqGap (a b : Nat) : Nat := (a + 4096 - b) % 4096

/-- An ACK covers flits (R440): they leave the replay buffer, and what waited for room is sent. -/
def State.ackUpTo (s : State) (j ack : Nat) : State :=
  let b := s.blink j
  let kept := match b.unacked with
    | [] => []
    | (q, _) :: _ => if seqGap ack q < b.unacked.length then b.unacked.drop (seqGap ack q + 1) else b.unacked
  if kept.length = b.unacked.length then s
  else (s.modLink j (fun b => { b with unacked := kept, resends := 0, ackAt := s.count })).pump j b.queue.length

/-! ### Going down, retraining (R443 to R446) -/

/-- A control message on a link. -/
def State.control (s : State) (j op : Nat) (args : List Nat) : State := s.sendOn j (.control op args)

/-- An attempt begins: the link trains, unless its ports are no BROIP ports. -/
def State.trainLink (s : State) (j : Nat) : State :=
  if (List.range 4).all (fun i => decide (s.f (PRT_Pp_CFG.MODE (4 * j + i)) = 2)) then
    (s.setLinkState j 1).modLink j (fun b => { b with since := s.count, asked := 0, halted := false })
  else s.setLinkState j 0

/-- A link goes DOWN (R443, R446): its unacknowledged flits are kept, and the partner is told over another link. -/
def State.goDown (s : State) (j : Nat) : State :=
  let s1 := ((s.setF (BL_Lj_STATUS.WIDTH j) 0).setLinkState j 6).raise BL_ALARM.LINK_DOWN
  let peer := s.f (BL_Lj_STATUS.PEER_MOD j)
  let last := ((s.blink j).expect + 4095) % 4096
  let others := (s1.directLinks peer).filter (fun k => decide (k ≠ j))
  match others with
  | [] => s1
  | k :: _ => s1.control k 5 [s.moduleNo, j, last]

/-- A link goes DOWN, and trains. -/
def State.dropLink (s : State) (j : Nat) : State := ((s.goDown j).trainLink j).showPeers

/-- A retrain begins at both ends (R444). -/
def State.beginRetrain (s : State) (j : Nat) : State :=
  (s.setLinkState j 4).modLink j (fun b => { b with since := s.count, asked := 0, halted := true })

/-- This end requests a retrain (2) or a change of width (3): it stops PAYLOAD flits with the request. -/
def State.askRetrain (s : State) (j op : Nat) : State :=
  if s.linkStateOf j = 3 then
    (if (s.blink j).asked ≠ 0 then s
    else (s.control j op []).modLink j (fun b => { b with asked := op, halted := true }))
  else s

/-- The partner's request arrives: while this end's own is outstanding, the request of the module with the lower serial proceeds. -/
def State.retrainAsked (s : State) (j : Nat) : State :=
  if s.linkStateOf j = 3 then
    let b := s.blink j
    if b.asked ≠ 0 ∧ (s.reg SVC_IDENT0).toNat < (b.serial.getD 0).toNat then s
    else ((s.modLink j (fun b => { b with again := if b.asked ≠ 0 then b.asked else b.again })).control j 4 []).beginRetrain j
  else s

/-- A GRANT arrives. -/
def State.granted (s : State) (j : Nat) : State :=
  if s.linkStateOf j = 3 ∧ (s.blink j).asked ≠ 0 then s.beginRetrain j else s

/-- The lanes of link j that are disabled at this end (R419). -/
def State.lanesOff (s : State) (j : Nat) : Nat := s.f (PRT_Gj_LANES.DISABLED j)

/-- The width code that a set of disabled lanes leaves (R445): 3 ×8, 2 ×4, 1 ×2, 0 none. -/
def linkWidth (off : Nat) : Nat :=
  let free (a n : Nat) : Bool := (List.range n).all (fun i => !off.testBit (a + i))
  if free 0 8 then 3 else if free 0 4 || free 4 4 then 2 else if (List.range 4).any (fun k => free (2 * k) 2) then 1 else 0

/-- This end's TRAIN flit (R443), outside the sequence: its module, serial, link, disabled lanes, and the last SEQ that it accepted. -/
def State.sendTrain (s : State) (j : Nat) : State :=
  let b := s.blink j
  s.putFlit j b.next 3 (some (.control 1 [s.moduleNo, (s.reg SVC_IDENT0).toNat, j, s.lanesOff j, (b.expect + 4095) % 4096]))

/-- TRAIN flits are exchanged (R443): the partner's module, serial, link, disabled lanes, and the last SEQ it accepted. -/
def State.trained (old : State) (j m : Nat) (serial : Word) (link off last : Nat) : State :=
  let st := old.linkStateOf j
  if st = 1 ∨ st = 4 then
    let s := old.sendTrain j
    if m = s.moduleNo then (s.setLinkState j 5).raise BL_ALARM.MID_CLASH
    else
      let w := linkWidth (off ||| s.lanesOff j)
      if w = 0 then ((if st = 4 then s.goDown j else (s.setF (BL_Lj_STATUS.WIDTH j) 0).setLinkState j 6).raise BL_ALARM.NO_WIDTH).showPeers
      else
        let b := s.blink j
        let fresh := decide (b.serial ≠ none ∧ b.serial ≠ some serial)
        let s0 := if fresh then s.modLink j (fun _ => {}) else s
        let s1 := ((((s0.setF (BL_Lj_STATUS.PEER_MOD j) m).setF (BL_Lj_STATUS.PEER_LINK j) link).setF (BL_Lj_STATUS.WIDTH j) w).setF
          (BL_Lj_STATUS.BACKOFF_K j) 0).setLinkState j 3
        let s2 := s1.modLink j (fun b => { b with
          serial := some serial, disabled := off, asked := 0, halted := false, naked := false, resends := 0, ackAt := s.count, lastGood := s.leaf })
        let s3 := s2.ackUpTo j last
        let s4 := (s3.blink j).unacked.foldl (fun a (x : Nat × LinkMsg) => a.putFlit j x.1 (if x.2.payload then 0 else 3) (some x.2)) s3
        let s5 := s4.pump j (s4.blink j).queue.length
        let s6 := if s5.f (BL_PEERm.STATE m) = 4 then s5.setF (BL_PEERm.STATE m) 0 else s5
        let s7 := s6.showPeers
        if (s7.blink j).again ≠ 0 then (s7.askRetrain j (s7.blink j).again).modLink j (fun b => { b with again := 0 }) else s7
  else old

/-- An attempt is not ACTIVE within 2 ms; a retrain that fails makes the link DOWN. -/
def State.trainFails (s : State) (j : Nat) : State :=
  let st := s.linkStateOf j
  if st = 1 ∨ st = 4 then
    let s1 := s.until ((s.blink j).since + 512000)
    if st = 4 then s1.dropLink j
    else
      let n := s1.f (BL_Lj_STATUS.BACKOFF_K j) + 1
      (((s1.setF (BL_Lj_STATUS.BACKOFF_K j) (min n 15)).setLinkState j 2).modLink j (fun b => { b with since := s1.count })).raiseIf
        (decide (n = 3)) BL_ALARM.TRAIN_FAIL
  else s

/-- The wait of 2 ms × 2^(n − 1), at most 1 s, ends. -/
def State.linkBackoffEnd (s : State) (j : Nat) : State :=
  if s.linkStateOf j = 2 then
    (s.until ((s.blink j).since + min (512000 * 2 ^ (s.f (BL_Lj_STATUS.BACKOFF_K j) - 1)) 256000000)).trainLink j
  else s

/-- Four leaves pass without a flit that has a good CRC. -/
def State.silence (s : State) (j : Nat) : State :=
  if s.linkStateOf j = 3 then (s.untilLeaf ((s.blink j).lastGood + 4)).dropLink j else s

/-! ### Flits (R439 to R442) -/

/-- Every flit after an ACK is sent again; one that was sent again too often makes the link retrain (R442). -/
def State.resend (s : State) (j : Nat) : State :=
  let b := s.blink j
  if b.unacked.isEmpty || decide (s.linkStateOf j ≠ 3) then s
  else if s.f BL_CTL.REPLAY_LIMIT ≤ b.resends then s.askRetrain j 2
  else
    let s1 := (((s.incF (BL_Lj_STATUS.REPLAYS j)).raise BL_ALARM.REPLAY).lifeInc (0x7100 + (21 + j) * 8) 0 64).modLink j (fun b => { b with
      resends := b.resends + 1, ackAt := s.count })
    b.unacked.foldl (fun a (x : Nat × LinkMsg) => a.putFlit j x.1 (if x.2.payload then 0 else 3) (some x.2)) s1

/-- A NAK arrives. -/
def State.nakked (s : State) (j ack : Nat) : State := (s.ackUpTo j ack).resend j

/-- No ACK has advanced for 2 µs. -/
def State.replayTimeout (s : State) (j : Nat) : State :=
  if (s.blink j).unacked.isEmpty then s else (s.until ((s.blink j).ackAt + 512)).resend j

/-- A lost flit is asked for again, once (R441). -/
def State.sendNak (s : State) (j : Nat) : State :=
  if (s.blink j).naked then s else (s.putFlit j (s.blink j).next 2 none).modLink j (fun b => { b with naked := true })

/-- Slot i of a flit. -/
def flitSlot (bytes : List Byte) (i : Nat) : BitVec 128 := BitVec.ofNat 128 (leNat ((bytes.drop (8 + 16 * i)).take 16))

/-- The number of slots of a packet, by its header's NDATA (R199). -/
def packetSlots (h : BitVec 128) : Nat := 1 + 2 * (h.toNat / 2 ^ 67 % 4)

/-- The packets that a header's START names: their slots. -/
def flitPackets (bytes : List Byte) (start : Nat) : List (List (BitVec 128)) :=
  ((List.range 15).filter (fun i => start.testBit i)).map (fun i =>
    (List.range (packetSlots (flitSlot bytes i))).map (fun k => flitSlot bytes (i + k)))

/-- Whether a flit is well formed (R439): its CRC, its TYPE, and its fields that are zero. -/
def flitGood (bytes : List Byte) : Bool :=
  let h := leNat (bytes.take 8)
  let type := h / 2 ^ 37 % 8
  let start := h / 2 ^ 22 % 2 ^ 15
  let used (k : Nat) : Bool := (List.range 15).any (fun i => start.testBit i && decide (i ≤ k ∧ k < i + packetSlots (flitSlot bytes i)))
  decide (bytes.length = 256) && decide (crc64 (bytes.take 248) = BitVec.ofNat 64 (leNat (bytes.drop 248))) && decide (type < 4) &&
    decide (h % 16 = 0) && (decide (type = 3) || (List.range 15).all (fun k => used k || decide (flitSlot bytes k = 0))) &&
    (flitPackets bytes start).all (fun p => decide ((p.headD 0).toNat / 2 ^ 52 % 8 = 0) && !(Header.of (p.headD 0)).reserved)

/-- A packet that arrives for another module goes on over a direct link only (R438). -/
def State.forward (s : State) (p : List (BitVec 128)) : State :=
  let h := (p.headD 0).toNat
  let m := h / 2 ^ 122 % 8
  if m = s.moduleNo then s
  else
    match pickLink (s.directLinks m) (h % 2 ^ 52) with
    | some j => s.sendOn j (.raw p)
    | none => { s.raise BL_ALARM.ROUTE_ERR with blWaiting := s.blWaiting ++ [(m, .raw p)] }

/-- The slots of an accepted packet are freed at once, as credits of its class (R439). -/
def State.freeSlots (s : State) (j : Nat) (p : List (BitVec 128)) : State :=
  s.modLink j (fun b => { b with freed := b.freed.modify 0 (Header.of (p.headD 0)).cls (· + p.length) })

/-- A flit is received (R441). The effect of a packet for this module, or of a control message, is that of its own command. -/
def State.flit (s : State) (j : Nat) (bytes : List Byte) : State :=
  if s.linkStateOf j ≠ 3 ∧ s.linkStateOf j ≠ 4 then s
  else if !flitGood bytes then s.sendNak j
  else
    let h := leNat (bytes.take 8)
    let seq := h / 2 ^ 52 % 4096
    let type := h / 2 ^ 37 % 8
    let s1 := (s.modLink j (fun b => { b with lastGood := s.leaf })).ackUpTo j (h / 2 ^ 40 % 4096)
    let s2 := if type = 2 then s1.resend j else s1
    let d := seqGap seq (s2.blink j).expect
    if d = 0 then
      if type = 1 ∨ type = 2 then s2.modLink j (fun b => { b with naked := false })
      else
        let s3 := s2.modLink j (fun b => { b with expect := (b.expect + 1) % 4096, naked := false, told := b.told + 1 })
        let s4 := if type = 0 then (flitPackets bytes (h / 2 ^ 22 % 2 ^ 15)).foldl (fun a p => (a.freeSlots j p).forward p) s3 else s3
        if 32 ≤ (s4.blink j).told then s4.putFlit j (s4.blink j).next 1 none else s4
    else if d ≤ 1024 then s2.sendNak j
    else if d ≤ 3071 then s2.askRetrain j 2
    else s2

/-- The link that has trained with link k of module m. -/
def State.linkTo (s : State) (m k : Nat) : Option Nat :=
  (List.range 32).find? (fun j => decide (s.f (BL_Lj_STATUS.PEER_MOD j) = m ∧ s.f (BL_Lj_STATUS.PEER_LINK j) = k) && (s.blink j).serial.isSome)

/-- LINK_STATE (R446): the packets of a link's flits after a SEQ take the links that survive; an end that still takes the link as
ACTIVE takes it down. -/
def State.linkStateMsg (s : State) (m k last : Nat) : State :=
  match s.linkTo m k with
  | none => s
  | some j =>
    let s0 := if s.linkStateOf j = 3 ∨ s.linkStateOf j = 4 then s.dropLink j else s
    let s1 := s0.ackUpTo j last
    let b := s1.blink j
    let msgs := (b.unacked.map (·.2) ++ b.queue).filter LinkMsg.payload
    msgs.foldl (fun a x => match x with
      | .packet _ _ d _ _ ad _ _ _ _ _ => a.toModule d ad x
      | .raw p => a.forward p
      | .control _ _ => a) (s1.modLink j (fun b => { b with unacked := [], queue := [] }))

/-! ### Lanes of a link (R417, R445) -/

/-- A lane of link j was disabled: while the link is ACTIVE it asks for a change of width. -/
def State.linkLaneOff (s : State) (j : Nat) : State :=
  if s.linkStateOf j = 3 then (s.raise BL_ALARM.WIDTH_REDUCED).askRetrain j 3 else s

/-! ### Partners (R447) -/

/-- Every tile drops the lines homed at a module, Modified ones too (R187). -/
def State.dropHomed (s : State) (m : Nat) : State :=
  (List.range 216).foldl (fun a t =>
    let x := a.tile t
    let ls := (x.l2.lines.filterMap (fun (e : Nat × Option CLine) => e.2.map (·.line)) ++ x.vb.map (·.line)).filter (fun l => decide (s.moduleOfLine l = m))
    if ls.isEmpty && x.asks.isEmpty && x.wbs.isEmpty then a
    else (ls.foldl (fun (b : State) l => b.lineGone t l 3) a).modTile t (fun x =>
      let y := ls.foldl (fun z l => z.drop l) x
      { y with asks := y.asks.map (fun k => if s.moduleOfLine k.line = m then { k with ans := 2 } else k),
               wbs := y.wbs.filter (fun w => !decide (s.moduleOfLine w.1 = m)) })) s

/-- An entry without a module's tiles: of a COARSE one the module's mark goes, and with it a Forwarder there. -/
def DirEntry.withoutModule (d : DirEntry) (m : Nat) : DirEntry :=
  let d1 : DirEntry := if d.coarse ∧ d.modules.testBit m = true then { d with modules := d.modules - 2 ^ m } else d
  let d2 : DirEntry := { d1 with since := d1.since.map (fun l => l.filter (fun (h : Nat × Nat) => decide (h.1 ≠ m))) }
  if d2.fwd.any (fun h => decide (h.1 = m)) then { d2 with fwd := none } else d2

/-- The homes act on the loss of a module (R187): lines it owned are poison, it holds nothing any more, and no answer of its tiles is awaited. -/
def State.homesLose (s : State) (m : Nat) : State :=
  let s1 := (s.purgeHolder (fun h => decide (h.1 = m)) 3).raise L3_COH_ALARM.MODULE_LOST
  (List.range 216).foldl (fun a n =>
    let waits := (a.slice n).txns.flatMap (fun x => (x.await.filter (fun h => decide (h.1 = m))).map (fun h => (x.line, h)))
    let b := a.modSlice n (fun sl => { sl with dir := sl.dir.map (fun (e : Nat × Option DirEntry) =>
      (e.1, e.2.map (fun d => d.withoutModule m))) })
    waits.foldl (fun c w => c.homeAnswer w.1 w.2 true none) b)
    ((s1.recoveries.flatMap (fun r => (r.await.filter (fun h => decide (h.1 = m))).map (fun h => (r.name, h)))).foldl
      (fun a x => a.recoveryAnswer x.1 x.2) s1)

/-- Whether a change is that of an evacuation which this module runs. -/
def HwChange.evacuates : HwChange → Bool
  | .evacuate _ _ _ => true
  | _ => false

/-- A failure of the adopter before T stops an evacuation (R452): its change waits no more, and in a slot it is not
ready and comes to nothing. -/
def State.stopEvacuation (s : State) (m : Nat) : State :=
  let st := s.f BL_EVAC.STATE
  if s.f BL_EVAC.PEER = m ∧ (st = 1 ∨ st = 2) then
    [6, 7].foldl (fun a n =>
      if a.slotLive n && (a.slot n).change.evacuates then
        a.modSlot n (fun x => { x with change := .none, participants := [{ loc := ({ module := m, die := 7, quire := 0 } : Loc).packed }] })
      else a) { s.setF BL_EVAC.STATE 0 with waiting := s.waiting.filter (fun w => !w.change.evacuates) }
  else s

/-- The data movers' writes to a lost module end with MEM_ADDRESS (R447). -/
def State.writesLost (s : State) (m : Nat) : State :=
  { s with writes := s.writes.map (fun w => if s.moduleOfLine w.line = m ∧ w.sent = true then { w with left := 0, status := max w.status 1 } else w) }

/-- The answer to a request that waited for a lost module, sent on for another (R447): an access fault, to its source. -/
def State.refuseOnward (s : State) (x : Nat × LinkMsg) : State :=
  match x.2 with
  | .raw (b :: _) =>
    let h := Header.of b
    if h.cls = 0 then
      let r : Header := { h with
        dmod := h.smod, ddie := h.sdie, dx := h.sx, dy := h.sy, dport := h.sport, smod := s.moduleNo, sdie := h.ddie, sx := h.dx, sy := h.dy
        sport := h.dport, cls := 2, op := 3, psn := 0, ndata := 0 }
      s.toModule h.smod h.addr (.raw [r.bits])
    else s
  | _ => s

/-- Accesses of this module's harts to the I/O regions of a lost module end with an access fault (R187). -/
def State.ioLost (s : State) (m : Nat) : State :=
  { s with harts := s.harts.map (fun (e : Nat × Hart) => (e.1, match e.2.io with
      | some a => if a.ans.isNone ∧ ioModule a.addr = m then { e.2 with io := some { a with ans := some (2, 0) } } else e.2
      | none => e.2)) }

/-- The loss of partner m is handled (R187, R447). -/
def State.peerGone (s : State) (m : Nat) : State :=
  let s1 := ((s.homesLose m).dropHomed m).ioLost m
  let s2 := (s1.blWaiting.filter (fun x => decide (x.1 = m))).foldl State.refuseOnward
    ({ s1 with blWaiting := s1.blWaiting.filter (fun x => decide (x.1 ≠ m)) }.writesLost m)
  let s3 := (List.range 32).foldl (fun a j => if a.f (BL_Lj_STATUS.PEER_MOD j) = m ∧ a.linkStateOf j ≠ 3 then
    a.modLink j (fun b => { b with unacked := [], queue := [] }) else a) s2
  (s3.stopEvacuation m).logAt 0x0051 { module := s.moduleNo } 1 [m]

/-- A partner isolated for LOST_TO gatherings is LOST (R447): in a warm reset, its loss is handled after W3 (R551). -/
def State.losePeer (s : State) (m : Nat) : State :=
  if s.f (BL_PEERm.STATE m) = 2 ∧ m ≠ s.moduleNo then
    let s0 := s.untilLeaf (s.peerSince.get 0 m + 1024 * s.f BL_CTL.LOST_TO)
    let s1 := (s0.setF (BL_PEERm.STATE m) 3).raise BL_ALARM.PEER_LOST
    if s.svc.warmAt.isSome then { s1 with svc := { s1.svc with lostLater := s1.svc.lostLater ++ [m] } } else s1.peerGone m
  else s

/-- A write to BL_PEERm (R438, R447): its routes are those of packets sent from the next leaf edge, and a written STATE of 0 clears LOST. -/
def State.actPeer (m : Nat) (v : Word) (s : State) : State :=
  let s1 := (s.holdWord (BL_PEERm m)).applyWrite (BL_PEERm m) v
  (if s1.f (BL_PEERm.STATE m) = 3 ∧ (BL_PEERm.STATE m).of v = 0 then s1.setF (BL_PEERm.STATE m) 0 else s1).showPeers

/-! ### Evacuation (R451 to R453) -/

/-- Whether R451 refuses: `fits`: the region lies within the adopter's populated DRAM, and no other evacuation runs in the system. -/
def State.evacRefused (s : State) (op peer : Nat) (fits : Bool) : Bool :=
  !fits || decide (s.f (BL_PEERm.STATE peer) ≠ 1) || decide (s.f BL_EVAC.STATE ≠ 0) ||
    (if op = 0 then
      (List.range 256).any (fun i => decide (i ≠ 0) && decide (s.f (CSS_SIi_BIND.KIND i) ≠ 0)) ||
        (List.range 64).any (fun q => decide (s.qState q ≠ 0))
    else decide (s.windowHost peer ≠ s.moduleNo))

/-- A write to BL_EVAC: with GO, an evacuation or return starts, or is refused with nothing changed. -/
def State.actEvac (fits : Bool) (v : Word) (s : State) : State :=
  if BL_EVAC.GO.of v = 0 then s.applyWrite BL_EVAC v
  else
    let op := BL_EVAC.OP.of v
    let peer := BL_EVAC.PEER.of v
    if s.evacRefused op peer fits then s.raise BL_ALARM.EVAC_REFUSED
    else
      let s1 := ((s.applyWrite BL_EVAC v).setF BL_EVAC.STATE 1).setF BL_EVAC.PROGRESS 0
      if op = 0 then (List.range 384).foldl (fun a h => { a with harts := a.harts.set {} h { a.harts.get {} h with run := .stopped } }) s1 else s1

/-- The copy ends at leaf l (R452 steps 2 to 4): the tiles are flushed, and the change of decoders is armed in the next leaf. -/
def State.evacCopied (s : State) (l : Nat) : State :=
  if s.f BL_EVAC.STATE = 1 then
    let s0 := s.untilLeaf l
    let peer := s0.f BL_EVAC.PEER
    let back := decide (s0.f BL_EVAC.OP = 1)
    let s1 := ((s0.emit (.window peer (if back then 0 else s0.f BL_EVAC.ABASE * 2 ^ 30))).setF BL_EVAC.PROGRESS 100).setF BL_EVAC.STATE 2
    let s2 := (List.range 216).foldl (fun a t => a.flushTile t) s1
    s2.startHw (s2.leaf + 1) (if back then .evacuate peer peer true else .evacuate s.moduleNo peer false)
  else s

/-- The decoders of a window change at T (R452 step 5): the module that homed it recalls its lines from every tile. Nothing changes where the module
that is to home it is LOST. -/
def State.switchWindow (s : State) (e host : Nat) (back : Bool) : State :=
  if (if back then e else host) ≠ s.moduleNo ∧ s.f (BL_PEERm.STATE (if back then e else host)) = 3 then s
  else
    let s1 := if s.windowHost e = s.moduleNo then
        ((List.range 216).foldl (fun a n => a.recallAll n none (s.entriesOf n) (fun l =>
          decide (l * 64 / 2 ^ 46 = e) && decide (s.homeSlice (l * 64) = n))) s).setF BL_EVAC.STATE 3
      else s
    { s1 with decoders := s1.decoders.set 0 e (if back then 0 else host + 1) }

/-- A request that a home has held goes to the module that homes its line now (R452 step 6), as its source's. A mover of this module sends its
write anew; a tile of this module asks anew itself. -/
def State.passOn (s : State) (r : HomeReq) : State :=
  let from_ := match r.src with
    | .tile m t => (m, t)
    | .engine m d => (m, 216 + d)
  let m := s.moduleOfLine r.line
  let ps := r.kind.packets r.line
  if from_.1 = s.moduleNo then
    (if r.kind.writes && decide (216 ≤ from_.2) then
      ps.foldl (fun a (x : Nat × Nat × Bool × Option Line) => a.emit (.packet 0 r.kind.op m 255 from_.2 x.1 false x.2.2.1 x.2.2.2 x.2.1
          ((s.writes.find? (fun w => decide (216 + w.die = from_.2 ∧ w.line = r.line))).bind (·.inst))))
        { s with writes := s.writes.map (fun (w : EngWrite) =>
            if 216 + w.die = from_.2 ∧ w.line = r.line ∧ w.sent = true ∧ w.left ≠ 0 then { w with left := ps.length } else w) }
    else s)
  else
    ps.foldl (fun a (x : Nat × Nat × Bool × Option Line) =>
      a.toModule m x.1 (.raw (packetSlotsOf (unitEnd from_.1 from_.2 x.1) (unitEnd m 255 x.1) 0 r.kind.op x.1 r.world x.2.2.1 x.2.2.2 x.2.1 none))) s

/-- Whether every answer is in at the homes of the window that is handed over (R452 step 6). -/
def State.answersIn (s : State) : Bool :=
  s.recoveries.isEmpty && s.slices.all (fun (e : Nat × Slice) => !e.2.txns.any (fun x => s.leaving x.line))

/-- A request that a slice holds for a line which `p` picks. -/
def Stalled.heldFor (p : Nat → Bool) : Stalled → Option HomeReq
  | .request _ r => if p r.line then some r else none
  | .entry _ _ => none

/-- A slice without what it keeps of the lines that `p` picks: their data, their entries, and the requests for them. -/
def Slice.without (sl : Slice) (p : Nat → Bool) : Slice :=
  { sl with
    l3 := { sl.l3 with lines := sl.l3.lines.filter (fun (e : Nat × Option CLine) => !e.2.any (fun c => p c.line)) }
    dir := sl.dir.filter (fun (e : Nat × Option DirEntry) => !e.2.any (fun d => p d.line))
    stalled := sl.stalled.filter (fun x => (x.heldFor p).isNone) }

/-- All answers are in (R452 step 6): the requests that the homes held go on, and the module has DEPARTED and says so, or the return is at its
end. -/
def State.handedOver (s : State) : State :=
  if s.f BL_EVAC.STATE = 3 ∧ s.answersIn = true then
    let held := s.slices.flatMap (fun (e : Nat × Slice) => e.2.stalled.filterMap (Stalled.heldFor s.leaving))
    let s1 := { s with slices := s.slices.map (fun (e : Nat × Slice) => (e.1, e.2.without s.leaving)) }
    let s2 := held.foldl State.passOn ((s1.raise BL_ALARM.EVAC_DONE).setF BL_EVAC.STATE (if s.f BL_EVAC.OP = 0 then 4 else 0))
    if s.f BL_EVAC.OP = 0 then (List.range 32).foldl (fun a j => if a.linkStateOf j = 3 then a.control j 8 [s.moduleNo] else a) s2 else s2
  else s

/-! ### The commands -/

/-- FLIT: the 256 bytes of a flit, after forward error correction. -/
def execFlit (j : Nat) (bytes : List Byte) (s : State) : Host.Outcome State Fault Refusal := .next (s.running (s.flit j bytes))

/-- NAK. -/
def execNak (j ack : Nat) (s : State) : Host.Outcome State Fault Refusal := .next (s.running (s.nakked j ack))

/-- REPLAY_TIMEOUT. -/
def execReplayTimeout (j : Nat) (s : State) : Host.Outcome State Fault Refusal := .next (s.running (s.replayTimeout j))

/-- TRAIN. -/
def execTrain (j m : Nat) (serial : Word) (link off last : Nat) (s : State) : Host.Outcome State Fault Refusal :=
  .next (s.running (s.trained j m serial link off last))

/-- BROIP_TRAINING_TIMEOUT. -/
def execBroipTrainingTimeout (j : Nat) (s : State) : Host.Outcome State Fault Refusal := .next (s.running (s.trainFails j))

/-- BROIP_BACKOFF_END. -/
def execBroipBackoffEnd (j : Nat) (s : State) : Host.Outcome State Fault Refusal := .next (s.running (s.linkBackoffEnd j))

/-- LINK_SILENCE. -/
def execLinkSilence (j : Nat) (s : State) : Host.Outcome State Fault Refusal := .next (s.running (s.silence j))

/-- RETRAIN_REQ. -/
def execRetrainReq (j : Nat) (s : State) : Host.Outcome State Fault Refusal := .next (s.running (s.retrainAsked j))

/-- WIDTH_REQ. -/
def execWidthReq (j : Nat) (s : State) : Host.Outcome State Fault Refusal := .next (s.running (s.retrainAsked j))

/-- GRANT. -/
def execGrant (j : Nat) (s : State) : Host.Outcome State Fault Refusal := .next (s.running (s.granted j))

/-- LINK_STATE, from module m about its link k. -/
def execLinkState (m k last : Nat) (s : State) : Host.Outcome State Fault Refusal := .next (s.running (s.linkStateMsg m k last))

/-- PEER_LOST. -/
def execPeerLost (m : Nat) (s : State) : Host.Outcome State Fault Refusal := .next (s.running (s.losePeer m))

/-- CLEAR_LOST: BL_PEERm written with STATE = ABSENT, its other fields as they stand. -/
def execClearLost (who : Requester) (m : Nat) (s : State) : Host.Outcome State Fault Refusal :=
  let v := (BL_PEERm.STATE m).put 0 (s.reg (BL_PEERm m))
  .next (s.running (s.written who 8 (BL_PEERm m) v (fun a => a.actPeer m v)))

/-- EVACUATE: BL_EVAC written with GO = 1 and OP = EVACUATE. -/
def execEvacuate (who : Requester) (v : Word) (fits : Bool) (s : State) : Host.Outcome State Fault Refusal :=
  let w := BL_EVAC.GO.put 1 (BL_EVAC.OP.put 0 v)
  .next (s.running (s.written who 8 BL_EVAC w (fun a => a.actEvac fits w)))

/-- RETURN: BL_EVAC written with GO = 1 and OP = RETURN. -/
def execReturnHome (who : Requester) (v : Word) (fits : Bool) (s : State) : Host.Outcome State Fault Refusal :=
  let w := BL_EVAC.GO.put 1 (BL_EVAC.OP.put 1 v)
  .next (s.running (s.written who 8 BL_EVAC w (fun a => a.actEvac fits w)))

/-- EVACUATION_COPY_END. -/
def execEvacuationCopyEnd (l : Nat) (s : State) : Host.Outcome State Fault Refusal := .next (s.running (s.evacCopied l))

/-- EVACUATION_HANDOVER_END. -/
def execEvacuationHandoverEnd (s : State) : Host.Outcome State Fault Refusal := .next (s.running s.handedOver)

/-- DEPART, from module m. -/
def execDepart (m : Nat) (s : State) : Host.Outcome State Fault Refusal :=
  .next (s.running (if m = s.moduleNo then s else s.setF (BL_PEERm.STATE m) 4))

end Sys2Proof.Machine
end

