-- ==== Sys2Proof/Machine/Lanes.lean ====
section
/-! DEFINITION. Lanes and the spare circuit of a lane group (R417 to R419). -/

namespace Sys2Proof.Machine

open Sys2Proof

/-- The count of a lane in PRT_Gj_ERR. -/
def laneCount (lane : Nat) : Fld := ⟨PRT_Gj_ERR (lane / 8), 8 * (lane % 8) + 7, 8 * (lane % 8)⟩

/-- The event log record of a lane: action 0 spared, 1 disabled. -/
def State.logLane (s : State) (lane action : Nat) : State := s.logAt 0x0031 (s.portLoc (lane / 2)) 5 [lane, action]

/-- Receiver errors of a lane, counted since manufacture (R521). -/
def State.lifeLane (s : State) (lane n : Nat) : State :=
  let k := 64 * (0x6000 + 8 * lane)
  { s with life := s.life.set 0 k (min (s.life.get 0 k + n) (2 ^ 48 - 1)) }

/-- A disabled lane narrows its port's link, or ends it (R419, R426, R445). -/
def State.narrow (s : State) (lane : Nat) : State :=
  let p := s.leadPort (lane / 2)
  if s.f (PRT_Pp_CFG.MODE p) = 2 then s.linkLaneOff (lane / 8)
  else if s.trains p && s.portUp p then
    match s.widthLeft p with
    | none => s.leaveLink p 2 1
    | some w =>
      if w < s.f (PRT_Pp_STATUS.NWIDTH p) then
        ((s.enterRecovery p).setMembers p PRT_Pp_STATUS.NWIDTH w).raise PRT_ALARM.WIDTH_DEGRADED
      else s
  else s

/-- A lane is disabled (R419). -/
def State.disableLane (s : State) (lane : Nat) : State :=
  let j := lane / 8
  let s1 := s.setF (PRT_Gj_LANES.DISABLED j) (setBit (s.f (PRT_Gj_LANES.DISABLED j)) (lane % 8) true)
  ((s1.incF (laneCount lane)).logLane lane 1).narrow lane

/-- Whether a swap is posted for a lane of group j. -/
def State.swapPosted (s : State) (j : Nat) : Bool :=
  s.posted.any (fun e => match e.kind with
    | .laneSwap n => decide (n / 8 = j)
    | _ => false)

/-- A lane becomes due: its receiver errors of this gathering reach LANE_THRESH, or its circuit's check fails (R417 to R419). -/
def State.laneDue (s : State) (lane errs : Nat) (check : Bool) : State :=
  let j := lane / 8
  let thresh := s.f PRT_CTL.LANE_THRESH
  let off := (s.f (PRT_Gj_LANES.DISABLED j)).testBit (lane % 8)
  if off || !(check || (decide (thresh ≠ 0) && decide (thresh ≤ errs))) || (s.postedEvent (.laneSwap lane)).isSome then s
  else
    let s1 := s.lifeLane lane errs
    if s1.on (PRT_Gj_LANES.SPARE_USED j) && decide (s1.f (PRT_Gj_LANES.SPARE_POS j) = lane % 8) then
      let s2 := if check then s1.raise (PRT_Gj_LANES.SPARE_FAILED j) else s1
      if s2.gathering < s2.laneSwap.get 0 lane - 1 + 1024 then
        ((s2.setF (PRT_Gj_LANES.SPARE_USED j) 0).raise PRT_ALARM.LANE_EXTERNAL).disableLane lane
      else (s2.raise PRT_ALARM.LANE_NO_SPARE).disableLane lane
    else if s1.on (PRT_Gj_LANES.SPARE_USED j) || s1.on (PRT_Gj_LANES.SPARE_FAILED j) || s1.swapPosted j then
      (s1.raise PRT_ALARM.LANE_NO_SPARE).disableLane lane
    else s1.post (s1.leaf + 4) (.laneSwap lane)

/-- At the swap leaf the spare takes the lane's land pairs, and the port enters Recovery, or the module link retrains (R417, R445). -/
def State.swapLane (s : State) (lane : Nat) : State :=
  let j := lane / 8
  let p := s.leadPort (lane / 2)
  let s1 := ((((s.raise (PRT_Gj_LANES.SPARE_USED j)).setF (PRT_Gj_LANES.SPARE_POS j) (lane % 8)).incF (laneCount lane)).raise
    PRT_ALARM.LANE_SPARED).logLane lane 0
  let s2 := { s1 with laneSwap := s1.laneSwap.set 0 lane (s1.gathering + 1) }.lifeInc (0x6000 + 8 * lane) 48 16
  if s2.f (PRT_Pp_CFG.MODE p) = 2 then s2.askRetrain j 2 else s2.enterRecovery p

/-- LANE_DUE. -/
def execLaneDue (lane errs : Nat) (check : Bool) (s : State) : Host.Outcome State Fault Refusal := .next (s.running (s.laneDue lane errs check))

/-- LANE_SWAP. -/
def execLaneSwap (lane : Nat) (s : State) : Host.Outcome State Fault Refusal :=
  .next (s.running (s.fire (.laneSwap lane) (fun a => a.swapLane lane)))

end Sys2Proof.Machine
end

