-- ==== Sys2Proof/Machine/Inflate.lean ====
section
/-! DEFINITION. Decompression by the transform units (R400): DEFLATE streams of RFC 1951, raw or as zlib (RFC 1950) or gzip (RFC 1952),
and their check values. -/

namespace Sys2Proof.Machine

open Sys2Proof

/-! ### Check values -/

/-- One byte of the CRC-32 of gzip: polynomial 0x04C11DB7, reflected. -/
def crc32Byte (c : BitVec 32) (b : Byte) : BitVec 32 :=
  (List.range 8).foldl (fun a _ => if a.getLsbD 0 then (a >>> 1) ^^^ 0xEDB88320#32 else a >>> 1) (c ^^^ b.setWidth 32)

/-- The CRC-32 of a list of bytes. -/
def crc32 (bytes : List Byte) : BitVec 32 := ~~~ (bytes.foldl crc32Byte (BitVec.allOnes 32))

/-- The Adler-32 of a list of bytes. -/
def adler32 (bytes : List Byte) : Nat :=
  let (a, b) := bytes.foldl (fun (x : Nat × Nat) c => let a := (x.1 + c.toNat) % 65521; (a, (x.2 + a) % 65521)) (1, 0)
  b * 65536 + a

/-! ### The bits of a stream -/

/-- A reader of the bits of a stream, least significant bit of each byte first: the bits left, and how many were taken. -/
structure BitsLeft where
  bits  : List Bool
  taken : Nat := 0
deriving DecidableEq, Repr

/-- The bits of bytes. -/
def bitsOfBytes (l : List Byte) : List Bool := (l.map (fun b => (List.range 8).map (fun i => b.getLsbD i))).flatten

/-- Why a stream cannot be decoded further: its input has ended, or it is malformed. -/
inductive Stuck where
  | more
  | bad
deriving DecidableEq, Repr

/-- Take n bits as a number, the first bit least significant. -/
def BitsLeft.take (r : BitsLeft) (n : Nat) : Except Stuck (Nat × BitsLeft) :=
  if r.bits.length < n then .error .more
  else .ok ((r.bits.take n).zipIdx.foldl (fun a b => a + (if b.1 then 2 ^ b.2 else 0)) 0, ⟨r.bits.drop n, r.taken + n⟩)

/-- Go to the next byte boundary. -/
def BitsLeft.align (r : BitsLeft) : BitsLeft := let n := (8 - r.taken % 8) % 8; ⟨r.bits.drop n, r.taken + n⟩

/-- Take n bytes from a byte boundary. -/
def BitsLeft.bytes (r : BitsLeft) : Nat → Except Stuck (List Byte × BitsLeft)
  | 0 => .ok ([], r)
  | n + 1 =>
    match r.take 8 with
    | .error e => .error e
    | .ok (b, r1) =>
      match r1.bytes n with
      | .error e => .error e
      | .ok (bs, r2) => .ok (BitVec.ofNat 8 b :: bs, r2)

/-! ### Huffman codes -/

/-- A code: how many symbols have each length from 1 to 15, and the symbols by length and number. -/
structure Huffman where
  counts  : List Nat
  symbols : List Nat
deriving DecidableEq, Repr

/-- The code with the given lengths by symbol (RFC 1951, 3.2.2). -/
def huffman (lengths : List Nat) : Huffman :=
  let at_ (n : Nat) : List Nat := (lengths.zipIdx.filter (fun e => decide (e.1 = n))).map (·.2)
  let by_ := (List.range 15).map (fun i => at_ (i + 1))
  ⟨by_.map (·.length), by_.flatten⟩

/-- The code space left over: none for an over-subscribed code. -/
def Huffman.left (h : Huffman) : Option Nat :=
  h.counts.foldl (fun a c => a.bind (fun l => if c ≤ 2 * l then some (2 * l - c) else none)) (some 1)

/-- Decode one symbol: `counts` from the present length on, the code so far, the first code of the length, and the index of its first
symbol. -/
def huffDecode (symbols : List Nat) : List Nat → Nat → Nat → Nat → BitsLeft → Except Stuck (Nat × BitsLeft)
  | [], _, _, _, _ => .error .bad
  | c :: cs, code, first, index, r =>
    match r.take 1 with
    | .error e => .error e
    | .ok (b, r1) =>
      let code := code + b
      if code < first + c then .ok (symbols.getD (index + (code - first)) 0, r1)
      else huffDecode symbols cs (2 * code) (2 * (first + c)) (index + c) r1

/-- Decode one symbol of a code. -/
def Huffman.decode (h : Huffman) (r : BitsLeft) : Except Stuck (Nat × BitsLeft) := huffDecode h.symbols h.counts 0 0 0 r

/-- Base and extra bits of the length codes 257 to 285 and the distance codes 0 to 29. -/
def lengthBase : List (Nat × Nat) :=
  [(3, 0), (4, 0), (5, 0), (6, 0), (7, 0), (8, 0), (9, 0), (10, 0), (11, 1), (13, 1), (15, 1), (17, 1), (19, 2), (23, 2), (27, 2), (31, 2)] ++
  [(35, 3), (43, 3), (51, 3), (59, 3), (67, 4), (83, 4), (99, 4), (115, 4), (131, 5), (163, 5), (195, 5), (227, 5), (258, 0)]
def distBase : List (Nat × Nat) :=
  [(1, 0), (2, 0), (3, 0), (4, 0), (5, 1), (7, 1), (9, 2), (13, 2), (17, 3), (25, 3), (33, 4), (49, 4), (65, 5), (97, 5), (129, 6), (193, 6)] ++
  [(257, 7), (385, 7), (513, 8), (769, 8), (1025, 9), (1537, 9), (2049, 10), (3073, 10), (4097, 11), (6145, 11), (8193, 12), (12289, 12),
   (16385, 13), (24577, 13)]

/-- The fixed codes. -/
def fixedLit : Huffman :=
  huffman (List.replicate 144 8 ++ List.replicate 112 9 ++ List.replicate 24 7 ++ List.replicate 8 8)
def fixedDist : Huffman := huffman (List.replicate 30 5)

/-- A copy of `n` bytes from `dist` back; output is newest first. -/
def copyBack (dist : Nat) : Nat → List Byte → List Byte
  | 0, out => out
  | n + 1, out => copyBack dist n (out.getD (dist - 1) 0 :: out)

/-- What decoding has come to: output newest first, the reader, and why it stopped. -/
structure Inflated where
  out  : List Byte
  rest : BitsLeft
  stop : Option Stuck
deriving DecidableEq, Repr

/-- The symbols of a compressed block; `fuel` bounds their number. -/
def inflateCodes (lit dist : Huffman) : Nat → List Byte → BitsLeft → Inflated
  | 0, out, r => ⟨out, r, some .more⟩
  | fuel + 1, out, r =>
    match lit.decode r with
    | .error e => ⟨out, r, some e⟩
    | .ok (s, r1) =>
      if s < 256 then inflateCodes lit dist fuel (BitVec.ofNat 8 s :: out) r1
      else if s = 256 then ⟨out, r1, none⟩
      else
        match lengthBase[s - 257]? with
        | none => ⟨out, r, some .bad⟩
        | some (lb, le) =>
          match r1.take le with
          | .error e => ⟨out, r, some e⟩
          | .ok (lx, r2) =>
            match dist.decode r2 with
            | .error e => ⟨out, r, some e⟩
            | .ok (ds, r3) =>
              match distBase[ds]? with
              | none => ⟨out, r, some .bad⟩
              | some (db, de) =>
                match r3.take de with
                | .error e => ⟨out, r, some e⟩
                | .ok (dx, r4) =>
                  if out.length < db + dx then ⟨out, r, some .bad⟩ else inflateCodes lit dist fuel (copyBack (db + dx) (lb + lx) out) r4

/-- The code lengths of a dynamic block: `n` more, those so far newest first. -/
def readLengths (h : Huffman) : Nat → Nat → List Nat → BitsLeft → Except Stuck (List Nat × BitsLeft)
  | 0, _, _, _ => .error .bad
  | fuel + 1, n, acc, r =>
    if n = 0 then .ok (acc.reverse, r)
    else
      match h.decode r with
      | .error e => .error e
      | .ok (s, r1) =>
        if s < 16 then readLengths h fuel (n - 1) (s :: acc) r1
        else
          let (bits, base, v) := if s = 16 then (2, 3, acc.headD 0) else if s = 17 then (3, 3, 0) else (7, 11, 0)
          match r1.take bits with
          | .error e => .error e
          | .ok (x, r2) =>
            if n < base + x ∨ (s = 16 ∧ acc.isEmpty = true) then .error .bad
            else readLengths h fuel (n - (base + x)) (List.replicate (base + x) v ++ acc) r2

/-- The order of the code-length code lengths. -/
def lengthOrder : List Nat := [16, 17, 18, 0, 8, 7, 9, 6, 10, 5, 11, 4, 12, 3, 13, 2, 14, 1, 15]

/-- The two codes of a dynamic block. -/
def readDynamic (r : BitsLeft) : Except Stuck (Huffman × Huffman × BitsLeft) :=
  match r.take 14 with
  | .error e => .error e
  | .ok (h, r1) =>
    let nlen := h % 32 + 257
    let ndist := h / 32 % 32 + 1
    let ncode := h / 1024 + 4
    match r1.take (3 * ncode) with
    | .error e => .error e
    | .ok (v, r2) =>
      let lens := (List.range 19).map (fun i =>
        let k := lengthOrder.findIdx (fun x => decide (x = i))
        if k < ncode then v / 8 ^ k % 8 else 0)
      let hc := huffman lens
      if hc.left ≠ some 0 ∨ 286 < nlen ∨ 30 < ndist then .error .bad
      else
        match readLengths hc 400 (nlen + ndist) [] r2 with
        | .error e => .error e
        | .ok (ls, r3) =>
          let lit := huffman (ls.take nlen)
          let dist := huffman (ls.drop nlen)
          let one (h : Huffman) : Bool := decide (h.symbols.length ≤ 1)
          if ls.getD 256 0 = 0 ∨ lit.left = none ∨ dist.left = none ∨ (lit.left ≠ some 0 ∧ one lit = false) ∨
              (dist.left ≠ some 0 ∧ one dist = false) then .error .bad
          else .ok (lit, dist, r3)

/-- The blocks of a raw stream; `fuel` bounds their number and that of a block's symbols. -/
def inflateBlocks (symbols : Nat) : Nat → List Byte → BitsLeft → Inflated
  | 0, out, r => ⟨out, r, some .more⟩
  | fuel + 1, out, r =>
    match r.take 3 with
    | .error e => ⟨out, r, some e⟩
    | .ok (h, r1) =>
      let done :=
        if h / 2 = 0 then
          let r2 := r1.align
          match r2.take 16 with
          | .error e => ⟨out, r, some e⟩
          | .ok (n, r3) =>
            match r3.take 16 with
            | .error e => ⟨out, r, some e⟩
            | .ok (m, r4) =>
              if n + m ≠ 65535 then ⟨out, r, some .bad⟩
              else
                match r4.bytes (min n (r4.bits.length / 8)) with
                | .error e => ⟨out, r, some e⟩
                | .ok (bs, r5) => ⟨bs.reverse ++ out, r5, if bs.length = n then none else some .more⟩
        else if h / 2 = 1 then inflateCodes fixedLit fixedDist symbols out r1
        else if h / 2 = 2 then
          match readDynamic r1 with
          | .error e => ⟨out, r, some e⟩
          | .ok (lit, dist, r2) => inflateCodes lit dist symbols out r2
        else ⟨out, r, some .bad⟩
      if done.stop.isSome ∨ h % 2 = 1 then done else inflateBlocks symbols fuel done.out done.rest

/-- A raw stream from its first byte. -/
def inflateRaw (r : BitsLeft) : Inflated := inflateBlocks (r.bits.length + 1) (r.bits.length + 1) [] r

/-- What decompression has come to: the output, the bytes consumed, the code of R412 (none: none so far), whether the stream has
ended, and the check value of the output. -/
structure Unpacked where
  out   : List Byte
  used  : Nat
  code  : Option Nat
  ended : Bool
  check : Nat
deriving DecidableEq, Repr

/-- Nothing decoded: a code, or more input is needed. -/
def unpackedNone (code : Option Nat) : Unpacked := ⟨[], 0, code, false, 0⟩

/-- The code of a stop: more input is needed, or the data are bad. -/
def stuckCode : Stuck → Option Nat
  | .more => none
  | .bad => some 0x12

/-- Skip a string that a zero byte ends. -/
def skipString : List Byte → Option (List Byte)
  | [] => none
  | b :: bs => if b = 0 then some bs else skipString bs

/-- The length of a gzip header: a code of R412, more input needed (none), or its bytes (R400). -/
def gzipHeader (l : List Byte) : Except (Option Nat) Nat :=
  if l.length < 10 then (if (l.take 4).zipIdx.any (fun b => decide (b.2 = 0 ∧ b.1 ≠ 0x1F ∨ b.2 = 1 ∧ b.1 ≠ 0x8B ∨ b.2 = 2 ∧ b.1 ≠ 8)) then .error (some 0x12)
    else .error none)
  else if l.take 3 ≠ [0x1F, 0x8B, 8] then .error (some 0x12)
  else
    let flg := (l.getD 3 0).toNat
    if 32 ≤ flg then .error (some 0x12)
    else
      let extra : Option (List Byte) :=
        if flg.testBit 2 then
          (let r := l.drop 10
          if r.length < 2 then none
          else
            let n := leNat (r.take 2)
            if r.length < 2 + n then none else some (r.drop (2 + n)))
        else some (l.drop 10)
      let name := extra.bind (fun r => if flg.testBit 3 then skipString r else some r)
      let comment := name.bind (fun r => if flg.testBit 4 then skipString r else some r)
      match comment with
      | none => .error none
      | some r =>
        let n := l.length - r.length
        if flg.testBit 1 then
          (if r.length < 2 then .error none
          else if leNat (r.take 2) ≠ (crc32 (l.take n)).toNat % 65536 then .error (some 0x12)
          else .ok (n + 2))
        else .ok n

/-- Decompress as much of a stream as its input so far allows (R400): `frame` 0 raw, 1 zlib, 2 gzip. -/
def unpack (frame : Nat) (l : List Byte) : Unpacked :=
  let body (n : Nat) : Inflated := inflateRaw ⟨bitsOfBytes (l.drop n), 0⟩
  let part (d : Inflated) (check : List Byte → Nat) (e : Stuck) : Unpacked := ⟨d.out.reverse, l.length, stuckCode e, false, check d.out.reverse⟩
  let crc (o : List Byte) : Nat := (crc32 o).toNat
  if frame = 0 then
    let d := body 0
    match d.stop with
    | some e => part d crc e
    | none => ⟨d.out.reverse, d.rest.align.taken / 8, none, true, crc d.out.reverse⟩
  else if frame = 1 then
    (if l.length < 2 then unpackedNone none
    else
      let h := beTwo l
      if h / 256 % 16 ≠ 8 ∨ 8 ≤ h / 4096 ∨ h % 31 ≠ 0 then unpackedNone (some 0x12)
      else if h / 32 % 2 = 1 then unpackedNone (some 0x16)
      else
        let d := body 2
        match d.stop with
        | some e => part d adler32 e
        | none =>
          let o := d.out.reverse
          let n := 2 + d.rest.align.taken / 8
          let tail := (l.drop n).take 4
          if tail.length < 4 then ⟨o, l.length, none, false, adler32 o⟩
          else ⟨o, n + 4, if leNat tail.reverse = adler32 o then none else some 0x13, true, adler32 o⟩)
  else
    match gzipHeader l with
    | .error e => unpackedNone e
    | .ok h =>
      let d := body h
      match d.stop with
      | some e => part d crc e
      | none =>
        let o := d.out.reverse
        let n := h + d.rest.align.taken / 8
        let tail := (l.drop n).take 8
        if tail.length < 8 then ⟨o, l.length, none, false, crc o⟩
        else ⟨o, n + 8, if leNat (tail.take 4) = crc o ∧ leNat (tail.drop 4) = o.length % 2 ^ 32 then none else some 0x13, true, crc o⟩
where
  /-- The first two bytes, as the header of RFC 1950 reads them. -/
  beTwo (l : List Byte) : Nat := (l.getD 0 0).toNat * 256 + (l.getD 1 0).toNat

end Sys2Proof.Machine
end

