-- ==== Sys2Proof/Machine/Transform.lean ====
section
/-! DEFINITION. The transform units (chapter Compression and Encryption Units, R395 to R412): TRANSFORM commands, blocks, and the ends
of jobs. -/

namespace Sys2Proof.Machine

open Sys2Proof

/-! ### Functions (R396 to R404) -/

/-- A compressed stream with its wrapper (R400). -/
def compress (frame huff : Nat) (input : List Byte) : List Byte :=
  let body := Config.deflate huff input
  if frame = 1 then [0x78, 0x9C] ++ body ++ beBytes 4 (adler32 input)
  else if frame = 2 then
    [0x1F, 0x8B, 8, 0, 0, 0, 0, 0, 0, 0xFF] ++ body ++ leBytes 4 (crc32 input).toNat ++ leBytes 4 (input.length % 2 ^ 32)
  else body

/-- What a job's function makes of the input so far. -/
def TuJob.run (j : TuJob) (key : List Byte) : Unpacked :=
  let input := j.input
  let func := bitsOf j.j0 7 0
  let kind := tuKind func
  let frame := bitsOf j.j0 9 8
  let final := decide (input.length = j.len)
  let aad := bitsOf j.j0 63 48
  let iv := leBytes 8 j.j2.toNat ++ leBytes 4 j.j3.toNat
  let plain (out : List Byte) (code : Option Nat) : Unpacked := ⟨out, input.length, code, final, 0⟩
  if kind ≤ 1 then
    let u : Unpacked := if kind = 1 then unpack frame input
      else if final then
        ⟨compress frame (bitsOf j.j0 13 12) input, input.length, none, true, if frame = 1 then adler32 input else (crc32 input).toNat⟩
      else ⟨[], input.length, none, false, 0⟩
    let v := if final && !u.ended && u.code.isNone then { u with code := some 0x14 } else u
    if j.j2.toNat < v.out.length then { v with out := v.out.take j.j2.toNat, code := some 0x15 } else v
  else if kind = 2 then
    let keys := aesKeys key
    let text := gcmText keys iv (input.drop aad)
    plain (text ++ (if final then gcmTag keys iv (input.take aad) text else [])) none
  else if kind = 3 then
    let keys := aesKeys key
    let text := (input.drop aad).take (j.len - aad - 16)
    let bad := final && decide (gcmTag keys iv (input.take aad) text ≠ input.drop (j.len - 16))
    plain (gcmText keys iv text) (if bad then some 0x11 else none)
  else if kind = 4 then
    let n := 2 ^ bitsOf j.j0 19 16
    let whole := input.take (input.length / n * n)
    plain (xts (decide (func = 0x12)) key (BitVec.ofNat 128 (j.j2.toNat + j.j3.toNat * 2 ^ 64)) n whole) none
  else if !final then plain [] none
  else plain (if func = 0x20 then sha256 input else if func = 0x21 then sha384 input else if func = 0x22 then sha512 input else sha3 input) none

/-! ### Key handles (R409) -/

/-- The key that a job's handle names, if the unit accepts it. -/
def State.keyFor (s : State) (j : TuJob) : Option (List Byte) :=
  let v := (Config.handlePerm s.handleKey).symm j.j1
  let e := s.keys.get {} (bitsOf v 23 12)
  let suits := if tuKind (bitsOf j.j0 7 0) = 4 then decide (e.kind = 2 ∨ e.kind = 3) else decide (e.kind = 0 ∨ e.kind = 1)
  if bitsOf v 63 48 = 0 ∧ bitsOf v 11 0 = 0 ∧ bitsOf v 47 40 = j.inst ∧ e.valid = true ∧ e.epoch = bitsOf v 39 24 ∧ suits = true ∧
      e.inst = j.inst then some e.key
  else none

/-- Whether a function uses a key. -/
def TuJob.keyed (j : TuJob) : Bool := let k := tuKind (bitsOf j.j0 7 0); decide (k = 2 ∨ k = 3 ∨ k = 4)

/-! ### Jobs of TRANSFORM commands (R295) -/

/-- The TRANSFORM whose turn it is starts its job (R295, R302, R326). -/
def State.startTransform (s : State) (q : Nat) : State :=
  match s.nextCmd q with
  | none => s
  | some (n, e, d) =>
    if dOpcode d ≠ 7 ∨ s.jobs.any (fun j => decide (j.entry = some (n, e.seq))) = true then s
    else if dBhost d && !s.hostOpen (instOf q) then s
    else if dTarget d ≠ 0 ∧ (s.pathFor e (dTarget d)).isNone = true then s.noPath n e (dTarget d) e.left
    else
      match (s.engineBeat q).bind (fun a => a.takeTokens q 0 (!e.issued)) with
      | none => s
      | some s1 =>
        let j : TuJob := { id := s1.jobNext, die := s1.queueDie q, inst := instOf q, queue := q, entry := some (n, e.seq)
                           j0 := dWord d 4, j1 := dWord d 5, j2 := dWord d 6, j3 := dWord d 7
                           src := (dWord d 3).toNat, srcHost := if dBhost d then some (instOf q) else none
                           dst := (dWord d 2).toNat, dstHost := none, len := dLength d }
        ({ s1.setJobs (s1.jobs ++ [j]) with jobNext := s1.jobNext + 1 }).modEntry n (fun x => { x with state := 1, issued := true })

/-! ### Blocks (R405, R407) -/

/-- `n` bytes from offset `o` of the slot of instance i on an I/O die are written and read: whether guard 3 or 4 refuses them (R246, R405); a refusal is
captured. -/
def State.useSlot (s : State) (die i o n : Nat) : State × Bool :=
  let pages := (List.range ((n + 4095) / 4096)).flatMap (fun k => [(i * 0x28000 + o + 4096 * k, true), (i * 0x28000 + o + 4096 * k, false)])
  match pages.find? (fun x => s.guardRefuses (3 + die) x.1 false x.2) with
  | none => (s, false)
  | some x => (s.refuse (3 + die) x.1 false x.2, true)

/-- Read a block's input as far as its tokens reach (R328), up to the first line that fails: the bytes, a status of R356 or POISONED_INPUT, and
whether it waits for tokens; `fuel` bounds the pieces. -/
def State.jobRead (s : State) (j : TuJob) (far : FarData) : Nat → Nat → Nat → State × List Byte × Nat × Bool
  | 0, _, _ => (s, [], 0, false)
  | fuel + 1, a, left =>
    if left = 0 then (s, [], 0, false)
    else
      let k := min (64 - a % 64) left
      match s.takeTokens j.queue k false with
      | none => (s, [], 0, true)
      | some s0 =>
        match s0.sysRead j.die (j.srcHost.getD j.inst) j.srcHost.isSome a k far with
        | (s1, r) =>
          if r.status ≠ 0 then (s1, [], r.status, false)
          else if r.poison then (s1, [], 0x17, false)
          else
            let (s2, rest, c, w) := s1.jobRead j far fuel (a + k) (left - k)
            (s2, r.bytes ++ rest, c, w)

/-- The swap mode of a job's input (R299). -/
def State.jobSwap (s : State) (j : TuJob) : Nat :=
  (j.entry.bind (fun e => (s.entry e.1).bind (fun x => x.desc))).elim 0 dSwap

/-- Bytes with whole swap units exchanged; a part of a unit at the end is left out. -/
def swapBytes (m : Nat) (l : List Byte) : List Byte :=
  let u := swapUnit m
  (List.range (l.length / u * u)).map (fun i => l.getD (swapAt m i) 0)

/-- A block's output leaves for a port as requests of the command (R277, R297); `fuel` bounds them. -/
def State.jobSend (s : State) (n : Nat) (e : JEntry) (d : Line) (port path off : Nat) : Nat → List Byte → State
  | 0, _ => s
  | fuel + 1, bytes =>
    if bytes.isEmpty then s
    else
      let addr := ((dWord d 2).toNat + s.f (CSS_SIi_TGTt_PATHp.OFFSET (instOf e.queue) (dTarget d) path) + off) % 2 ^ 64
      let k := min bytes.length (min (128 * 2 ^ s.f (PRT_Pp_CFG.MPS port)) (4096 - addr % 4096))
      (((s.sendReq n e port path true false addr off k (bytes.take k) false).modEntry n (fun x => { x with lastEnd := addr + k })).jobSend n e d
        port path (off + k) fuel (bytes.drop k))

/-- The port and path that a job's output goes to, where its command names a target on a port. -/
def State.jobPath (s : State) (j : TuJob) : Option (Nat × JEntry × Line × Option Nat) :=
  j.entry.bind (fun x => (s.entry x.1).bind (fun e => e.desc.bind (fun d =>
    if dTarget d = 0 then none else some (x.1, e, d, s.pathFor e (dTarget d)))))

/-- Whether a job's next block may have `k` bytes of output: a port of its path sends, is open to the instance (R321, R582), and the instance has room in
transit (R297). -/
def State.jobOpen (s : State) (j : TuJob) (k : Nat) : Bool :=
  (s.jobPath j).elim true (fun x => x.2.2.2.elim true (fun p =>
    let port := s.f (CSS_SIi_TGTt_PATHp.PORT j.inst (dTarget x.2.2.1) p)
    s.portSends port true && s.pointOpen (274 + port) j.inst && decide (s.inTransit j.inst + k ≤ 65536)))

/-- A block's output is written: its status of R356, or 0x21 where no path is in service. -/
def State.jobWrite (s : State) (j : TuJob) (bytes : List Byte) : State × Nat :=
  let cmd := j.entry.bind (fun x => s.entry x.1)
  match s.jobPath j with
  | none =>
    if j.entry.isSome && cmd.isNone then (s, 0)
    else
      s.sysWrite j.die (j.dstHost.getD j.inst) j.dstHost.isSome (cellsAt (j.dst + j.made) bytes) []
        { queue := cmd.map (·.queue), part := cmd.map (fun e => (e.seq, j.made))
          ordered := decide (j.made = 0) && (cmd.bind (·.desc)).elim false (fun d => !dRlx d) }
  | some (_, _, _, none) => (s, 0x21)
  | some (n, e, d, some p) =>
    (s.jobSend n e d (s.f (CSS_SIi_TGTt_PATHp.PORT (instOf e.queue) (dTarget d) p)) p j.made (bytes.length / 64 + 2) bytes, 0)

/-- What a TRANSFORM's journal entry learns from a block (R404): with `made` bytes of output written or sent, `used` bytes of input are consumed; they
count once all that output is answered. -/
def State.jobNoted (s : State) (j : TuJob) (made used check : Nat) (last : Bool) : State :=
  match j.entry with
  | none => s
  | some (n, _) =>
    (s.modEntry n (fun x => { x with
      left := true
      aux := BitVec.ofNat 64 (made % 2 ^ 32 + check % 2 ^ 32 * 2 ^ 32)
      blocks := x.blocks ++ [(made, used)]
      state := if last then 2 else x.state })).confirmBlocks n

/-- A job ends with a status of R356 or a code of R412 at a block that is not done: no further input is consumed. -/
def State.jobFails (s : State) (j : TuJob) (c : Nat) : State :=
  (s.modJob j.id (fun _ => { j with fail := some c, rerun := false })).jobNoted j j.made 0 0 true

/-- A block of a job with its input in its slot is processed, and its output written: `c` is what the reading of its input met, which ends
the job once the output of the input before it is written. -/
def State.finishBlock (s : State) (u : Nat) (j : TuJob) (key : List Byte) (c : Nat) : State :=
  let r := j.run key
  let upto := min r.out.length (j.made + 65536)
  if !s.jobOpen j (upto - j.made) then s.modJob j.id (fun _ => j)
  else
    let s1 := s.incF (TU_STATUSu.BLOCKS u)
    match s1.useSlot j.die j.inst 0 j.ahead with
    | (s2, true) => s2.jobFails j 2
    | (s2, false) =>
      match s2.useSlot j.die j.inst 0x10000 (upto - j.made) with
      | (s3, true) => s3.jobFails j 2
      | (s3, false) =>
        match s3.useSlot j.die j.inst 0x20000 0x8000 with
        | (s4, true) => s4.jobFails j 2
        | (s4, false) =>
          match s4.jobWrite j ((r.out.drop j.made).take (upto - j.made)) with
          | (s5, w) =>
            if w ≠ 0 then s5.jobFails j w
            else
              let all := decide (upto = r.out.length)
              let fin := all && (r.ended || r.code.isSome)
              let code := if c ≠ 0 ∧ all = true then some c else if fin then r.code else none
              let j1 := { j with
                used := j.input.length, ahead := 0, made := upto, rerun := false, fail := code
                ended := if code.isNone && fin then some (decide (r.used < j.len), r.check) else none }
              let used := if !all then 0 else if fin then min r.used j1.used else j1.used
              (s5.modJob j.id (fun _ => j1)).jobNoted j1 upto used (if code.isNone && fin then r.check else 0) (code.isSome || fin)

/-- A block of a job runs on its unit (R407); `storeUe`: an uncorrectable error is met in the slot (R411). A block whose input waits for tokens runs
later. -/
def State.runBlock (s : State) (u id : Nat) (storeUe : Bool) (far : FarData) : State :=
  match s.jobs.find? (fun j => decide (j.id = id)) with
  | none => s
  | some j =>
    let paused := if j.entry.isSome then !s.maySend j.queue else decide (s.qState j.queue = 2)
    if j.unit ≠ some u ∨ j.fail.isSome = true ∨ j.ended.isSome = true ∨ paused = true then s
    else if ((j.srcHost.isSome || j.dstHost.isSome) && !s.hostOpen j.inst) || !s.pointOpen (402 + u) j.inst ||
        !s.pointOpen (272 + j.die) j.inst then s
    else if storeUe then ((s.incF (TU_STATUSu.BLOCKS u)).raise TU_ALARM.STORE_UE).jobFails j 0x19
    else
      match (if j.keyed then s.keyFor j else some []) with
      | none => ((s.incF (TU_STATUSu.BLOCKS u)).raise TU_ALARM.KEY_REJECT).jobFails j 0x10
      | some key =>
        let held := ({ j with input := j.input.take j.used }.run key).out.length
        let want := if j.made + 65536 ≤ held then 0 else min 65536 (j.len - j.used)
        match s.jobRead j far (want / 64 + 2) (j.src + j.input.length) (want - j.ahead) with
        | (s1, raw, c, waits) =>
          let got := swapBytes (s1.jobSwap j) raw
          let j1 := { j with input := j.input ++ got, ahead := j.ahead + got.length }
          if waits then s1.modJob id (fun _ => j1) else s1.finishBlock u j1 key c

/-- A job ends (R404, R410, R412): its sockets and guard are set, or its command goes on to its record. -/
def State.jobEnd (s : State) (id : Nat) : State :=
  match s.jobs.find? (fun j => decide (j.id = id)) with
  | none => s
  | some j =>
    if j.fail.isNone ∧ j.ended.isNone then s
    else
      let s1 := s.setJobs (s.jobs.filter (fun x => decide (x.id ≠ id)))
      match j.socket, j.entry with
      | some (l, n), _ =>
        if (s1.engine l).async.get none n = some (.transform id) then
          s1.endAsync l n [(0x613 + n, BitVec.ofNat 32 (j.fail.getD 0)), (0x617 + n, BitVec.ofNat 32 j.made)]
        else s1
      | none, some (n, _) =>
        (match j.fail with
        | some c =>
          if c = 0x21 then (s1.entry n).elim s1 (fun e => s1.noPath n e (e.desc.elim 0 dTarget) (decide (0 < j.made)))
          else s1.failCmd n (if c < 0x10 then memStatus c else (0x38, c))
        | none => ((s1.confirmBlocks n).modEntry n (fun x => { x with jobDone := some (j.ended.elim false (·.1)) })).settle n)
      | none, none => s1

/-- A detection in a unit during a block of a job (R411): the block runs again once, and a second one retires the unit. -/
def State.unitDetection (s : State) (u id : Nat) : State :=
  match s.jobs.find? (fun j => decide (j.id = id) && decide (j.unit = some u)) with
  | none => s
  | some j =>
    if j.rerun then
      let s1 := ((s.leaveService (s.tuLoc u)).setF (TU_STATUSu.STATE u) 1).raise TU_ALARM.UNIT_RETIRED
      s1.setJobs (s1.jobs.map (fun x => if x.unit = some u ∧ x.ended.isNone = true ∧ x.fail.isNone = true then { x with unit := none, rerun := false } else x))
    else
      ((s.incF (TU_STATUSu.FAULTS u)).raise TU_ALARM.UNIT_FAULT).modJob id (fun x => { x with rerun := true })

/-! ### The commands -/

/-- TRANSFORM. -/
def execTransformCommand (q : Nat) (s : State) : Host.Outcome State Fault Refusal := .next (s.running (s.startTransform q))

/-- TU_BLOCK. -/
def execTuBlock (u id : Nat) (storeUe : Bool) (far : FarData) (s : State) : Host.Outcome State Fault Refusal :=
  .next (s.reading (s.runBlock u id storeUe far))

/-- TU_JOB_END. -/
def execTuJobEnd (id : Nat) (s : State) : Host.Outcome State Fault Refusal := .next (s.running (s.jobEnd id))

/-- TU_DETECTION. -/
def execTuDetection (u id : Nat) (s : State) : Host.Outcome State Fault Refusal := .next (s.running (s.unitDetection u id))

end Sys2Proof.Machine
end

