-- ==== Sys2Proof/Machine/ModeChange.lean ====
section
/-! DEFINITION. Mode changes (R70 to R77), hardware changes (R76) and system mode changes (R448 to R450): posting, readiness,
cut-off, target and cancellation. -/

namespace Sys2Proof.Machine

open Sys2Proof

/-! ### Pending shadows and who holds them (R70, R77) -/

/-- The pending shadow registers of the software blocks that a SCOPE names: those written and not yet taken or discarded, and the
port shadows that differ from their CFG (R215, R249, R327, R415, R470). -/
def State.pendingShadows (s : State) (scope : Nat) : List Nat :=
  let of (b : Nat) : List Nat := if scope.testBit b then s.dirty.filter (fun k => decide (k / 0x10000000 =
    (if b = 4 then 5 else if b = 5 then 6 else if b = 7 then 8 else 13))) else []
  of 4 ++ of 5 ++ of 7 ++ (if scope.testBit 10 then s.portParticipants.map PRT_Pp_CFG_SHADOW else []) ++ of 12

/-- The arbitration points as units (R77): serving engines, data movers, root ports and transform units in service. -/
def State.pointLocs (s : State) : List Loc :=
  ((List.range 272).filter (fun k => decide (s.f (CE_PHYSk.STATE k) = 0))).map s.engineLoc ++
  [s.dieLoc 4 300, s.dieLoc 5 300] ++
  ((List.range 128).filter (fun p => decide (s.f (PRT_Pp_CFG.MODE p) = 1 ∧ s.leadPort p = p))).map s.portLoc ++
  ((List.range 16).filter (fun u => decide (s.f (TU_STATUSu.STATE u) = 0))).map s.tuLoc

/-- The sixteen memory controllers as units. -/
def State.mcLocs (s : State) : List Loc := (List.range 16).map s.mcLoc

/-- The replicas of guard g as units (R77): of guard 0, those at the homes in service and the controllers. -/
def State.guardLocs (s : State) (g : Nat) : List Loc :=
  if g = 0 then
    ((List.range 216).filter (fun n => decide (s.f (L3_SLICE_STATUSs.STATE n) = 0))).map (fun n => s.tileLoc (n / 9) (n % 9) 11) ++ s.mcLocs
  else
    let u := if g < 3 then 283 else if g < 5 then 284 else 299
    [s.dieLoc (4 + (g + 1) % 2) u]

/-- The guard whose shadow a register of block MG is. -/
def guardOfShadow (k : Nat) : Nat := (k % 0x10000000 - 0x1000) / 0x1000

/-- The units that hold pending shadows. -/
def State.shadowHolders (s : State) (keys : List Nat) : List Nat :=
  let has (b : Nat) : Bool := keys.any (fun k => decide (k / 0x10000000 = b))
  let guards := (List.range 7).filter (fun g => keys.any (fun k => decide (k / 0x10000000 = 6 ∧ guardOfShadow k = g)))
  let ports := (List.range 128).filter (fun p => keys.contains (PRT_Pp_CFG_SHADOW p))
  let locs := (if has 5 then s.mcLocs else []) ++ guards.flatMap s.guardLocs ++ (if has 8 then s.pointLocs else []) ++
    ports.map s.portLoc ++ (if has 13 then [s.portLoc 64] else [])
  (locs.map Loc.packed).dedup

/-! ### Readiness (R72, R215, R415, R470) -/

/-- An interleave region as its shadow gives it. -/
structure IlvRegion where
  base  : Nat
  size  : Nat
  first : Nat
  ways  : Nat
  mir   : Bool
deriving DecidableEq, Repr

/-- The valid regions of the shadows. -/
def State.shadowRegions (s : State) : List IlvRegion :=
  (List.range 4).filterMap (fun r =>
    if s.on (MC_ILVr_SHADOW.VALID r) then
      some { base := s.f (MC_ILVr_SHADOW.BASE r), size := s.f (MC_ILVr_SHADOW.SIZE r), first := s.f (MC_ILVr_SHADOW.FIRST r),
             ways := s.f (MC_ILVr_SHADOW.WAYS r), mir := s.on (MC_ILVr_SHADOW.MIR r) }
    else none)

/-- The channels of a region: the lower ones of its pairs where it is mirrored (R214, R216). -/
def IlvRegion.channels (r : IlvRegion) : List Nat :=
  (List.range (2 ^ r.ways)).map (fun j => if r.mir then r.first + j + 4 * ((r.first + j) / 4) else r.first + j)

/-- Whether channel k, or the pair of which it is the lower, can serve a region, and its capacity in GiB. -/
def State.regionCap (s : State) (mir : Bool) (k : Nat) : Option Nat :=
  let up (c : Nat) : Bool := decide (s.chState c = 2 ∨ s.chState c = 3)
  if mir then
    (if up k && up (k + 4) then some (min (s.f (MC_CHk_STATUS.CAP k)) (s.f (MC_CHk_STATUS.CAP (k + 4))))
    else if s.chState k = 4 then some (s.f (MC_CHk_STATUS.CAP k))
    else if s.chState (k + 4) = 4 then some (s.f (MC_CHk_STATUS.CAP (k + 4))) else none)
  else if up k || decide (s.chState k = 4) then some (s.f (MC_CHk_STATUS.CAP k)) else none

/-- Whether one region obeys R214 and R216 and its channels are in service with room for it. -/
def State.regionOk (s : State) (r : IlvRegion) : Bool :=
  let n := 2 ^ r.ways
  decide (r.ways ≤ (if r.mir then 3 else 4)) && decide (0 < r.size ∧ r.size % n = 0) &&
    decide (r.first + n ≤ (if r.mir then 8 else 16)) && (r.mir || decide (r.first % n = 0)) &&
    r.channels.all (fun k => match s.regionCap r.mir k with
      | some c => decide (r.size / n ≤ c)
      | none => false)

/-- Every channel that a region uses. -/
def IlvRegion.uses (r : IlvRegion) : List Nat := if r.mir then r.channels ++ r.channels.map (· + 4) else r.channels

/-- Whether the shadows leave the populated part as large as it is, as they must while a core is released (R45). -/
def State.populationKept (s : State) : Bool :=
  let now := (List.range 4).foldl (fun n r => n + if s.on (MC_ILVr.VALID r) then s.f (MC_ILVr.SIZE r) else 0) 0
  decide ((s.shadowRegions.map (·.size)).sum = now) || s.harts.all (fun h => decide (h.2.run = .held))

/-- Whether the interleave shadows are valid (R215): each region obeys its rules, no two overlap, none leaves a gap, and the populated part
changes only while no core is released (R45). -/
def State.ilvOk (s : State) : Bool :=
  let rs := s.shadowRegions
  rs.all s.regionOk && decide (rs.flatMap IlvRegion.uses).Nodup &&
    rs.all (fun r => decide (r.base = 0) || decide ((rs.filter (fun q => decide (q.base + q.size = r.base))).length = 1)) &&
    rs.all (fun r => rs.all (fun q => decide (r = q) || decide (q.base + q.size ≤ r.base) || decide (r.base + r.size ≤ q.base))) &&
    s.populationKept

/-! ### The steps of lane groups (R38, R413, R495, R498) -/

/-- Whether the VSD island of lane group j is gated: its four ports are UNUSED (R413). -/
def State.lanesGated (s : State) (j : Nat) : Bool := (List.range 4).all (fun i => decide (s.f (PRT_Pp_CFG.MODE (4 * j + i)) = 0))

/-- The gated lane groups of those of the ports `ps` that are to be used. -/
def State.groupsWoken (s : State) (ps : List Nat) : List Nat := ((ps.map (· / 4)).filter s.lanesGated).dedup

/-- The ports among the shadows of a change that are to be used. -/
def State.portsWoken (s : State) (keys : List Nat) : List Nat :=
  (List.range 128).filter (fun p => keys.contains (PRT_Pp_CFG_SHADOW p) && decide (s.f (PRT_Pp_CFG_SHADOW.MODE p) ≠ 0))

/-- The lane groups that a change needs post their upward steps. -/
def State.wakeLanes (s : State) (ps : List Nat) : State :=
  (s.groupsWoken ps).foldl (fun a j => (a.useStep (.lanes j true)).postStep (.lanes j true) 5 0) s

/-- The steps that a port's lane group needs are taken. -/
def State.lanesReady (s : State) (p : Nat) : Bool := !s.lanesGated (p / 4) || (s.stepTaken (.lanes (p / 4) true)).isSome

/-- A change is CANCELLED: steps of lane groups that are not granted are withdrawn, and the others are reversed. -/
def State.unwakeLanes (s : State) (ps : List Nat) : State :=
  (s.groupsWoken ps).foldl (fun a j =>
    let w : StepWhat := .lanes j true
    if a.hb.queue.any (fun r => decide (r.what = w)) then a.dropSteps (fun x => decide (x = w))
    else (a.useStep w).postStep (.lanes j false) 3 0) s

/-- Ports have switched: lane groups that they power use their steps, and those left without a used port are gated. -/
def State.settleLanes (old s : State) (ps : List Nat) : State :=
  (ps.map (· / 4)).dedup.foldl (fun a j =>
    if old.lanesGated j = a.lanesGated j then a
    else if a.lanesGated j then a.postStep (.lanes j false) 3 0
    else a.useStep (.lanes j true)) s

/-- Whether the merged port of p has no request unanswered that R415 waits for. -/
def State.portQuiet (s : State) (p : Nat) : Bool :=
  s.reqs.all (fun r => r.write || r.freed || !(s.portMembers r.port).contains p)

/-- Whether a participant of slot n may report ready now. -/
def State.mayReport (s : State) (n loc : Nat) : Bool :=
  let sl := s.slot n
  let mc := sl.shadows.any (fun k => decide (k / 0x10000000 = 5)) && (s.mcLocs.map Loc.packed).contains loc
  let port := (List.range 128).find? (fun p => decide ((s.portLoc p).packed = loc) && sl.shadows.contains (PRT_Pp_CFG_SHADOW p))
  let aep := sl.shadows.contains AEP_CTL && decide (loc = (s.portLoc 64).packed)
  (!mc || s.ilvOk) && port.elim true (fun p => s.portShadowOk p && s.portQuiet p && s.lanesReady p) && (!aep || decide (s.activeGroup = 0))

/-- A participant reports that it is ready, before the edge of leaf C (R72). -/
def State.participantReady (s : State) (n loc : Nat) : State :=
  if s.beforeCut n && s.mayReport n loc then
    s.modSlot n (fun sl => { sl with participants := sl.participants.map (fun p => if p.loc = loc then { p with ready := true } else p) })
  else s

/-! ### Cancellation and its consequences -/

/-- A shadow register holds its value in force again. -/
def State.discardShadow (s : State) (k : Nat) : State :=
  let s1 := s.clearDirty k
  if k / 0x10000000 = 6 ∧ k % 0x1000 = 0 then
    let g := guardOfShadow k
    s1.setF (MG_CTLg.DEF_SHADOW g) (s1.f (MG_CTLg.DEF g))
  else if k / 0x10000000 = 6 then s1.setReg k (s1.reg (k - 0x10))
  else if k = AEP_CTL then s1.setB AEP_CTL.STANDBY_EN s.standby
  else s1.setReg k (s1.reg (k - 8))

/-- The ports among the shadows of a slot. -/
def Slot.ports (sl : Slot) : List Nat := (List.range 128).filter (fun p => sl.shadows.contains (PRT_Pp_CFG_SHADOW p))

/-- The participants of a cancelled change discard their shadows, and ports go on with what they held (R72, R415). -/
def State.discardShadows (s : State) (n : Nat) : State :=
  let sl := s.slot n
  let s1 := sl.shadows.foldl State.discardShadow (s.unwakeLanes (s.portsWoken sl.shadows))
  let s2 := sl.ports.foldl (fun a p => (a.setF (PRT_Pp_LOOP.DEPTH p) (a.port p).depth).clearDirty (PRT_Pp_LOOP p)) s1
  sl.ports.foldl State.releasePort s2

/-- The blocks that a hardware change names (R141, R169, R208, R217, R227, R393, R452, R562). -/
def HwChange.scope : HwChange → Nat
  | .none => 0
  | .takeover _ | .spareReturn _ => 2
  | .slice _ => 4
  | .mesh _ => 8
  | .channels _ => 16
  | .grants _ _ => 16 + 128
  | .engine _ _ _ => 256
  | .evacuate _ _ _ => 2048
  | .posted _ _ sc _ _ _ _ => sc
  | .loop _ => 1024

/-- Slot n ends as CANCELLED. A hardware change that this module made is armed again; a received one is not (R450). -/
def State.cancelSlot (s : State) (n cause count loc : Nat) : State :=
  let sl := s.slot n
  let s1 := (((s.setF (TB_MCn_STATUS.STATE n) 4).setF (TB_MCn_STATUS.CAUSE n) cause).setF (TB_MCn_STATUS.NR_COUNT n)
    (min count 8191)).setF (TB_MCn_STATUS.NR_LOC n) loc
  let s2 := (s1.discardShadows n).modSlot n (fun sl => { sl with change := .none, participants := [], shadows := [] })
  let s3 := s2.afterSlot n (fun c => decide (c.scope &&& sl.scope ≠ 0))
  match sl.change with
  | .none => s3
  | .posted _ _ _ _ _ _ _ => s3
  | c => s3.startHw (s3.leaf + 1) c

/-! ### Posting (R71, R73) -/

/-- MODULES of a slot. -/
def State.sysModules (s : State) (n : Nat) : Nat := s.f (BL_MC_SYSn.MODULES n)

/-- The cause for which a posting by software is refused, in the order of R71, with T ≥ C + 3 for a system slot (R448). -/
def State.refusal (s : State) (n : Nat) (keys : List Nat) : Option Nat :=
  let p := s.leaf
  let c := s.f (TB_MCn_CUTOFF.CUTOFF n)
  let t := s.f (TB_MCn_TARGET.TARGET n)
  let scope := s.f (TB_MCn_CTL.SCOPE n)
  if c < p + 4 ∨ t < c + (if s.sysModules n = 0 then 2 else 3) then some 3
  else if p + 2 ^ 24 < t then some 4
  else if (List.range 8).any (fun m => s.slotLive m && decide ((s.slot m).scope &&& scope ≠ 0)) then some 5
  else if (s.shadowHolders keys).isEmpty then some 6
  else none

/-- A posting by set-up software (R71). -/
def State.armSlot (s : State) (n : Nat) : State :=
  let scope := s.f (TB_MCn_CTL.SCOPE n)
  let keys := s.pendingShadows scope
  let s0 := ((s.setF (TB_MCn_STATUS.NR_COUNT n) 0).setF (TB_MCn_STATUS.NR_LOC n) 0).setF (TB_MCn_STATUS.H n) 0
  match s.refusal n keys with
  | some cause => (s0.setF (TB_MCn_STATUS.STATE n) 5).setF (TB_MCn_STATUS.CAUSE n) cause
  | none =>
    (((s0.wakeLanes (s.portsWoken keys)).setF (TB_MCn_STATUS.STATE n) 1).setF (TB_MCn_STATUS.CAUSE n) 0).modSlot n (fun _ =>
      { participants := (s.shadowHolders keys).map (fun l => { loc := l }), shadows := keys
        cut := s.f (TB_MCn_CUTOFF.CUTOFF n), target := s.f (TB_MCn_TARGET.TARGET n), scope := scope, modules := s.sysModules n })

/-- A write to TB_MCn_CTL: SCOPE, ARM, and ABORT before the edge of leaf C (R71 to R73). -/
def State.actMcCtl (n : Nat) (v : Word) (s : State) : State :=
  let arm := decide ((TB_MCn_CTL.ARM n).of v = 1)
  let abort := decide ((TB_MCn_CTL.ABORT n).of v = 1)
  let s1 := if s.slotLive n then s else s.setF (TB_MCn_CTL.SCOPE n) ((TB_MCn_CTL.SCOPE n).of v)
  if 6 ≤ n then s
  else if arm && abort then s1
  else if abort then (if s.beforeCut n then s1.cancelSlot n 2 0 0 else s1)
  else if arm && !s.slotLive n then s1.armSlot n
  else s1

/-- A write to TB_MCn_TARGET or TB_MCn_CUTOFF. -/
def State.actMcLeaf (n k : Nat) (v : Word) (s : State) : State := if 6 ≤ n ∨ s.slotLive n = true then s else s.applyWrite k v

/-- A write to BL_MC_SYSn (R448). -/
def State.actMcSys (n : Nat) (v : Word) (s : State) : State :=
  if 6 ≤ n ∨ s.slotLive n = true then s else s.applyWrite (BL_MC_SYSn n) v

/-! ### Messages of a system change (R448, R450) -/

/-- A control message for module m, over the routes of R438. -/
def State.tellModule (s : State) (m op : Nat) (args : List Nat) : State := s.toModule m 0 (.control op args)

/-- The modules that a MODULES field names. -/
def modulesOf (w : Nat) : List Nat := (List.range 8).filter (fun m => w.testBit m)

/-- How messages name a system change: the originating module and slot, or 8 and the slot number where set-up software posted it on
each module. -/
def Slot.name (sl : Slot) (n : Nat) : Nat × Nat := sl.origin.getD (8, n)

/-- The slot that holds a system change of this name. -/
def State.slotNamed (s : State) (o k : Nat) : Option Nat :=
  (List.range 8).find? (fun n => s.slotLive n && decide ((s.slot n).modules ≠ 0 ∧ (s.slot n).name n = (o, k)))

/-- This module's verdict goes to the coordinator, which may be this module. -/
def State.giveVerdict (s : State) (n count loc : Nat) : State :=
  let sl := s.slot n
  let (o, k) := sl.name n
  let coord := (modulesOf sl.modules).headD s.moduleNo
  let s1 := s.modSlot n (fun x => { x with judged := true })
  if coord = s.moduleNo then s1.modSlot n (fun x => { x with verdicts := x.verdicts ++ [(s.moduleNo, count, loc)] })
  else s1.tellModule coord 6 [o, k, sl.cut, sl.target, count, loc]

/-! ### Cut-off and target (R72) -/

/-- The participants of a slot that have not reported ready. -/
def Slot.late (sl : Slot) : List Nat := (sl.participants.filter (fun p => !p.ready)).map (·.loc)

/-- The lowest of a list of packed locations. -/
def lowest : List Nat → Nat
  | [] => 0
  | x :: xs => xs.foldl min x

/-- What kept a change from ready is reported by its block (R215, R415). -/
def State.reportShadows (s : State) (n : Nat) : State :=
  let sl := s.slot n
  (s.raiseIf (sl.shadows.any (fun k => decide (k / 0x10000000 = 5)) && !s.ilvOk) MC_ALARM.ILV_BAD).raiseIf
    (sl.ports.any (fun p => !s.portShadowOk p)) PRT_ALARM.CFG_MISMATCH

/-- The edge of leaf C (R72): COMMITTED, CANCELLED, or a verdict for the coordinator (R448). -/
def State.cutoffAct (s0 : State) (n : Nat) : State :=
  if s0.slotState n = 1 ∧ (s0.slot n).judged = false then
    let sl := s0.slot n
    let late := sl.late
    (s0.untilLeaf sl.cut).asEventOf sl.cut (fun s =>
      let s1 := s.setB (TB_MCn_STATUS.H n) s.holdFlag
      let s2 := if late.isEmpty then s1 else s1.reportShadows n
      if sl.modules ≠ 0 then s2.giveVerdict n late.length (lowest late)
      else if late.isEmpty then (s2.setF (TB_MCn_STATUS.STATE n) 2).stageMaps sl.change
      else s2.cancelSlot n 1 late.length (lowest late))
  else s0

/-- The interleave shadows take effect (R215): every lap restarts (R238), and the channels of a region are ACTIVE or MIRRORED. A channel that has failed and waits
for its own T goes on so in a mirrored region, and is FAILED in another (R217). Shadows that would
change the populated part are dropped where a core was released after the cut-off (R45; DESIGN CHOICE, log entry 54). -/
def State.takeIlv (s : State) : State :=
  if !s.populationKept then
    (List.range 4).foldl (fun a r => a.discardShadow (MC_ILVr_SHADOW r)) (s.raise MC_ALARM.ILV_BAD)
  else
  let s1 := (List.range 4).foldl (fun a r => (a.setReg (MC_ILVr r) (a.reg (MC_ILVr_SHADOW r))).clearDirty (MC_ILVr_SHADOW r)) s
  let s2 := s1.shadowRegions.foldl (fun a r => r.channels.foldl (fun b k =>
    if r.mir then
      (if b.chState k = 4 ∨ b.chState (k + 4) = 4 ∨ (b.chan k).failing = true ∨ (b.chan (k + 4)).failing = true then b
      else ((((b.setChState k 3).setChState (k + 4) 3).setF (MC_CHk_STATUS.PRIMARY k) 1).setF (MC_CHk_STATUS.PRIMARY (k + 4)) 0).shareLap k)
    else if (b.chan k).failing then (((b.setChState k 8).raise MC_ALARM.CH_FAIL).logChannel k 3 8).setF (MC_CHk_STATUS.PRIMARY k) 0
    else (b.setChState k 2).setF (MC_CHk_STATUS.PRIMARY k) 0) a) s1
  s2.restartLaps.updateBandwidth

/-- One pending guard or ticket shadow takes effect. -/
def State.takeShadow (s : State) (k : Nat) : State :=
  let s1 := s.clearDirty k
  if k / 0x10000000 = 6 ∧ k % 0x1000 = 0 then
    let g := guardOfShadow k
    s1.setF (MG_CTLg.DEF g) (s1.f (MG_CTLg.DEF_SHADOW g))
  else if k / 0x10000000 = 6 then s1.setReg (k - 0x10) (s1.reg k)
  else if k / 0x10000000 = 8 then s1.setReg (k - 8) (s1.reg k)
  else s

/-- The module links whose ports a change touches (R443): one that loses its BROIP ports goes down, one that gains them trains. -/
def State.switchLinks (old s : State) (ps : List Nat) : State :=
  (List.range 32).foldl (fun a j =>
    if (List.range 4).any (fun i => ps.contains (4 * j + i) && decide (old.reg (PRT_Pp_CFG (4 * j + i)) ≠ s.reg (PRT_Pp_CFG (4 * j + i)))) then
      let was := decide (old.linkStateOf j ≠ 0)
      let is := (List.range 4).all (fun i => decide (a.f (PRT_Pp_CFG.MODE (4 * j + i)) = 2))
      if was then (if decide (old.linkStateOf j = 3 ∨ old.linkStateOf j = 4) then a.dropLink j else a.trainLink j)
      else if is then a.trainLink j else a
    else a) s

/-- Ports take their shadows (R415, R416). -/
def State.takePorts (s : State) (ps : List Nat) : State := State.settleLanes s (State.switchLinks s (s.switchPorts ps) ps).showPeers ps

/-- The shadows of a software change take effect. -/
def State.takeShadows (s : State) (sl : Slot) : State :=
  let s1 := if sl.shadows.any (fun k => decide (k / 0x10000000 = 5)) then s.takeIlv else s
  let s2 := sl.shadows.foldl State.takeShadow s1
  let s3 := if sl.ports.isEmpty then s2 else s2.takePorts sl.ports
  if sl.shadows.contains AEP_CTL then s3.switchStandby else s3

/-- A logical engine takes its new physical engine (R393), which takes the old one's place in a pending change of tickets (R74); after a
planned move the old one is SPARE (R555). A spare that failed before T takes nothing: another one is on its way (R393). -/
def State.takeEngine (s : State) (l k : Nat) (fault : Bool) : State :=
  let old := s.f (CE_STATUSl.PHYS l)
  if (s.engine l).spare ≠ some k then s
  else
    let s1 := (((s.leaveService (s.engineLoc old)).switchEngine l k).useStep (.engine k true)).modEngine l (fun e => { e with spare := none })
    let s2 := (List.range 8).foldl (fun a n =>
      if (a.slot n).shadows.any (fun x => decide (x / 0x10000000 = 8)) then a.joinService n (a.engineLoc k) else a) s1
    if fault ∨ old = k then s2 else s2.setF (CE_PHYSk.STATE old) 1

/-- The ports of a loop-back test take their configuration (R562). -/
def State.takeLoop (s : State) (sets : List (Nat × Word × Nat)) : State :=
  (sets.foldl (fun a x => ((a.setReg (PRT_Pp_CFG_SHADOW x.1) x.2.1).setF (PRT_Pp_LOOP.DEPTH x.1) x.2.2).markDirty (PRT_Pp_LOOP x.1)) s).takePorts
    (sets.map (·.1))

/-- A tile is its quire's spare again (R563). -/
def State.takeSpare (s : State) (t : Nat) : State :=
  let n := t / 9
  ((s.setF (CPU_SPARE_MAPn.SPARE n) (t % 9)).setF (CPU_SPARE_MAPn.FAILED n) (setBit (s.f (CPU_SPARE_MAPn.FAILED n)) (t % 9) false)).answerOwed 0
    (fun w => decide (w = .spare t))

/-- What a change does at T. -/
def State.applyChange (s : State) (sl : Slot) : State :=
  match sl.change with
  | .none => s.takeShadows sl
  | .takeover cs => cs.foldl (fun a c => (a.switchCore c).dmDeliver c) s
  | .spareReturn t => s.takeSpare t
  | .slice n => s.switchSlice n
  | .mesh ds => (s.switchMaps ds).updateBandwidth
  | .channels sets => s.switchChannels sets
  | .grants d k => s.switchGrants d k
  | .engine l k fault => s.takeEngine l k fault
  | .evacuate e host back => s.switchWindow e host back
  | .posted _ _ _ _ _ _ evac => (evac.elim s (fun x => s.switchWindow x.1 x.2.1 x.2.2)).takeShadows sl
  | .loop sets => s.takeLoop sets

/-- The edge of leaf T (R72), in its place among the events of R67: every participant enters the new mode. -/
def State.targetAct (s0 : State) (n : Nat) : State :=
  let sl := s0.slot n
  if s0.slotState n = 2 ∧ s0.turnOf sl.target 2 = true then
    (s0.untilLeaf sl.target).asEventOf sl.target (fun s =>
      let s1 := ((s.setB (TB_MCn_STATUS.H n) (s.on (TB_MCn_STATUS.H n) || s.holdFlag)).setF (TB_MCn_STATUS.STATE n) 3)
      ((s1.applyChange sl).modSlot n (fun x => { x with change := .none, participants := [], shadows := [] })).afterSlot n
        (fun c => decide (c.scope &&& sl.scope ≠ 0)))
  else s0

/-! ### Hardware changes (R76) -/

/-- The participants of a hardware change: the units that the rule which starts it names; they report ready at once. -/
def State.hwLocs (s : State) : HwChange → List Loc
  | .takeover cs => cs.flatMap (fun c => match (s.core c).takeover with
      | some k => [s.tileLoc (c / 8) k.dst 0, s.tileLoc (c / 8) k.src 8]
      | none => [])
  | .spareReturn t => [s.tileLoc (t / 9) (t % 9) 0]
  | .slice _ => (List.range 4).map (fun d => s.dieLoc d 30) ++ [s.dieLoc 4 301, s.dieLoc 5 301]
  | .mesh ds => ds.flatMap (fun d => if d < 4 then (List.range 54).map (fun i => s.tileLoc ((54 * d + i) / 9) ((54 * d + i) % 9) 9) else [])
  | .channels sets => sets.map (fun p => s.mcLoc p.1)
  | .grants _ _ => s.mcLocs
  | .engine _ k _ => [s.engineLoc k]
  | .loop sets => sets.map (fun p => s.portLoc p.1)
  | .none | .evacuate _ _ _ | .posted _ _ _ _ _ _ _ => []

/-- Whether a hardware change is prepared: an engine's spare has its step taken (R393), a port of a loop-back test is quiet (R415). -/
def State.hwPrepared (s : State) : HwChange → Bool
  | .engine l k _ => (s.stepTaken (.engine k true)).isSome || decide (s.f (CE_STATUSl.PHYS l) = k)
  | .loop sets => sets.all (fun p => s.portQuiet p.1 && ((PRT_Pp_CFG.MODE p.1).of p.2.1 == 0 || s.lanesReady p.1))
  | _ => true

/-- Whether a hardware slot stands in the way (R76): one that is live shares the scope, or both are live. -/
def State.hwBlocked (s : State) (scope : Nat) : Bool :=
  (s.slotLive 6 && s.slotLive 7) || [6, 7].any (fun n => s.slotLive n && decide ((s.slot n).scope &&& scope ≠ 0))

/-- Whether a software slot must end first, in leaf `l`: a COMMITTED one with a shared scope, one of which C has come and is still to be
judged, or any live one for a slice's retirement (R169). -/
def State.swBlocks (s : State) (l : Nat) (c : HwChange) : Bool :=
  (List.range 6).any (fun n => s.slotLive n && decide ((s.slot n).scope &&& c.scope ≠ 0) &&
    (decide (s.slotState n = 2 ∨ (s.slot n).cut ≤ l) || match c with
    | .slice _ => true
    | _ => false))

/-- Whether a change has to wait for a COMMITTED software slot, or is one of R169 that waits for any. -/
def State.swAhead (s : State) (c : HwChange) : Bool :=
  (List.range 6).any (fun n => s.slotLive n && decide ((s.slot n).scope &&& c.scope ≠ 0) && (decide (s.slotState n = 2) || match c with
    | .slice _ => true
    | _ => false))

/-- PREEMPT is set (R76, R143, R393). -/
def State.raisePreempt (s : State) (scope : Nat) : State :=
  ((s.raise TB_ALARM.PREEMPT).raiseIf (scope.testBit 1) CPU_RAS_ALARM.PREEMPT).raiseIf (scope.testBit 8) CE_ALARM.PREEMPT

/-- PENDING software slots that share the scope are cancelled; none of them has met its C (swBlocks). -/
def State.preempt (s : State) (scope : Nat) : State :=
  (List.range 6).foldl (fun a n =>
    if a.beforeCut n && decide ((a.slot n).scope &&& scope ≠ 0) then (a.cancelSlot n 2 0 0).raisePreempt scope else a) s

/-- The slot that a change names first (R141, R393), where it is free, and else the other. -/
def State.hwSlot (s : State) (c : HwChange) : Nat :=
  let first := match c with
    | .takeover _ | .spareReturn _ | .engine _ _ _ => 6
    | _ => 7
  if s.slotLive first then 13 - first else first

/-- The modules with which this module shares a system change: itself and every LINKED one (R452). -/
def State.allModules (s : State) : Nat :=
  (List.range 8).foldl (fun w m => if m = s.moduleNo ∨ s.f (BL_PEERm.STATE m) = 1 then w + 2 ^ m else w) 0

/-- A hardware change is armed in slot n with C and T. -/
def State.armHw (s : State) (n : Nat) (c : HwChange) (cut target modules : Nat) (origin : Option (Nat × Nat)) : State :=
  let keys := match c with
    | .posted _ _ sc _ _ _ _ => s.pendingShadows sc
    | _ => []
  let s1 := (((((s.wakeLanes (s.portsWoken keys)).setF (TB_MCn_TARGET.TARGET n) target).setF (TB_MCn_CUTOFF.CUTOFF n) cut).setF (TB_MCn_CTL.SCOPE n) c.scope).setF
    (BL_MC_SYSn.MODULES n) modules).setReg (TB_MCn_STATUS n) 1
  s1.modSlot n (fun _ =>
    { participants := ((s.hwLocs c).map Loc.packed).dedup.map (fun l => { loc := l, ready := true }) ++
        (s.shadowHolders keys).map (fun l => { loc := l })
      change := c, shadows := keys, cut := cut, target := target, scope := c.scope, modules := modules, origin := origin })

/-- A service engine arms a change in its slot; one of an evacuation is posted to the partners (R450). A received change that can no
longer be armed is answered with a verdict. -/
def State.armChange (s : State) (c : HwChange) : State :=
  let n := s.hwSlot c
  match c with
  | .posted o k _ cut t mods _ =>
    if cut ≤ s.leaf + 1 then
      s.tellModule ((modulesOf mods).headD 0) 6 [o, k, cut, t, 1, ({ module := s.moduleNo, die := 6, quire := 0 } : Loc).packed]
    else s.armHw n c cut t mods (some (o, k))
  | .evacuate e host back =>
    let mods := s.allModules
    let cut := s.leaf + 4
    let s1 := s.armHw n c cut (cut + 4) mods (some (s.moduleNo, n))
    ((modulesOf mods).filter (· ≠ s.moduleNo)).foldl (fun a m =>
      a.tellModule m 9 [s.moduleNo, n, cut, cut + 4, mods, c.scope, e, host, if back then 1 else 0]) s1
  | .slice m => (s.writeHomeShadow m).armHw n c (s.leaf + 4) (s.leaf + 6) 0 none
  | _ => s.armHw n c (s.leaf + 4) (s.leaf + 6) 0 none

/-- The first of the waiting changes that can be armed (R76): prepared, with no slot in its way, and with no block in common with a change
that became ready before it and still waits (`held`: the blocks of those). -/
def State.firstFree (s : State) (held : Nat) : List Waiting → Option Waiting
  | [] => none
  | w :: ws =>
    let c := w.change
    if !s.hwPrepared c then s.firstFree held ws
    else if s.hwBlocked c.scope || s.swBlocks (max s.leaf w.notBefore) c || decide (c.scope &&& held ≠ 0) then s.firstFree (held ||| c.scope) ws
    else some w

/-- Whether a waiting change is a takeover that is ready in leaf `l`. -/
def Waiting.takeoverBy (l : Nat) (w : Waiting) : Bool :=
  decide (w.notBefore ≤ l) && match w.change with
    | .takeover _ => true
    | _ => false

/-- The logical cores of a change. -/
def HwChange.cores : HwChange → List Nat
  | .takeover cs => cs
  | _ => []

/-- The change that is armed for a waiting one, which waits no more: the takeovers that are ready beside a takeover join it (R144). -/
def State.takeWaiting (s : State) (w : Waiting) : State × HwChange :=
  if w.takeoverBy s.leaf then
    ({ s with waiting := s.waiting.filter (fun x => !x.takeoverBy s.leaf) },
      .takeover ((s.waiting.filter (Waiting.takeoverBy s.leaf)).flatMap (fun x => x.change.cores)))
  else ({ s with waiting := s.waiting.erase w }, w.change)

/-- The first waiting change that can be armed is armed; PREEMPT is set where one must wait for a software slot (R76). -/
def State.hardwareChange (s : State) : State :=
  let s1 := s.raiseIf (s.waiting.any (fun w => s.hwPrepared w.change && !s.hwBlocked w.change.scope && s.swAhead w.change)) TB_ALARM.PREEMPT
  match s.firstFree 0 s.waiting with
  | none => s1
  | some w =>
    let (s2, c) := (s1.untilLeaf w.notBefore).takeWaiting w
    (s2.preempt c.scope).armChange c

/-! ### The coordinator and the partners (R448 to R450) -/

/-- A POST message arrives: the change waits for a hardware slot. -/
def State.receivePost (s : State) (o k cut t mods scope : Nat) (evac : Option (Nat × Nat × Bool)) : State :=
  if mods.testBit s.moduleNo then s.startHw s.leaf (.posted o k scope cut t mods evac) else s

/-- A verdict arrives at the coordinator: one for another C or T is none. -/
def State.receiveVerdict (s : State) (m o k cut t count loc : Nat) : State :=
  match s.slotNamed o k with
  | none => s
  | some n =>
    let sl := s.slot n
    if sl.cut = cut ∧ sl.target = t ∧ (modulesOf sl.modules).headD 0 = s.moduleNo then
      s.modSlot n (fun x => { x with verdicts := x.verdicts ++ [(m, count, loc)] })
    else s

/-- A decision reaches this module's slot. -/
def State.takeDecision (s : State) (n : Nat) (commit : Bool) (count loc : Nat) : State :=
  if s.slotState n ≠ 1 then s
  else if commit then s.setF (TB_MCn_STATUS.STATE n) 2
  else s.cancelSlot n 1 count loc

/-- What the coordinator decides: the modules that are not ready, with their counts and locations. -/
def Slot.refusers (sl : Slot) : List (Nat × Nat) :=
  (modulesOf sl.modules).filterMap (fun m =>
    match sl.verdicts.find? (fun v => decide (v.1 = m)) with
    | none => some (1, ({ module := m, die := 7, quire := 0 } : Loc).packed)
    | some (_, 0, _) => none
    | some (_, c, l) => some (c, l))

/-- The edge of leaf C + 1 at the coordinator (R448). -/
def State.coordinatorDecides (s0 : State) (n : Nat) : State :=
  let sl0 := s0.slot n
  if decide (s0.slotState n = 1) && sl0.judged && decide ((modulesOf sl0.modules).headD 8 = s0.moduleNo) then
    let s := s0.untilLeaf (sl0.cut + 1)
    let bad := sl0.refusers
    let (count, loc) := match bad with
      | [] => (0, 0)
      | x :: _ => x
    let (o, k) := sl0.name n
    let s1 := ((modulesOf sl0.modules).filter (· ≠ s.moduleNo)).foldl (fun a m =>
      a.tellModule m 7 [o, k, if bad.isEmpty then 1 else 0, count, loc]) s
    s1.takeDecision n bad.isEmpty count loc
  else s0

/-- A DECISION message arrives. -/
def State.receiveDecision (s : State) (o k : Nat) (commit : Bool) (count loc : Nat) : State :=
  match s.slotNamed o k with
  | none => s
  | some n => s.takeDecision n commit count loc

/-- No decision by the edge of leaf C + 2 (R449): the slot is cancelled, and every link to the modules in MODULES is stopped. -/
def State.decisionTimeout (s0 : State) (n : Nat) : State :=
  let sl := s0.slot n
  if s0.slotState n = 1 ∧ sl.judged = true then
    let s := s0.untilLeaf (sl.cut + 2)
    let s1 := s.cancelSlot n 1 1 ({ module := (modulesOf sl.modules).headD 0, die := 7, quire := 0 } : Loc).packed
    let s2 := (List.range 32).foldl (fun a j =>
      let m := a.f (BL_Lj_STATUS.PEER_MOD j)
      if (decide (a.linkStateOf j = 3) || decide (a.linkStateOf j = 4)) && sl.modules.testBit m && decide (m ≠ a.moduleNo) then
        a.setLinkState j 0 else a) s1
    (s2.raise BL_ALARM.MC_SPLIT).showPeers
  else s0

/-! ### The commands -/

/-- ARM: TB_MCn_CTL written with ARM = 1. -/
def execArm (who : Requester) (n : Nat) (v : Word) (s : State) : Host.Outcome State Fault Refusal :=
  let w := (TB_MCn_CTL.ARM n).put 1 v
  .next (s.running (s.written who 8 (TB_MCn_CTL n) w (fun a => a.actMcCtl n w)))

/-- ABORT: TB_MCn_CTL written with ABORT = 1. -/
def execAbort (who : Requester) (n : Nat) (v : Word) (s : State) : Host.Outcome State Fault Refusal :=
  let w := (TB_MCn_CTL.ABORT n).put 1 v
  .next (s.running (s.written who 8 (TB_MCn_CTL n) w (fun a => a.actMcCtl n w)))

/-- PARTICIPANT_READY. -/
def execParticipantReady (n loc : Nat) (s : State) : Host.Outcome State Fault Refusal := .next (s.running (s.participantReady n loc))

/-- CUTOFF. -/
def execCutoff (n : Nat) (s : State) : Host.Outcome State Fault Refusal := .next (s.running (s.cutoffAct n))

/-- TARGET. -/
def execTarget (n : Nat) (s : State) : Host.Outcome State Fault Refusal := .next (s.running (s.targetAct n))

/-- HARDWARE_CHANGE. -/
def execHardwareChange (s : State) : Host.Outcome State Fault Refusal := .next (s.running s.hardwareChange)

/-- POST. -/
def execPost (o k cut t mods scope : Nat) (evac : Option (Nat × Nat × Bool)) (s : State) : Host.Outcome State Fault Refusal :=
  .next (s.running (s.receivePost o k cut t mods scope evac))

/-- VERDICT, from module m. -/
def execVerdict (m o k cut t count loc : Nat) (s : State) : Host.Outcome State Fault Refusal :=
  .next (s.running (s.receiveVerdict m o k cut t count loc))

/-- COORDINATOR_DECISION. -/
def execCoordinatorDecision (n : Nat) (s : State) : Host.Outcome State Fault Refusal := .next (s.running (s.coordinatorDecides n))

/-- DECISION. -/
def execDecision (o k : Nat) (commit : Bool) (count loc : Nat) (s : State) : Host.Outcome State Fault Refusal :=
  .next (s.running (s.receiveDecision o k commit count loc))

/-- DECISION_TIMEOUT. -/
def execDecisionTimeout (n : Nat) (s : State) : Host.Outcome State Fault Refusal := .next (s.running (s.decisionTimeout n))

end Sys2Proof.Machine
end

