-- ==== Sys2Proof/Machine/TimeBase.lean ====
section
/-! DEFINITION. The time base (chapter System Time, Leaves and Gatherings, R50 to R66, R580, R581): taking the count from
the frame, keeping it in holdover, and the commands about it. -/

namespace Sys2Proof.Machine

open Sys2Proof

/-! ### States of the time base -/

/-- Whether an input is qualified (R56); `b` names ETICK_B. -/
def State.qualified (s : State) (b : Bool) : Bool := s.on (if b then TB_STATUS.B_QUAL else TB_STATUS.A_QUAL)

/-- Whether TB_CTL.SRC allows an input to be followed (R57). -/
def State.srcAllows (s : State) (b : Bool) : Bool :=
  let src := s.f TB_CTL.SRC
  decide (src = 0) || (decide (src = 1) && !b) || (decide (src = 2) && b)

/-- The input that R57 follows: the preferred one while it is qualified, and the other otherwise. -/
def State.chooseInput (s : State) : Option Bool :=
  let p := s.on TB_CTL.PREF
  if s.qualified p && s.srcAllows p then some p
  else if s.qualified (!p) && s.srcAllows (!p) then some (!p)
  else none

/-- The input that the time base follows now (R55). -/
def State.selected (s : State) : Option Bool :=
  let st := s.f TB_STATUS.STATE
  if st = 1 then some false else if st = 2 then some true else none

/-- Follow an input: LOCKED_A or LOCKED_B (R55). -/
def State.lockTo (s : State) (b : Bool) : State :=
  let since := match s.tb.lockSince with
    | some c => some c
    | none => some s.count
  let s1 := (s.setF TB_STATUS.STATE (if b then 2 else 1)).raise TB_STATUS.EVER_LOCKED
  { s1 with tb := { s1.tb with lockSince := since } }.showHold

/-- Stop slewing (R60). -/
def State.stopSlew (s : State) : State :=
  let s1 := s.setF TB_STATUS.SLEWING 0
  { s1 with tb := { s1.tb with slewError := 0, slewFlag := false } }

/-- Enter HOLDOVER (R58). -/
def State.enterHoldover (s : State) : State :=
  if s.f TB_STATUS.STATE = 3 then s
  else
    let long := match s.tb.lockSince with
      | some c => decide (600000000 * 256 ≤ s.count - c)
      | none => false
    let fromSub := decide (s.f TB_STATUS.STATE = 4)
    let s1 := ((s.stopSlew.setF TB_STATUS.STATE 3).raise TB_ALARM.HOLDOVER)
    { s1 with tb := { s1.tb with
        holdSince := s.count, longLock := long, noBound := fromSub, overLimit := false, lockSince := none } }.showHold

/-- Remove a phase error of `n` units by slewing (R60); `fromHold`: the slew follows a return from HOLDOVER. -/
def State.slew (s : State) (n : Nat) (fromHold : Bool) : State :=
  if n = 0 then s.stopSlew
  else
    let keep := s.tb.slewFlag && decide (2 < s.slewRest)
    let s1 := s.raise TB_STATUS.SLEWING
    { s1 with tb := { s1.tb with slewError := n, slewSince := s.count, slewFlag := fromHold || keep } }

/-- Every leaf-scheduled event moves back by `k` leaves (R61): posted events, mode changes with their registers, reservations and what the
Headband controller knows by leaf, locks, tests, resets, and changes that wait. -/
def State.eventsBack (s : State) (k : Nat) : State :=
  let live := (List.range 8).filter (fun n => decide (s.f (TB_MCn_STATUS.STATE n) = 1 ∨ s.f (TB_MCn_STATUS.STATE n) = 2))
  let s1 := live.foldl (fun a n => (a.setF (TB_MCn_TARGET.TARGET n) (a.f (TB_MCn_TARGET.TARGET n) - k)).setF (TB_MCn_CUTOFF.CUTOFF n)
    (a.f (TB_MCn_CUTOFF.CUTOFF n) - k)) s
  let res (r : Reservation) : Reservation := { r with leaf := r.leaf - k }
  { s1 with
    posted := s.posted.map (fun (e : LeafEvent) => { e with leaf := e.leaf - k })
    journal := s.journal.map (fun e => (e.1, e.2.map (fun (x : JEntry) => { x with timer := x.timer.map (· - k) })))
    channels := s.channels.map (fun e => (e.1, { e.2 with burstAt := 0, wakeAt := 0 }))
    lateRow := 0
    slots := s.slots.map (fun e => (e.1, { e.2 with cut := e.2.cut - k, target := e.2.target - k }))
    waiting := s.waiting.map (fun (w : Waiting) => { w with notBefore := w.notBefore - k })
    lockFrom := (s.lockFrom.map (fun e => (e.1, if s.leaf < e.2 then e.2 - k else e.2)))
    hb := { s.hb with
      queue := s.hb.queue.map res, granted := s.hb.granted.map res, closed := s.hb.closed - k
      vid := s.hb.vid.map (fun e => (e.1, e.2.map (fun v => (v.1 - k, v.2)))) }
    svc := { s.svc with
      resetAt := s.svc.resetAt.map (fun r => (r.1 - k, r.2))
      tests := s.svc.tests.map (fun (t : LoopTest) => { t with until_ := t.until_ - k }) } }

/-- The leaves and counts from which durations are measured move with the count, by `k` units: a step of the count lengthens and shortens none. -/
def State.spansMove (s : State) (k : Int) : State :=
  let unit (n : Nat) : Nat := ((n : Int) + k).toNat
  let leaf (n : Nat) : Nat := ((n : Int) + k / 256).toNat
  { s with
    tb := { s.tb with freshA := s.tb.freshA + k / 256, freshB := s.tb.freshB + k / 256 }
    mesh := { s.mesh with beyond := s.mesh.beyond.map (fun e => (e.1, e.2.map leaf)), stopped := s.mesh.stopped.map leaf }
    fillStart := unit s.fillStart
    channels := s.channels.map (fun e => (e.1, { e.2 with lapStart := unit e.2.lapStart }))
    harts := s.harts.map (fun e => (e.1, { e.2 with lastRetire := leaf e.2.lastRetire, enterLeaf := leaf e.2.enterLeaf }))
    slices := s.slices.map (fun e => (e.1, { e.2 with txns := e.2.txns.map (fun (x : HomeTxn) => { x with since := leaf x.since }) }))
    recoveries := s.recoveries.map (fun (r : Recovery) => { r with since := leaf r.since })
    ports := s.ports.map (fun e => (e.1, { e.2 with since := leaf e.2.since }))
    blinks := s.blinks.map (fun e => (e.1, { e.2 with since := unit e.2.since, ackAt := unit e.2.ackAt, lastGood := leaf e.2.lastGood }))
    peerSince := s.peerSince.map (fun e => (e.1, leaf e.2)) }

/-- Load the count at a step (R61): pending events move back with a backward load by as many leaves; events of leaves that a forward step
skips fire in the first leaf after it, with their holdover flag set (R62). Every die's replica keeps the old count until the next leaf edge,
at which it is reloaded (R65). -/
def State.loadCount (s : State) (c : Nat) : State :=
  let old := s.leaf
  let new := c / 256
  let s1 := { s with
    col := { s.col with powered := s.col.powered + (old - s.col.poweredTo), poweredTo := new }
    tb := { s.tb with skipped := if old + 1 < new then some (old, new) else s.tb.skipped } }
  let s2 := if c < s.count then s1.eventsBack (old - new) else s1
  let apart : Int := (s.count : Int) - c
  { (s2.spansMove (-apart)).setCount c with replicas := if apart = 0 then s.replicas else (List.range 6).map (fun d => (d, apart)) }

/-- An input becomes unqualified: no agreement seen before counts (R56). -/
def State.unqualify (s : State) (b : Bool) : State :=
  let s1 := s.setF (if b then TB_STATUS.B_QUAL else TB_STATUS.A_QUAL) 0
  { s1 with tb := if b then { s1.tb with agreedB := false } else { s1.tb with agreedA := false } }

/-- After a loss or a change of SRC: stay, follow the other input, or enter HOLDOVER (R57, R58). A write that leaves the selected input allowed
changes nothing here: a new PREF, or SRC = 0b00, is followed at the next EMARK (DESIGN CHOICE, log entry 53). -/
def State.reselect (s : State) : State :=
  match s.selected with
  | none => s
  | some b =>
    if s.qualified b && s.srcAllows b then s
    else
      match s.chooseInput with
      | some b' => s.lockTo b'
      | none => s.enterHoldover

/-! ### ETOD and EMARK -/

/-- What a complete ETOD message is (R53, R54). -/
inductive EtodCheck where
  | bad
  | other
  | good (m : EtodMsg)
deriving DecidableEq, Repr

/-- The checks of R54 in their order: CRC, TYPE, reserved flag bits and MARK_LEAF. -/
def checkEtod (bytes : List Byte) (now : Nat) : EtodCheck :=
  if bytes.length ≠ 16 then .bad
  else if crc32c (bytes.take 12) ≠ BitVec.ofNat 32 (leNat (bytes.drop 12)) then .bad
  else if leNat ((bytes.drop 1).take 1) ≠ 1 then .other
  else
    let mark := leNat ((bytes.drop 2).take 7)
    let flags := leNat ((bytes.drop 11).take 1)
    if 8 ≤ flags ∨ mark % 1000000 ≠ 0 then .bad
    else .good { markLeaf := mark, utc := leNat ((bytes.drop 9).take 2), flags := flags, at_ := now }

/-- A message is received whole (R54). A byte other than 0xC5 does not start one. -/
def State.etodMessage (s : State) (bytes : List Byte) : State :=
  if s.f TB_STATUS.STATE = 4 then s
  else if bytes.head? ≠ some 0xC5 then s
  else
    match checkEtod bytes s.count with
    | .bad => s.raise TB_ALARM.ETOD_BAD
    | .other => s
    | .good m => { s with tb := { s.tb with pendingMsg := some m } }

/-- An incomplete message is discarded (R54); in SUBSTITUTE, ETOD is ignored (R64). -/
def State.etodIncomplete (s : State) : State :=
  if s.f TB_STATUS.STATE = 4 then s else s.raise TB_ALARM.ETOD_BAD

/-- The UTC offset and leap flags of an accepted message, where they differ from those held (R69). The first message is applied, and VALID
set, although its values may equal the zeros that TB_UTC holds at reset (DESIGN CHOICE, log entry 53). -/
def State.applyUtc (s : State) (m : EtodMsg) : State :=
  if s.on TB_UTC.VALID && decide (s.f TB_UTC.OFFSET = m.utc) && decide (s.f TB_UTC.LEAP_ADD = m.flags % 2) &&
      decide (s.f TB_UTC.LEAP_SUB = m.flags / 2 % 2) then s
  else (((s.setF TB_UTC.OFFSET m.utc).setF TB_UTC.LEAP_ADD (m.flags % 2)).setF TB_UTC.LEAP_SUB (m.flags / 2 % 2)).raise
    TB_UTC.VALID

/-- The signed phase error as PHASE_ERR shows it: 16 bits, saturating (R580). -/
def phaseErrBits (e : Int) : Nat :=
  let c : Int := if e < -32768 then -32768 else if 32767 < e then 32767 else e
  (c % 65536).toNat

/-- The input that an agreeing EMARK measures against (R59, R580): the selected one; with none selected, the qualified input that the edge
agrees with, the preferred one first. `nearA`, `nearB`: the edge falls within 25 ns of an edge of that input. -/
def State.measured (s : State) (nearA nearB : Bool) : Option Bool :=
  match s.selected with
  | some b => some b
  | none =>
    let p := s.on TB_CTL.PREF
    let may (b : Bool) : Bool := s.qualified b && s.srcAllows b && (if b then nearB else nearA)
    if may p then some p else if may (!p) then some (!p) else none

/-- What an agreeing EMARK does with the phase error it measures (R59, R60, R61). -/
def State.measure (s : State) (mark : Nat) (nearA nearB : Bool) : State :=
  let err : Int := (s.count : Int) - (mark * 256 : Nat)
  match s.measured nearA nearB with
  | none => s
  | some b =>
    if s.f TB_STATUS.STATE = 0 ∧ s.released = false then
      ((s.stopSlew.loadCount (mark * 256)).lockTo b)
    else if s.tb.stuck then s
    else if 1024 * 256 < err.natAbs then
      let s1 := s.raise TB_ALARM.FAR
      let forward := !s.on TB_STATUS.EVER_LOCKED && decide (err < 0)
      if forward && s.on TB_CTL.ACCEPT_STEP then
        ((s.stopSlew.loadCount (mark * 256)).setF TB_CTL.ACCEPT_STEP 0).lockTo b
      else if forward then s1.enterHoldover
      else
        let s2 := s1.enterHoldover
        { s2 with tb := { s2.tb with stuck := true } }
    else
      let fromHold := decide (s.f TB_STATUS.STATE = 3 ∨ s.f TB_STATUS.STATE = 0)
      (s.lockTo b).slew err.natAbs fromHold

/-- Back to the preferred input at an EMARK (R57). -/
def State.returnToPreferred (s : State) : State :=
  let p := s.on TB_CTL.PREF
  if s.f TB_CTL.SRC = 0 ∧ s.selected = some (!p) ∧ s.qualified p = true then s.lockTo p else s

/-- Whether the edge, accepted with a message, is an agreeing EMARK (R580): it falls within 25 ns of an edge of the selected input, or, with none
selected, of an input that is qualifying: its period is within 50 ppm (`steadyA`, `steadyB`), or it has qualified already. -/
def State.agrees (s : State) (distA distB : Nat) (steadyA steadyB : Bool) : Bool :=
  match s.selected with
  | some false => decide (distA ≤ 25)
  | some true => decide (distB ≤ 25)
  | none => decide (distA ≤ 25) && (steadyA || s.qualified false) || decide (distB ≤ 25) && (steadyB || s.qualified true)

/-- A rising edge of EMARK at count `t`, `distA` and `distB` ns from the nearest rising edges of the two inputs, whose periods are within 50 ppm
or not (R54, R57, R59 to R61, R69, R580). In SUBSTITUTE it is ignored (R64). -/
def State.emarkEdge (s : State) (t distA distB : Nat) (steadyA steadyB : Bool) : State :=
  let s := s.until t
  if s.f TB_STATUS.STATE = 4 then s
  else
    let msg := s.tb.pendingMsg
    let s1 := { s with tb := { s.tb with pendingMsg := none } }.returnToPreferred
    match msg with
    | none => s1
    | some m =>
      let age := s1.count - m.at_
      if age < 10000 * 256 then s1.raise TB_ALARM.ETOD_BAD
      else if 990000 * 256 < age then s1
      else
        let s2 := { s1 with tb := { s1.tb with
          agreedA := s1.tb.agreedA || decide (distA ≤ 25), agreedB := s1.tb.agreedB || decide (distB ≤ 25) } }
        if s2.agrees distA distB steadyA steadyB then
          let err : Int := (s2.count : Int) - (m.markLeaf * 256 : Nat)
          let s3 := (s2.setF TB_STATUS.EMARK_MISS 0).setF TB_STATUS.PHASE_ERR (phaseErrBits err)
          let s4 := s3.measure m.markLeaf (decide (distA ≤ 25)) (decide (distB ≤ 25))
          { s4 with tb := { s4.tb with lastAgree := some s4.leaf } }.applyUtc m
        else s2.applyUtc m

/-- The check for a missing EMARK, 10 ms past a whole second of the count (R581). -/
def State.emarkMissCheck (s : State) (second : Nat) : State :=
  let l := second * 1000000 + 10000
  if l < s.leaf then s
  else
    let s := s.untilLeaf l
    let seen := match s.tb.lastAgree with
      | some a => decide (l ≤ a + 1000000)
      | none => false
    if seen then s
    else
      let s1 := s.incF TB_STATUS.EMARK_MISS
      s1.raiseIf (decide (s.f TB_STATUS.EMARK_MISS = 2)) TB_ALARM.EMARK_MISS

/-! ### Inputs -/

/-- Whether an input's period has stayed within 50 ppm (`ppb` parts in 10^9 at worst) for 1,000 consecutive leaves, none of them before the end
of SUBSTITUTE or of missing edges (R56, R64). -/
def State.steady (s : State) (b : Bool) (leaves ppb : Nat) : Bool :=
  decide (1000 ≤ leaves ∧ ppb ≤ 50000 ∧ (if b then s.tb.freshB else s.tb.freshA) + leaves ≤ (s.leaf : Int))

/-- An input has kept its period; with an agreeing EMARK since it last became unqualified it is qualified (R56). -/
def State.inputQualified (s : State) (b : Bool) (leaves ppb : Nat) : State :=
  if s.f TB_STATUS.STATE = 4 then s
  else if (if b then s.tb.agreedB else s.tb.agreedA) && s.steady b leaves ppb then s.raise (if b then TB_STATUS.B_QUAL else TB_STATUS.A_QUAL)
  else s

/-- The input that a monitor's finding makes lost (R56): the one whose edges are missing; the only qualified one, more than 20 ppm from the
oscillator; of two that differ by more than 20 ppm, the one that differs more from it, and of two equally far the one not selected (with none
selected, the one that R57 would not follow: DESIGN CHOICE, log entry 53). -/
def State.lostInput (s : State) : ClockLoss → Option Bool
  | .edges b => if s.qualified b then some b else none
  | .drift a b =>
    match s.qualified false, s.qualified true with
    | true, false => if 20000 < a.natAbs then some false else none
    | false, true => if 20000 < b.natAbs then some true else none
    | true, true =>
      if (a - b).natAbs ≤ 20000 then none
      else if a.natAbs = b.natAbs then some (!(s.selected.getD (s.chooseInput.getD (s.on TB_CTL.PREF))))
      else some (decide (a.natAbs < b.natAbs))
    | false, false => none

/-- The 1,000 leaves of an input are counted from now on. -/
def State.restartLeaves (s : State) (b : Bool) : State :=
  { s with tb := if b then { s.tb with freshB := s.leaf } else { s.tb with freshA := s.leaf } }

/-- An input is lost: it is unqualified, and another is followed or HOLDOVER entered (R56 to R58). -/
def State.loseInput (s : State) (b : Bool) : State :=
  ((s.unqualify b).raise (if b then TB_ALARM.B_LOST else TB_ALARM.A_LOST)).reselect

/-- A monitor of the inputs reports (R56). -/
def State.inputLost (s : State) (l : ClockLoss) : State :=
  let s1 := match l with
    | .edges b => s.restartLeaves b
    | .drift _ _ => s
  (s1.lostInput l).elim s1 s1.loseInput

/-- The drift bound first exceeds TB_CTL.HOLD_LIMIT leaves (R58). A holdover that claims no bound has none to exceed. -/
def State.holdLimitReached (s : State) (t : Nat) : State :=
  let s := s.until t
  if s.f TB_STATUS.STATE = 3 ∧ s.tb.noBound = false ∧ s.tb.overLimit = false ∧
      s.f TB_CTL.HOLD_LIMIT * 256 < s.f TB_HOLD.BOUND then
    let s1 := s.raise TB_ALARM.HOLD_LIMIT
    { s1 with tb := { s1.tb with overLimit := true } }
  else s

/-- Slewing has removed the phase error (R60). -/
def State.slewComplete (s : State) : State :=
  if s.on TB_STATUS.SLEWING then (s.until (s.tb.slewSince + s.tb.slewError * 256)).stopSlew else s

/-- No reference has qualified within the acquisition timeout (R63). -/
def State.acquisitionTimeout (s : State) : State :=
  if s.f TB_STATUS.STATE = 0 ∧ s.qualified false = false ∧ s.qualified true = false then s.enterHoldover else s

/-! ### SUBSTITUTE and the control register -/

/-- Enter SUBSTITUTE (R64): both inputs lose their qualification without an alarm, and ETOD is ignored. -/
def State.enterSubstitute (s : State) : State :=
  let s1 := ((s.stopSlew.unqualify false).unqualify true).setF TB_STATUS.STATE 4
  { s1 with tb := { s1.tb with pendingMsg := none, lockSince := none } }.showHold

/-- Leave SUBSTITUTE (R64): for ACQUIRING when never locked and no core is released, else for a HOLDOVER without bound. -/
def State.leaveSubstitute (s0 : State) : State :=
  let s := (s0.restartLeaves false).restartLeaves true
  if s.on TB_STATUS.EVER_LOCKED = false ∧ s.released = false then
    ((s.setF TB_STATUS.STATE 0).raise TB_ALARM.HOLDOVER).showHold
  else s.enterHoldover

/-- A write to TB_CTL that R20 lets through (R57, R61, R64). -/
def State.actTbCtl (s : State) (v : Word) : State :=
  let s1 := s.applyWrite TB_CTL v
  if s1.f TB_CTL.SRC = 3 then
    (if s1.f TB_STATUS.STATE = 4 then s1 else s1.enterSubstitute)
  else if s1.f TB_STATUS.STATE = 4 then s1.leaveSubstitute
  else s1.reselect

/-- The check of every die's replica at a gathering edge (R65): those of `dies` disagree by as many units, which they do until their reload at
the next leaf edge. -/
def State.replicaCheck (s : State) (g : Nat) (dies : List (Nat × Int)) : State :=
  let s1 := s.untilLeaf (g * 1024)
  let bad := dies ++ s1.replicas
  { s1.raiseIf (!bad.isEmpty) TB_ALARM.REPLICA with replicas := dies.foldl (fun t e => t.set 0 (e.1 % 6) e.2) s1.replicas }

/-! ### The commands -/

/-- ETOD_MESSAGE. -/
def execEtodMessage (bytes : List Byte) (s : State) : Host.Outcome State Fault Refusal :=
  .next (s.onKeep (s.etodMessage bytes))

/-- ETOD_GAP_TIMEOUT. -/
def execEtodGapTimeout (s : State) : Host.Outcome State Fault Refusal := .next (s.onKeep s.etodIncomplete)

/-- ETOD_FRAMING_ERROR. -/
def execEtodFramingError (s : State) : Host.Outcome State Fault Refusal := .next (s.onKeep s.etodIncomplete)

/-- EMARK_EDGE. -/
def execEmarkEdge (t distA distB : Nat) (steadyA steadyB : Bool) (s : State) : Host.Outcome State Fault Refusal :=
  .next (s.onKeep (s.emarkEdge t distA distB steadyA steadyB))

/-- PENDING_MESSAGE_EXPIRY: 990 ms after the last stop bit the message is discarded without ETOD_BAD. -/
def execPendingMessageExpiry (s : State) : Host.Outcome State Fault Refusal :=
  .next (s.onKeep (match s.tb.pendingMsg with
    | none => s
    | some m =>
      let s1 := s.until (m.at_ + 990000 * 256)
      { s1 with tb := { s1.tb with pendingMsg := none } }))

/-- EMARK_MISS_CHECK. -/
def execEmarkMissCheck (second : Nat) (s : State) : Host.Outcome State Fault Refusal :=
  .next (s.onKeep (s.emarkMissCheck second))

/-- INPUT_QUALIFIED. -/
def execInputQualified (b : Bool) (leaves ppb : Nat) (s : State) : Host.Outcome State Fault Refusal :=
  .next (s.onKeep (s.inputQualified b leaves ppb))

/-- INPUT_LOST. -/
def execInputLost (l : ClockLoss) (s : State) : Host.Outcome State Fault Refusal := .next (s.onKeep (s.inputLost l))

/-- HOLD_LIMIT. -/
def execHoldLimit (t : Nat) (s : State) : Host.Outcome State Fault Refusal := .next (s.onKeep (s.holdLimitReached t))

/-- SLEW_COMPLETE. -/
def execSlewComplete (s : State) : Host.Outcome State Fault Refusal := .next (s.onKeep s.slewComplete)

/-- SUBSTITUTE_ENTRY: TB_CTL is written with SRC = 0b11. -/
def execSubstituteEntry (who : Requester) (v : Word) (s : State) : Host.Outcome State Fault Refusal :=
  let w := TB_CTL.SRC.put 3 v
  .next (s.onKeep (s.written who 8 TB_CTL w (fun s => s.actTbCtl w)))

/-- SUBSTITUTE_EXIT: TB_CTL is written with another SRC; a value that keeps SRC = 0b11 is read as SRC = 0b00. -/
def execSubstituteExit (who : Requester) (v : Word) (s : State) : Host.Outcome State Fault Refusal :=
  let w := if TB_CTL.SRC.of v = 3 then TB_CTL.SRC.put 0 v else v
  .next (s.onKeep (s.written who 8 TB_CTL w (fun s => s.actTbCtl w)))

/-- ACCEPT_STEP: TB_CTL is written with ACCEPT_STEP = 1. -/
def execAcceptStep (who : Requester) (v : Word) (s : State) : Host.Outcome State Fault Refusal :=
  let w := TB_CTL.ACCEPT_STEP.put 1 v
  .next (s.onKeep (s.written who 8 TB_CTL w (fun s => s.actTbCtl w)))

/-- REPLICA_CHECK. -/
def execReplicaCheck (g : Nat) (dies : List (Nat × Int)) (s : State) : Host.Outcome State Fault Refusal :=
  .next (s.onKeep (s.replicaCheck g dies))

end Sys2Proof.Machine
end

