-- ==== Sys2Proof/Machine/Setup.lean ====
section
/-! DEFINITION. Set-up space (chapter Set-up Space and Register Index, R528 to R540, with R152 and R517): reading a register or a
window, and what a write does to each register once R20 has let it through. -/

namespace Sys2Proof.Machine

open Sys2Proof

/-! ### The keep window (R137, R152, R537, R538) -/

/-- The header of hart t's image. -/
def Hart.keepHeader (t : Hart) (valid : Bool) : Word :=
  BitVec.ofNat 64 (t.stores.length * 2 ^ 16 + (if t.keptDebug then 2 ^ 8 else 0) + (if t.world then 2 ^ 7 else 0) +
    (if t.virt then 2 ^ 6 else 0) + t.priv * 2 ^ 4 + if valid then 1 else 0)

/-- Word `w` of the retired-store area. -/
def Hart.keepStore (t : Hart) (w : Nat) : Word :=
  match t.stores[w / 8]? with
  | none => 0
  | some e =>
    match w % 8 with
    | 0 => BitVec.ofNat 64 e.addr
    | 1 => e.mask.setWidth 64 ||| (e.attrs.setWidth 64 <<< 32)
    | n + 2 => if n < 4 then (e.data >>> (64 * n)).setWidth 64 else 0

/-- Word `w` of the interrupt-file area. -/
def Hart.keepFile (t : Hart) (w : Nat) : Word :=
  let f := t.file (w / 16)
  if 9 ≤ w / 16 then 0
  else
    match w % 16 with
    | 0 => f.delivery
    | 1 => f.threshold
    | n + 2 => if n < 4 then (f.pend >>> (64 * n)).setWidth 64 else if n < 8 then (f.enable >>> (64 * (n - 4))).setWidth 64 else 0

/-- Word `w` of hart h's image. -/
def State.keepWord (s : State) (h w : Nat) : State × Word :=
  let t := s.hart h
  let o := 8 * w
  let valid := !(s.core (h / 2)).keepLost && !(s.core (h / 2)).keepBad
  if o = 0 then (s, t.keepHeader valid)
  else if t.world && !s.on ENDP_DEBUG.ENDP_INV then (s, 0)
  else if o < 0x100 then (s, t.x.get 0 w)
  else if o = 0x100 then (s, t.pc)
  else if 0x200 ≤ o ∧ o < 0x300 then (s, t.f.get 0 (w - 0x40))
  else if 0x400 ≤ o ∧ o < 0x800 then (s, (t.v.get 0 ((w - 0x80) / 4) >>> (64 * (w % 4))).setWidth 64)
  else if 0x800 ≤ o ∧ o < 0x2000 then
    match keepCsr (w - 0x100) with
    | none => (s, 0)
    | some (b, a) =>
      let (s1, v) := (s.modHart h (fun t => { t with world := b })).csrRead h a
      ({ s with free := s1.free }, v)
  else if 0x2000 ≤ o ∧ o < 0x3000 then (s, t.keepStore (w - 0x400))
  else if 0x3000 ≤ o then (s, t.keepFile (w - 0x600))
  else (s, 0)

/-! ### Reading -/

/-- The 8 bytes at a multiple of 8 of a Colophon window (R513, R517): the working copy, the lifetime half, the repair half, the log. -/
def State.colWindow (s : State) (o : Nat) : Word :=
  if 0x100000 ≤ o ∧ o < 0x180000 then s.col.work.get 0 ((o - 0x100000) / 8)
  else if 0x200000 ≤ o ∧ o < 0x280000 then (s.newerHalf 0x40000).elim 0 (fun h => s.colWord (0x40000 + h * 0x10000 + (o - 0x200000) / 8))
  else if 0x300000 ≤ o ∧ o < 0x380000 then (s.newerHalf 0x20000).elim 0 (fun h => s.colWord (0x20000 + h * 0x10000 + (o - 0x300000) / 8))
  else if 0x400000 ≤ o ∧ o < 0x800000 then s.colWord (o / 8)
  else 0

/-- A register as a read returns it: a mailbox answers Endpaper alone (R492), BUSY of a directory slice is counted now, and a read for a core in a
takeover comes after the writes held for it (R141). Of a LOST core, whose set-up accesses are ignored (R151), CPU_SPEC_CTLc reads as it stands
(DESIGN CHOICE, log entry 56). -/
def State.regRead (s : State) (who : Requester) (k : Nat) : Word :=
  if ENDP_KSn_OP 0 ≤ k ∧ k < ENDP_KSn_OP 384 ∧ who ≠ .endpaper then 0
  else if L3_DIR_STATUSs 0 ≤ k ∧ k < L3_DIR_STATUSs 216 then
    let n := (k - L3_DIR_STATUSs 0) / 8
    (L3_DIR_STATUSs.BUSY n).put (min 128 (s.slice n).txns.length) (s.reg k)
  else if CPU_SPEC_CTLc 0 ≤ k ∧ k < CPU_SPEC_CTLc 192 then (s.specDeliver ((k - CPU_SPEC_CTLc 0) / 8)).reg k
  else s.reg k

/-- The 8 bytes at a multiple of 8 of set-up space. -/
def State.setupWord (s : State) (who : Requester) (k : Nat) : State × Word :=
  let o := k % 0x10000000
  if k / 0x10000000 = 2 ∧ 0x100000 ≤ o ∧ o < 0x100000 + 192 * 0x8000 then
    let c := (o - 0x100000) / 0x8000
    if s.f (CPU_CORE_STATUSc.STATE c) = 3 then s.keepWord ((o - 0x100000) / 0x4000) ((o - 0x100000) % 0x4000 / 8) else (s, 0)
  else if k / 0x10000000 = 15 ∧ 0x100000 ≤ o then (s, s.colWindow o)
  else (s, s.regRead who k)

/-- A read of `size` bytes at set-up-space offset `k` (R533): none where a guard refuses it, or the unit's die has stopped
(R530). -/
def State.setupRead (s : State) (who : Requester) (k size : Nat) : State × Option Nat :=
  if k / 0x10000000 = 9 ∧ 0x4000000 ≤ k % 0x10000000 ∧ k % 0x10000000 < 0x8000000 then s.engineMemoryRead who (k % 0x10000000) size
  else if s.unitGone k then (s, none)
  else
    let (s1, w) := s.setupWord who (k / 8 * 8)
    (s1, some (w.toNat / 2 ^ (8 * (k % 8)) % 2 ^ (8 * size)))

/-- Whether a window refuses an access of this size as misaligned (R517, R539). -/
def setupSizeBad (k size : Nat) : Bool :=
  let o := k % 0x10000000
  decide (size < 4) && (decide (k / 0x10000000 = 15 ∧ 0x100000 ≤ o ∧ o < 0x180000) ||
    decide (k / 0x10000000 = 9 ∧ 0x4000000 ≤ o ∧ o < 0x8000000))

/-! ### Writing -/

/-- A write to SVC_LOCK (R536): a newly set bit holds from the next leaf edge. -/
def State.actLock (v : Word) (s : State) : State :=
  let s1 := s.applyWrite SVC_LOCK v
  { s1 with lockFrom := (List.range 16).foldl (fun t b =>
      if v.getLsbD b && decide (t.get 0 b = 0) then t.set 0 b (s.leaf + 1) else t) s1.lockFrom }

/-- A write to a shadow that a mode change takes (R70). -/
def State.actShadow (k : Nat) (v : Word) (s : State) : State := (s.applyWrite k v).markDirty k

/-- What a write does in the blocks of the time base, the cores, the slices and memory. -/
def State.actMachine (s : State) (who : Requester) (off k i : Nat) (v : Word) (is : List Nat) : State :=
  if off = TB_CTL then s.actTbCtl v
  else if off = TB_MCn_CTL 0 then s.actMcCtl i v
  else if off = TB_MCn_TARGET 0 ∨ off = TB_MCn_CUTOFF 0 then s.actMcLeaf i k v
  else if off = CPU_SPARE_CMD then s.actSpareCmd v
  else if off = CPU_SPEC_CTLc 0 then s.reachSpec who i v
  else if off = L3_HOME_SHADOWj 0 then (if who = .serviceEngine then s.setReg k v else s)
  else if off = L3_SLICE_CMD then s.actSliceCmd v
  else if off = MC_CHAN_CMD then s.actChanCmd v
  else if off = MC_CTL then (s.applyWrite k v).updateBandwidth
  else if off = MC_BWR_ENTRYe 0 then s.actBwrEntry i v
  else if off = MC_ILVr_SHADOW 0 then s.actShadow k v
  else if off = MG_CTLg 0 then s.actMgCtl i v
  else if off = MG_RBASEg_n_SHADOW 0 0 ∨ off = MG_RLIMg_n_SHADOW 0 0 then s.actMgShadow (is.headD 0) k v
  else if off = SCR_TEST_CTL then s.actTestCtl who v
  else s.applyWrite k v

/-- What a write does in the blocks of the channel subsystem and its engines. -/
def State.actChannelBlocks (s : State) (off k i j l : Nat) (v : Word) : State :=
  if off = CSS_SIi_TGTt_PATHp 0 0 0 then s.actPath i j l v
  else if off = CSS_Pp_STRMs 0 0 then s.actStream i j v
  else if off = CSS_SIi_BIND 0 then s.actBind i v
  else if off = CSS_SIi_CTL 0 then s.actInstCtl i v
  else if off = CSS_SIi_TICKETS_SHADOW 0 then s.actShadow k v
  else if off = CSS_SIi_RATE 0 then s.actRate i v
  else if off = CSS_SIi_WINw_BASE 0 0 ∨ off = CSS_SIi_WINw_LIMIT 0 0 then (s.holdWord k).applyWrite k v
  else if off = CSS_Qq_SQBASE 0 ∨ off = CSS_Qq_CQBASE 0 then s.actQueueBase i k v
  else if off = CSS_Qq_CTL 0 then s.actQueueCtl i v
  else if off = CSS_Qq_PAUSE 0 then s.actPause i v
  else if off = CE_CTLl 0 then s.actEngineCtl i v
  else if off = CE_PROGl 0 then s.actEngineProg i v
  else s.applyWrite k v

/-- What a write does in the blocks of the ports, the links, the endpoint, Endpaper, the Colophon and service. `fits`: the adopter's
populated DRAM holds the region that a write of BL_EVAC names, and no other evacuation runs in the system. -/
def State.actOutside (s : State) (off k i : Nat) (v : Word) (fits : Bool) : State :=
  if off = PRT_Pp_CMD 0 then s.actPortCmd i v
  else if off = PRT_Pp_LOOP 0 then s.actPortLoop i v
  else if off = PRT_Pp_TXBASE 0 ∨ off = PRT_Pp_EXT_BASE 0 then s.actPortBase i k v
  else if off = BL_EVAC then s.actEvac fits v
  else if off = BL_MC_SYSn 0 then s.actMcSys i v
  else if off = BL_PEERm 0 then s.actPeer i v
  else if off = AEP_CTL then s.actAepCtl v
  else if off = AEP_CMD then s.actAepCmd v
  else if off = ENDP_KSn_CTL 0 then s.actMailbox i v
  else if off = COL_CMD then s.actColCmd v
  else if off = SVC_LOCK then s.actLock v
  else s.applyWrite k v

/-- What a write does to a register, once R20 has let it through. -/
def State.actRegister (s : State) (who : Requester) (k : Nat) (v : Word) (fits : Bool) : State :=
  match findReg k with
  | none => s
  | some (d, is) =>
    let i := is.headD 0
    if d.block < 8 then s.actMachine who d.off k i v is
    else if d.block < 10 then s.actChannelBlocks d.off k i (is.getD 1 0) (is.getD 2 0) v
    else s.actOutside d.off k i v fits

/-- Whether an offset lies in a window of set-up space that is no register (R529, R533, R540). -/
def readOnlyWindow (k : Nat) : Bool :=
  let o := k % 0x10000000
  decide (k / 0x10000000 = 2 ∧ 0x100000 ≤ o ∧ o < 0x100000 + 192 * 0x8000) || decide (k / 0x10000000 = 15 ∧ 0x180000 ≤ o)

/-- A write of `size` bytes at set-up-space offset `k`. -/
def State.setupWrite (s : State) (who : Requester) (size k : Nat) (v : Word) (fits : Bool) : State :=
  let o := k % 0x10000000
  if k / 0x10000000 = 9 ∧ 0x4000000 ≤ o ∧ o < 0x8000000 then s.engineMemoryWrite who o size v
  else if k / 0x10000000 = 15 ∧ 0x100000 ≤ o ∧ o < 0x180000 then s.workWrite who size (o - 0x100000) v
  else if readOnlyWindow k then s
  else s.written who size (k / 8 * 8) v (fun a => a.actRegister who (k / 8 * 8) v fits)

/-- Whether a guard refuses a write to an engine-memory window (R246, R248), or the unit's die has stopped (R530). -/
def State.setupRefuses (s : State) (who : Requester) (k : Nat) : Bool :=
  if s.unitGone k then true
  else if k / 0x10000000 = 9 then
    match engineWindow (k % 0x10000000) with
    | some (die, o, _, _) => decide (who ≠ .serviceEngine) && !s.locked who 9 && s.guardRefuses (5 + die) o (decide (who = .endpaper)) true
    | none => false
  else false

/-- What a refused write leaves: its guard's alarm and capture (R248), and nothing where the unit's die has stopped (R530). -/
def State.setupDenied (s : State) (who : Requester) (k : Nat) : State :=
  if s.unitGone k then s
  else
    match engineWindow (k % 0x10000000) with
    | some (die, o, _, _) => s.refuse (5 + die) o (decide (who = .endpaper)) true
    | none => s

/-! ### The commands -/

/-- SVC_LOCK: a write of the register. -/
def execSvcLock (who : Requester) (v : Word) (s : State) : Host.Outcome State Fault Refusal :=
  .next (s.running (s.written who 8 SVC_LOCK v (fun a => a.actLock v)))

/-- REGISTER_WRITE: `size` bytes at a naturally aligned offset of set-up space. -/
def execRegisterWrite (who : Requester) (size k : Nat) (v : Word) (fits : Bool) (s : State) : Host.Outcome State Fault Refusal :=
  .next (s.running (s.setupWrite who size k v fits))

end Sys2Proof.Machine
end

