-- ==== Sys2Proof/Machine/LoadStore.lean ====
section
/-! DEFINITION. Loads and stores of a hart (R81, R83, R87, R112, R136, R190, R200, R248, R261, R421, R422, R533): to DRAM, to set-up
space, to doorbells and through the windows of root ports, here and in another module. -/

namespace Sys2Proof.Machine

open Sys2Proof

/-! ### What an access is, and what it comes to -/

/-- What a request through a root-port window is: a memory load or store, a configuration load or store (R422). -/
inductive WinKind where
  | load | store | cfgLoad | cfgStore
deriving DecidableEq, Repr

/-- What one access of an instruction comes to. -/
inductive Did where
  | value (v : Nat)
  | fault (f : MemFault)
  /-- A trigger fires. -/
  | trig (action : Nat)
  /-- Something has to happen first; the access has had no effect. -/
  | waits
deriving DecidableEq, Repr

/-- The end of a window's request that a command brings, until an access takes it. -/
abbrev Offer := Option (WinKind × LinkEnd)

/-! ### Root-port windows (R42, R421, R422) -/

/-- A place in the windows of this module: the lead port, and the offset in the joined window; none: not decoded (R44). -/
def State.windowPlace (s : State) (off : Nat) : Option (Nat × Nat) :=
  let p := off / 2 ^ 38
  let l := s.leadPort p
  if p < 128 ∧ s.f (PRT_Pp_CFG.MODE l) = 1 then some (l, off - l * 2 ^ 38) else none

/-- The request that an access through a window sends (R421). -/
def State.windowRequest (s : State) (p o : Nat) (write : Bool) (n v : Nat) : State :=
  let bytes := (List.range n).map (fun i => BitVec.ofNat 8 (v / 2 ^ (8 * i)))
  if o < 0x10000000 then s.emit (.cfg p write (o / 4096) (o % 4096) n (BitVec.ofNat 64 v))
  else s.emit (.tlp p write ((s.reg (PRT_Pp_MBASE p)).toNat + (o - 0x10000000)) n false (if write then bytes else []) false)

/-- What a request is. -/
def winKind (o : Nat) (write : Bool) : WinKind :=
  if o < 0x10000000 then (if write then .cfgStore else .cfgLoad) else if write then .store else .load

/-- How a request that is not served ends. -/
def winFails (k : WinKind) (n : Nat) (va : Word) : Did :=
  match k with
  | .load => .fault { cause := 5, tval := va }
  | .cfgLoad => .value (2 ^ (8 * n) - 1)
  | .cfgStore => .fault { cause := 7, tval := va }
  | .store => .value 0

/-- A fault of a core's access sets CORE_FAULT. -/
def State.noteCoreFault (s : State) (d : Did) : State :=
  match d with
  | .fault _ => s.raise PRT_ALARM.CORE_FAULT
  | _ => s

/-- An access of `n` bytes at offset `o` of the window of lead port p (R422). Without an offer of its kind it waits. -/
def State.windowAccess (s : State) (p o : Nat) (write : Bool) (n v : Nat) (va : Word) (offer : Offer) : State × Offer × Did :=
  let k := winKind o write
  match offer with
  | none => (s, offer, .waits)
  | some (want, e) =>
    if want ≠ k then (s, offer, .waits)
    else if s.portState p = 5 ∨ (k ≠ .store ∧ s.portState p = 4 ∧ s.portHeld p = true) then (s, offer, .waits)
    else if s.portState p ≠ 4 then
      let s1 := if k = .store then s.incF (PRT_Pp_COUNTS.CORE_DISCARD p) else s
      (s1.noteCoreFault (winFails k n va), none, winFails k n va)
    else
      let s1 := s.windowRequest p o write n v
      match k, e with
      | .store, _ => (s1, none, .value 0)
      | _, .fails => (s1.noteCoreFault (winFails k n va), none, winFails k n va)
      | .load, .ok x => (s1, none, .value (x.toNat % 2 ^ (8 * n)))
      | .cfgLoad, .ok x => (s1, none, .value (x.toNat % 2 ^ (8 * n)))
      | .cfgStore, .rrs => (s1, none, .waits)
      | .cfgStore, _ => (s1, none, .value 0)
      | .cfgLoad, .rrs =>
        if o % 4096 = 0 ∧ 2 ≤ n then (s1, none, .value ((2 ^ (8 * n) - 2 ^ 16) + 1)) else (s1, none, .waits)
      | _, _ => (s1.raise PRT_ALARM.CORE_FAULT, none, .fault { cause := 5, tval := va })

/-! ### I/O regions (R83, R190, R200) -/

/-- Who a hart's request is from. -/
def Hart.requester (t : Hart) : Requester := if t.world then .endpaper else .text

/-- A store to doorbell space (R260, R261). -/
def State.doorbellStore (s : State) (off n v : Nat) : State :=
  if n = 8 then
    let i := off / 4096
    let o := off % 4096
    if o < 0x200 then s.doorbell (64 * i + o / 8) false (BitVec.ofNat 64 v)
    else if o < 0x400 then s.doorbell (64 * i + (o - 0x200) / 8) true (BitVec.ofNat 64 v)
    else s
  else s.shortDoorbell off

/-- The packet of an access to another module: I/O read, I/O write, or doorbell write (R200). -/
def State.ioPacket (s : State) (h pa n : Nat) (write : Bool) (v : Nat) : State :=
  let t := s.hart h
  let op := if !write then 0x10 else if 0xD000000000000 ≤ pa ∧ pa < 0xE000000000000 then 0x12 else 0x11
  let d : Option Line := if write then some (BitVec.ofNat 512 (v * 2 ^ (8 * (pa % 64)))) else none
  (s.emit (.packet 0 op (ioModule pa) 255 (s.tileOfHart h) pa t.world false d n)).modHart h (fun t => { t with
    io := some { addr := pa, size := n, write := write } })

/-- An access to an I/O region of another module: it is sent, and its answer ends it. -/
def State.farIo (s : State) (h pa n : Nat) (write : Bool) (v : Nat) (va : Word) : State × Did :=
  match (s.hart h).io with
  | none => (s.ioPacket h pa n write v, .waits)
  | some a =>
    if a.addr ≠ pa ∨ a.size ≠ n ∨ a.write ≠ write then (s.ioPacket h pa n write v, .waits)
    else
      match a.ans with
      | none => (s, .waits)
      | some (code, x) =>
        let s1 := s.modHart h (fun t => { t with io := none })
        if code = 0 then (s1, .value (x.toNat % 2 ^ (8 * n))) else (s1, .fault { cause := if write then 7 else 5, tval := va })

/-- What a load or store of `n` bytes in an I/O region does. -/
def State.ioAct (s : State) (h : Nat) (r : Region) (pa n : Nat) (write fits : Bool) (v : Nat) (va : Word) (offer : Offer) :
    State × Offer × Did :=
  let who := (s.hart h).requester
  let deny : Did := .fault { cause := if write then 7 else 5, tval := va }
  let bad : Did := .fault { cause := if write then 6 else 4, tval := va }
  let far : State × Offer × Did :=
    let (s1, d) := s.farIo h pa n write v va
    (s1, offer, d)
  if pa % n ≠ 0 then (s, offer, bad)
  else
    match r with
    | .dram => (s, offer, deny)
    | .none => (s, offer, deny)
    | .setup m off =>
      if setupSizeBad off n then (s, offer, bad)
      else if m ≠ s.moduleNo then far
      else if write then
        (if s.setupRefuses who off then (s.setupDenied who off, offer, deny)
        else (s.setupWrite who n off (BitVec.ofNat 64 v) fits, offer, .value 0))
      else
        match s.setupRead who off n with
        | (s1, some x) => (s1, offer, .value x)
        | (s1, none) => (s1, offer, deny)
    | .doorbell m off =>
      if m ≠ s.moduleNo then far
      else if write then (s.doorbellStore off n v, offer, .value 0)
      else (s, offer, .value 0)
    | .window m off =>
      if m ≠ s.moduleNo then far
      else
        match s.windowPlace off with
        | none => (s, offer, deny)
        | some (p, o) => s.windowAccess p o write n v va offer

/-- The block that an I/O access of this module goes to (R34): the data mover's die of the queue for a doorbell, otherwise by the address. -/
def State.ioBlockOf (s : State) (r : Region) : Option Nat :=
  match r with
  | .setup m _ => if m = s.moduleNo then some 255 else none
  | .doorbell m off => if m = s.moduleNo then some (216 + s.queueDie (64 * (off / 4096) + off % 0x200 / 8)) else none
  | _ => none

/-- A load or store of `n` bytes in an I/O region; in set-up space or doorbell space of this module its packets travel from the tile to the block and
back (R34, R200). -/
def State.ioAccess (s : State) (h : Nat) (r : Region) (pa n : Nat) (write fits : Bool) (v : Nat) (va : Word) (offer : Offer) :
    State × Offer × Did :=
  match s.ioBlockOf r with
  | none => s.ioAct h r pa n write fits v va offer
  | some u =>
    if pa % n ≠ 0 then s.ioAct h r pa n write fits v va offer
    else
      let t := s.tileOfHart h
      let w := (s.hart h).world
      let bytes (x : Nat) : Option Line := some (BitVec.ofNat 512 (x * 2 ^ (8 * (pa % 64))))
      let op := if !write then 0x10 else if u = 255 then 0x11 else 0x12
      let (s1, o, d) := (s.inside 0 op u t pa w false (if write then bytes v else none) n).ioAct h r pa n write fits v va offer
      (match d with
      | .value x => if write then s1.inside 2 0 t u pa w false none n else s1.inside 3 2 t u pa w false (bytes x) n
      | .fault _ => s1.inside 2 4 t u pa w false none n
      | _ => s1, o, d)

/-! ### Memory -/

/-- The region that decides of an access: the first part's that is not DRAM, with its address. -/
def State.oddPart (s : State) (parts : List (Nat × Nat × Word)) : Option (Region × Nat × Word) :=
  (parts.find? (fun p => decide (s.region p.1 ≠ .dram))).map (fun p => (s.region p.1, p.1, p.2.2))

/-- A value with the hart's own retired stores over it (R112). -/
def Hart.forwardParts (t : Hart) : List (Nat × Nat × Word) → Nat → Nat
  | [], _ => 0
  | p :: ps, v => t.forward p.1 p.2.1 (v % 2 ^ (8 * p.2.1)) + t.forwardParts ps (v / 2 ^ (8 * p.2.1)) * 2 ^ (8 * p.2.1)

/-- A load of `n` bytes. -/
def State.loadOne (s : State) (h : Nat) (m : AccMode) (a : MemAcc) (va0 : Word) (n : Nat) (offer : Offer) : State × Offer × Did :=
  let t := s.hart h
  let va := t.maskAddr m a va0
  match s.dataTrigger h [0] va with
  | some act => (s, offer, .trig act)
  | none =>
    match s.locate h m a va n with
    | (s0, .fault f) => (s0, offer, .fault f)
    | (s0, .need _) => (s0, offer, .waits)
    | (s0, .at parts) =>
      match s0.oddPart parts with
      | some (.none, _, bad) => (s0, offer, .fault { cause := 5, tval := bad })
      | some (r, pa, _) =>
        if 1 < parts.length ∨ va.toNat % n ≠ 0 then (s0, offer, .fault { cause := 4, tval := va })
        else s0.ioAccess h r pa n false false 0 va offer
      | none =>
        match (s0.maybeHeld h parts).readParts h a t.ntl (lineParts parts) with
        | (s1, .value v) => (s1.guessed h parts, offer, .value ((s1.hart h).forwardParts parts v))
        | (s1, .fault f) => (s1, offer, .fault f)
        | (s1, .waits) => (s1, offer, .waits)

/-- A store's part as an entry of the store queue (R136, R137), its attributes as `RetiredStore.world` and its like read them. -/
def retire (world : Bool) (hint : Nat) (p : Nat × Nat × Word) (v : Nat) : RetiredStore :=
  { addr := p.1, mask := BitVec.ofNat 32 (2 ^ p.2.1 - 1),
    attrs := BitVec.ofNat 32 ((if world then 1 else 0) + (if p.2.2.getLsbD 12 then 2 else 0) + 4 * hint),
    data := BitVec.ofNat 256 (v % 2 ^ (8 * p.2.1)) }

/-- The entries of a store. -/
def retireParts (world : Bool) (hint : Nat) : List (Nat × Nat × Word) → Nat → List RetiredStore
  | [], _ => []
  | p :: ps, v => retire world hint p v :: retireParts world hint ps (v / 2 ^ (8 * p.2.1))

/-- Whether a hart is runnable (R114). -/
def Hart.runnable (t : Hart) : Bool := decide (t.run = .running)

/-- The entries of the reorder buffer, load queue and store queue that a hart may allocate (R113, R114): its share while both harts of the core
are runnable, and otherwise all. An instruction of this model holds its entries only until its own command ends, so that only the store queue's
share can bind, and that behind R136's 64. -/
def State.share (s : State) (h : Nat) : Nat × Nat × Nat :=
  if (s.hart (2 * coreOf h)).runnable && (s.hart (2 * coreOf h + 1)).runnable then (256, 96, 64) else (512, 192, 128)

/-- The lines of another module that a store reaches are owned before it retires: its home may still refuse the access (R44, R248). -/
def State.farOwned (s : State) (h : Nat) : List (Nat × Nat × Word) → State × Did
  | [] => (s, .value 0)
  | p :: ps =>
    if s.ownDram p.1 then s.farOwned h ps
    else
      let t := s.tileOfHart h
      match s.reach t h (p.1 / 64) .write (s.hart h).world (s.hart h).ntl (s.l1Hit t true p.2.2.toNat (p.1 / 64) (s.hart h).world) with
      | (s1, .held) => if s1.mayWrite t (p.1 / 64) then s1.farOwned h ps else (s1, .waits)
      | (s1, .waits) => (s1, .waits)
      | (s1, _) => (s1, .fault { cause := 7, tval := p.2.2 })

/-- A store to DRAM: it retires into the store queue of at most 64 entries (R113, R136), unless a guard refuses it or its address is not
populated (R44, R248). -/
def State.storeDram (s : State) (h : Nat) (parts : List (Nat × Nat × Word)) (v : Nat) : State × Did :=
  let w := (s.hart h).world
  match parts.find? (fun p => s.ownDram p.1 && s.guardRefuses 0 p.1 w true) with
  | some p => (s.refuse 0 p.1 w true, .fault { cause := 7, tval := p.2.2 })
  | none =>
    match s.farOwned h (lineParts parts) with
    | (s0, .value _) =>
      let room (a : State) : Bool := decide ((a.hart h).stores.length + parts.length ≤ min 64 (a.share h).2.2)
      let s1 := if room s0 then s0 else s0.drain h
      if room s1 then (s1.modHart h (fun t => { t with stores := t.stores ++ retireParts w t.ntl parts v, fresh := t.fresh + parts.length }), .value 0) else (s1, .waits)
    | r => r

/-- A store of the low `n` bytes of `v`. -/
def State.storeOne (s : State) (h : Nat) (m : AccMode) (va0 : Word) (n v : Nat) (fits : Bool) (offer : Offer) : State × Offer × Did :=
  let t := s.hart h
  let va := t.maskAddr m .store va0
  match s.dataTrigger h [1] va with
  | some act => (s, offer, .trig act)
  | none =>
    match s.locate h m .store va n with
    | (s0, .fault f) => (s0, offer, .fault f)
    | (s0, .need _) => (s0, offer, .waits)
    | (s0, .at parts) =>
      match s0.oddPart parts with
      | some (.none, _, bad) => (s0, offer, .fault { cause := 7, tval := bad })
      | some (r, pa, _) =>
        if 1 < parts.length ∨ va.toNat % n ≠ 0 then (s0, offer, .fault { cause := 6, tval := va })
        else s0.ioAccess h r pa n true fits (v % 2 ^ (8 * n)) va offer
      | none =>
        let (s1, d) := s0.storeDram h parts (v % 2 ^ (8 * n))
        (s1, offer, d)

/-! ### Scalar instructions -/

/-- What an access other than a value ends the instruction with. -/
def State.accessEnds (s : State) (h : Nat) (m : AccMode) (va : Word) (d : Did) : State × Bool :=
  match d with
  | .fault f => (s.memFaultIn h m f, true)
  | .trig act => (s.trigger h act va, true)
  | _ => (s, false)

/-- A scalar load; `dest`: the register that it writes. -/
def State.scalarLoad (s : State) (h len : Nat) (m : AccMode) (a : MemAcc) (va : Word) (n : Nat) (dest : IoDest)
    (offer : Offer) : State × Offer × Bool :=
  match s.loadOne h m a va n offer with
  | (s1, o, .value v) =>
    let r := (s1.modHart h (fun t => t.putLoad dest v)).completes h len
    (r.1, o, r.2)
  | (s1, o, .waits) => (s1.ioFor h dest (some len), o, false)
  | (s1, o, d) =>
    let r := s1.accessEnds h m ((s1.hart h).maskAddr m a va) d
    (r.1, o, r.2)

/-- A scalar store. -/
def State.scalarStore (s : State) (h len : Nat) (m : AccMode) (va : Word) (n v : Nat) (fits : Bool) (offer : Offer) :
    State × Offer × Bool :=
  match s.storeOne h m va n v fits offer with
  | (s1, o, .value _) =>
    let r := s1.completes h len
    (r.1, o, r.2)
  | (s1, o, .waits) => (s1.ioFor h .store (some len), o, false)
  | (s1, o, d) =>
    let r := s1.accessEnds h m ((s1.hart h).maskAddr m .store va) d
    (r.1, o, r.2)

/-- An instruction that is not legal here. -/
def State.illegalMem (s : State) (h raw : Nat) (offer : Offer) : State × Offer × Bool := ((s.notLegal h raw).1, offer, true)

/-- Floating-point loads and stores. -/
def State.fpMem (s : State) (h raw w len : Nat) (fits : Bool) (offer : Offer) : State × Offer × Bool :=
  let t := s.hart h
  let n := 2 ^ iF3 w
  if t.fsOff then s.illegalMem h raw offer
  else if iOp w = 0x07 then
    s.scalarLoad h len t.dataMode .load (t.getX (iRs1 w) + word (immI w)) n (.fp (iRd w) n) offer
  else
    s.scalarStore h len t.dataMode (t.getX (iRs1 w) + word (immS w)) n ((t.f.get 0 (iRs2 w)).toNat % 2 ^ (8 * n)) fits offer

/-- Whether HLV, HLVX and HSV may execute here. -/
def Hart.hlvCheck (t : Hart) : CsrCheck :=
  if t.world then .illegal else if t.virt then .virtual
  else if decide (t.priv = 0) && !(t.rd 0x600).getLsbD 9 then .illegal else .ok

/-- HLV, HLVX and HSV. -/
def State.guestMem (s : State) (h raw w len : Nat) (fits : Bool) (offer : Offer) : State × Offer × Bool :=
  let t := s.hart h
  let n := 2 ^ (iF7 w / 2 % 4)
  let va := t.getX (iRs1 w)
  if t.hlvCheck ≠ .ok then (s.refuseCsr h (rawBits raw) t.hlvCheck, offer, true)
  else if iF7 w % 2 = 1 then s.scalarStore h len t.guestMode va n (t.getX (iRs2 w)).toNat fits offer
  else s.scalarLoad h len t.guestMode (if iRs2 w = 3 then .loadX else .load) va n (.int (iRd w) n (decide (iRs2 w = 0))) offer

/-! ### Vector instructions -/

/-- A vector load or store as a plan: elements from vstart to `evl`, fields of a segment, bytes of an element, the address of a field of an
element, the first register of a field. -/
structure VPlan where
  load   : Bool
  evl    : Nat
  nf     : Nat
  bytes  : Nat
  regs   : Nat
  vd     : Nat
  vm     : Bool
  first  : Bool := false

/-- Transfer the elements, in order; the answer says with what it ended, and at which element and field. -/
def State.vecFields (s : State) (h : Nat) (p : VPlan) (at_ : Nat → Nat → Word) (fits : Bool) (i : Nat) :
    List Nat → Offer → State × Offer × Did × Nat
  | [], o => (s, o, .value 0, p.nf)
  | f :: fs, o =>
    let m := (s.hart h).dataMode
    let reg := p.vd + f * p.regs
    if p.load then
      match s.loadOne h m .load (at_ i f) p.bytes o with
      | (s1, o1, .value v) => (s1.modHart h (fun t => t.vput (8 * p.bytes) reg i v)).vecFields h p at_ fits i fs o1
      | (s1, o1, .waits) => (s1.ioFor h (.vec (8 * p.bytes) reg i f (decide (f + 1 < p.nf))) none, o1, .waits, f)
      | (s1, o1, d) => (s1, o1, d, f)
    else
      match s.storeOne h m (at_ i f) p.bytes ((s.hart h).vget (8 * p.bytes) reg i) fits o with
      | (s1, o1, .value _) => s1.vecFields h p at_ fits i fs o1
      | (s1, o1, .waits) => (s1.ioFor h (.vec (8 * p.bytes) reg i f (decide (f + 1 < p.nf))) none, o1, .waits, f)
      | (s1, o1, d) => (s1, o1, d, f)

/-- Transfer the active elements. `from_`: fields of the first element already transferred. -/
def State.vecElems (s : State) (h : Nat) (p : VPlan) (at_ : Nat → Nat → Word) (fits : Bool) :
    List Nat → Nat → Offer → State × Offer × Did × Nat × Nat
  | [], _, o => (s, o, .value 0, p.evl, 0)
  | i :: is, from_, o =>
    if !(s.hart h).active p.vm i then s.vecElems h p at_ fits is 0 o
    else
      match s.vecFields h p at_ fits i ((List.range (p.nf - from_)).map (· + from_)) o with
      | (s1, o1, .value _, _) => s1.vecElems h p at_ fits is 0 o1
      | (s1, o1, d, f) => (s1, o1, d, i, f)

/-- A vector load or store runs from vstart. It ends with vstart zero; a wait keeps its place, a trap the element at which it happened; a
fault-only-first load shortens vl instead where the element is not the first. -/
def State.vecRun (s : State) (h len : Nat) (p : VPlan) (at_ : Nat → Nat → Word) (fits : Bool) (offer : Offer) : State × Offer × Bool :=
  let t := s.hart h
  let start := t.fld 0x008 7 0
  match s.vecElems h p at_ fits ((List.range (p.evl - start)).map (· + start)) t.fields offer with
  | (s1, o, .value _, _, _) =>
    let r := (s1.modHart h (fun t => { t.vdone with fields := 0 })).completes h len
    (r.1, o, r.2)
  | (s1, o, .waits, i, f) => (s1.modHart h (fun t => { t.wr 0x008 (BitVec.ofNat 64 i) with fields := f }), o, false)
  | (s1, o, d, i, f) =>
    if p.first ∧ 0 < i then
      let r := (s1.modHart h (fun t => { (t.wr 0xC20 (BitVec.ofNat 64 i)).vdone with fields := 0 })).completes h len
      (r.1, o, r.2)
    else
      let s2 := s1.modHart h (fun t => { (t.wr 0x008 (BitVec.ofNat 64 i)).dirty 10 9 with fields := 0 })
      let m := (s1.hart h).dataMode
      let r := s2.accessEnds h m ((s1.hart h).maskAddr m (if p.load then .load else .store) (at_ i f)) d
      (r.1, o, r.2)

/-- The plan of an instruction and the address of its elements; none: illegal as it stands. -/
def Hart.vecPlan (t : Hart) (w : Nat) : Option (VPlan × (Nat → Nat → Word)) :=
  let load := decide (iOp w = 0x07)
  let nf := ib w 31 29 + 1
  let mop := ib w 27 26
  let u := iRs2 w
  let vm := w.testBit 25
  let vd := iRd w
  let b := [1, 0, 0, 0, 0, 2, 4, 8].getD (iF3 w) 0
  let base := t.getX (iRs1 w)
  let unit (n : Nat) (i f : Nat) : Word := base + BitVec.ofNat 64 ((i * n + f) * b)
  if mop = 0 ∧ u = 8 then
    (if vd % nf ≠ 0 then none
    else some ({ load := load, evl := 32 * nf / b, nf := 1, bytes := b, regs := 1, vd := vd, vm := true }, unit 1))
  else t.vctx.bind fun c =>
    let lm := c.lm * (8 * b) / c.sew
    let plain (l : Nat) : Bool := groupOk vd l && decide (nf * groupRegs l ≤ 8 ∧ vd + nf * groupRegs l ≤ 32) && (if load then maskOk w else srcsOk (⟨vd, nf * 8 * groupRegs l, 0⟩ :: maskSrc w))
    if mop = 0 ∧ u = 11 then
      some ({ load := load, evl := (c.vl + 7) / 8, nf := 1, bytes := 1, regs := 1, vd := vd, vm := true }, unit 1)
    else if mop = 0 then
      (if plain lm then
        some ({ load := load, evl := c.vl, nf := nf, bytes := b, regs := groupRegs lm, vd := vd, vm := vm, first := decide (u = 16) }, unit nf)
      else none)
    else if mop = 2 then
      (if plain lm then
        some ({ load := load, evl := c.vl, nf := nf, bytes := b, regs := groupRegs lm, vd := vd, vm := vm },
          fun i f => base + t.getX u * BitVec.ofNat 64 i + BitVec.ofNat 64 (f * b))
      else none)
    else if plain c.lm && groupOk u lm && srcsOk (⟨u, lm, 8 * b⟩ :: (if load then [] else [⟨vd, nf * 8 * groupRegs c.lm, c.sew⟩]) ++ maskSrc w) && (!load || (if nf = 1 then overlapOk vd c.lm u lm
        else decide (u + groupRegs lm ≤ vd ∨ vd + nf * groupRegs c.lm ≤ u))) then
      some ({ load := load, evl := c.vl, nf := nf, bytes := c.sew / 8, regs := groupRegs c.lm, vd := vd, vm := vm },
        fun i f => base + BitVec.ofNat 64 (t.vget (8 * b) u i) + BitVec.ofNat 64 (f * (c.sew / 8)))
    else none

/-- Vector loads and stores. -/
def State.vecMem (s : State) (h raw w len : Nat) (fits : Bool) (offer : Offer) : State × Offer × Bool :=
  let t := s.hart h
  if t.vsOff then s.illegalMem h raw offer
  else
    match t.vecPlan w with
    | none => s.illegalMem h raw offer
    | some (p, at_) => s.vecRun h len p at_ fits offer

/-! ### The instruction -/

/-- A scalar or vector load or store. -/
def State.memInstr (s : State) (h raw w len : Nat) (fits : Bool) (offer : Offer) : State × Offer × Bool :=
  let t := s.hart h
  let f3 := iF3 w
  match iOp w with
  | 0x03 =>
    let n := 2 ^ (f3 % 4)
    s.scalarLoad h len t.dataMode .load (t.getX (iRs1 w) + word (immI w)) n (.int (iRd w) n (decide (f3 < 4))) offer
  | 0x23 => s.scalarStore h len t.dataMode (t.getX (iRs1 w) + word (immS w)) (2 ^ f3) (t.getX (iRs2 w)).toNat fits offer
  | 0x73 => s.guestMem h raw w len fits offer
  | _ => if 1 ≤ f3 ∧ f3 ≤ 3 then s.fpMem h raw w len fits offer else s.vecMem h raw w len fits offer

/-- LOAD_STORE: no request through a window of this module ends in it. `drain`: the hart's retired stores reach memory after it. -/
def State.loadStore (s : State) (h raw : Nat) (drain fits : Bool) (wrong : List WrongAcc) : State :=
  let s1 := s.hartRun h raw .mem wrong (fun a w len =>
    let r := a.memInstr h raw w len fits none
    (r.1, r.2.2))
  if drain then s1.drain h else s1

/-- A load or store whose access through a window of this module ends as the command says; one that gets as far as its accesses and
sends no such request does nothing. -/
def State.windowInstr (s : State) (h raw : Nat) (k : WinKind) (e : LinkEnd) (wrong : List WrongAcc) : State :=
  s.hartRun h raw .mem wrong (fun a w len =>
    let r := a.memInstr h raw w len false (some (k, e))
    if r.2.1.isNone then (r.1, r.2.2) else (a, false))

/-! ### Requests from other modules and from the host (R200, R457 to R459) -/

/-- The answer of a set-up-space or window request to its sender. -/
def State.ioReply (s : State) (m t addr : Nat) (world : Bool) (d : Did) (read : Bool) : State :=
  match d with
  | .value v =>
    if read then s.emit (.packet 3 2 m t 222 addr world false (some (BitVec.ofNat 512 (v * 2 ^ (8 * (addr % 64))))))
    else s.emit (.packet 2 0 m t 222 addr world false none)
  | .fault _ => s.emit (.packet 2 3 m t 222 addr world false none)
  | _ => s

/-- An I/O read reaches set-up space, doorbell space or a window: what it comes to; none: refused by a guard. -/
def State.ioServe (s : State) (addr n : Nat) (world write fits : Bool) (v : Nat) (e : LinkEnd) : State × Option Did :=
  let who : Requester := if world then .endpaper else .text
  let bad : Did := .fault { cause := 5, tval := 0 }
  match s.region addr with
  | .setup m off =>
    if m ≠ s.moduleNo ∨ s.unitGone off = true then (s, some bad)
    else if write then
      (if s.setupRefuses who off then (s.setupDenied who off, none)
      else (s.setupWrite who n off (BitVec.ofNat 64 v) fits, some (.value 0)))
    else
      (match s.setupRead who off n with
      | (s1, some x) => (s1, some (.value x))
      | (s1, none) => (s1, none))
  | .doorbell m off =>
    if m ≠ s.moduleNo then (s, some bad)
    else if write then (s.doorbellStore off n v, some (.value 0))
    else (s, some (.value 0))
  | .window m off =>
    if m ≠ s.moduleNo then (s, some bad)
    else
      (match s.windowPlace off with
      | none => (s, some bad)
      | some (p, o) =>
        let r := s.windowAccess p o write n v 0 (some (winKind o write, e))
        (r.1, some r.2.2))
  | _ => (s, some bad)

/-- An I/O request. -/
def State.ioRequest (s : State) (src : IoFrom) (addr n : Nat) (world write fits : Bool) (v : Nat) (e : LinkEnd) (far : FarData) : State :=
  match src with
  | .core m t =>
    if addr % n ≠ 0 then s
    else
      (match s.ioServe addr n world write fits v e with
      | (s1, some d) => s1.ioReply m t addr world d (!write)
      | (s1, none) => s1.emit (.packet 2 4 m t 222 addr world false none))
  | .host g f =>
    if write then (if s.barServed g f then s.barWrite f addr n (BitVec.ofNat 64 v) else s)
    else s.barRead g f addr n far
  | .config g f item => s.configRequest g f item (if write then some v else none)

/-- I/O read data answers the access of a hart of tile t. -/
def State.ioData (s : State) (t addr : Nat) (v : Word) : State := s.ioAnswered t (fun a => decide (a = addr)) 0 v

/-! ### The commands -/

/-- LOAD_STORE (R83). -/
def execLoadStore (h raw : Nat) (drain fits : Bool) (wrong : List WrongAcc) (s : State) : Host.Outcome State Fault Refusal :=
  .next (s.running (s.loadStore h raw drain fits wrong))

/-- IO_READ (R200). -/
def execIoRead (src : IoFrom) (addr size : Nat) (world : Bool) (e : LinkEnd) (far : FarData) (s : State) :
    Host.Outcome State Fault Refusal :=
  .next (s.reading (s.ioRequest src addr size world false false 0 e far))

/-- IO_WRITE (R200). -/
def execIoWrite (src : IoFrom) (addr size : Nat) (v : Word) (world : Bool) (e : LinkEnd) (fits : Bool) (s : State) :
    Host.Outcome State Fault Refusal :=
  .next (s.running (s.ioRequest src addr size world true fits (v.toNat % 2 ^ (8 * size)) e []))

/-- IO_READ_DATA (R200). -/
def execIoReadData (t addr : Nat) (v : Word) (s : State) : Host.Outcome State Fault Refusal := .next (s.running (s.ioData t addr v))

/-- CORE_WINDOW_STORE (R422). -/
def execCoreWindowStore (h raw : Nat) (wrong : List WrongAcc) (s : State) : Host.Outcome State Fault Refusal :=
  .next (s.running (s.windowInstr h raw .store (.ok 0) wrong))

/-- CORE_WINDOW_LOAD (R422). -/
def execCoreWindowLoad (h raw : Nat) (e : LinkEnd) (wrong : List WrongAcc) (s : State) : Host.Outcome State Fault Refusal :=
  .next (s.running (s.windowInstr h raw .load e wrong))

/-- CONFIGURATION_LOAD (R422). -/
def execConfigurationLoad (h raw : Nat) (e : LinkEnd) (wrong : List WrongAcc) (s : State) : Host.Outcome State Fault Refusal :=
  .next (s.running (s.windowInstr h raw .cfgLoad e wrong))

/-- CONFIGURATION_STORE (R422). -/
def execConfigurationStore (h raw : Nat) (e : LinkEnd) (wrong : List WrongAcc) (s : State) : Host.Outcome State Fault Refusal :=
  .next (s.running (s.windowInstr h raw .cfgStore e wrong))

end Sys2Proof.Machine
end

