-- ==== Sys2Proof/Machine/Boot.lean ====
section
/-! DEFINITION. Power-up, reset and boot (R541 to R551, with R48, R49, R168, R213, R215, R234, R390, R415, R487, R515 to R518, R527). -/

namespace Sys2Proof.Machine

open Sys2Proof

/-! ### Step codes -/

/-- The boot-status code becomes `n` (R544, R548). -/
def State.bootCode (s : State) (n : Nat) : State := { s with boot := n }

/-- Whether boot stands at a code, its rails up where it needs them. -/
def State.bootAtCode (s : State) (n : Nat) : Bool := decide (s.boot = n) && !s.stopped

/-! ### Steps 1 to 4 (R544, R49, R48, R516, R527) -/

/-- The registers that fuses hold (R2, R48, R508), and the module number of the straps (R49). -/
def State.fuseRegs (s : State) (mid : Nat) : Table Word :=
  let keep : Table Word := s.regs.filter (fun e => decide (e.1 = SVC_IDENT0 ∨ e.1 = SVC_IDENT1) ||
    (List.range 12).any (fun i => decide (e.1 = HB_VCURVEd_w (i / 3) (i % 3))))
  keep.set (resetOf SVC_IDENT1) SVC_IDENT1 (SVC_IDENT1.MODULE.put mid (s.reg SVC_IDENT1))

/-- The clock of a quire at LEVEL 0, in MHz: the grade's (R1, R36, R508). -/
def State.gradeMhz (s : State) : Nat := if s.lq32 then 3200 else 3600

/-- Every quire starts at its grade's clock (R3, R36). -/
def State.gradeClocks (s : State) : State := if s.lq32 then (List.range 24).foldl (fun a n => a.showLevel n 0) s else s

/-- Everything at its value at power-up, but for what fuses, MRAM and DRAM hold; what has left the module and the free values drawn stand. -/
def State.powerUp (s : State) (mid se : Nat) : State :=
  { pending := s.pending, sent := s.sent, free := s.free, dram := s.dram, checks := s.checks
    regs := s.fuseRegs mid, spareFuse := s.spareFuse, col := { mram := s.col.mram }
    svc := { out := (List.range 2).filter (fun k => se.testBit k), keySe := if !se.testBit 0 then some 0 else if !se.testBit 1 then some 1 else none } }

/-- The position of the event log is taken from the Colophon (R524). -/
def State.keepLogPlace (s old : State) : State :=
  (s.setF COL_LOG_STATUS.NEXT (old.f COL_LOG_STATUS.NEXT)).setF COL_LOG_STATUS.LAST_SEQ (old.f COL_LOG_STATUS.LAST_SEQ)

/-- Logical core c has no tile, or its tile is out of service: it takes its quire's spare, or is LOST (R48, R151). A core that was LOST
before a warm reset stays LOST (R146, R151). -/
def State.assignCore (s : State) (c : Nat) : State :=
  if s.lostCore c then s else
  let n := c / 8
  let map := s.f (CPU_SPARE_MAPn.LC n)
  let t := map / 16 ^ (c % 8) % 16
  let rest := map - t * 16 ^ (c % 8)
  if t < 9 ∧ (s.f (CPU_SPARE_MAPn.FAILED n)).testBit t = false then s.setF (CPU_CORE_STATUSc.TILE c) t
  else
    let spare := s.f (CPU_SPARE_MAPn.SPARE n)
    if spare < 9 then
      ((s.setF (CPU_SPARE_MAPn.LC n) (rest + spare * 16 ^ (c % 8))).setF (CPU_SPARE_MAPn.SPARE n) 15).setF (CPU_CORE_STATUSc.TILE c) spare
    else
      let s1 := ((s.setF (CPU_SPARE_MAPn.LC n) (rest + 15 * 16 ^ (c % 8))).setF (CPU_CORE_STATUSc.STATE c) 3).raise CPU_RAS_ALARM.LOST
      let s2 := [2 * c, 2 * c + 1].foldl (fun a h => a.modHart h (fun x => { x with run := .stopped })) s1
      s2.logAt 0x0002 (s2.tileLoc n t 0) 5 [c, s2.f (CPU_CORE_STATUSc.REASON c)]

/-- The logical engines go by the mappings of CE_PHYSk (R30, R395). -/
def State.assignEngine (s : State) (l : Nat) : State :=
  match (List.range 272).find? (fun k => decide (s.f (CE_PHYSk.STATE k) = 0 ∧ s.f (CE_PHYSk.LOGICAL k) = l)) with
  | some k => if s.f (CE_STATUSl.PHYS l) = k then s else s.setF (CE_STATUSl.PHYS l) k
  | none => s.setF (CE_STATUSl.STATE l) 4

/-- The tile routers that the retired mesh links leave out of service, and the routing maps in force (R208). -/
def State.loadMesh (s : State) : State :=
  (s.modMesh (fun m => { m with routersOut := (List.range 4).flatMap (fun d =>
    if s.reg (MESH_RET_Hd d) = 0 ∧ s.reg (MESH_RET_Vd d) = 0 then []
    else (DieMesh.cut 54 (s.dieMesh d)).map (· + 54 * d)) })).switchMaps [0, 1, 2, 3]

/-- The sparing map of quire n as the fuses give it (R48): its spare, and the logical cores on the other tiles in ascending order. -/
def State.fuseMap (s : State) (n : Nat) : State :=
  let sp := s.spareFuse.get 8 n
  let tile (k : Nat) : Nat := if k < sp then k else k + 1
  let map := (List.range 8).foldl (fun a k => a + tile k * 16 ^ k) 0
  (List.range 8).foldl (fun a k => a.setF (CPU_CORE_STATUSc.TILE (8 * n + k)) (tile k))
    ((s.setF (CPU_SPARE_MAPn.SPARE n) sp).setF (CPU_SPARE_MAPn.LC n) map)

/-- The repair record is loaded, and cores, engines and routers follow it (R520); without one, the fuses give the sparing maps (R48). -/
def State.loadUnits (s : State) (fix : Nat → Word → Word) : State :=
  let s1 := s.loadRepair fix
  if (s1.newerHalf 0x20000).isNone then (List.range 24).foldl State.fuseMap s1
  else ((List.range 256).foldl State.assignEngine ((List.range 192).foldl State.assignCore s1)).loadMesh

/-- The debug enables and the Endpaper region of the settings (R485, R489). -/
def State.loadEndpaper (s : State) (debug : Bool) : State :=
  let g := (s.setting 2).toNat
  let s1 := if debug then
      s.setReg ENDP_DEBUG (BitVec.ofNat 64 (g / 4 % 16 + (if g.testBit 1 then 16 else 0)))
    else s
  s1.setF ENDP_REGION.BASE ((s.setting 3).toNat / 4096 % 2 ^ 40)

/-- The attach endpoint's mode (R4). -/
def State.loadEndpoint (s : State) : State :=
  if s.general 0 then
    (s.raise AEP_STATUS.MODE).modGroup 0 (fun g => { g with aspm := 3 }) |>.modGroup 1 (fun g => { g with aspm := 3 })
  else s

/-- An arbitration point's register is seeded with a value that is not zero (R322). -/
def State.seedPoint (s : State) (pt : Nat) : State :=
  let (w, s1) := s.draw
  { s1 with lfsr := s1.lfsr.set 0 pt (BitVec.ofNat 32 (w.toNat % (2 ^ 32 - 1) + 1)) }

/-- The clock starts ACQUIRING from the calendar, and a cold reset is counted (R521, R527). -/
def State.startTime (s : State) : State :=
  let (s1, calendar) := s.loadLife
  { (s1.lifeInc 0x18 0 32).setCount calendar with bootAt := calendar }

/-- A cold reset begins (R541): steps 1 to 4 as far as MAIN_EN. `se`: the service engines that fail their self-test; `copies`: the
Colophon copies that fail. -/
def State.coldReset (s : State) (mid se : Nat) (fuseBad : Bool) (copies : Nat) : State :=
  let s1 := ((s.powerUp mid se).keepLogPlace s).gradeClocks
  if se % 4 = 3 then s1.bootCode 0xE010
  else if fuseBad then s1.bootCode 0xE020
  else if copies % 4 = 3 then ((s1.setF COL_STATUS.COPY0 2).setF COL_STATUS.COPY1 2).bootCode 0xE030
  else
    let s2 := if copies % 4 = 0 then s1 else s1.copyFails (if copies.testBit 0 then 0 else 1)
    let s3 := ((s2.loadSettings).loadUnits (fun _ v => v)).startTime
    let s4 := ((s3.loadEndpaper true).loadEndpoint)
    { (List.range 418).foldl State.seedPoint s4 with boot := 0x0040, mainEn := true }

/-! ### Step 5 (R168, R205) -/

/-- The home table is filled with the slices in service (R168). -/
def State.loadHome (s : State) : State :=
  let up := (List.range 216).filter (fun n => decide (s.f (L3_SLICE_STATUSs.STATE n) < 2))
  if up.length = 216 ∨ up.isEmpty = true then s
  else
    let at_ (i : Nat) : Nat := up.getD (i % up.length) 0
    let s1 := (List.range 512).foldl (fun a j =>
      let w := BitVec.ofNat 64 ((List.range 8).foldl (fun acc k => acc + at_ (8 * j + k) * 2 ^ (8 * k)) 0)
      (a.setReg (L3_HOME_TABLEj j) w).setReg (L3_HOME_SHADOWj j) w) s
    up.zipIdx.foldl (fun a e => a.setF (L3_SLICE_STATUSs.ENTRIES e.1) ((4096 + up.length - 1 - e.2) / up.length)) s1

/-- The dies that die links in service join to a set of dies, after `n` steps. -/
def State.diesReached (s : State) : Nat → List Nat → List Nat
  | 0, ds => ds
  | n + 1, ds =>
    s.diesReached n ((List.range 21).foldl (fun (acc : List Nat) k =>
      if s.f (MESH_DLINKk_STATUS.STATE k) ≠ 2 ∧ (linkDies k).any acc.contains = true then acc ++ (linkDies k).filter (fun d => !acc.contains d)
      else acc) ds)

/-- MAIN_PG rises: the sensors are read, the Headband controller starts, die links train, the mesh starts (R544 steps 4 and 5). `cold`: a
sensor reads below 0 °C; `dead`: die links that do not train. -/
def State.mainPgRise (s : State) (cold : Bool) (dead : List Nat) : State :=
  if !s.bootAtCode 0x0040 || s.mainPg then s
  else
    let s1 := { s with mainPg := true }
    if cold then s1.bootCode 0xE041
    else
      let s2 := (s1.modHb (fun h => { h with started := true, closed := s.leaf })).bootCode 0x0050
      let s3 : State := dead.foldl (fun (a : State) k => a.retireDieLink (k % 21) 0) s2
      if (s3.diesReached 6 [4]).length < 6 then s3.bootCode 0xE050 else s3.loadHome.bootCode 0x0060

/-- MAIN_PG has not risen within 50 ms. -/
def State.railTimeout (s : State) : State := if s.bootAtCode 0x0040 && !s.mainPg then s.bootCode 0xE040 else s

/-! ### Steps 9 to 12 (R518, R415, R487) -/

/-- Whether a write that the rules judge is dropped or ignored as a whole (R20, R474, R518, R533). -/
def State.preloadDropped (s : State) (k : Nat) (v : Word) : Bool :=
  let o := k % 0x10000000
  if k / 0x10000000 = 15 ∧ 0x100000 ≤ o ∧ o < 0x180000 then s.locked .text 15 || s.on COL_STATUS.STORE
  else if k / 0x10000000 = 9 ∧ 0x4000000 ≤ o ∧ o < 0x8000000 then false
  else
    match findReg k with
    | none => true
    | some (d, is) => endpaperOnly k || s.locked .text d.block || reservedIn d.fields v || reservedWhole d.off (is.headD 0) v ||
        !d.fields.any (fun f => decide (f.acc ≠ .ro))

/-- The PRELOAD entries from number `i` on are applied, at most `n` (R518). -/
def State.preloadFrom (s : State) : Nat → Nat → State
  | 0, _ => s
  | n + 1, i =>
    let head := s.col.work.get 0 (0xC0 + 2 * i)
    if head.getLsbD 63 = false then s
    else
      let k := wbits head 39 0
      let v := s.col.work.get 0 (0xC1 + 2 * i)
      let s1 := if s.preloadDropped k v then s.incF COL_STATUS.PRELOAD_BAD else s
      (s1.setupWrite .text 8 k v false).preloadFrom n (i + 1)

/-- PRELOAD (R518). -/
def State.preload (s : State) : State := (s.setF COL_STATUS.PRELOAD_BAD 0).preloadFrom 32671 0

/-- The ports take their configuration from the settings and train; those of links that a warm reset keeps in L0 go on (R415, R549). -/
def State.startPorts (s : State) (warm : Bool) : State :=
  let s1 := (List.range 128).foldl (fun a p =>
    let v := s.setting (8 + p) &&& definedBits (PRT_Pp_CFG p)
    let a1 := if a.reg (PRT_Pp_CFG p) = v then a else a.setReg (PRT_Pp_CFG p) v
    if a1.reg (PRT_Pp_CFG_SHADOW p) = v then a1 else a1.setReg (PRT_Pp_CFG_SHADOW p) v) s
  let keeps (p : Nat) : Bool := warm && (decide (s1.f (PRT_Pp_CFG.MODE p) = 2 ∨ s1.f (PRT_Pp_CFG.MODE p) = 3))
  let s2 := (List.range 128).foldl (fun a p => if a.trains p && !keeps p then a.detect p else a) s1
  if warm then s2
  else (List.range 32).foldl (fun a j => if a.f (PRT_Pp_CFG.MODE (4 * j)) = 2 then a.trainLink j else a) s2

/-- Endpaper is brought up, or is absent (R487 steps 1 to 3): step 12. -/
def State.bringUp (s : State) : State :=
  if s.imageValid then
    let s1 := (s.setF ENDP_REGION.HART_AREA s.areaPages).copyCode
    let d := sha384 (s.sealedBytes 0x1000 s.codeLen)
    let s2 := (List.range 6).foldl (fun a k => a.setReg (ENDP_MEAS_IMAGEk k) (digestWord d k)) s1
    ((List.range 384).foldl (fun a h => if a.lostCore (coreOf h) then a else a.setF (ENDP_HARTn_STATUS.STATE h) 1) s2).bootCode 0x00C0
  else (s.raise ENDP_ALARM.NO_IMAGE).bootCode 0x00C1

/-- Step 11 ends once the time base is not ACQUIRING, and step 12 follows (R63). -/
def State.bootGoesOn (s : State) : State := if s.bootAtCode 0x00B0 && decide (s.f TB_STATUS.STATE ≠ 0) then s.bringUp else s

/-- Steps 9 and 10: the image goes to LOAD_BASE, PRELOAD is applied, programs are loaded, the ports start; step 11 is of a cold boot. -/
def State.bootFrom9 (s : State) : State :=
  let warm := s.released
  let base := s.loadBase.toNat
  let s1 := s.bootCode 0x0090
  if !s.populated base || !s.populated (base + s.svc.staged.length - 1) then s1.bootCode 0xE090
  else
    let s2 := ((s1.seWrite (cellsAt base s1.svc.staged)).modSvc (fun v => { v with staged := [] })).preload.bootCode 0x00A0
    let s3 := s2.startPorts warm
    if warm then s3.bringUp else (s3.bootCode 0x00B0).bootGoesOn

/-! ### Step 6 (R546, R547) -/

/-- The offset of a BOOT field in the settings, and its length in bytes, of image A or B. -/
def State.imageLen (s : State) (b : Bool) : Nat := wbits (s.setting (if b then 0x8A else 0x89)) 63 32

/-- The digest that an image is expected to have. -/
def State.expected (s : State) (b : Bool) : List Byte := bytesFrom (fun w => s.setting w) (if b then 0x490 else 0x460) 48

/-- An image is read, measured and judged: the state with its digest, and whether it is accepted; none where the read failed. -/
def State.tryImage (s : State) (b : Bool) (bytes : Option (List Byte)) : State × Option Bool :=
  match bytes with
  | none => (s, none)
  | some l =>
    if l.length ≠ s.imageLen b then (s, none)
    else
      let d := sha384 l
      let s1 := (List.range 6).foldl (fun a k => a.setReg (ENDP_MEAS_BOOTk k) (digestWord d k)) (s.modSvc (fun v => { v with staged := l }))
      (s1.bootCode (if b then 0x0062 else 0x0061), some (!(s.setting 0x88).getLsbD 0 || decide (d = s.expected b)))

/-- Boot stops without an image. -/
def State.noImage (s : State) (r : Option Bool) : State :=
  (s.modSvc (fun v => { v with staged := [] })).bootCode (if r = some false then 0xE061 else 0xE060)

/-- An image is accepted: DDR training follows at a cold boot, and step 9 at a warm reset. -/
def State.imageAccepted (s : State) : State := if s.released then s.bootFrom9 else s.bootCode 0x0070

/-- The boot image is loaded (R547). `sfdp`: the flash answers; `a`, `b`: what reading image A and B gives, none where a read fails. -/
def State.loadImage (s : State) (sfdp : Bool) (a b : Option (List Byte)) : State :=
  if !s.bootAtCode 0x0060 then s
  else if !sfdp then s.bootCode 0xE060
  else
    match s.tryImage false a with
    | (s1, some true) => s1.imageAccepted
    | (s1, r) =>
      if (s.setting 0x88).getLsbD 1 then
        (match s1.tryImage true b with
        | (s2, some true) => s2.imageAccepted
        | (s2, r2) => s2.noImage r2)
      else s1.noImage r

/-! ### Steps 7 and 8 (R212, R213, R215, R234) -/

/-- The highest transfer rate of a configuration, in units of 100 MT/s; 0: not accepted (R212). -/
def configRate (r : SlotReport) : Nat := if r.type = 1 then (if r.count = 1 then 64 else 56) else if r.type = 2 ∧ r.count = 1 then 88 else 0

/-- Whether a channel's DIMMs keep the rules of R211 to R213. -/
def SlotReport.fits (r : SlotReport) : Bool :=
  r.x4 && r.alike && decide (0 < configRate r) && decide (r.ranks = 1 ∨ r.ranks = 2 ∨ r.ranks = 4) &&
    deviceFits r.density r.stack && decide (1 ≤ r.gib ∧ r.gib ≤ 1024)

/-- The largest aligned power-of-two group of channels of equal capacity among those listed with their capacities: FIRST, w, capacity. The largest is
that of the most channels, and of several the one with the lowest numbers (R215 names neither: DESIGN CHOICE, log entry 61). -/
def largestGroup (l : List (Nat × Nat)) : Option (Nat × Nat × Nat) :=
  [4, 3, 2, 1, 0].findSome? (fun w =>
    (List.range (16 / 2 ^ w)).findSome? (fun b =>
      let ks := (List.range (2 ^ w)).map (· + b * 2 ^ w)
      match l.find? (fun e => decide (e.1 = b * 2 ^ w)) with
      | none => none
      | some e => if ks.all (fun k => l.any (fun x => decide (x = (k, e.2)))) then some (b * 2 ^ w, w, e.2) else none))

/-- The regions that R215 writes: FIRST, w, capacity. -/
def bootRegions : Nat → List (Nat × Nat) → List (Nat × Nat × Nat)
  | 0, _ => []
  | n + 1, l =>
    match largestGroup l with
    | none => []
    | some (f, w, c) => (f, w, c) :: bootRegions n (l.filter (fun e => decide (e.1 < f ∨ f + 2 ^ w ≤ e.1)))

/-- A region's word (R214). -/
def regionWord (r : Nat) (base : Nat) (g : Nat × Nat × Nat) : Word :=
  (MC_ILVr.VALID r).put 1 ((MC_ILVr.WAYS r).put g.2.1 ((MC_ILVr.FIRST r).put g.1 ((MC_ILVr.BASE r).put base
    ((MC_ILVr.SIZE r).put (2 ^ g.2.1 * g.2.2) 0))))

/-- The regions are written from the window's start (R215). -/
def State.writeRegions (s : State) (gs : List (Nat × Nat × Nat)) : State :=
  (gs.zipIdx.foldl (fun (acc : State × Nat) e =>
    let w := regionWord e.2 acc.2 e.1
    ((acc.1.setReg (MC_ILVr e.2) w).setReg (MC_ILVr_SHADOW e.2) w, acc.2 + 2 ^ e.1.2.1 * e.1.2.2)) (s, 0)).1

/-- What a controller reports of its channel. -/
def State.noteDimms (s : State) (rate : Nat) (r : SlotReport) : State :=
  if r.count = 0 then s
  else
    ((((s.setF (MC_CHk_STATUS.CAP r.chan) (r.count * r.gib)).setF (MC_CHk_STATUS.DIMMS r.chan) r.count).setF (MC_CHk_STATUS.TYPE r.chan)
      r.type).setF (MC_CHk_STATUS.RATE r.chan) rate).modChan r.chan (fun c =>
        { c with mpwr := true, dimmGib := r.gib, ranks := r.ranks, density := r.density, stack := r.stack, maxRate := r.rate })

/-- hPPR is applied to every row listed for a trained channel (R243): a row whose device has no hard-repair resource left is reported as
one that a soft repair cannot mend (DESIGN CHOICE, log entry 67). -/
def State.hardRepair (s : State) (r : SlotReport) : State :=
  ((s.chan r.chan).repairs.filter (r.noHard.contains ·)).foldl (fun a e => a.rowUnrepaired r.chan e.1 e.2) s

/-- DDR training ends (R213, R215), every listed row is repaired (R243), and the fill begins. A channel that fits in no region is EXCLUDED and sets
CH_FAIL, as that flag's words say (DEDUCED, log entry 61). -/
def State.ddrTrained (s : State) (rs : List SlotReport) : State :=
  if !s.bootAtCode 0x0070 then s
  else
    let there := rs.filter (fun r => decide (0 < r.count))
    let kind := (there.filter SlotReport.fits).head?.elim 0 (·.type)
    let ok := there.filter (fun r => r.fits && decide (r.type = kind))
    let rate := ok.foldl (fun a r => min a (min r.rate (configRate r))) 88
    let s1 := there.foldl (State.noteDimms · rate ·) s
    let s2 := (there.filter (fun r => !ok.contains r)).foldl (fun a r => (a.setChState r.chan 1).raise MC_ALARM.CH_FAIL) s1
    let s3 := (ok.filter (fun r => !r.trained)).foldl (fun a r =>
      ((a.setChState r.chan 8).raise MC_ALARM.CH_FAIL).logChannel r.chan 6 8) s2
    let up := (ok.filter (·.trained)).map (fun r => (r.chan, r.count * r.gib))
    let gs := bootRegions 4 up
    let used (k : Nat) : Bool := gs.any (fun g => decide (g.1 ≤ k ∧ k < g.1 + 2 ^ g.2.1))
    let s4 := (ok.filter (·.trained)).foldl State.hardRepair (up.foldl (fun a e =>
      if used e.1 then a.setChState e.1 2 else (a.setChState e.1 1).raise MC_ALARM.CH_FAIL) s3)
    if up.isEmpty then s4.bootCode 0xE070
    else { ((s4.writeRegions gs).setF SCR_FILL_STATUS.STATE 1).updateBandwidth with boot := 0x0080, fillStart := s.count }

/-- The channels that the power-up fill writes: those in service. -/
def State.fills (s : State) (k : Nat) : Bool := decide (2 ≤ s.chState k ∧ s.chState k < 8 ∧ s.chState k ≠ 5)

/-- Channel k has finished its fill: every line of it holds zeros and a codeword (R234). -/
def State.fillChannel (s : State) (k : Nat) : State :=
  if !s.fills k then s
  else
    let other (n c : Nat) : Bool := decide (c < k * n ∨ (k + 1) * n ≤ c)
    { s.setF SCR_FILL_STATUS.DONE (s.f SCR_FILL_STATUS.DONE ||| 2 ^ k) with
      dram := s.dram.filter (fun e => other (2 ^ 41) e.1), checks := s.checks.filter (fun e => other (2 ^ 35) e.1) }

/-- The channels `ks` finish their fill in leaf `l`. When every channel has, the fill is done and boot goes on (R234). -/
def State.fillDone (s : State) (l : Nat) (ks : List Nat) : State :=
  if !s.bootAtCode 0x0080 then s
  else
    let s1 := ks.foldl State.fillChannel (s.untilLeaf l)
    if (List.range 16).all (fun k => !s1.fills k || (s1.f SCR_FILL_STATUS.DONE).testBit k) then
      let s2 := (s1.setF SCR_FILL_STATUS.STATE 2).raise SCR_ALARM.FILL_DONE
      ((List.range 16).foldl (fun a k => a.modChan k (fun c => { c with lapStart := s1.count, scrubNext := 0 })) s2).bootFrom9
    else s1

/-! ### Step 13 (R545) -/

/-- The logical core of the boot hart. -/
def State.bootCore (s : State) : Nat :=
  let c := wbits (s.setting 0x88) 15 8
  if c < 192 ∧ s.lostCore c = false then c else ((List.range 192).find? (fun c => !s.lostCore c)).getD 0

/-- The boot hart is released: in Endpaper, or with every other hart in the text world; never while the time base is ACQUIRING (R63). -/
def State.releaseBoot (s : State) : State :=
  let s0 := s.bootGoesOn
  let h := 2 * s0.bootCore
  if s0.f TB_STATUS.STATE = 0 then s0
  else if s0.bootAtCode 0x00C0 then
    let s1 := (s0.enterEndpaper h 3 0 s0.loadBase).modHart h (fun t => { t with pc := BitVec.ofNat 64 s0.endpBase })
    { s1.modSvc (fun v => { v with othersHeld := true }) with released := true, boot := 0x00F0 }
  else if s0.bootAtCode 0x00C1 then
    { (s0.releaseHart h 0xFFFFFFFFFFFFFFEF).releaseOthers with released := true, boot := 0x00F0 }
  else s0

/-- The acquisition timeout passes (R63), counted from step 1. -/
def State.acquisitionEnds (s : State) : State :=
  if s.f TB_STATUS.STATE ≠ 0 then s
  else ((s.until (s.bootAt + wbits (s.setting 2) 31 16 * 256000000)).acquisitionTimeout).bootGoesOn

/-! ### Warm reset (R549 to R551) -/

/-- A hart stops at a commit boundary (W1). -/
def State.stopHart (s : State) (h : Nat) : State :=
  if s.lostCore (coreOf h) then s
  else
    let s1 := (s.drain h).modSvc (fun v => { v with dm := v.dm.modify 0 (0x1000 + h) (· ||| 2) })
    if (s1.hart h).run = .held then s1 else s1.modHart h (fun t => { t with run := .held, resv := none, constrained := false })

/-- A home's slice is asked of every tile of the system, and its directory and lines go (W2). -/
def State.clearSlice (s : State) (n : Nat) : State :=
  let s1 := (List.range 8).foldl (fun a m =>
    if decide (m ≠ a.moduleNo) && decide (a.f (BL_PEERm.STATE m) = 1) then
      (List.range 216).foldl (fun b t => b.emit (.packet 1 7 m t (256 + n) (recoveryName n none * 64) false false none)) a
    else a) s
  s1.modSlice n (fun sl => { sl with l3 := {}, dir := [], dirTree := [] })

/-- A warm reset begins (R550 W1 and W2), where the boot hart has been released and none runs (R551). -/
def State.warmReset (s : State) : State :=
  if !s.bootAtCode 0x00F0 || !s.released || s.svc.warmAt.isSome then s
  else
    let s0 := match s.svc.resetAt with
      | some (l, false) => (s.untilLeaf l).modSvc (fun v => { v with resetAt := none })
      | _ => s
    let s1 := (List.range 384).foldl State.stopHart s0
    let s2 := (List.range 256).foldl (fun a i => if a.f (CSS_SIi_BIND.KIND i) ≠ 0 then a.requestReset i false else a) s1
    let s3 := (List.range 216).foldl State.flushTile s2
    ((List.range 216).foldl State.clearSlice s3).modSvc (fun v => { v with warmAt := some s0.leaf })

/-- Registers that a warm reset leaves whole: counts since cold reset, what describes trained memory, the debug enables
(R17, R45, R549). -/
def warmWhole : List Nat :=
  [MESH_LINKSd 0, MC_CHk_STATUS 0, MC_ILVr 0, SCR_CHk_COUNTS 0, CSS_SIi_COUNTS 0, PRT_Gj_ERR 0, PRT_Pp_COUNTS 0, ENDP_DEBUG]

/-- The other fields that it keeps: counts since cold reset, and GEN (R17, R549). -/
def warmFields (off : Nat) : Word :=
  if off = L3_SLICE_STATUSs 0 then (L3_SLICE_STATUSs.CE_COUNT 0).mask
  else if off = L3_DIR_STATUSs 0 then (L3_DIR_STATUSs.EVICT 0).mask ||| (L3_DIR_STATUSs.RECOVER 0).mask
  else if off = CSS_SIi_STATUS 0 then (CSS_SIi_STATUS.GEN 0).mask
  else if off = TU_STATUSu 0 then (TU_STATUSu.BLOCKS 0).mask
  else if off = MESH_DLINKk_STATUS 0 then (MESH_DLINKk_STATUS.REPLAYS 0).mask
  else if off = PRT_Pp_STATUS 0 then (PRT_Pp_STATUS.ERR_MSGS 0).mask
  else if off = ENDP_HARTn_STATUS 0 then (ENDP_HARTn_STATUS.RESTARTS 0).mask
  else 0

/-- The bits of a register that a warm reset keeps. -/
def State.warmMask (s : State) (k : Nat) : Word :=
  if [2, 3, 4, 5, 7, 8, 9, 10, 11, 14].contains (k / 0x10000000) then
    match findReg k with
    | none => 0
    | some (d, is) =>
      let p := is.headD 0
      if warmWhole.contains d.off then BitVec.allOnes 64
      else if d.off = CSS_Pp_STRMs 0 0 then
        (d.fields.filter (fun f => decide (f.acc = .ro))).foldl (fun a f => a ||| f.bits) 0
      else if d.off = PRT_Pp_STATUS 0 ∧ (s.f (PRT_Pp_CFG.MODE p) = 2 ∨ s.f (PRT_Pp_CFG.MODE p) = 3) then BitVec.allOnes 64
      else if d.off = CPU_CORE_STATUSc 0 then
        (CPU_CORE_STATUSc.RETRIES 0).mask ||| (CPU_CORE_STATUSc.TILE 0).mask |||
          (if s.lostCore p then (CPU_CORE_STATUSc.STATE 0).mask else 0)
      else (d.fields.filter (fun f => decide (f.acc = .rws))).foldl (fun a f => a ||| f.bits) (warmFields d.off)
  else BitVec.allOnes 64

/-- The registers after W3. -/
def State.warmRegs (s : State) : Table Word :=
  s.regs.foldl (fun t e =>
    let m := s.warmMask e.1
    let r := resetOf e.1
    t.set r e.1 ((e.2 &&& m) ||| (r &&& ~~~m))) []

/-- The blocks that a warm reset reaches (R549): their registers and all that they hold beside them. A takeover under way goes on: its mode change
stands in block TB, which is kept. -/
def State.warmBlocks (s : State) : State :=
  let there (c : Nat) : Bool := decide (2 ≤ s.f (CPU_CORE_STATUSc.STATE c))
  let keepPort (p : Nat) : Bool := decide (s.f (PRT_Pp_CFG.MODE p) = 2 ∨ s.f (PRT_Pp_CFG.MODE p) = 3)
  { s with
    regs := s.warmRegs
    harts := s.harts.filter (fun e => decide (s.f (CPU_CORE_STATUSc.STATE (coreOf e.1)) = 3))
    cores := (s.cores.filter (fun e => there e.1)).map (fun e =>
      (e.1, if s.lostCore e.1 then { keepLost := e.2.keepLost, keepBad := e.2.keepBad } else { takeover := e.2.takeover }))
    tiles := [], slices := [], curCopies := [], recoveries := [], writes := [], raw := none
    mesh := { s.mesh with
      errors := [], beyond := [], stopped := none, stopsOn := false, staged := none, sources := [], buffers := [], fifos := [], taken := []
      replay := [], crossed := [] }
    channels := s.channels.map (fun e => (e.1, { e.2 with tracker := [], due := [], scrubNext := 0, lapStart := s.count }))
    weights := []
    journal := [], seqNext := 0, queues := [], reqs := [], reqNext := 0, kept := [], reports := [], afterDone := [], pathBad := [], cto := []
    frames := [], insts := [], buckets := [], losses := [], lastQueue := [], grants := []
    engines := [], rxSel := [], extCredit := [], selfTests := [], jobs := [], jobNext := 0
    ports := s.ports.filter (fun e => keepPort e.1)
    laneSwap := []
    svc := { s.svc with ksWait := [], staged := [], warmAt := none, lostLater := [], othersHeld := false
                        tests := s.svc.tests.filter (fun t => decide (t.state ≠ 0)) } }

/-- W3: at leaf `l`, no earlier than X + 1,001, with every reset report written (step W2) and not while a STORE runs, the blocks are reset and held
requests go to their homes. -/
def State.warmW3 (s : State) (l : Nat) : State :=
  match s.svc.warmAt with
  | none => s
  | some x =>
    if s.stopped || s.on COL_STATUS.STORE || decide (l < x + 1001) || (List.range 256).any s.resetting then s
    else
      let s1 := (List.range 16).foldl (fun a k => (a.repairEnds k).letGo k) (s.untilLeaf l)
      let s2 := (((s1.warmBlocks.loadUnits s1.notYet).loadHome).loadEndpaper false).updateBandwidth
      let held := s2.heldReqs
      let s3 := held.foldl (fun (a : State) r => (a.homeRequest r).1) { s2 with heldReqs := [] }
      (s.svc.lostLater.foldl State.peerGone s3).bootCode 0x0060

/-! ### Loss of power (R40, R543) -/

/-- MAIN_PG falls: every clock but those on VKEEP stops, MAIN_EN goes low, and a sequence is abandoned. -/
def State.mainPgFall (s : State) : State := if s.mainPg then { s with stopped := true, mainEn := false, mainPg := false } else s

/-- VKEEP leaves its operating range: nothing runs any more. -/
def State.vkeepLoss (s : State) : State := { s with stopped := true, off := true, mainEn := false, mainPg := false }

/-! ### The commands -/

/-- COLD_RESET (R541, R544): it reaches a module that has stopped, too. -/
def execColdReset (mid se : Nat) (fuseBad : Bool) (copies : Nat) (s : State) : Host.Outcome State Fault Refusal :=
  .next (s.coldReset mid se fuseBad copies)

/-- MAIN_PG_RISE (R544). -/
def execMainPgRise (cold : Bool) (dead : List Nat) (s : State) : Host.Outcome State Fault Refusal := .next (s.running (s.mainPgRise cold dead))

/-- RAIL_TIMEOUT (R548). -/
def execRailTimeout (s : State) : Host.Outcome State Fault Refusal := .next (s.running s.railTimeout)

/-- BOOT_IMAGE_LOADED (R547). -/
def execBootImageLoaded (sfdp : Bool) (a b : Option (List Byte)) (s : State) : Host.Outcome State Fault Refusal :=
  .next (s.running (s.loadImage sfdp a b))

/-- DDR_TRAINING_DONE (R213, R215). -/
def execDdrTrainingDone (rs : List SlotReport) (s : State) : Host.Outcome State Fault Refusal := .next (s.running (s.ddrTrained rs))

/-- FILL_DONE (R234). -/
def execFillDone (l : Nat) (ks : List Nat) (s : State) : Host.Outcome State Fault Refusal := .next (s.running (s.fillDone l ks))

/-- ACQUISITION_TIMEOUT (R63). -/
def execAcquisitionTimeout (s : State) : Host.Outcome State Fault Refusal := .next (s.onKeep s.acquisitionEnds)

/-- BOOT_HART_RELEASE (R545). -/
def execBootHartRelease (s : State) : Host.Outcome State Fault Refusal := .next (s.running s.releaseBoot)

/-- WARM_RESET (R550). -/
def execWarmReset (s : State) : Host.Outcome State Fault Refusal := .next (s.running s.warmReset)

/-- WARM_RESET_W3 (R550). -/
def execWarmResetW3 (l : Nat) (s : State) : Host.Outcome State Fault Refusal := .next (s.running (s.warmW3 l))

/-- MAIN_PG_FALL (R543). -/
def execMainPgFall (s : State) : Host.Outcome State Fault Refusal := .next (s.onKeep s.mainPgFall)

/-- VKEEP_LOSS (R40). -/
def execVkeepLoss (s : State) : Host.Outcome State Fault Refusal := .next s.vkeepLoss

end Sys2Proof.Machine
end

