-- ==== Sys2Proof/Machine/Service.lean ====
section
/-! DEFINITION. The Drufy requests of the service ports (chapter Service, Test and Concurrent Maintenance, R552 to R563). A row is a request
whose frame passed its check; TAG is returned, and a response is a whole frame. -/

namespace Sys2Proof.Machine

open Sys2Proof

/-! ### Requests and responses (R555 to R558) -/

/-- The service engine that serves port p (R552); none: no response. -/
def State.portSe (s : State) (p : Nat) : Option Nat :=
  if s.deadDies.contains p then none
  else if !s.svc.out.contains p then some p else if !s.svc.out.contains (1 - p) then some (1 - p) else none

/-- The boot step that has been reached (R544, R548); with the rails off, no step beyond 3 counts. -/
def State.bootStep (s : State) : Nat :=
  if s.stopped then 3 else if s.boot = 0xF0 then 13 else s.boot / 16 % 16

/-- A request on port p with its OP and TAG, which runs from boot step `n` on (R556 to R558). `act` answers the status and payload; none:
the request is answered later, or is delivered again. -/
def State.drufy (s : State) (p op tag n : Nat) (act : State → State × Option (Nat × List Byte)) : State :=
  match s.portSe p with
  | none => s
  | some _ =>
    if (s.svc.owed.get none p).isSome then s.answer p op tag 4 []
    else if s.bootStep < n then s.answer p op tag 8 []
    else
      match act s with
      | (s1, none) => s1
      | (s1, some (status, l)) => s1.answer p op tag status l

/-- A status without a payload. -/
def State.says (s : State) (status : Nat) : State × Option (Nat × List Byte) := (s, some (status, []))

/-- The request of port p is answered later. -/
def State.owes (s : State) (p op tag : Nat) (w : OwedFor) : State × Option (Nat × List Byte) :=
  (s.modSvc (fun v => { v with owed := v.owed.set none p (some { op := op, tag := tag, what := w }) }), none)

/-! ### Units (R525, R561) -/

/-- What a location code names, as the service engines act on it. -/
inductive SvcUnit where
  | core (t : Nat)
  | way (t : Nat) (k : ArrayKind) (w : Nat)
  | slice (t : Nat)
  | router (t : Nat)
  /-- A mesh link of die `d`, vertical or horizontal, by the stop of its lower end. -/
  | meshLink (d : Nat) (v : Bool) (lower : Nat)
  | dieLink (k : Nat)
  | channel (k : Nat)
  | port (p : Nat)
  | lane (n : Nat)
  /-- The spare circuit of lane group `j`. -/
  | spareLane (j : Nat)
  | engine (k : Nat)
  | tu (u : Nat)
  | serviceEngine (d : Nat)
  | colophon (d : Nat)
  | journal (d : Nat)
  | time
deriving DecidableEq, Repr

/-- The fields of a packed location code, and how many are given (R525); none: it is not of the form. -/
def locFields (w : Nat) : Option (Loc × Nat) :=
  let l : Loc := { module := w / 2 ^ 61 % 8, die := w / 2 ^ 58 % 8, quire := w / 2 ^ 54 % 16, tile := w / 2 ^ 50 % 16, unit := w / 2 ^ 40 % 1024,
                   array := w / 2 ^ 28 % 4096, cell := w / 2 ^ 8 % 2 ^ 20 }
  let n := w % 8
  if 1 ≤ n ∧ l.word n = w then some (l, n) else none

/-- The mesh link of a tile's router in a direction, if the mesh has it. -/
def routerLink (t dir : Nat) : Option SvcUnit :=
  let st := routerStop (t % 54)
  if 3 < dir ∨ (dir = 0 ∧ st / 8 = 7) ∨ (dir = 1 ∧ st % 8 = 7) ∨ (dir = 2 ∧ st / 8 = 0) ∨ (dir = 3 ∧ st % 8 = 0) then none
  else some (.meshLink (t / 54) (dir % 2 == 0) (min st (hop st dir)))

/-- The unit of a tile that unit number `u` names, with array field `a` where it is given. -/
def tileUnit (t u : Nat) : Option Nat → Option SvcUnit
  | none => if u = 0 then some (.core t) else if u = 9 then some (.router t) else if u = 10 ∨ u = 11 then some (.slice t) else none
  | some a =>
    if u = 1 then some (.way t .l1i a) else if u = 2 then some (.way t .l1d a) else if u = 3 then some (.way t .l2 a)
    else if u = 4 then some (.way t .vb a) else if u = 9 then routerLink t a
    else if u = 10 ∨ u = 11 then some (.way t .l3 a) else none

/-- The same of compute die d. -/
def computeUnit (d u : Nat) : Option SvcUnit :=
  if 16 ≤ u ∧ u < 24 then some (.channel (4 * d + u % 4))
  else if u = 24 then some (.dieLink ((d + 3) % 4))
  else if u = 25 then some (.dieLink d)
  else if 26 ≤ u ∧ u < 30 then some (.dieLink (4 + 4 * d + (u - 26)))
  else none

/-- The same of I/O die d, 0 or 1. -/
def ioUnit (d u : Nat) : Option Nat → Option SvcUnit
  | some a =>
    if u < 64 ∧ a < 2 then some (.lane (2 * (64 * d + u) + a))
    else if 64 ≤ u ∧ u < 80 ∧ a < 8 then some (.lane (8 * (16 * d + (u - 64)) + a))
    else if 64 ≤ u ∧ u < 80 ∧ a = 8 then some (.spareLane (16 * d + (u - 64)))
    else none
  | none =>
    if u < 64 then some (.port (64 * d + u))
    else if 128 ≤ u ∧ u < 264 then some (.engine (136 * d + (u - 128)))
    else if 272 ≤ u ∧ u < 280 then some (.tu (8 * d + (u - 272)))
    else if u = 280 then some (.serviceEngine d)
    else if u = 281 then some (.colophon d)
    else if u = 282 then some (.journal d)
    else if 288 ≤ u ∧ u < 296 then some (.dieLink (4 + 4 * ((u - 288) / 2) + 2 * d + u % 2))
    else if u = 296 then some (.dieLink 20)
    else if u = 297 ∧ d = 0 then some .time
    else none

/-- The unit of this module that a packed location code names (R561); none: BAD_ARG. -/
def State.unitOf (s : State) (w : Nat) : Option SvcUnit :=
  match locFields w with
  | none => none
  | some (l, n) =>
    let arr := if n = 6 then some l.array else none
    if l.module ≠ s.moduleNo ∨ n < 5 ∨ n = 7 then none
    else if l.die < 4 then
      (if l.quire < 6 ∧ l.tile < 9 then tileUnit (9 * (6 * l.die + l.quire) + l.tile) l.unit arr
       else if l.quire = 9 ∧ l.tile = 0 ∧ n = 5 then computeUnit l.die l.unit else none)
    else if l.die < 6 ∧ l.quire = 9 ∧ l.tile = 0 then ioUnit (l.die - 4) l.unit arr
    else none

/-- The I/O die that a unit lies on, if it lies on one. -/
def SvcUnit.ioDie : SvcUnit → Option Nat
  | .port p => some (p / 64)
  | .lane n => some (n / 128)
  | .spareLane j => some (j / 16)
  | .engine k => some (k / 136)
  | .tu u => some (u / 8)
  | .serviceEngine d | .colophon d | .journal d => some d
  | .time => some 0
  | _ => none

/-- Whether the unit's die has stopped (R557 ABSENT). -/
def State.unitAbsent (s : State) (u : SvcUnit) : Bool := u.ioDie.elim false s.deadDies.contains

/-- A request about a unit: BAD_ARG for a code that names none, ABSENT where its die has stopped. -/
def State.withUnit (s : State) (loc : Nat) (act : SvcUnit → State × Option (Nat × List Byte)) : State × Option (Nat × List Byte) :=
  match s.unitOf loc with
  | none => s.says 3
  | some u => if s.unitAbsent u then s.says 8 else act u

/-! ### Reading (R558, R559) -/

/-- INFO. -/
def State.svcInfo (s : State) (p : Nat) : State × Option (Nat × List Byte) :=
  (s, some (0, leBytes 8 (s.reg SVC_IDENT0).toNat ++ leBytes 8 (s.reg SVC_IDENT1).toNat ++ leBytes 1 ((s.portSe p).getD 0)))

/-- Whether a system-bus address and size are out of range or misaligned: neither set-up space nor populated DRAM of the module. -/
def State.sysBad (s : State) (a size : Nat) : Bool :=
  !(decide (size = 1 ∨ size = 2 ∨ size = 4 ∨ size = 8) && decide (a % size = 0)) ||
    (match s.region a with
    | .setup m k => decide (m ≠ s.moduleNo) || setupSizeBad k size
    | .dram => !s.ownDram a
    | _ => true)

/-- SYS_READ: tagged text world, under the enable TEXT_INV and the guards. -/
def State.svcRead (s : State) (p a size : Nat) : State × Option (Nat × List Byte) :=
  if s.sysBad a size then s.says 3
  else if !s.on ENDP_DEBUG.TEXT_INV then s.says 5
  else
    match s.region a with
    | .setup _ k =>
      (match s.setupRead .text k size with
      | (s1, none) => s1.says (if s.unitGone k then 8 else 5)
      | (s1, some v) => (s1, some (0, leBytes size v)))
    | _ =>
      if s.guardRefuses 0 a false false then (s.refuse 0 a false false).says 5
      else
        match s.readCur (4 + p) (a / 64) with
        | (s1, none) => (s1, none)
        | (s1, some (d, false)) => (s1, some (0, (List.range size).map (fun i => lineByte d (a % 64 + i))))
        | (s1, some (_, true)) =>
          let (w, s2) := s1.draw
          (s2, some (0, leBytes size w.toNat))

/-- Whether a lock or a guard refuses a write at a set-up-space offset (R536). -/
def State.sysLocked (s : State) (k : Nat) : Bool :=
  let frozen := match findReg (k / 8 * 8) with
    | some (d, _) => freezable d
    | none => !readOnlyWindow k
  (s.locked .text (k / 0x10000000) && frozen) || s.setupRefuses .text k

/-- SYS_WRITE. `fits`: as for a register write. -/
def State.svcWrite (s : State) (p a size : Nat) (v : Word) (fits : Bool) : State × Option (Nat × List Byte) :=
  if s.sysBad a size then s.says 3
  else if !s.on ENDP_DEBUG.TEXT_INV then s.says 5
  else
    match s.region a with
    | .setup _ k =>
      let s1 := s.setupWrite .text size k v fits
      if s.unitGone k then s1.says 8 else if s.sysLocked k then s1.says 5 else s1.says 0
    | _ =>
      if s.guardRefuses 0 a false true then (s.refuse 0 a false true).says 5
      else
        let (d, m) := cellsOfLine (cellsAt a (leBytes size v.toNat)) (a / 64)
        (s.request (.wrPart d m false) (.engine s.moduleNo (4 + p)) (a / 64) false false []).says 0

/-- LOG_READ: up to 16 slots of the ring from slot `n`, as far as slot 65,535. -/
def State.logRead (s : State) (n : Nat) : State × Option (Nat × List Byte) :=
  if 65535 < n then s.says 3
  else (s, some (0, (List.range (8 * min 16 (65536 - n))).flatMap (fun i => leBytes 8 (s.colWord (0x80000 + 8 * n + i)).toNat)))

/-- The 64 bytes of a journal entry (R268). -/
def JEntry.bytes (e : JEntry) : List Byte :=
  let bit (b : Bool) (n : Nat) : Nat := if b then 2 ^ n else 0
  let done := decide (e.state = 4)
  let w0 := e.queue + e.index * 2 ^ 16 + e.gen * 2 ^ 32 + e.state * 2 ^ 40 + bit e.orphan 43 + e.path * 2 ^ 44 + e.attempts * 2 ^ 46 +
    bit e.idem 50 + bit e.rbc 51 + bit e.timed 52 + bit e.p 53
  leBytes 8 w0 ++ leBytes 8 (e.bytesDone + e.deadline % 2 ^ 24 * 2 ^ 32) ++ leBytes 8 (if done then e.slot else 0) ++ leBytes 8 0 ++
    leBytes 32 (if done then e.record.toNat else 0)

/-- JOURNAL_READ: an entry of copy 0 or 1; what a free entry holds is free. -/
def State.journalRead (s : State) (arg : Nat) : State × Option (Nat × List Byte) :=
  let n := arg % 2 ^ 31
  let d := if arg.testBit 31 then 1 else 0
  if 262143 < n then s.says 3
  else if s.deadDies.contains d then s.says 8
  else if s.f (if d = 0 then CSS_JOURNAL.COPY0 else CSS_JOURNAL.COPY1) ≠ 0 then s.says 6
  else
    match s.entry n with
    | some e => (s, some (0, e.bytes))
    | none =>
      let (l, s1) := s.drawBytes 8
      (s1, some (0, l))

/-! ### The debug module (R489, R559) -/

/-- DMI. -/
def State.dmi (s : State) (a : Nat) (data : Option Nat) : State × Option (Nat × List Byte) :=
  match data with
  | some v => (s.dmWrite a v).says 0
  | none => (if s.dmBusy && (decide (a = 4) || decide (a = 5)) then s.dmBusyError else s, some (0, leBytes 4 (s.dmRead a)))

/-! ### Resets, moves and retirement (R559) -/

/-- A reset starts 1 ms after its response. A cold reset takes the place of a warm one that waits. -/
def State.resetLater (s : State) (cold : Bool) : State × Option (Nat × List Byte) :=
  (if cold || s.svc.resetAt.isNone then s.modSvc (fun v => { v with resetAt := some (s.leaf + 1000, cold) }) else s).says 0

/-- MOVE. -/
def State.svcMove (s : State) (c : Nat) : State × Option (Nat × List Byte) :=
  if s.moveRefused c then s.says 6 else (s.beginTakeover c 8 false).says 0

/-- A transform unit goes out of service, and its jobs are bound again (R406, R411). -/
def State.retireUnit (s : State) (u : Nat) : State :=
  let s1 := ((s.leaveService (s.tuLoc u)).setF (TU_STATUSu.STATE u) 1).raise TU_ALARM.UNIT_RETIRED
  s1.setJobs (s1.jobs.map (fun x =>
    if x.unit = some u ∧ x.ended.isNone = true ∧ x.fail.isNone = true then { x with unit := none, rerun := false } else x))

/-- Whether a lane's move to the spare circuit is posted (R419, R556). -/
def State.laneMoves (s : State) (n : Nat) : Bool :=
  s.posted.any (fun e => match e.kind with
    | .laneSwap k => decide (k = n)
    | _ => false)

/-- RETIRE. -/
def State.svcRetire (s : State) (loc : Nat) : State × Option (Nat × List Byte) :=
  s.withUnit loc (fun u => match u with
  | .slice t => if s.f (L3_SLICE_STATUSs.STATE t) ≠ 0 then s.says 6 else (s.retireSlice t).says 0
  | .tu n => if s.f (TU_STATUSu.STATE n) ≠ 0 then s.says 6 else (s.retireUnit n).says 0
  | .engine k =>
    let st := s.f (CE_PHYSk.STATE k)
    if st = 0 then (s.hardwareFault k 3).says 0
    else if st = 1 ∧ (List.range 256).all (fun l => decide ((s.engine l).spare ≠ some k)) = true then (s.setF (CE_PHYSk.STATE k) 3).says 0
    else s.says 6
  | .lane n =>
    if (s.f (PRT_Gj_LANES.DISABLED (n / 8))).testBit (n % 8) || s.laneMoves n then s.says 6 else (s.disableLane n).says 0
  | .colophon d => if s.f (copyField d) ≠ 0 then s.says 6 else (s.copyFails d).says 0
  | .journal d =>
    if s.f (if d = 0 then CSS_JOURNAL.COPY0 else CSS_JOURNAL.COPY1) ≠ 0 then s.says 6 else (s.journalAlone d).says 0
  | _ => s.says 3)

/-! ### Requalification (R146, R563) -/

/-- A word of the repair record will read otherwise, for the next cold reset. -/
def State.mends (s : State) (w : Nat) (mask v : Word) : State := s.modSvc (fun x => { x with mend := x.mend ++ [(w, mask, v)] })

/-- A self-test passes and `act` returns the unit, or it fails; UNIT_STATE where the unit is not out of service. -/
def State.qualify (s : State) (ok pass : Bool) (act : State) : State × Option (Nat × List Byte) :=
  if !ok then s.says 6 else if !pass then s.says 7 else act.says 0

/-- The word of the repair record and the bits of it that hold the retired ways of an array. -/
def wayBits (t : Nat) (k : ArrayKind) (w : Nat) : Nat × Word :=
  match k with
  | .l3 => (0x100 + t, (1 : Word) <<< w)
  | _ => (0x20 + t, (1 : Word) <<< ((retiredField t k).lo + w))

/-- A tile is returned as its quire's spare by a mode change with SCOPE = CPU, after which the request is answered. -/
def State.qualifyTile (s : State) (p op tag t : Nat) (pass : Bool) : State × Option (Nat × List Byte) :=
  let n := t / 9
  let out := (s.f (CPU_SPARE_MAPn.FAILED n)).testBit (t % 9)
  let soon := s.hwUnderWay (fun c => match c with
    | .spareReturn u => decide (u / 9 = n)
    | _ => false)
  if !out || s.mesh.routersOut.contains t || decide (s.f (CPU_SPARE_MAPn.SPARE n) ≠ 15) || s.quireBusy n || soon then s.says 6
  else if !pass then s.says 7
  else (s.startHw (s.leaf + 1) (.spareReturn t)).owes p op tag (.spare t)

/-- REQUALIFY. `pass`: the unit's self-test passes. -/
def State.svcRequalify (s : State) (p op tag loc : Nat) (pass : Bool) : State × Option (Nat × List Byte) :=
  s.withUnit loc (fun u => match u with
  | .core t => if (s.svc.owed.get none (1 - p)).map (·.what) = some (.spare t) then s.says 4 else s.qualifyTile p op tag t pass
  | .router t =>
    let spare := CPU_SPARE_MAPn.SPARE (t / 9)
    let mask := (CPU_SPARE_MAPn.FAILED (t / 9)).put (2 ^ (t % 9)) (spare.put 15 0)
    s.qualify (s.mesh.routersOut.contains t) pass (s.mends (1 + t / 9) mask (spare.put (t % 9) 0))
  | .way t k w =>
    let b := wayBits t k w
    s.qualify ((s.f (retiredField t k)).testBit w) pass (s.mends b.1 b.2 0)
  | .slice t => s.qualify (decide (s.f (L3_SLICE_STATUSs.STATE t) = 3)) pass (s.mends (0x100 + t) 0x1FFF 0)
  | .meshLink d v lower =>
    s.qualify ((s.reg (retReg d v)).getLsbD lower) pass (s.mends (0x200 + 2 * d + if v then 1 else 0) ((1 : Word) <<< lower) 0)
  | .dieLink k => s.qualify (decide (s.f (MESH_DLINKk_STATUS.STATE k) = 2)) pass s
  | .engine k => s.qualify (decide (s.f (CE_PHYSk.STATE k) = 3)) pass (s.setF (CE_PHYSk.STATE k) 1)
  | .tu n =>
    let s1 := s.setF (TU_STATUSu.STATE n) 0
    s.qualify (decide (s.f (TU_STATUSu.STATE n) = 1)) pass (s1.setJobs s1.jobs)
  | .lane n =>
    let fld := PRT_Gj_LANES.DISABLED (n / 8)
    s.qualify ((s.f fld).testBit (n % 8)) pass (s.setF fld (setBit (s.f fld) (n % 8) false))
  | .spareLane j => s.qualify (s.on (PRT_Gj_LANES.SPARE_FAILED j)) pass (s.setF (PRT_Gj_LANES.SPARE_FAILED j) 0)
  | .colophon d => s.qualify (decide (s.f (copyField d) = 2 ∧ s.f (copyField (1 - d)) = 0)) pass (s.setF (copyField d) 1)
  | .journal d =>
    let fld (e : Nat) : Fld := if e = 0 then CSS_JOURNAL.COPY0 else CSS_JOURNAL.COPY1
    s.qualify (decide (s.f (fld d) = 2 ∧ s.f (fld (1 - d)) ≠ 1)) pass ((s.setF (fld d) 1).setF CSS_JOURNAL.REBUILD 0)
  | .serviceEngine d =>
    s.qualify (s.svc.out.contains d) pass (s.modSvc (fun v =>
      { v with out := v.out.filter (· ≠ d), keySe := if v.keySe.isNone then some d else v.keySe }))
  | _ => s.says 3)

/-! ### Loop-back tests (R562) -/

/-- The unit that is under test: of a merged port, its lead. -/
def State.testUnit (s : State) (u : SvcUnit) : SvcUnit :=
  match u with
  | .port p => .port (s.leadPort p)
  | x => x

/-- The test of a unit, if it has had one. -/
def State.testOf (s : State) (u : SvcUnit) : Option LoopTest :=
  s.svc.tests.find? (fun t => decide ((s.unitOf (t.loc.word 5)).map s.testUnit = some (s.testUnit u)))

/-- A test begins: it takes the place of an earlier one on its unit. -/
def State.beginTest (s : State) (u : SvcUnit) (t : LoopTest) : State :=
  let others := s.svc.tests.filter (fun x => decide ((s.unitOf (x.loc.word 5)).map s.testUnit ≠ some (s.testUnit u)))
  s.modSvc (fun v => { v with tests := others ++ [t] })

/-- The spare engine of I/O die d. -/
def State.spareOfDie (s : State) (d : Nat) : Option Nat :=
  (List.range 136).map (· + 136 * d) |>.find? (fun k => decide (s.f (CE_PHYSk.STATE k) = 1))

/-- Whether a change of a port into or out of a loop-back test is under way (R556). -/
def State.loopChanges (s : State) (p : Nat) : Bool :=
  s.hwUnderWay (fun c => match c with
    | .loop sets => sets.any (fun x => decide (x.1 = p))
    | _ => false)

/-- A loop-back of a port: the ports of its link change through a slot of the service engines; LINK and ECHO need a spare engine. -/
def State.loopPort (s : State) (p depth pattern : Nat) (t : LoopTest) : State × Option (Nat × List Byte) :=
  let lead := s.leadPort p
  let mode := s.f (PRT_Pp_CFG.MODE lead)
  let spare := if 3 ≤ depth then s.spareOfDie (p / 64) else none
  if 4 < depth ∨ 2 < pattern then s.says 3
  else if mode = 2 ∨ mode = 3 ∨ (3 ≤ depth ∧ spare.isNone = true) ∨ s.loopChanges lead = true then s.says 6
  else
    let ms := s.portMembers lead
    let saved := ms.map (fun m => (m, s.reg (PRT_Pp_CFG m), (s.port m).depth))
    let sets := ms.map (fun m => (m, (PRT_Pp_CFG.MODE m).put 4 (s.reg (PRT_Pp_CFG m)), depth))
    let s1 := ms.foldl (fun a m => a.setF (PRT_Pp_LOOP.PATTERN m) pattern) s
    let s2 := match spare with
      | some k => s1.setF (CE_PHYSk.STATE k) 2
      | none => s1
    (((s2.wakeLanes ms).beginTest (.port p) { t with spare := spare, saved := saved, pattern := s.f (PRT_Pp_LOOP.PATTERN lead) }).startHw (s.leaf + 1)
      (.loop sets)).says 0

/-- LOOPBACK. -/
def State.svcLoopback (s : State) (loc arg : Nat) : State × Option (Nat × List Byte) :=
  s.withUnit loc (fun u =>
    let depth := arg % 8
    let n := max 1 (arg / 2 ^ 16 % 2 ^ 16)
    let t : LoopTest := { loc := ((locFields loc).map (·.1)).getD {}, depth := depth, until_ := s.leaf + n * 2 ^ 20 }
    if (s.testOf u).any (fun x => decide (x.state = 0)) then s.says 4
    else
      match u with
      | .port p => s.loopPort p depth (arg / 16 % 4) t
      | .channel k =>
        let st := s.chState k
        if 2 < depth then s.says 3
        else if depth < 2 ∧ (st = 5 ∨ st = 1 ∨ st = 8 ∨ st = 0) ∨ depth = 2 ∧ (st = 1 ∨ st = 8) ∧ s.f (MC_CHk_STATUS.DIMMS k) ≠ 0 then
          (s.beginTest u t).says 0
        else s.says 6
      | .router _ => if depth ≠ 0 then s.says 3 else (s.beginTest u t).says 0
      | .time =>
        if depth ≠ 0 then s.says 3
        else if (List.range 8).any (fun m => decide (s.f (BL_PEERm.STATE m) = 1)) then s.says 6
        else
          let s1 := s.beginTest u { t with src := s.f TB_CTL.SRC }
          (s1.actTbCtl (TB_CTL.SRC.put 3 (s1.reg TB_CTL))).says 0
      | _ => s.says 3)

/-- The configuration before a test is restored. -/
def State.restoreTest (s : State) (t : LoopTest) : State :=
  let s1 := match t.spare with
    | some k => if s.f (CE_PHYSk.STATE k) = 2 then s.setF (CE_PHYSk.STATE k) 1 else s
    | none => s
  let s2 := t.saved.foldl (fun a x => a.setF (PRT_Pp_LOOP.PATTERN x.1) t.pattern) s1
  let s3 := if t.saved.isEmpty then s2 else s2.startHw (s2.leaf + 1) (.loop t.saved)
  if s.unitOf (t.loc.word 5) = some .time then s3.actTbCtl (TB_CTL.SRC.put t.src (s3.reg TB_CTL)) else s3

/-- The duration of a test on unit `loc` ends: `errors` of `checked` bits or frames. -/
def State.loopEnds (s : State) (loc errors checked : Nat) : State :=
  match (s.unitOf loc).bind s.testOf with
  | none => s
  | some t =>
    if t.state ≠ 0 then s
    else
      let s0 := s.untilLeaf t.until_
      let s1 := t.saved.foldl (fun a x => if s0.leadPort x.1 = x.1 then a.addF (PRT_Pp_LOOP.ERRS x.1) errors else a) s0
      (s1.modSvc (fun v => { v with tests := v.tests.map (fun x =>
        if x = t then { t with state := if errors = 0 then 1 else 2, errors := errors, checked := checked } else x) })).restoreTest t

/-- LOOP_RESULT: STATE 0 RUNNING, 1 PASS or 2 FAIL, errors, and bits or frames checked. -/
def State.loopResult (s : State) (loc : Nat) : State × Option (Nat × List Byte) :=
  s.withUnit loc (fun u =>
    match s.testOf u with
    | none => s.says 6
    | some t => (s, some (0, leBytes 1 t.state ++ leBytes 8 t.errors ++ leBytes 8 t.checked)))

/-- MARGIN: `resp` is what the margining of a lane of a PCI Express link in L0 answers. -/
def State.svcMargin (s : State) (loc : Nat) (resp : List Byte) : State × Option (Nat × List Byte) :=
  s.withUnit loc (fun u => match u with
  | .lane n => if s.trains (s.leadPort (n / 2)) && decide (s.portState (s.leadPort (n / 2)) = 4) then (s, some (0, resp)) else s.says 6
  | _ => s.says 3)

/-! ### Debug unlock (R560) -/

/-- DEBUG_CHALLENGE. -/
def State.challenge (s : State) : State × Option (Nat × List Byte) :=
  let (l, s1) := s.drawBytes 4
  (s1.modSvc (fun v => { v with nonce := some (BitVec.ofNat 256 (leNat l)) }), some (0, l))

/-- The key-service blobs of the sealed area, which follow the code and the template, are erased in both copies. -/
def State.eraseBlobs (s : State) : State :=
  let from_ := 0x1000 + s.codeLen + s.tmplLen
  let erase (e : Nat × Word) : Nat × Word :=
    let w := e.1 % 2 ^ 20
    let o := 8 * (w - 0x60000)
    if w < 0x60000 ∨ 0x80000 ≤ w ∨ o + 8 ≤ from_ then e
    else (e.1, if from_ ≤ o then 0 else e.2 &&& BitVec.ofNat 64 (2 ^ (8 * (from_ - o)) - 1))
  s.modCol (fun c => { c with mram := (c.mram.map erase).filter (fun e => decide (e.2 ≠ 0)) })

/-- DEBUG_UNLOCK. `valid`: the signature over the serial and the nonce verifies against the unlock key. -/
def State.unlock (s : State) (p op tag : Nat) (valid : Bool) : State × Option (Nat × List Byte) :=
  if s.svc.nonce.isNone then s.says 7
  else if !valid then (s.modSvc (fun v => { v with nonce := none })).says 7
  else
    let s1 := { s.eraseBlobs with keys := [] }
    let s2 := s1.modCol (fun c => { c with work := c.work.modify 0 2 (fun w => w &&& ~~~2) })
    if s2.on COL_STATUS.STORE then s2.owes p op tag .unlockWaits
    else (s2.beginStore true).owes p op tag .unlockStore

/-! ### The commands -/

/-- BOOT_STATUS. -/
def execBootStatus (p tag : Nat) (s : State) : Host.Outcome State Fault Refusal :=
  .next (s.onKeep (s.drufy p 0x02 tag 1 (fun a => (a, some (0, leBytes 2 a.boot)))))

/-- SYS_READ. -/
def execSysRead (p tag addr size : Nat) (s : State) : Host.Outcome State Fault Refusal :=
  .next (s.onKeep (s.drufy p 0x03 tag 5 (fun a => a.svcRead p addr size)))

/-- SYS_WRITE. -/
def execSysWrite (p tag addr size : Nat) (v : Word) (fits : Bool) (s : State) : Host.Outcome State Fault Refusal :=
  .next (s.onKeep (s.drufy p 0x04 tag 5 (fun a => a.svcWrite p addr size v fits)))

/-- LOG_READ. -/
def execLogRead (p tag n : Nat) (s : State) : Host.Outcome State Fault Refusal :=
  .next (s.onKeep (s.drufy p 0x05 tag 3 (fun a => a.logRead n)))

/-- JOURNAL_READ. -/
def execJournalRead (p tag n : Nat) (s : State) : Host.Outcome State Fault Refusal :=
  .next (s.onKeep (s.drufy p 0x06 tag 10 (fun a => a.journalRead n)))

/-- DMI. -/
def execDmi (p tag addr : Nat) (data : Option Nat) (s : State) : Host.Outcome State Fault Refusal :=
  .next (s.onKeep (s.drufy p 0x07 tag 5 (fun a => a.dmi addr data)))

/-- RESET_COLD. -/
def execResetCold (p tag : Nat) (s : State) : Host.Outcome State Fault Refusal :=
  .next (s.onKeep (s.drufy p 0x10 tag 1 (fun a => a.resetLater true)))

/-- RESET_WARM. -/
def execResetWarm (p tag : Nat) (s : State) : Host.Outcome State Fault Refusal :=
  .next (s.onKeep (s.drufy p 0x11 tag 1 (fun a => a.resetLater false)))

/-- MOVE. -/
def execMoveCore (p tag c : Nat) (s : State) : Host.Outcome State Fault Refusal :=
  .next (s.onKeep (s.drufy p 0x20 tag 13 (fun a => a.svcMove c)))

/-- RETIRE. -/
def execRetire (p tag loc : Nat) (s : State) : Host.Outcome State Fault Refusal :=
  .next (s.onKeep (s.drufy p 0x21 tag 13 (fun a => a.svcRetire loc)))

/-- REQUALIFY. -/
def execRequalify (p tag loc : Nat) (pass : Bool) (s : State) : Host.Outcome State Fault Refusal :=
  .next (s.onKeep (s.drufy p 0x22 tag 5 (fun a => a.svcRequalify p 0x22 tag loc pass)))

/-- LOOPBACK. -/
def execLoopback (p tag loc arg : Nat) (s : State) : Host.Outcome State Fault Refusal :=
  .next (s.onKeep (s.drufy p 0x30 tag 5 (fun a => a.svcLoopback loc arg)))

/-- LOOPBACK_END. -/
def execLoopbackEnd (loc errors checked : Nat) (s : State) : Host.Outcome State Fault Refusal :=
  .next (s.onKeep (s.loopEnds loc errors checked))

/-- LOOP_RESULT. -/
def execLoopResult (p tag loc : Nat) (s : State) : Host.Outcome State Fault Refusal :=
  .next (s.onKeep (s.drufy p 0x31 tag 5 (fun a => a.loopResult loc)))

/-- MARGIN. -/
def execMargin (p tag loc : Nat) (resp : List Byte) (s : State) : Host.Outcome State Fault Refusal :=
  .next (s.onKeep (s.drufy p 0x32 tag 10 (fun a => a.svcMargin loc resp)))

/-- DEBUG_CHALLENGE. -/
def execDebugChallenge (p tag : Nat) (s : State) : Host.Outcome State Fault Refusal :=
  .next (s.onKeep (s.drufy p 0x40 tag 1 (fun a => a.challenge)))

/-- DEBUG_UNLOCK. -/
def execDebugUnlock (p tag : Nat) (valid : Bool) (s : State) : Host.Outcome State Fault Refusal :=
  .next (s.onKeep (s.drufy p 0x41 tag 3 (fun a => a.unlock p 0x41 tag valid)))

end Sys2Proof.Machine
end

