-- ==== Sys2Proof/Machine/Edges.lean ====
section
/-! DEFINITION. What happens at leaf and gathering edges whatever is commanded: the counts of one gathering (R134, R135, R139, R164, R181, R203)
and the engines' tick (R383). -/

namespace Sys2Proof.Machine

open Sys2Proof

/-- Cores begin a gathering: WARN shows the one that ends and the one before it (R134, R135). -/
def State.coreEdge (s : State) (c : Nat) : State :=
  ((s.setF (CPU_CORE_STATUSc.FAILS c) 0).setB (CPU_CORE_STATUSc.WARN c) (s.core c).warned).modCore c (fun x =>
    { x with good := 0, warned := false, hardOnce := [] })

/-- The error counts of an array's ways begin at zero. -/
def WayState.edge (w : WayState) : WayState := { w with corrected := [], once := [] }

/-- The edge that begins gathering `g`. -/
def State.gatheringEdge (s : State) (g : Nat) : State :=
  let s1 := (List.range 192).foldl State.coreEdge (s.untilLeaf (g * 1024))
  let s2 := (List.range 216).foldl (fun a t => if (a.tile t).ways = {} then a else a.modTile t (fun x => { x with ways := x.ways.edge })) s1
  let s3 := (List.range 216).foldl (fun a n =>
    if (a.slice n).ways = {} ∧ (a.slice n).evicts = 0 then a
    else a.modSlice n (fun x => { x with ways := x.ways.edge, evicts := 0 })) s2
  s3.modMesh (fun m => { m with errors := [] })

/-- The edge of leaf `n`: event line 7 of a running engine whose TICK divides it (R383). -/
def State.tick (s : State) (l n : Nat) : State :=
  let s1 := s.untilLeaf n
  let k := (s.engine l).tick
  if k ≠ 0 ∧ n % k = 0 ∧ n = s1.leaf then s1.raiseLine l 7 else s1

/-- What passes while no command waits: one unit of the time count, 1/256 µs, wherever VKEEP stands (R13, R40, log entry 2); where
the rails are up, the mesh runs on by a cycle (R197, log entry 59), and the data movers act on what their
writes have been answered (R192) and write the data that they keep (R328), and packets that waited for a link are sent (R438). -/
def State.idle (s : State) : State :=
  let s1 := s.setCount (s.count + 1)
  s.onKeep (s1.running s1.meshCycle.goOn.retryWaiting)

/-- GATHERING_EDGE. -/
def execGatheringEdge (g : Nat) (s : State) : Host.Outcome State Fault Refusal := .next (s.running (s.gatheringEdge g))

/-- TICK. -/
def execTick (l n : Nat) (s : State) : Host.Outcome State Fault Refusal := .next (s.running (s.tick l n))

end Sys2Proof.Machine
end

