-- ==== Sys2Proof/Machine/EngineRows.lean ====
section
/-! DEFINITION. The commands of the channel engines: one for each kind of instruction that issues, and the events about them (chapters
Channel Engine Instruction Set and Channel Engine Units). -/

namespace Sys2Proof.Machine

open Sys2Proof

/-- SOCKET_MOVE: a move to a register or operand socket, or past the end of the program. -/
def execSocketMove (l : Nat) (s : State) : Host.Outcome State Fault Refusal := .next (s.running (s.issueIf l .plain []))

/-- ALU_TRIGGER. -/
def execAluTrigger (l : Nat) (s : State) : Host.Outcome State Fault Refusal := .next (s.running (s.issueIf l .alu []))

/-- MUL_TRIGGER. -/
def execMulTrigger (l : Nat) (s : State) : Host.Outcome State Fault Refusal := .next (s.running (s.issueIf l .mul []))

/-- DIV_TRIGGER. -/
def execDivTrigger (l : Nat) (s : State) : Host.Outcome State Fault Refusal := .next (s.running (s.issueIf l .div []))

/-- COMPARE_TRIGGER. -/
def execCompareTrigger (l : Nat) (s : State) : Host.Outcome State Fault Refusal := .next (s.running (s.issueIf l .compare []))

/-- GUARDS_WRITE. -/
def execGuardsWrite (l : Nat) (s : State) : Host.Outcome State Fault Refusal := .next (s.running (s.issueIf l .guards []))

/-- LIH. -/
def execLih (l : Nat) (s : State) : Host.Outcome State Fault Refusal := .next (s.running (s.issueIf l .lih []))

/-- LIL. -/
def execLil (l : Nat) (s : State) : Host.Outcome State Fault Refusal := .next (s.running (s.issueIf l .lil []))

/-- JMP. -/
def execJmp (l : Nat) (s : State) : Host.Outcome State Fault Refusal := .next (s.running (s.issueIf l .jmp []))

/-- JREL. -/
def execJrel (l : Nat) (s : State) : Host.Outcome State Fault Refusal := .next (s.running (s.issueIf l .jrel []))

/-- CALL. -/
def execCall (l : Nat) (s : State) : Host.Outcome State Fault Refusal := .next (s.running (s.issueIf l .call []))

/-- CALLR. -/
def execCallr (l : Nat) (s : State) : Host.Outcome State Fault Refusal := .next (s.running (s.issueIf l .callr []))

/-- EV_WAIT. -/
def execEvWait (l : Nat) (s : State) : Host.Outcome State Fault Refusal := .next (s.running (s.issueIf l .wait []))

/-- EV_RET. -/
def execEvRet (l : Nat) (s : State) : Host.Outcome State Fault Refusal := .next (s.running (s.issueIf l .ret []))

/-- HALT. -/
def execHaltEngine (l : Nat) (s : State) : Host.Outcome State Fault Refusal := .next (s.running (s.issueIf l .halt []))

/-- DS_LOAD. -/
def execDsLoad (l : Nat) (s : State) : Host.Outcome State Fault Refusal := .next (s.running (s.issueIf l .load []))

/-- DS_STORE. -/
def execDsStore (l : Nat) (s : State) : Host.Outcome State Fault Refusal := .next (s.running (s.issueIf l .store []))

/-- LDW_INC. -/
def execLdwInc (l : Nat) (s : State) : Host.Outcome State Fault Refusal := .next (s.running (s.issueIf l .ldwInc []))

/-- STW_INC. -/
def execStwInc (l : Nat) (s : State) : Host.Outcome State Fault Refusal := .next (s.running (s.issueIf l .stwInc []))

/-- IS_RD. -/
def execIsRd (l : Nat) (s : State) : Host.Outcome State Fault Refusal := .next (s.running (s.issueIf l .isRd []))

/-- IO_WR. -/
def execIoWr (l : Nat) (s : State) : Host.Outcome State Fault Refusal := .next (s.running (s.issueIf l .ioWr []))

/-- IO_WCTL. -/
def execIoWctl (l : Nat) (s : State) : Host.Outcome State Fault Refusal := .next (s.running (s.issueIf l .ioWctl []))

/-- DM_GO. -/
def execDmGo (l : Nat) (s : State) : Host.Outcome State Fault Refusal := .next (s.running (s.issueIf l .dmGo []))

/-- RD_FETCH. -/
def execRdFetch (l : Nat) (s : State) : Host.Outcome State Fault Refusal := .next (s.running (s.issueIf l .rdFetch []))

/-- RD_JNL. -/
def execRdJnl (l : Nat) (s : State) : Host.Outcome State Fault Refusal := .next (s.running (s.issueIf l .rdJnl []))

/-- RD_DONE. -/
def execRdDone (l : Nat) (s : State) : Host.Outcome State Fault Refusal := .next (s.running (s.issueIf l .rdDone []))

/-- TU_GO. -/
def execTuGo (l : Nat) (s : State) : Host.Outcome State Fault Refusal := .next (s.running (s.issueIf l .tuGo []))

/-- EXT_POST. -/
def execExtPost (l : Nat) (s : State) : Host.Outcome State Fault Refusal := .next (s.running (s.issueIf l .extPost []))

/-- EXT_RD. -/
def execExtRd (l : Nat) (s : State) : Host.Outcome State Fault Refusal := .next (s.running (s.issueIf l .extRd []))

/-- POP. -/
def execPopQueue (l : Nat) (s : State) : Host.Outcome State Fault Refusal := .next (s.running (s.issueIf l .pop []))

/-- RX_SEL. -/
def execRxSel (l : Nat) (s : State) : Host.Outcome State Fault Refusal := .next (s.running (s.issueIf l .rxSel []))

/-- RX_BASE. -/
def execRxBase (l : Nat) (s : State) : Host.Outcome State Fault Refusal := .next (s.running (s.issueIf l .rxBase []))

/-- RX_POP. -/
def execRxPop (l : Nat) (s : State) : Host.Outcome State Fault Refusal := .next (s.running (s.issueIf l .rxPop []))

/-- IO_RD: the read is performed at its trigger (log entry 8). -/
def execIoRd (l : Nat) (far : FarData) (s : State) : Host.Outcome State Fault Refusal :=
  .next (s.reading (s.issueIf l .ioRd far))

/-- RD_TAKE: the next instruction takes the decision, or the standard channel program does. -/
def execRdTake (l : Nat) (s : State) : Host.Outcome State Fault Refusal :=
  .next (s.running (if (s.engine l).imem.isEmpty then s.standardTake l else s.issueIf l .rdTake []))

/-- DIVIDE_END. -/
def execDivideEnd (l : Nat) (s : State) : Host.Outcome State Fault Refusal :=
  .next (s.running (s.divideEnd l))

/-- IO_RD_END. -/
def execIoRdEnd (l n : Nat) (s : State) : Host.Outcome State Fault Refusal :=
  .next (s.running (s.ioReadEnd l n))

/-- IO_WRITE_ERROR: an answer from outside the module, status `st` of R356, to a posted write at I/O address `a`. -/
def execIoWriteError (l a st : Nat) (s : State) : Host.Outcome State Fault Refusal :=
  .next (s.running (if 0x80000000 ≤ a then s.captureError l a st else s))

/-- DM_GO_END. -/
def execDmGoEnd (l n st reached : Nat) (far : FarData) (s : State) : Host.Outcome State Fault Refusal :=
  .next (s.reading (s.endMove l n st reached far))

/-- RD_FETCH_END. -/
def execRdFetchEnd (l n q : Nat) (far : FarData) (s : State) : Host.Outcome State Fault Refusal :=
  .next (s.reading (s.fetchEnd l n q far))

/-- RD_JNL_END. -/
def execRdJnlEnd (l n : Nat) (s : State) : Host.Outcome State Fault Refusal :=
  .next (s.running (s.journalEnd l n))

/-- RD_DONE_END: the record of entry `n` is acknowledged; completions of engine `l` that this ends set their guards. -/
def execRdDoneEnd (n l : Nat) (s : State) : Host.Outcome State Fault Refusal :=
  .next (s.running ((s.ackRecord n).endCompletes l))

/-- EXT_RD_END. -/
def execExtRdEnd (l n st : Nat) (data : BitVec 32) (s : State) : Host.Outcome State Fault Refusal :=
  .next (s.running (s.extReadEnd l n st data))

/-- EVENT_ENTRY. -/
def execEventEntry (l t : Nat) (s : State) : Host.Outcome State Fault Refusal :=
  .next (s.running (s.eventEntry l t))

/-- ENGINE_MEMORY_WRITE, at an offset of block CE. -/
def execEngineMemoryWrite (who : Requester) (off size : Nat) (v : Word) (s : State) : Host.Outcome State Fault Refusal :=
  .next (s.running (s.engineMemoryWrite who off size v))

/-- RUN_HALT: CE_CTLl written with RUN = 0, its other fields as they stand. -/
def execRunHalt (who : Requester) (l : Nat) (s : State) : Host.Outcome State Fault Refusal :=
  .next (s.running (s.written who 8 (CE_CTLl l) ((CE_CTLl.RUN l).put 0 (s.reg (CE_CTLl l))) (fun a => a.actEngineCtl l ((CE_CTLl.RUN l).put 0 (s.reg (CE_CTLl l))))))

/-- HALTED. -/
def execHalted (l : Nat) (s : State) : Host.Outcome State Fault Refusal :=
  .next (s.running (s.haltedNow l))

/-- RUN_START: CE_CTLl written with RUN = 1, its other fields as they stand. -/
def execRunStart (who : Requester) (l : Nat) (s : State) : Host.Outcome State Fault Refusal :=
  .next (s.running (s.written who 8 (CE_CTLl l) ((CE_CTLl.RUN l).put 1 (s.reg (CE_CTLl l))) (fun a => a.actEngineCtl l ((CE_CTLl.RUN l).put 1 (s.reg (CE_CTLl l))))))

/-- HALT_HUNG. -/
def execHaltHung (l : Nat) (s : State) : Host.Outcome State Fault Refusal :=
  .next (s.running (s.haltHung l))

/-- WATCHDOG. -/
def execWatchdog (l : Nat) (s : State) : Host.Outcome State Fault Refusal :=
  .next (s.running (s.watchdog l))

/-- ENGINE_HARDWARE_FAULT. -/
def execEngineHardwareFault (k cause : Nat) (s : State) : Host.Outcome State Fault Refusal :=
  .next (s.running (s.hardwareFault k cause))

/-- SELF_TEST_END. -/
def execSelfTestEnd (k : Nat) (pass : Bool) (s : State) : Host.Outcome State Fault Refusal :=
  .next (s.running (s.selfTestEnd k pass))

end Sys2Proof.Machine
end

