-- ==== Sys2Proof/Machine/Wires.lean ====
section
/-! DEFINITION. The wires of the service ports (R552 to R557): the I3C target and the JTAG test access port, and the frames that they bring. -/

namespace Sys2Proof.Machine

open Sys2Proof

/-! ### Frames (R555 to R558) -/

/-- The fields of a request frame. -/
structure RequestFrame where
  op      : Nat
  tag     : Nat
  arg     : Nat
  payload : List Byte
deriving DecidableEq, Repr

/-- A little-endian field of a frame. -/
def field (l : List Byte) (o n : Nat) : Nat := leNat ((l.drop o).take n)

/-- The request that a frame carries; none for BAD_FRAME: a bad CRC, LEN above 1,024, or a frame shorter than LEN states (R555, R557). -/
def readFrame (l : List Byte) : Option RequestFrame :=
  let n := field l 2 2
  if l.length < 12 + n ∨ 1024 < n ∨ field l (8 + n) 4 ≠ (crc32c (l.take (8 + n))).toNat then none
  else some { op := field l 0 1, tag := field l 1 1, arg := field l 4 4, payload := (l.drop 8).take n }

/-- A request acts as its row does (R558, R559); a payload that is not of its command's length is BAD_ARG. -/
def State.actOnFrame (s : State) (p : Nat) (f : RequestFrame) (found : WireFound) : State :=
  let loc := field f.payload 0 8
  let want (n : Nat) (act : State → State × Option (Nat × List Byte)) (a : State) : State × Option (Nat × List Byte) :=
    if f.payload.length = n then act a else a.says 3
  let run (step n : Nat) (act : State → State × Option (Nat × List Byte)) : State := s.drufy p f.op f.tag step (want n act)
  match f.op with
  | 0x01 => run 1 0 (fun a => a.svcInfo p)
  | 0x02 => run 1 0 (fun a => (a, some (0, leBytes 2 a.boot)))
  | 0x03 => run 5 9 (fun a => a.svcRead p (loc % 2 ^ 52) (field f.payload 8 1))
  | 0x04 =>
    let size := field f.payload 8 1
    run 5 (9 + size) (fun a => a.svcWrite p (loc % 2 ^ 52) size (BitVec.ofNat 64 (field f.payload 9 size)) found.fits)
  | 0x05 => run 3 0 (fun a => a.logRead f.arg)
  | 0x06 => run 10 0 (fun a => a.journalRead f.arg)
  | 0x07 =>
    let write := f.arg.testBit 8
    run 5 (if write then 4 else 0) (fun a => a.dmi (f.arg % 128) (if write then some (field f.payload 0 4) else none))
  | 0x10 => run 1 0 (fun a => a.resetLater true)
  | 0x11 => run 1 0 (fun a => a.resetLater false)
  | 0x20 => run 13 0 (fun a => if f.arg < 192 then a.svcMove f.arg else a.says 3)
  | 0x21 => run 13 8 (fun a => a.svcRetire loc)
  | 0x22 => run 5 8 (fun a => a.svcRequalify p f.op f.tag loc found.pass)
  | 0x30 => run 5 8 (fun a => a.svcLoopback loc f.arg)
  | 0x31 => run 5 8 (fun a => a.loopResult loc)
  | 0x32 => s.drufy p f.op f.tag 10 (fun a => if 8 ≤ f.payload.length then a.svcMargin loc found.margin else a.says 3)
  | 0x40 => run 1 0 (fun a => a.challenge)
  | 0x41 => run 3 96 (fun a => a.unlock p f.op f.tag found.valid)
  | _ => s.drufy p f.op f.tag 0 (fun a => a.says 2)

/-- A frame arrives at service port p. -/
def State.frameArrives (s : State) (p : Nat) (l : List Byte) (found : WireFound) : State :=
  match s.portSe p, readFrame l with
  | none, _ => s
  | some _, none => s.answer p (field l 0 1 % 128) (field l 1 1) 1 []
  | some _, some f => s.actOnFrame p f found

/-! ### The I3C target (R553) -/

/-- What the wires of service port p hold. -/
def State.wires (s : State) (p : Nat) : Wires := s.svc.wires.get {} p

/-- The address that the target answers: its dynamic address once it has one, and the static one before. -/
def Wires.address (w : Wires) : Nat := w.dynamic.getD 0x4C

/-- A private read: a response that is ready is read, and anything else is NACK. -/
def State.i3cRead (s : State) (p addr : Nat) : State :=
  let w := s.wires p
  if addr ≠ w.address then s
  else if w.response.isEmpty ∨ (s.portSe p).isNone = true then s.record (.i3c p none)
  else (s.modWires p (fun x => { x with response := [] })).record (.i3c p (some w.response))

/-! ### The test access port (R554) -/

/-- The bytes of a frame of which `l` are the first, once its LEN is known: a frame with LEN above 1,024 is not waited for. -/
def wireFrame (l : List Byte) : Nat := if 1024 < field l 2 2 then 4 else 12 + field l 2 2

/-- A word is shifted into DRUFY: it lengthens the frame that it is of, and a frame that is whole arrives. Where no frame has begun, a zero word
begins none: a host that only reads shifts such words in (DESIGN CHOICE, log entry 64). -/
def State.drufyWord (s : State) (p word : Nat) (found : WireFound) : State :=
  let l := (s.wires p).shifted
  if l.isEmpty ∧ word = 0 then s
  else
    let l1 := l ++ leBytes 4 word
    if wireFrame l1 ≤ l1.length then (s.modWires p (fun w => { w with shifted := [] })).frameArrives p (l1.take (wireFrame l1)) found
    else s.modWires p (fun w => { w with shifted := l1 })

/-- `n` bits are shifted through a register of `len` bits that captured `cap`: what comes out. -/
def shiftOut (cap len n bits : Nat) : Nat := (cap % 2 ^ len + bits * 2 ^ len) % 2 ^ n

/-- A scan of the data register that the instruction selects. What the boundary register captures of the lands is open; EXTEST drives them with
what is shifted in. -/
def State.scanDr (s : State) (p n bits : Nat) (found : WireFound) : State :=
  let w := s.wires p
  match w.ir with
  | 0x01 => s.record (.jtag p n (shiftOut 0x29624987 32 n bits))
  | 0x02 | 0x03 =>
    let (v, s1) := s.draw
    (s1.modWires p (fun x => { x with lands := bits })).record (.jtag p n (v.toNat % 2 ^ n))
  | 0x20 =>
    let out := leNat (w.response.take 4)
    ((s.modWires p (fun x => { x with response := x.response.drop 4 })).record (.jtag p n (shiftOut out 32 n bits))).drufyWord p
      (bits % 2 ^ 32) found
  | _ => s.record (.jtag p n (shiftOut 0 1 n bits))

/-- What passes on the wires of port p. -/
def State.portOp (s : State) (p : Nat) : PortOp → State
  | .assign addr => s.modWires p (fun w => { w with dynamic := some addr })
  | .write addr frame found => if addr = (s.wires p).address then s.frameArrives p frame found else s
  | .read addr => s.i3cRead p addr
  | .tapReset => s.modWires p (fun w => { w with ir := 1 })
  | .scanIr code => s.modWires p (fun w => { w with ir := code % 256 })
  | .scanDr n bits found => s.scanDr p n bits found

/-- INFO, after what passed on the port's wires before it. -/
def execInfo (p tag : Nat) (wire : List PortOp) (s : State) : Host.Outcome State Fault Refusal :=
  .next (s.onKeep ((wire.foldl (fun a o => a.portOp p o) s).drufy p 0x01 tag 1 (fun a => a.svcInfo p)))

end Sys2Proof.Machine
end

