-- ==== Sys2Proof/Machine/Dispatch.lean ====
section
/-! DEFINITION. The dispatch: one arm for each constructor of Instr, each a direct call of the command's meaning. -/

namespace Sys2Proof.Machine

open Sys2Proof

def exec (i : Instr) (s : State) : Host.Outcome State Fault Refusal :=
  match i with
  | .etodMessage bytes => Sys2Proof.Machine.execEtodMessage bytes s
  | .etodGapTimeout => Sys2Proof.Machine.execEtodGapTimeout s
  | .emarkEdge t distA distB steadyA steadyB => Sys2Proof.Machine.execEmarkEdge t distA distB steadyA steadyB s
  | .pendingMessageExpiry => Sys2Proof.Machine.execPendingMessageExpiry s
  | .emarkMissCheck second => Sys2Proof.Machine.execEmarkMissCheck second s
  | .inputQualified b leaves ppb => Sys2Proof.Machine.execInputQualified b leaves ppb s
  | .inputLost l => Sys2Proof.Machine.execInputLost l s
  | .holdLimit t => Sys2Proof.Machine.execHoldLimit t s
  | .slewComplete => Sys2Proof.Machine.execSlewComplete s
  | .acquisitionTimeout => Sys2Proof.Machine.execAcquisitionTimeout s
  | .substituteEntry who v => Sys2Proof.Machine.execSubstituteEntry who v s
  | .substituteExit who v => Sys2Proof.Machine.execSubstituteExit who v s
  | .acceptStep who v => Sys2Proof.Machine.execAcceptStep who v s
  | .replicaCheck g dies => Sys2Proof.Machine.execReplicaCheck g dies s
  | .arm who n v => Sys2Proof.Machine.execArm who n v s
  | .abort who n v => Sys2Proof.Machine.execAbort who n v s
  | .participantReady n loc => Sys2Proof.Machine.execParticipantReady n loc s
  | .cutoff n => Sys2Proof.Machine.execCutoff n s
  | .target n => Sys2Proof.Machine.execTarget n s
  | .hardwareChange => Sys2Proof.Machine.execHardwareChange s
  | .agwWait h raw => Sys2Proof.Machine.execAgwWait h raw s
  | .agwWaitr h raw => Sys2Proof.Machine.execAgwWaitr h raw s
  | .agwWaitEnd h reach => Sys2Proof.Machine.execAgwWaitEnd h reach s
  | .agsSb h raw => Sys2Proof.Machine.execAgsSb h raw s
  | .agsScrub h raw => Sys2Proof.Machine.execAgsScrub h raw s
  | .ageCall h raw wrong => Sys2Proof.Machine.execAgeCall h raw wrong s
  | .ageRet h raw wrong => Sys2Proof.Machine.execAgeRet h raw wrong s
  | .illegalInstruction h raw wrong => Sys2Proof.Machine.execIllegalInstruction h raw wrong s
  | .loadStore h raw drain fits wrong => Sys2Proof.Machine.execLoadStore h raw drain fits wrong s
  | .lr h raw wrong => Sys2Proof.Machine.execLr h raw wrong s
  | .sc h raw wrong => Sys2Proof.Machine.execSc h raw wrong s
  | .lrHoldEnd h => Sys2Proof.Machine.execLrHoldEnd h s
  | .floatingPointInstruction h raw wrong => Sys2Proof.Machine.execFloatingPointInstruction h raw wrong s
  | .agfteWrite h raw wrong => Sys2Proof.Machine.execAgfteWrite h raw wrong s
  | .mhpmeventWrite h raw wrong => Sys2Proof.Machine.execMhpmeventWrite h raw wrong s
  | .pauseHint h raw => Sys2Proof.Machine.execPauseHint h raw s
  | .prefetch h raw => Sys2Proof.Machine.execPrefetch h raw s
  | .fence h raw => Sys2Proof.Machine.execFence h raw s
  | .fenceI h raw => Sys2Proof.Machine.execFenceI h raw s
  | .cboZero h raw wrong => Sys2Proof.Machine.execCboZero h raw wrong s
  | .cboClean h raw wrong => Sys2Proof.Machine.execCboClean h raw wrong s
  | .cboFlush h raw wrong => Sys2Proof.Machine.execCboFlush h raw wrong s
  | .cboInval h raw wrong => Sys2Proof.Machine.execCboInval h raw wrong s
  | .wfi h raw wrong => Sys2Proof.Machine.execWfi h raw wrong s
  | .interrupt h => Sys2Proof.Machine.execInterrupt h s
  | .msi h file id => Sys2Proof.Machine.execMsi h file id s
  | .detection c d unit array cell => Sys2Proof.Machine.execDetection c d unit array cell s
  | .retrySuccess c => Sys2Proof.Machine.execRetrySuccess c s
  | .keepScrub c k => Sys2Proof.Machine.execKeepScrub c k s
  | .hang h => Sys2Proof.Machine.execHang h s
  | .clockFailure c => Sys2Proof.Machine.execClockFailure c s
  | .powerFailure c l => Sys2Proof.Machine.execPowerFailure c l s
  | .performRetiredStores c bad => Sys2Proof.Machine.execPerformRetiredStores c bad s
  | .cpuSpareCmdGo who v => Sys2Proof.Machine.execCpuSpareCmdGo who v s
  | .arrayError t dir k set w e => Sys2Proof.Machine.execArrayError t dir k set w e s
  | .wayWalkEnd t k => Sys2Proof.Machine.execWayWalkEnd t k s
  | .l3SliceCmdGo who v => Sys2Proof.Machine.execL3SliceCmdGo who v s
  | .handoffEnd n => Sys2Proof.Machine.execHandoffEnd n s
  | .rds m t line world resolved noL3 err => Sys2Proof.Machine.execRds m t line world resolved noL3 err s
  | .rdown m t line world noL3 err => Sys2Proof.Machine.execRdown m t line world noL3 err s
  | .upg m t line world => Sys2Proof.Machine.execUpg m t line world s
  | .zero m t line world => Sys2Proof.Machine.execZero m t line world s
  | .rdcur m die line err => Sys2Proof.Machine.execRdcur m die line err s
  | .wrfull m die line d psn => Sys2Proof.Machine.execWrfull m die line d psn s
  | .wrpart m die line d mask psn err => Sys2Proof.Machine.execWrpart m die line d mask psn err s
  | .wb m t line d psn keeps world => Sys2Proof.Machine.execWb m t line d psn keeps world s
  | .evn m t line => Sys2Proof.Machine.execEvn m t line s
  | .cmoClean m t line world => Sys2Proof.Machine.execCmoClean m t line world s
  | .cmoFlush m t line world => Sys2Proof.Machine.execCmoFlush m t line world s
  | .cmoInvalidate m t line world => Sys2Proof.Machine.execCmoInvalidate m t line world s
  | .ioRead src addr size world e far => Sys2Proof.Machine.execIoRead src addr size world e far s
  | .ioWrite src addr size v world e fits => Sys2Proof.Machine.execIoWrite src addr size v world e fits s
  | .snpshr t line rm ru => Sys2Proof.Machine.execSnpshr t line rm ru s
  | .snpinv t line req => Sys2Proof.Machine.execSnpinv t line req s
  | .snpkill t line other => Sys2Proof.Machine.execSnpkill t line other s
  | .snpdrop t line other => Sys2Proof.Machine.execSnpdrop t line other s
  | .snpclean t line => Sys2Proof.Machine.execSnpclean t line s
  | .snpcur t line => Sys2Proof.Machine.execSnpcur t line s
  | .snpset t hm n set homed => Sys2Proof.Machine.execSnpset t hm n set homed s
  | .snpslice t hm n homed => Sys2Proof.Machine.execSnpslice t hm n homed s
  | .doneResponse m u t line atHome => Sys2Proof.Machine.execDoneResponse m u t line atHome s
  | .notHeld m u line => Sys2Proof.Machine.execNotHeld m u line s
  | .wbInFlight m u line => Sys2Proof.Machine.execWbInFlight m u line s
  | .accessFault t line => Sys2Proof.Machine.execAccessFault t line s
  | .guardRefusal t line => Sys2Proof.Machine.execGuardRefusal t line s
  | .cleanData m u t line d psn excl => Sys2Proof.Machine.execCleanData m u t line d psn excl s
  | .modifiedDataPassedOn m u t line d psn => Sys2Proof.Machine.execModifiedDataPassedOn m u t line d psn s
  | .ioReadData t addr v => Sys2Proof.Machine.execIoReadData t addr v s
  | .snoopTimeout line out => Sys2Proof.Machine.execSnoopTimeout line out s
  | .packetUe d v x y hdr errs => Sys2Proof.Machine.execPacketUe d v x y hdr errs s
  | .dieLinkMeasure k l mv deg replays fail3 => Sys2Proof.Machine.execDieLinkMeasure k l mv deg replays fail3 s
  | .channelFailure k copied => Sys2Proof.Machine.execChannelFailure k copied s
  | .offline who k => Sys2Proof.Machine.execOffline who k s
  | .online who k => Sys2Proof.Machine.execOnline who k s
  | .channelSafe k => Sys2Proof.Machine.execChannelSafe k s
  | .powerGood k count type gib ranks density stack rate x4 => Sys2Proof.Machine.execPowerGood k count type gib ranks density stack rate x4 s
  | .channelTrained k => Sys2Proof.Machine.execChannelTrained k s
  | .resilverEnd k => Sys2Proof.Machine.execResilverEnd k s
  | .selfRefreshEntry k => Sys2Proof.Machine.execSelfRefreshEntry k s
  | .floorWrite who e floor => Sys2Proof.Machine.execFloorWrite who e floor s
  | .weightEffect g => Sys2Proof.Machine.execWeightEffect g s
  | .fillDone l ks => Sys2Proof.Machine.execFillDone l ks s
  | .scrubBurst k n lines half errs => Sys2Proof.Machine.execScrubBurst k n lines half errs s
  | .scrubWake k g lines half errs => Sys2Proof.Machine.execScrubWake k g lines half errs s
  | .lapWarn k => Sys2Proof.Machine.execLapWarn k s
  | .softRepair k resource time lines => Sys2Proof.Machine.execSoftRepair k resource time lines s
  | .rawRead who copy => Sys2Proof.Machine.execRawRead who copy s
  | .rawWrite who copy => Sys2Proof.Machine.execRawWrite who copy s
  | .mgLock who g v => Sys2Proof.Machine.execMgLock who g v s
  | .queueEnable who q => Sys2Proof.Machine.execQueueEnable who q s
  | .queueDisable who q => Sys2Proof.Machine.execQueueDisable who q s
  | .resume who q => Sys2Proof.Machine.execResume who q s
  | .sqDoorbell q v => Sys2Proof.Machine.execSqDoorbell q v s
  | .cqDoorbell q v => Sys2Proof.Machine.execCqDoorbell q v s
  | .shortDoorbell off => Sys2Proof.Machine.execShortDoorbell off s
  | .commandAccepted q => Sys2Proof.Machine.execCommandAccepted q s
  | .journalAlone c => Sys2Proof.Machine.execJournalAlone c s
  | .journalRebuilt c => Sys2Proof.Machine.execJournalRebuilt c s
  | .journalLost n engineFailed far => Sys2Proof.Machine.execJournalLost n engineFailed far s
  | .dieStopped d => Sys2Proof.Machine.execDieStopped d s
  | .requestAnswered id detail data => Sys2Proof.Machine.execRequestAnswered id detail data s
  | .pathFailed k t p detail => Sys2Proof.Machine.execPathFailed k t p detail s
  | .pathRecoveryRead port ok => Sys2Proof.Machine.execPathRecoveryRead port ok s
  | .pathWrite who k t p v => Sys2Proof.Machine.execPathWrite who k t p v s
  | .channelTimeout n => Sys2Proof.Machine.execChannelTimeout n s
  | .keptAddressExpiry port => Sys2Proof.Machine.execKeptAddressExpiry port s
  | .readCommand q k far => Sys2Proof.Machine.execReadCommand q k far s
  | .writeCommand q k far => Sys2Proof.Machine.execWriteCommand q k far s
  | .controlCommand q => Sys2Proof.Machine.execControlCommand q s
  | .senseCommand q => Sys2Proof.Machine.execSenseCommand q s
  | .indexedCommand q k far => Sys2Proof.Machine.execIndexedCommand q k far s
  | .streamReceive q => Sys2Proof.Machine.execStreamReceive q s
  | .transformCommand q => Sys2Proof.Machine.execTransformCommand q s
  | .fenceCommand q => Sys2Proof.Machine.execFenceCommand q s
  | .fenceComplete q => Sys2Proof.Machine.execFenceComplete q s
  | .queuePause who q => Sys2Proof.Machine.execQueuePause who q s
  | .quiet q => Sys2Proof.Machine.execQuiet q s
  | .queueUnpause who q => Sys2Proof.Machine.execQueueUnpause who q s
  | .streamDataWrite p st off data psn => Sys2Proof.Machine.execStreamDataWrite p st off data psn s
  | .streamClosingWrite p st v len relaxed => Sys2Proof.Machine.execStreamClosingWrite p st v len relaxed s
  | .framePlacement p st => Sys2Proof.Machine.execFramePlacement p st s
  | .frameWaitTimeout p st => Sys2Proof.Machine.execFrameWaitTimeout p st s
  | .bindWrite who k v => Sys2Proof.Machine.execBindWrite who k v s
  | .instanceReset who k => Sys2Proof.Machine.execInstanceReset who k s
  | .instanceRemove who k => Sys2Proof.Machine.execInstanceRemove who k s
  | .resetEnd k far => Sys2Proof.Machine.execResetEnd k far s
  | .draw pt ready => Sys2Proof.Machine.execDraw pt ready s
  | .bucketRefill n => Sys2Proof.Machine.execBucketRefill n s
  | .rateWrite who k v => Sys2Proof.Machine.execRateWrite who k v s
  | .socketMove l => Sys2Proof.Machine.execSocketMove l s
  | .aluTrigger l => Sys2Proof.Machine.execAluTrigger l s
  | .mulTrigger l => Sys2Proof.Machine.execMulTrigger l s
  | .divTrigger l => Sys2Proof.Machine.execDivTrigger l s
  | .divideEnd l => Sys2Proof.Machine.execDivideEnd l s
  | .compareTrigger l => Sys2Proof.Machine.execCompareTrigger l s
  | .guardsWrite l => Sys2Proof.Machine.execGuardsWrite l s
  | .lih l => Sys2Proof.Machine.execLih l s
  | .lil l => Sys2Proof.Machine.execLil l s
  | .jmp l => Sys2Proof.Machine.execJmp l s
  | .jrel l => Sys2Proof.Machine.execJrel l s
  | .call l => Sys2Proof.Machine.execCall l s
  | .callr l => Sys2Proof.Machine.execCallr l s
  | .evWait l => Sys2Proof.Machine.execEvWait l s
  | .evRet l => Sys2Proof.Machine.execEvRet l s
  | .haltEngine l => Sys2Proof.Machine.execHaltEngine l s
  | .dsLoad l => Sys2Proof.Machine.execDsLoad l s
  | .dsStore l => Sys2Proof.Machine.execDsStore l s
  | .ldwInc l => Sys2Proof.Machine.execLdwInc l s
  | .stwInc l => Sys2Proof.Machine.execStwInc l s
  | .isRd l => Sys2Proof.Machine.execIsRd l s
  | .ioRd l far => Sys2Proof.Machine.execIoRd l far s
  | .ioRdEnd l n => Sys2Proof.Machine.execIoRdEnd l n s
  | .ioWr l => Sys2Proof.Machine.execIoWr l s
  | .ioWriteError l a st => Sys2Proof.Machine.execIoWriteError l a st s
  | .ioWctl l => Sys2Proof.Machine.execIoWctl l s
  | .dmGo l => Sys2Proof.Machine.execDmGo l s
  | .dmGoEnd l n st reached far => Sys2Proof.Machine.execDmGoEnd l n st reached far s
  | .rdTake l => Sys2Proof.Machine.execRdTake l s
  | .rdFetch l => Sys2Proof.Machine.execRdFetch l s
  | .rdFetchEnd l n q far => Sys2Proof.Machine.execRdFetchEnd l n q far s
  | .rdJnl l => Sys2Proof.Machine.execRdJnl l s
  | .rdJnlEnd l n => Sys2Proof.Machine.execRdJnlEnd l n s
  | .rdDone l => Sys2Proof.Machine.execRdDone l s
  | .rdDoneEnd n l => Sys2Proof.Machine.execRdDoneEnd n l s
  | .tuGo l => Sys2Proof.Machine.execTuGo l s
  | .tuJobEnd id => Sys2Proof.Machine.execTuJobEnd id s
  | .extPost l => Sys2Proof.Machine.execExtPost l s
  | .extRd l => Sys2Proof.Machine.execExtRd l s
  | .extRdEnd l n st data => Sys2Proof.Machine.execExtRdEnd l n st data s
  | .popQueue l => Sys2Proof.Machine.execPopQueue l s
  | .rxSel l => Sys2Proof.Machine.execRxSel l s
  | .rxBase l => Sys2Proof.Machine.execRxBase l s
  | .rxPop l => Sys2Proof.Machine.execRxPop l s
  | .eventEntry l t => Sys2Proof.Machine.execEventEntry l t s
  | .engineMemoryWrite who off size v => Sys2Proof.Machine.execEngineMemoryWrite who off size v s
  | .runHalt who l => Sys2Proof.Machine.execRunHalt who l s
  | .halted l => Sys2Proof.Machine.execHalted l s
  | .runStart who l => Sys2Proof.Machine.execRunStart who l s
  | .haltHung l => Sys2Proof.Machine.execHaltHung l s
  | .watchdog l => Sys2Proof.Machine.execWatchdog l s
  | .engineHardwareFault k cause => Sys2Proof.Machine.execEngineHardwareFault k cause s
  | .selfTestEnd k pass => Sys2Proof.Machine.execSelfTestEnd k pass s
  | .tuBlock u id storeUe far => Sys2Proof.Machine.execTuBlock u id storeUe far s
  | .tuDetection u id => Sys2Proof.Machine.execTuDetection u id s
  | .linkUp p gen w => Sys2Proof.Machine.execLinkUp p gen w s
  | .linkDown p loss => Sys2Proof.Machine.execLinkDown p loss s
  | .recovery p => Sys2Proof.Machine.execRecovery p s
  | .laneDue lane errs check => Sys2Proof.Machine.execLaneDue lane errs check s
  | .laneSwap lane => Sys2Proof.Machine.execLaneSwap lane s
  | .coreWindowStore h raw wrong => Sys2Proof.Machine.execCoreWindowStore h raw wrong s
  | .coreWindowLoad h raw e wrong => Sys2Proof.Machine.execCoreWindowLoad h raw e wrong s
  | .configurationLoad h raw e wrong => Sys2Proof.Machine.execConfigurationLoad h raw e wrong s
  | .configurationStore h raw e wrong => Sys2Proof.Machine.execConfigurationStore h raw e wrong s
  | .completionTimeout id => Sys2Proof.Machine.execCompletionTimeout id s
  | .inboundUr p posted => Sys2Proof.Machine.execInboundUr p posted s
  | .errorMessage p sev hdr => Sys2Proof.Machine.execErrorMessage p sev hdr s
  | .dpcRelease p => Sys2Proof.Machine.execDpcRelease p s
  | .trainingFailure p found l => Sys2Proof.Machine.execTrainingFailure p found l s
  | .backoffEnd p => Sys2Proof.Machine.execBackoffEnd p s
  | .backoffDetection p => Sys2Proof.Machine.execBackoffDetection p s
  | .retrain who p => Sys2Proof.Machine.execRetrain who p s
  | .retrainEvent p => Sys2Proof.Machine.execRetrainEvent p s
  | .creditReturn p v => Sys2Proof.Machine.execCreditReturn p v s
  | .extensionSignal p => Sys2Proof.Machine.execExtensionSignal p s
  | .flit j bytes => Sys2Proof.Machine.execFlit j bytes s
  | .nak j ack => Sys2Proof.Machine.execNak j ack s
  | .replayTimeout j => Sys2Proof.Machine.execReplayTimeout j s
  | .train j m serial link off last => Sys2Proof.Machine.execTrain j m serial link off last s
  | .broipTrainingTimeout j => Sys2Proof.Machine.execBroipTrainingTimeout j s
  | .broipBackoffEnd j => Sys2Proof.Machine.execBroipBackoffEnd j s
  | .linkSilence j => Sys2Proof.Machine.execLinkSilence j s
  | .retrainReq j => Sys2Proof.Machine.execRetrainReq j s
  | .widthReq j => Sys2Proof.Machine.execWidthReq j s
  | .grant j => Sys2Proof.Machine.execGrant j s
  | .linkState m k last => Sys2Proof.Machine.execLinkState m k last s
  | .post o k cut t mods scope evac => Sys2Proof.Machine.execPost o k cut t mods scope evac s
  | .verdict m o k cut t count loc => Sys2Proof.Machine.execVerdict m o k cut t count loc s
  | .coordinatorDecision n => Sys2Proof.Machine.execCoordinatorDecision n s
  | .decision o k commit count loc => Sys2Proof.Machine.execDecision o k commit count loc s
  | .decisionTimeout n => Sys2Proof.Machine.execDecisionTimeout n s
  | .peerLost m => Sys2Proof.Machine.execPeerLost m s
  | .clearLost who m => Sys2Proof.Machine.execClearLost who m s
  | .evacuate who v fits => Sys2Proof.Machine.execEvacuate who v fits s
  | .returnHome who v fits => Sys2Proof.Machine.execReturnHome who v fits s
  | .evacuationCopyEnd l => Sys2Proof.Machine.execEvacuationCopyEnd l s
  | .evacuationHandoverEnd => Sys2Proof.Machine.execEvacuationHandoverEnd s
  | .depart m => Sys2Proof.Machine.execDepart m s
  | .functionLevelReset g n => Sys2Proof.Machine.execFunctionLevelReset g n s
  | .pf0Flr g => Sys2Proof.Machine.execPf0Flr g s
  | .vfEnableCleared g en => Sys2Proof.Machine.execVfEnableCleared g en s
  | .numvfsLowered g n => Sys2Proof.Machine.execNumvfsLowered g n s
  | .conventionalReset g perst cold => Sys2Proof.Machine.execConventionalReset g perst cold s
  | .busMasterEnableCleared g n => Sys2Proof.Machine.execBusMasterEnableCleared g n s
  | .busMasterEnableSet g n => Sys2Proof.Machine.execBusMasterEnableSet g n s
  | .d3hotEntry g pmeEn => Sys2Proof.Machine.execD3hotEntry g pmeEn s
  | .d0Return g pmeEn clear => Sys2Proof.Machine.execD0Return g pmeEn clear s
  | .wakeEvent frame => Sys2Proof.Machine.execWakeEvent frame s
  | .aepWake who => Sys2Proof.Machine.execAepWake who s
  | .pmeRepeat => Sys2Proof.Machine.execPmeRepeat s
  | .l0sEntry g l flit => Sys2Proof.Machine.execL0sEntry g l flit s
  | .l1Entry g l => Sys2Proof.Machine.execL1Entry g l s
  | .intxPendClear v => Sys2Proof.Machine.execIntxPendClear v s
  | .failover f waited => Sys2Proof.Machine.execFailover f waited s
  | .switchGroups who => Sys2Proof.Machine.execSwitchGroups who s
  | .hostCompletionTimeout q ring => Sys2Proof.Machine.execHostCompletionTimeout q ring s
  | .endpaperHang h => Sys2Proof.Machine.execEndpaperHang h s
  | .restartMeasured h l => Sys2Proof.Machine.execRestartMeasured h l s
  | .generateKey who h arg0 => Sys2Proof.Machine.execGenerateKey who h arg0 s
  | .importKey who h arg0 arg1 => Sys2Proof.Machine.execImportKey who h arg0 arg1 s
  | .exportKey who h arg0 arg1 => Sys2Proof.Machine.execExportKey who h arg0 arg1 s
  | .revokeKey who h arg0 => Sys2Proof.Machine.execRevokeKey who h arg0 s
  | .keyServiceResult h => Sys2Proof.Machine.execKeyServiceResult h s
  | .keyServiceTakeover works => Sys2Proof.Machine.execKeyServiceTakeover works s
  | .wake c => Sys2Proof.Machine.execWake c s
  | .leafClose l => Sys2Proof.Machine.execLeafClose l s
  | .hold k => Sys2Proof.Machine.execHold k s
  | .currentStep => Sys2Proof.Machine.execCurrentStep s
  | .hbRestart => Sys2Proof.Machine.execHbRestart s
  | .park c => Sys2Proof.Machine.execPark c s
  | .gate c => Sys2Proof.Machine.execGate c s
  | .levelAdjust g n t => Sys2Proof.Machine.execLevelAdjust g n t s
  | .thermalEmergency n => Sys2Proof.Machine.execThermalEmergency n s
  | .thermtrip => Sys2Proof.Machine.execThermtrip s
  | .droop d t mv => Sys2Proof.Machine.execDroop d t mv s
  | .droopStretchEnd d => Sys2Proof.Machine.execDroopStretchEnd d s
  | .droopSummary g => Sys2Proof.Machine.execDroopSummary g s
  | .colWorkWrite who size o v => Sys2Proof.Machine.execColWorkWrite who size o v s
  | .storeSettings who => Sys2Proof.Machine.execStoreSettings who s
  | .storeEnd fails => Sys2Proof.Machine.execStoreEnd fails s
  | .discardSettings who => Sys2Proof.Machine.execDiscardSettings who s
  | .commitLifetime who => Sys2Proof.Machine.execCommitLifetime who s
  | .lifetimeCommit l => Sys2Proof.Machine.execLifetimeCommit l s
  | .repairRecordWrite => Sys2Proof.Machine.execRepairRecordWrite s
  | .colophonCopyFailure c => Sys2Proof.Machine.execColophonCopyFailure c s
  | .colophonRebuilt c => Sys2Proof.Machine.execColophonRebuilt c s
  | .eventLogRecord => Sys2Proof.Machine.execEventLogRecord s
  | .thermalCycle t => Sys2Proof.Machine.execThermalCycle t s
  | .agingMeasure g ms => Sys2Proof.Machine.execAgingMeasure g ms s
  | .svcLock who v => Sys2Proof.Machine.execSvcLock who v s
  | .registerWrite who size k v fits => Sys2Proof.Machine.execRegisterWrite who size k v fits s
  | .coldReset mid se fuseBad copies => Sys2Proof.Machine.execColdReset mid se fuseBad copies s
  | .mainPgRise cold dead => Sys2Proof.Machine.execMainPgRise cold dead s
  | .railTimeout => Sys2Proof.Machine.execRailTimeout s
  | .bootImageLoaded sfdp a b => Sys2Proof.Machine.execBootImageLoaded sfdp a b s
  | .ddrTrainingDone rs => Sys2Proof.Machine.execDdrTrainingDone rs s
  | .bootHartRelease => Sys2Proof.Machine.execBootHartRelease s
  | .warmReset => Sys2Proof.Machine.execWarmReset s
  | .warmResetW3 l => Sys2Proof.Machine.execWarmResetW3 l s
  | .mainPgFall => Sys2Proof.Machine.execMainPgFall s
  | .info p tag wire => Sys2Proof.Machine.execInfo p tag wire s
  | .bootStatus p tag => Sys2Proof.Machine.execBootStatus p tag s
  | .sysRead p tag addr size => Sys2Proof.Machine.execSysRead p tag addr size s
  | .sysWrite p tag addr size v fits => Sys2Proof.Machine.execSysWrite p tag addr size v fits s
  | .logRead p tag n => Sys2Proof.Machine.execLogRead p tag n s
  | .journalRead p tag n => Sys2Proof.Machine.execJournalRead p tag n s
  | .dmi p tag addr data => Sys2Proof.Machine.execDmi p tag addr data s
  | .resetCold p tag => Sys2Proof.Machine.execResetCold p tag s
  | .resetWarm p tag => Sys2Proof.Machine.execResetWarm p tag s
  | .moveCore p tag c => Sys2Proof.Machine.execMoveCore p tag c s
  | .retire p tag loc => Sys2Proof.Machine.execRetire p tag loc s
  | .requalify p tag loc pass => Sys2Proof.Machine.execRequalify p tag loc pass s
  | .loopback p tag loc arg => Sys2Proof.Machine.execLoopback p tag loc arg s
  | .loopbackEnd loc errors checked => Sys2Proof.Machine.execLoopbackEnd loc errors checked s
  | .loopResult p tag loc => Sys2Proof.Machine.execLoopResult p tag loc s
  | .margin p tag loc resp => Sys2Proof.Machine.execMargin p tag loc resp s
  | .debugChallenge p tag => Sys2Proof.Machine.execDebugChallenge p tag s
  | .debugUnlock p tag valid => Sys2Proof.Machine.execDebugUnlock p tag valid s
  | .etodFramingError => Sys2Proof.Machine.execEtodFramingError s
  | .gatheringEdge g => Sys2Proof.Machine.execGatheringEdge g s
  | .keepIslandSupply c => Sys2Proof.Machine.execKeepIslandSupply c s
  | .sliceControlCheck n dir => Sys2Proof.Machine.execSliceControlCheck n dir s
  | .softRepairEnd k => Sys2Proof.Machine.execSoftRepairEnd k s
  | .rawAccessEnd err => Sys2Proof.Machine.execRawAccessEnd err s
  | .tick l n => Sys2Proof.Machine.execTick l n s
  | .recoveryEnd p gen w => Sys2Proof.Machine.execRecoveryEnd p gen w s
  | .perstDeassertion g => Sys2Proof.Machine.execPerstDeassertion g s
  | .interruptDisable g v => Sys2Proof.Machine.execInterruptDisable g v s
  | .hbRestartEnd => Sys2Proof.Machine.execHbRestartEnd s
  | .wakeComplete c => Sys2Proof.Machine.execWakeComplete c s
  | .lifetimeCommitEnd => Sys2Proof.Machine.execLifetimeCommitEnd s
  | .vkeepLoss => Sys2Proof.Machine.execVkeepLoss s
  | .integerInstruction h raw wrong => Sys2Proof.Machine.execIntegerInstruction h raw wrong s
  | .amo h raw wrong => Sys2Proof.Machine.execAmo h raw wrong s
  | .csrAccess h raw wrong => Sys2Proof.Machine.execCsrAccess h raw wrong s

end Sys2Proof.Machine
end

