-- ==== Sys2Proof/Safety.lean ====
section
/-! DEFINITION. The terms that claims are stated in: what a register write must meet to be carried out, what an instruction must meet
to be executed, and what an invariant of the module says. -/

namespace Sys2Proof.Machine

open Sys2Proof

/-- Whether a register write passes every check of R20, so that the register's own effect follows: its unit's die (R530), the size
(R533), the world (R249, R474), the lock (R536), and reserved values (R20). -/
def State.admits (s : State) (who : Requester) (size k : Nat) (v : Word) : Bool :=
  match findReg k with
  | none => false
  | some (d, is) =>
    !s.unitGone k && decide (size = 8) && !(endpaperOnly k && decide (who = .text)) && !s.locked who d.block &&
      !(reservedIn d.fields v || reservedWhole d.off (is.headD 0) v || shadowBad who d.off v)

/-! ### Instructions of a hart -/

/-- The 32-bit word that an instruction's bits stand for, and its length in bytes. -/
def instrWord (raw : Nat) : Nat := (classify raw).2.1
def instrLen (raw : Nat) : Nat := (classify raw).2.2

/-- The state in which an instruction of class `k` acts: after its fetch, where the hart executes, the bits are of the class, no halt and
no trigger comes first, and the fetch succeeds; none otherwise. -/
def State.acting (s : State) (h raw : Nat) (k : InstrClass) : Option State :=
  let s0 := s.modHart h (fun t => { t with run := .running })
  if s.stopped = false ∧ s.runs h = true ∧ (classify raw).1 = k ∧ s0.haltDue h = false ∧ s0.icountDue h = none ∧
      s0.trigOf h 2 (s0.hart h).pc = none then
    match s0.fetch h (instrLen raw) with
    | (u, .value _) => some u
    | _ => none
  else none

/-- What is executed behind an instruction of class `k` on a wrong path has left this (R122). -/
def State.strayed (s : State) (h : Nat) (k : InstrClass) (wrong : List WrongAcc) : State :=
  s.wrongPath h wrong 0 (if k.accesses then 0 else (s.hart h).ntl)

/-- A state in which an instruction with wrong-path accesses behind it may act: where the hart goes on as predicted, or nothing is predicted,
that of `acting`; otherwise it acts behind what the wrong path has left (R122). -/
def State.mayAct (s : State) (h raw : Nat) (k : InstrClass) (wrong : List WrongAcc) (u : State) : Prop :=
  s.acting h raw k = some u ∨ (s.strayed h k wrong).acting h raw k = some u

/-- The instruction acts in states that meet `P`, with and without what the wrong path leaves. -/
def State.ActsEither (s : State) (h raw : Nat) (k : InstrClass) (wrong : List WrongAcc) (P : State → Prop) : Prop :=
  (∃ u, s.acting h raw k = some u ∧ P u) ∧ ∃ u, (s.strayed h k wrong).acting h raw k = some u ∧ P u

/-- What a prefetch of a kind (0 PREFETCH.I, 1 PREFETCH.R, 3 PREFETCH.W) accesses: in which mode, how, and where (R91). -/
def State.Prefetches (u : State) (h raw kind : Nat) (m : AccMode) (a : MemAcc) (va : Word) : Prop :=
  kind = iRs2 (instrWord raw) ∧ m = (if kind = 0 then (u.hart h).fetchMode else (u.hart h).dataMode) ∧
    a = (if kind = 0 then .fetch else if kind = 3 then .store else .load) ∧
    va = (u.hart h).maskAddr m a ((u.hart h).getX (iRs1 (instrWord raw)) + word (sgn 12 (iF7 (instrWord raw) * 32)))

/-- Nothing follows the instruction: the tile holds no answer back for a constrained LR/SC sequence, and debug does not single-step. -/
def State.settled (s : State) (h : Nat) : Bool :=
  (s.tile (s.tileOfHart h)).held.isEmpty && !((s.hart h).csrIn false 0x7B0).getLsbD 2

/-- The hart has gone from `u` to the next instruction, in the mode it was in, with the integer registers `x`. -/
def State.Advanced (t u : State) (h raw : Nat) (x : Table Word) : Prop :=
  (t.hart h).pc = (u.hart h).pc + BitVec.ofNat 64 (instrLen raw) ∧ (t.hart h).run = (u.hart h).run ∧ (t.hart h).priv = (u.hart h).priv ∧
    (t.hart h).virt = (u.hart h).virt ∧ (t.hart h).world = (u.hart h).world ∧ (t.hart h).x = x

/-- The access of `n` bytes at address `va` of hart `h` goes through this module's window of lead port `p`, at offset `o` of it, and that port
takes it now (R421, R422); `v`: the state once the access is translated. -/
def State.InWindow (u v : State) (h n : Nat) (va : Word) (p o : Nat) (write : Bool) : Prop :=
  ∃ pa off, u.dataTrigger h [if write then 1 else 0] va = none ∧
    u.locate h (u.hart h).dataMode (if write then .store else .load) va n = (v, .at [(pa, n, va)]) ∧ v.region pa = .window v.moduleNo off ∧
    v.windowPlace off = some (p, o) ∧ va.toNat % n = 0 ∧ pa % n = 0 ∧ v.portState p = 4 ∧ v.portHeld p = false

/-! ### Commands of a queue -/

/-- Nothing waits in the movers: no write, no data that are kept, no read that cannot be answered yet. -/
def State.MoversRest (s : State) : Prop := s.writes = [] ∧ s.stuck = [] ∧ ∀ r ∈ s.reqs, r.fate ≠ 3

/-- Command `d` of entry `n` is the one whose turn it is in queue `q`, of the given OPCODE, and may send its next request now over path `p` of its
target (R277, R282, R297, R298, R321, R326); `s1` is the state once the engine has its decision for it. -/
def State.Issues (s : State) (q op n : Nat) (e : JEntry) (d : Line) (p : Nat) (s1 : State) : Prop :=
  s.stopped = false ∧ s.MoversRest ∧ s.backCmd q = none ∧ s.nextCmd q = some (n, e, d) ∧ s.entry n = some e ∧ e.queue = q ∧ dOpcode d = op ∧
    s.mayMove q e d (!readsTarget d) = true ∧ dTarget d ≠ 0 ∧ s.pathFor e (dTarget d) = some p ∧
    s.pointOpen (274 + s.f (CSS_SIi_TGTt_PATHp.PORT (instOf q) (dTarget d) p)) (instOf q) = true ∧
    s.pointOpen (272 + s.queueDie q) (instOf q) = true ∧ s.engineBeat q = some s1

/-- The tokens for a request of `k` bytes of a command's data are there (R328); `s1` is the state once they are taken. -/
def State.Takes (s : State) (q k : Nat) (e : JEntry) (d : Line) (s1 : State) : Prop :=
  s.takeTokens q (requestCost d e.sent k) (!e.issued) = some s1

/-- A request has left for entry `n`'s command, over path `p`: offset `x` of its data, for target offset `a`. -/
def PortReq.Leaves (r : PortReq) (s : State) (q n : Nat) (e : JEntry) (d : Line) (p x a : Nat) : Prop :=
  r.port = s.f (CSS_SIi_TGTt_PATHp.PORT (instOf q) (dTarget d) p) ∧
    r.addr = (a + s.f (CSS_SIi_TGTt_PATHp.OFFSET (instOf q) (dTarget d) p)) % 2 ^ 64 ∧
    r.off = x ∧ r.entry = n ∧ r.seq = e.seq ∧ r.path = p ∧ r.back = false ∧ r.fate = 0

/-- The length of a request for target offset `a` with `rest` bytes to go: within MRRS or MPS, and up to the next 4 KiB boundary (R297). -/
def State.pieceAt (s : State) (q : Nat) (d : Line) (p a rest : Nat) : Nat :=
  let t := dTarget d
  let port := s.f (CSS_SIi_TGTt_PATHp.PORT (instOf q) t p)
  min rest (min (if readsTarget d then 128 * 2 ^ s.f (PRT_Pp_CFG.MRRS port) else 128 * 2 ^ s.f (PRT_Pp_CFG.MPS port))
    (4096 - (a + s.f (CSS_SIi_TGTt_PATHp.OFFSET (instOf q) t p)) % 2 ^ 64 % 4096))

/-- No adapter's write waits at a port for room in staging (R310). -/
def State.PortsRest (s : State) : Prop := ∀ e ∈ s.ports, e.2.inbox = []

/-- Guards 1 and 2 refuse no data in staging (R246, R315). -/
def State.StagingOpen (s : State) (write : Bool) : Prop := ∀ g, g = 1 ∨ g = 2 → ∀ o, s.guardRefuses g o false write = false

/-! ### Instructions of a channel engine -/

/-- The move of kind `c` that engine `l` is to issue, where it issues one that its guard performs and that does not fault: the state once
the results that are due have appeared, the move, and its operand; none otherwise (R340, R343, R362). -/
def State.issuing (s : State) (l : Nat) (c : MoveClass) : Option (State × Move × BitVec 32) :=
  let u := s.modEngine l (fun e => e.settleTo e.cycle)
  let e := u.engine l
  let m := moveOf (e.word e.pc)
  let b := if m.imm then (BitVec.ofNat 16 m.src).signExtend 32 else u.sourceValue l (m.src % 2048)
  if s.stopped = false ∧ s.mayIssue l = true ∧ e.pc ≤ 16383 ∧ m.staticFault (decide (e.slots ≠ 0)) = none ∧
      (decide (e.slots ≠ 0) && e.annul) = false ∧ m.holds e.guards = true ∧ u.moveFault l m b = none ∧ classOf m.dest (e.sock 0x100).toNat = c then
    some (u, m, b)
  else none

/-- The instruction of engine `l` has made it `e`, and changed nothing else of these. -/
def State.Issued (t u : State) (l : Nat) (e : Engine) : Prop :=
  t.engine l = e ∧ (∀ k, k ≠ l → t.engine k = u.engine k) ∧ t.regs = u.regs ∧ t.dram = u.dram ∧ t.queues = u.queues ∧ t.journal = u.journal

/-- An asynchronous operation of engine `l` on guard `n` has ended with these result sockets (R344). -/
def State.AsyncEnded (t : State) (l n : Nat) (results : List (Nat × BitVec 32)) : Prop :=
  (t.engine l).async.get none n = none ∧ (t.engine l).guards.getLsbD (n - 1) = true ∧ ∀ r ∈ results, (t.engine l).sock r.1 = r.2

/-- A data-mover move of engine `l` on guard `n` has come to its end, with these results: they stand in its sockets, or do once its writes are
acknowledged (R192, R373). -/
def State.MoveEnded (t : State) (l n bytes status : Nat) : Prop :=
  t.AsyncEnded l n [(0x16F + n, BitVec.ofNat 32 bytes), (0x173 + n, BitVec.ofNat 32 status)] ∨
    (t.moveWrites l n = true ∧ (t.engine l).async.get none n = some (.moved bytes status))

/-! ### Requests of the service ports -/

/-- A response frame of a service port to a request with OP `op` and TAG `tag` (R555). -/
def drufyFrame (op tag status : Nat) (payload : List Byte) : List Byte :=
  let head := leBytes 1 (op + 0x80) ++ leBytes 1 tag ++ leBytes 2 payload.length ++ leBytes 4 status ++ payload
  head ++ leBytes 4 (crc32c head).toNat

/-- A request on service port `p` that runs from boot step `n` on is carried out: VKEEP stands, a service engine serves the port, and no
request of the port is outstanding (R552, R556 to R558). -/
def State.Serves (s : State) (p n : Nat) : Prop :=
  s.off = false ∧ p < 2 ∧ (s.portSe p).isSome = true ∧ s.svc.owed.get none p = none ∧ n ≤ s.bootStep

/-- The state with one response more, which the port's wires hold to be read (R553, R554). -/
def State.responded (s : State) (p op tag status : Nat) (payload : List Byte) : State :=
  let frame := drufyFrame op tag status payload
  { s with sent := s.sent ++ [.drufy p frame], svc := { s.svc with wires := s.svc.wires.set {} p { s.svc.wires.get {} p with response := frame } } }

/-! ### Runs and frames -/

/-- The state after `n` steps; none where a step stops. -/
def State.run : Nat → State → Option State
  | 0, s => some s
  | n + 1, s =>
    match step s with
    | .next t => t.run n
    | _ => none

/-- Whether a command acts where the main rails are off too: what stands on VKEEP, the cold reset and the loss of VKEEP (R38, R40, R543). -/
def onVkeep : Instr → Bool
  | .etodMessage .. | .etodGapTimeout | .emarkEdge .. | .pendingMessageExpiry | .emarkMissCheck .. | .inputQualified ..
  | .inputLost .. | .holdLimit .. | .slewComplete | .acquisitionTimeout | .substituteEntry .. | .substituteExit ..
  | .acceptStep .. | .replicaCheck .. | .leafClose .. | .hold .. | .hbRestart | .thermtrip | .colWorkWrite .. | .storeSettings ..
  | .storeEnd .. | .discardSettings .. | .commitLifetime .. | .lifetimeCommit .. | .repairRecordWrite | .colophonCopyFailure ..
  | .colophonRebuilt .. | .eventLogRecord | .thermalCycle .. | .agingMeasure .. | .mainPgFall | .info .. | .bootStatus ..
  | .sysRead .. | .sysWrite .. | .logRead .. | .journalRead .. | .dmi .. | .resetCold .. | .resetWarm .. | .moveCore ..
  | .retire .. | .requalify .. | .loopback .. | .loopResult .. | .margin .. | .debugChallenge .. | .debugUnlock ..
  | .droopSummary .. | .loopbackEnd .. | .keyServiceTakeover ..
  | .etodFramingError | .hbRestartEnd | .lifetimeCommitEnd | .coldReset .. | .vkeepLoss => true
  | _ => false

/-- Whether a register shows that time passes: the fill's progress (R234), and the entries whose GRANT is due at a leaf edge (R224). -/
def State.showsTime (s : State) (k : Nat) : Prop := k = SCR_FILL_STATUS ∨ ∃ e ∈ s.floorsDue, k = MC_BWR_ENTRYe e

/-- Every register outside these blocks of set-up space reads as before, but for those that show time. -/
def State.KeepsOutside (t s : State) (blocks : List Nat) : Prop := ∀ k, k / 0x10000000 ∉ blocks → ¬s.showsTime k → t.reg k = s.reg k

/-- Whether a set-up-space offset lies in a window (R540). -/
def inWindow (k : Nat) : Bool :=
  let o := k % 0x10000000
  readOnlyWindow k || decide (k / 0x10000000 = 15 ∧ 0x100000 ≤ o) || decide (k / 0x10000000 = 9 ∧ 0x4000000 ≤ o ∧ o < 0x8000000)

/-- The register table lists registers only. -/
def State.ListsRegisters (s : State) : Prop := ∀ e ∈ s.regs, (findReg e.1).isSome = true

/-- The address of an LR, SC, AMO or compare-and-swap of `n` bytes, which no trigger stops. -/
def State.AtomicAt (u : State) (h n raw : Nat) (kinds : List Nat) (va : Word) : Prop :=
  n = 2 ^ iF3 (instrWord raw) ∧ va = (u.hart h).maskAddr (u.hart h).dataMode .store ((u.hart h).getX (iRs1 (instrWord raw))) ∧
    u.dataTrigger h kinds va = none

end Sys2Proof.Machine
end

