-- ==== Sys2Proof/WellFormed.lean ====
section
/-! DEFINITION. Which commands are well formed: every index within the range that the spec gives its unit, every measured
value within its field. The meanings do not rest on it; a sender of commands must keep it. -/

namespace Sys2Proof

/-- The ranges of a command's operands. -/
def Instr.wellFormed (i : Instr) : Bool :=
  match i with
  | .etodMessage bytes => decide (bytes.length = 16)
  | .etodGapTimeout => true
  | .emarkEdge t _ _ _ _ => decide (t < 2 ^ 64)
  | .pendingMessageExpiry => true
  | .emarkMissCheck second => decide (second < 2 ^ 36)
  | .inputQualified _ _ _ => true
  | .inputLost _ => true
  | .holdLimit t => decide (t < 2 ^ 64)
  | .slewComplete => true
  | .acquisitionTimeout => true
  | .substituteEntry _ _ => true
  | .substituteExit _ _ => true
  | .acceptStep _ _ => true
  | .replicaCheck g dies => decide (g < 2 ^ 46) && dies.all (fun d => decide (d.1 < 6 ∧ d.2 ≠ 0))
  | .arm _ n _ => decide (n < 8)
  | .abort _ n _ => decide (n < 8)
  | .participantReady n _ => decide (n < 8)
  | .cutoff n => decide (n < 8)
  | .target n => decide (n < 8)
  | .hardwareChange => true
  | .agwWait h raw => decide (h < 384) && decide (raw < 2 ^ 32)
  | .agwWaitr h raw => decide (h < 384) && decide (raw < 2 ^ 32)
  | .agwWaitEnd h _ => decide (h < 384)
  | .agsSb h raw => decide (h < 384) && decide (raw < 2 ^ 32)
  | .agsScrub h raw => decide (h < 384) && decide (raw < 2 ^ 32)
  | .ageCall h raw _ => decide (h < 384) && decide (raw < 2 ^ 32)
  | .ageRet h raw _ => decide (h < 384) && decide (raw < 2 ^ 32)
  | .illegalInstruction h raw _ => decide (h < 384) && decide (raw < 2 ^ 32)
  | .loadStore h raw _ _ _ => decide (h < 384 ∧ raw < 4294967296)
  | .lr h raw _ => decide (h < 384) && decide (raw < 2 ^ 32)
  | .sc h raw _ => decide (h < 384) && decide (raw < 2 ^ 32)
  | .lrHoldEnd h => decide (h < 384)
  | .floatingPointInstruction h raw _ => decide (h < 384) && decide (raw < 2 ^ 32)
  | .agfteWrite h raw _ => decide (h < 384) && decide (raw < 2 ^ 32)
  | .mhpmeventWrite h raw _ => decide (h < 384) && decide (raw < 2 ^ 32)
  | .pauseHint h raw => decide (h < 384) && decide (raw < 2 ^ 32)
  | .prefetch h raw => decide (h < 384) && decide (raw < 2 ^ 32)
  | .fence h raw => decide (h < 384) && decide (raw < 2 ^ 32)
  | .fenceI h raw => decide (h < 384) && decide (raw < 2 ^ 32)
  | .cboZero h raw _ => decide (h < 384) && decide (raw < 2 ^ 32)
  | .cboClean h raw _ => decide (h < 384) && decide (raw < 2 ^ 32)
  | .cboFlush h raw _ => decide (h < 384) && decide (raw < 2 ^ 32)
  | .cboInval h raw _ => decide (h < 384) && decide (raw < 2 ^ 32)
  | .wfi h raw _ => decide (h < 384) && decide (raw < 2 ^ 32)
  | .interrupt h => decide (h < 384)
  | .msi h file id => decide (h < 384) && decide (file ≤ 8) && decide (id ≤ 255)
  | .detection c _ unit _ _ => decide (c < 192) && decide (unit < 1024)
  | .retrySuccess c => decide (c < 192)
  | .keepScrub c _ => decide (c < 192)
  | .hang h => decide (h < 384)
  | .clockFailure c => decide (c < 192)
  | .powerFailure c l => decide (c < 192) && decide (l < 2 ^ 56)
  | .performRetiredStores c _ => decide (c < 192)
  | .cpuSpareCmdGo _ _ => true
  | .arrayError t _ _ set w _ => decide (t < 216) && decide (set < 4096) && decide (w < 16)
  | .wayWalkEnd t _ => decide (t < 216)
  | .l3SliceCmdGo _ _ => true
  | .handoffEnd n => decide (n < 216)
  | .rds m t line _ _ _ _ => decide (m < 8) && decide (t < 216) && decide (line < 2 ^ 46)
  | .rdown m t line _ _ _ => decide (m < 8) && decide (t < 216) && decide (line < 2 ^ 46)
  | .upg m t line _ => decide (m < 8) && decide (t < 216) && decide (line < 2 ^ 46)
  | .zero m t line _ => decide (m < 8) && decide (t < 216) && decide (line < 2 ^ 46)
  | .rdcur m die line _ => decide (m < 8) && decide (die < 6) && decide (line < 2 ^ 46)
  | .wrfull m die line _ _ => decide (m < 8) && decide (die < 6) && decide (line < 2 ^ 46)
  | .wrpart m die line _ _ _ _ => decide (m < 8) && decide (die < 6) && decide (line < 2 ^ 46)
  | .wb m t line _ _ _ _ => decide (m < 8) && decide (t < 216) && decide (line < 2 ^ 46)
  | .evn m t line => decide (m < 8) && decide (t < 216) && decide (line < 2 ^ 46)
  | .cmoClean m t line _ => decide (m < 8) && decide (t < 216) && decide (line < 2 ^ 46)
  | .cmoFlush m t line _ => decide (m < 8) && decide (t < 216) && decide (line < 2 ^ 46)
  | .cmoInvalidate m t line _ => decide (m < 8) && decide (t < 216) && decide (line < 2 ^ 46)
  | .ioRead src addr size _ _ _ => src.ok && decide (addr < 2 ^ 52 ∧ (size = 1 ∨ size = 2 ∨ size = 4 ∨ size = 8))
  | .ioWrite src addr size _ _ _ _ => src.ok && decide (addr < 2 ^ 52 ∧ (size = 1 ∨ size = 2 ∨ size = 4 ∨ size = 8))
  | .snpshr t line rm _ => decide (t < 216) && decide (line < 2 ^ 46) && decide (rm < 8)
  | .snpinv t line _ => decide (t < 216) && decide (line < 2 ^ 46)
  | .snpkill t line _ => decide (t < 216) && decide (line < 2 ^ 46)
  | .snpdrop t line _ => decide (t < 216) && decide (line < 2 ^ 46)
  | .snpclean t line => decide (t < 216) && decide (line < 2 ^ 46)
  | .snpcur t line => decide (t < 216) && decide (line < 2 ^ 46)
  | .snpset t hm n set _ => decide (t < 216) && decide (hm < 8) && decide (n < 216) && decide (set < 4096)
  | .snpslice t hm n _ => decide (t < 216) && decide (hm < 8) && decide (n < 216)
  | .doneResponse m _ t line _ => decide (m < 8) && decide (t < 218) && decide (line < 2 ^ 46)
  | .notHeld m _ line => decide (m < 8) && decide (line < 2 ^ 46)
  | .wbInFlight m _ line => decide (m < 8) && decide (line < 2 ^ 46)
  | .accessFault t line => decide (t < 218) && decide (line < 2 ^ 46)
  | .guardRefusal t line => decide (t < 218) && decide (line < 2 ^ 46)
  | .cleanData m _ t line _ _ _ => decide (m < 8) && decide (t < 216) && decide (line < 2 ^ 46)
  | .modifiedDataPassedOn m _ t line _ _ => decide (m < 8) && decide (t < 216) && decide (line < 2 ^ 46)
  | .ioReadData t addr _ => decide (t < 216 ∧ addr < 2 ^ 52)
  | .snoopTimeout line out => decide (line < 2 ^ 46) && out.all (fun h => decide (h.1 < 8 ∧ h.2 < 216))
  | .packetUe d v x y _ errs => decide (errs.length ≤ 10) && errs.all (fun e => decide (e ≤ 72)) && decide (d < 4) && decide (x < 8) && decide (y < 8) && (if v then decide (y < 7) else decide (x < 7))
  | .dieLinkMeasure k l mv deg replays _ => decide (k < 21) && decide (l < 2 ^ 56) && decide (mv.natAbs < 2 ^ 15) && decide (deg.natAbs < 2 ^ 7) && decide (replays < 2 ^ 16)
  | .channelFailure k copied => decide (k < 16) && decide (copied < 2 ^ 35)
  | .offline _ k => decide (k < 16)
  | .online _ k => decide (k < 16)
  | .channelSafe k => decide (k < 16)
  | .powerGood k _ _ _ _ _ _ _ _ => decide (k < 16)
  | .channelTrained k => decide (k < 16)
  | .resilverEnd k => decide (k < 16)
  | .selfRefreshEntry k => decide (k < 16)
  | .floorWrite _ e floor => decide (e < 451) && decide (floor < 2 ^ 16)
  | .weightEffect g => decide (g < 2 ^ 46)
  | .fillDone _ ks => ks.all (fun k => decide (k < 16))
  | .scrubBurst k n lines _ _ => decide (k < 16) && decide (n < 2 ^ 56) && decide (lines ≤ 64)
  | .scrubWake k g lines _ _ => decide (k < 16) && decide (g < 2 ^ 46) && decide (lines ≤ 65536)
  | .lapWarn k => decide (k < 16)
  | .softRepair k _ _ lines => decide (k < 16) && decide (lines.length ≤ 128)
  | .rawRead _ copy => decide (copy < 2)
  | .rawWrite _ copy => decide (copy < 2)
  | .mgLock _ g _ => decide (g < 7)
  | .queueEnable _ q => decide (q < 16384)
  | .queueDisable _ q => decide (q < 16384)
  | .resume _ q => decide (q < 16384)
  | .sqDoorbell q _ => decide (q < 16384)
  | .cqDoorbell q _ => decide (q < 16384)
  | .shortDoorbell off => decide (off < 2 ^ 20)
  | .commandAccepted q => decide (q < 16384)
  | .journalAlone c => decide (c < 2)
  | .journalRebuilt c => decide (c < 2)
  | .journalLost n _ _ => decide (n < 262144)
  | .dieStopped d => decide (d < 2)
  | .requestAnswered _ detail data => decide (detail < 14) && decide (data.length ≤ 4096)
  | .pathFailed k t p detail => decide (k < 256) && decide (0 < t) && decide (t < 16) && decide (p < 4) && decide (detail < 14)
  | .pathRecoveryRead port _ => decide (port < 128)
  | .pathWrite _ k t p _ => decide (k < 256) && decide (0 < t) && decide (t < 16) && decide (p < 4)
  | .channelTimeout n => decide (n < 262144)
  | .keptAddressExpiry port => decide (port < 128)
  | .readCommand q k _ => decide (q < 16384) && decide (k ≤ 64)
  | .writeCommand q k _ => decide (q < 16384) && decide (k ≤ 64)
  | .controlCommand q => decide (q < 16384)
  | .senseCommand q => decide (q < 16384)
  | .indexedCommand q k _ => decide (q < 16384) && decide (k ≤ 64)
  | .streamReceive q => decide (q < 16384)
  | .transformCommand q => decide (q < 16384)
  | .fenceCommand q => decide (q < 16384)
  | .fenceComplete q => decide (q < 16384)
  | .queuePause _ q => decide (q < 16384)
  | .quiet q => decide (q < 16384)
  | .queueUnpause _ q => decide (q < 16384)
  | .streamDataWrite p st off data _ => decide (p < 128) && decide (st < 256) && decide (off < 2 ^ 20) && decide (data.length ≤ 256)
  | .streamClosingWrite p st _ _ _ => decide (p < 128) && decide (st < 256)
  | .framePlacement p st => decide (p < 128) && decide (st < 256)
  | .frameWaitTimeout p st => decide (p < 128) && decide (st < 256)
  | .bindWrite _ k _ => decide (k < 256)
  | .instanceReset _ k => decide (k < 256)
  | .instanceRemove _ k => decide (k < 256)
  | .resetEnd k _ => decide (k < 256)
  | .draw pt _ => decide (pt < 418)
  | .bucketRefill n => decide (n < 2 ^ 56)
  | .rateWrite _ k _ => decide (k < 256)
  | .socketMove l => decide (l < 256)
  | .aluTrigger l => decide (l < 256)
  | .mulTrigger l => decide (l < 256)
  | .divTrigger l => decide (l < 256)
  | .divideEnd l => decide (l < 256)
  | .compareTrigger l => decide (l < 256)
  | .guardsWrite l => decide (l < 256)
  | .lih l => decide (l < 256)
  | .lil l => decide (l < 256)
  | .jmp l => decide (l < 256)
  | .jrel l => decide (l < 256)
  | .call l => decide (l < 256)
  | .callr l => decide (l < 256)
  | .evWait l => decide (l < 256)
  | .evRet l => decide (l < 256)
  | .haltEngine l => decide (l < 256)
  | .dsLoad l => decide (l < 256)
  | .dsStore l => decide (l < 256)
  | .ldwInc l => decide (l < 256)
  | .stwInc l => decide (l < 256)
  | .isRd l => decide (l < 256)
  | .ioRd l _ => decide (l < 256)
  | .ioRdEnd l n => decide (l < 256 ∧ 1 ≤ n ∧ n ≤ 3)
  | .ioWr l => decide (l < 256)
  | .ioWriteError l a st => decide (l < 256 ∧ a < 4294967296 ∧ 1 ≤ st ∧ st ≤ 5)
  | .ioWctl l => decide (l < 256)
  | .dmGo l => decide (l < 256)
  | .dmGoEnd l n _ _ _ => decide (l < 256 ∧ 1 ≤ n ∧ n ≤ 3)
  | .rdTake l => decide (l < 256)
  | .rdFetch l => decide (l < 256)
  | .rdFetchEnd l n q _ => decide (l < 256 ∧ 1 ≤ n ∧ n ≤ 3 ∧ q < 16384)
  | .rdJnl l => decide (l < 256)
  | .rdJnlEnd l n => decide (l < 256 ∧ 1 ≤ n ∧ n ≤ 3)
  | .rdDone l => decide (l < 256)
  | .rdDoneEnd n l => decide (n < 262144 ∧ l < 256)
  | .tuGo l => decide (l < 256)
  | .tuJobEnd _ => true
  | .extPost l => decide (l < 256)
  | .extRd l => decide (l < 256)
  | .extRdEnd l n _ _ => decide (l < 256 ∧ 1 ≤ n ∧ n ≤ 3)
  | .popQueue l => decide (l < 256)
  | .rxSel l => decide (l < 256)
  | .rxBase l => decide (l < 256)
  | .rxPop l => decide (l < 256)
  | .eventEntry l _ => decide (l < 256)
  | .engineMemoryWrite _ off size _ => decide (off < 268435456 ∧ size ≤ 8)
  | .runHalt _ l => decide (l < 256)
  | .halted l => decide (l < 256)
  | .runStart _ l => decide (l < 256)
  | .haltHung l => decide (l < 256)
  | .watchdog l => decide (l < 256)
  | .engineHardwareFault k cause => decide (k < 272 ∧ 1 ≤ cause ∧ cause ≤ 6)
  | .selfTestEnd k _ => decide (k < 272)
  | .tuBlock u _ _ _ => decide (u < 16)
  | .tuDetection u _ => decide (u < 16)
  | .linkUp p gen w => decide (p < 128) && decide (1 ≤ gen ∧ gen ≤ 6) && decide (w ≤ 4)
  | .linkDown p _ => decide (p < 128)
  | .recovery p => decide (p < 128)
  | .laneDue lane errs _ => decide (lane < 256) && decide (errs < 2 ^ 48)
  | .laneSwap lane => decide (lane < 256)
  | .coreWindowStore h raw _ => decide (h < 384 ∧ raw < 4294967296)
  | .coreWindowLoad h raw _ _ => decide (h < 384 ∧ raw < 4294967296)
  | .configurationLoad h raw _ _ => decide (h < 384 ∧ raw < 4294967296)
  | .configurationStore h raw _ _ => decide (h < 384 ∧ raw < 4294967296)
  | .completionTimeout _ => true
  | .inboundUr p _ => decide (p < 128)
  | .errorMessage p sev _ => decide (p < 128) && decide (sev ≤ 2)
  | .dpcRelease p => decide (p < 128)
  | .trainingFailure p _ l => decide (p < 128) && decide (l < 2 ^ 56)
  | .backoffEnd p => decide (p < 128)
  | .backoffDetection p => decide (p < 128)
  | .retrain _ p => decide (p < 128)
  | .retrainEvent p => decide (p < 128)
  | .creditReturn p _ => decide (p < 128)
  | .extensionSignal p => decide (p < 128)
  | .flit j bytes => decide (j < 32) && decide (bytes.length = 256)
  | .nak j ack => decide (j < 32) && decide (ack < 4096)
  | .replayTimeout j => decide (j < 32)
  | .train j m _ link off last => decide (j < 32) && decide (m < 8) && decide (link < 32) && decide (off < 256) && decide (last < 4096)
  | .broipTrainingTimeout j => decide (j < 32)
  | .broipBackoffEnd j => decide (j < 32)
  | .linkSilence j => decide (j < 32)
  | .retrainReq j => decide (j < 32)
  | .widthReq j => decide (j < 32)
  | .grant j => decide (j < 32)
  | .linkState m k last => decide (m < 8) && decide (k < 32) && decide (last < 4096)
  | .post o k _ _ mods scope evac => decide (o < 8) && decide (k < 8) && decide (mods < 256) && decide (scope < 8192) && evac.elim true (fun x => decide (x.1 < 8) && decide (x.2.1 < 8))
  | .verdict m o k _ _ count loc => decide (m < 8) && decide (o < 9) && decide (k < 8) && decide (count < 8192) && decide (loc < 2 ^ 24)
  | .coordinatorDecision n => decide (n < 8)
  | .decision o k _ count loc => decide (o < 9) && decide (k < 8) && decide (count < 8192) && decide (loc < 2 ^ 24)
  | .decisionTimeout n => decide (n < 8)
  | .peerLost m => decide (m < 8)
  | .clearLost _ m => decide (m < 8)
  | .evacuate _ _ _ => true
  | .returnHome _ _ _ => true
  | .evacuationCopyEnd l => decide (l < 2 ^ 56)
  | .evacuationHandoverEnd => true
  | .depart m => decide (m < 8)
  | .functionLevelReset g n => decide (g < 2) && decide (1 ≤ n ∧ n < 256)
  | .pf0Flr g => decide (g < 2)
  | .vfEnableCleared g _ => decide (g < 2)
  | .numvfsLowered g n => decide (g < 2) && decide (n < 256)
  | .conventionalReset g _ _ => decide (g < 2)
  | .busMasterEnableCleared g n => decide (g < 2) && decide (1 ≤ n ∧ n < 256)
  | .busMasterEnableSet g n => decide (g < 2) && decide (1 ≤ n ∧ n < 256)
  | .d3hotEntry g _ => decide (g < 2)
  | .d0Return g _ _ => decide (g < 2)
  | .wakeEvent _ => true
  | .aepWake _ => true
  | .pmeRepeat => true
  | .l0sEntry g l _ => decide (g < 2) && decide (l < 2 ^ 56)
  | .l1Entry g l => decide (g < 2) && decide (l < 2 ^ 56)
  | .intxPendClear _ => true
  | .failover f _ => decide (f < 2 ^ 56)
  | .switchGroups _ => true
  | .hostCompletionTimeout q _ => decide (q < 16384)
  | .endpaperHang h => decide (h < 384)
  | .restartMeasured h _ => decide (h < 384)
  | .generateKey _ h _ => decide (h < 384)
  | .importKey _ h _ _ => decide (h < 384)
  | .exportKey _ h _ _ => decide (h < 384)
  | .revokeKey _ h _ => decide (h < 384)
  | .keyServiceResult h => decide (h < 384)
  | .keyServiceTakeover _ => true
  | .wake c => decide (c < 192)
  | .leafClose l => decide (l < 2 ^ 56)
  | .hold k => decide (k < 4)
  | .currentStep => true
  | .hbRestart => true
  | .park c => decide (c < 192)
  | .gate c => decide (c < 192)
  | .levelAdjust g n t => decide (g < 2 ^ 46) && decide (n < 24) && decide (t < 256)
  | .thermalEmergency n => decide (n < 24)
  | .thermtrip => true
  | .droop d t mv => decide (d < 30) && decide (t < 2 ^ 64) && decide (mv < 2 ^ 16)
  | .droopStretchEnd d => decide (d < 30)
  | .droopSummary g => decide (g < 2 ^ 46)
  | .colWorkWrite _ _ _ _ => true
  | .storeSettings _ => true
  | .storeEnd _ => true
  | .discardSettings _ => true
  | .commitLifetime _ => true
  | .lifetimeCommit _ => true
  | .repairRecordWrite => true
  | .colophonCopyFailure c => decide (c < 2)
  | .colophonRebuilt c => decide (c < 2)
  | .eventLogRecord => true
  | .thermalCycle t => decide (t < 256)
  | .agingMeasure _ ms => ms.all (fun m => decide (m.1 < 216))
  | .svcLock _ _ => true
  | .registerWrite _ size k _ _ => decide (size = 1 ∨ size = 2 ∨ size = 4 ∨ size = 8) && decide (k < 17 * 2 ^ 28) && decide (k % size = 0)
  | .coldReset mid se _ copies => decide (mid < 8 ∧ se < 4 ∧ copies < 4)
  | .mainPgRise _ dead => dead.all (fun k => decide (k < 21))
  | .railTimeout => true
  | .bootImageLoaded _ _ _ => true
  | .ddrTrainingDone rs => rs.all (fun r => r.ok)
  | .bootHartRelease => true
  | .warmReset => true
  | .warmResetW3 _ => true
  | .mainPgFall => true
  | .info p tag _ => decide (p < 2 ∧ tag < 256)
  | .bootStatus p tag => decide (p < 2 ∧ tag < 256)
  | .sysRead p tag addr size => decide (p < 2 ∧ tag < 256 ∧ addr < 2 ^ 52 ∧ size < 256)
  | .sysWrite p tag addr size _ _ => decide (p < 2 ∧ tag < 256 ∧ addr < 2 ^ 52 ∧ size < 256)
  | .logRead p tag n => decide (p < 2 ∧ tag < 256 ∧ n < 2 ^ 32)
  | .journalRead p tag n => decide (p < 2 ∧ tag < 256 ∧ n < 2 ^ 32)
  | .dmi p tag addr data => decide (p < 2 ∧ tag < 256 ∧ addr < 128) && data.all (fun v => decide (v < 2 ^ 32))
  | .resetCold p tag => decide (p < 2 ∧ tag < 256)
  | .resetWarm p tag => decide (p < 2 ∧ tag < 256)
  | .moveCore p tag c => decide (p < 2 ∧ tag < 256 ∧ c < 2 ^ 32)
  | .retire p tag loc => decide (p < 2 ∧ tag < 256 ∧ loc < 2 ^ 64)
  | .requalify p tag loc _ => decide (p < 2 ∧ tag < 256 ∧ loc < 2 ^ 64)
  | .loopback p tag loc arg => decide (p < 2 ∧ tag < 256 ∧ loc < 2 ^ 64 ∧ arg < 2 ^ 32)
  | .loopbackEnd loc errors checked => decide (loc < 2 ^ 64 ∧ errors < 2 ^ 64 ∧ checked < 2 ^ 64)
  | .loopResult p tag loc => decide (p < 2 ∧ tag < 256 ∧ loc < 2 ^ 64)
  | .margin p tag loc resp => decide (p < 2 ∧ tag < 256 ∧ loc < 2 ^ 64 ∧ resp.length ≤ 1024)
  | .debugChallenge p tag => decide (p < 2 ∧ tag < 256)
  | .debugUnlock p tag _ => decide (p < 2 ∧ tag < 256)
  | .etodFramingError => true
  | .gatheringEdge g => decide (g < 2 ^ 46)
  | .keepIslandSupply c => decide (c < 192)
  | .sliceControlCheck n _ => decide (n < 216)
  | .softRepairEnd k => decide (k < 16)
  | .rawAccessEnd _ => true
  | .tick l n => decide (l < 256 ∧ n < 2 ^ 56)
  | .recoveryEnd p gen w => decide (p < 128) && decide (1 ≤ gen ∧ gen ≤ 6) && decide (w ≤ 4)
  | .perstDeassertion g => decide (g < 2)
  | .interruptDisable g _ => decide (g < 2)
  | .hbRestartEnd => true
  | .wakeComplete c => decide (c < 192)
  | .lifetimeCommitEnd => true
  | .vkeepLoss => true
  | .integerInstruction h raw _ => decide (h < 384) && decide (raw < 2 ^ 32)
  | .amo h raw _ => decide (h < 384) && decide (raw < 2 ^ 32)
  | .csrAccess h raw _ => decide (h < 384) && decide (raw < 2 ^ 32)

end Sys2Proof
end

