-- ==== Sys2Proof/Certificates/Slice0/Obligations.lean ====
section
/-! DEFINITION. The statements for the provers: which commands complete and how (the first 47), that a step runs the command at the front of
the queue, what reset leaves, how register writes are judged, three rules of the spec stated whole, what a stopped module does, the budgets of
a closed leaf, what families of commands leave unchanged, and that stored memory keeps its form. -/

open Sys2Proof Sys2Proof.Machine

/-- Time base, messages and inputs (R53, R54, R56, R57, R58, R581): where VKEEP stands, each command of the reference answers a next state, and which.
Where the rules leave a choice, it is the model's: log entries 15, 17, 18 and 53. The constructors whose completion it states: etodMessage,
etodGapTimeout, etodFramingError, pendingMessageExpiry, inputQualified, inputLost, emarkMissCheck. -/
def Obligations.TimeReferenceCommandsComplete : Prop :=
  (∀ (s : State) (bytes : List Byte), s.off = false → s.f TB_STATUS.STATE ≠ 4 → bytes.length = 16 → bytes.head? = some 0xC5 →
    crc32c (bytes.take 12) = BitVec.ofNat 32 (leNat (bytes.drop 12)) → leNat ((bytes.drop 1).take 1) = 1 →
    leNat ((bytes.drop 11).take 1) < 8 → leNat ((bytes.drop 2).take 7) % 1000000 = 0 →
    Instr.wellFormed (.etodMessage bytes) = true → exec (.etodMessage bytes) s = .next { s with tb := { s.tb with pendingMsg := some {
      markLeaf := leNat ((bytes.drop 2).take 7), utc := leNat ((bytes.drop 9).take 2), flags := leNat ((bytes.drop 11).take 1),
      at_ := s.count } } }) ∧
  (∀ s : State, s.off = false → s.f TB_STATUS.STATE ≠ 4 →
    exec .etodGapTimeout s = .next (s.raise TB_ALARM.ETOD_BAD) ∧ exec .etodFramingError s = .next (s.raise TB_ALARM.ETOD_BAD)) ∧
  (∀ (s : State) (m : EtodMsg), s.off = false → s.tb.pendingMsg = some m →
    ∃ t, exec .pendingMessageExpiry s = .next t ∧ t.tb = { s.tb with pendingMsg := none } ∧ t.on TB_ALARM.ETOD_BAD = s.on TB_ALARM.ETOD_BAD) ∧
  (∀ s : State, s.off = false → s.f TB_STATUS.STATE ≠ 4 →
    ∀ leaves ppb : Nat,
    (s.tb.agreedA = true → s.steady false leaves ppb = true → exec (.inputQualified false leaves ppb) s = .next (s.raise TB_STATUS.A_QUAL)) ∧
    (s.tb.agreedB = true → s.steady true leaves ppb = true → exec (.inputQualified true leaves ppb) s = .next (s.raise TB_STATUS.B_QUAL))) ∧
  (∀ s : State, s.off = false → s.f TB_STATUS.STATE = 1 → s.on TB_STATUS.A_QUAL = true → s.on TB_STATUS.B_QUAL = true →
    s.f TB_CTL.SRC = 0 → ∀ l, (l = .edges false ∨ ∃ a b, l = .drift a b ∧ 20000 < (a - b).natAbs ∧ b.natAbs < a.natAbs) →
      ∃ t, exec (.inputLost l) s = .next t ∧ t.f TB_STATUS.A_QUAL = 0 ∧ t.on TB_ALARM.A_LOST = true ∧
      t.f TB_STATUS.STATE = 2 ∧ t.tb.agreedA = false) ∧
  (∀ s : State, s.off = false → s.f TB_STATUS.STATE = 2 → s.on TB_STATUS.B_QUAL = true → s.on TB_STATUS.A_QUAL = false →
    ∃ t, exec (.inputLost (.edges true)) s = .next t ∧ t.f TB_STATUS.B_QUAL = 0 ∧ t.on TB_ALARM.B_LOST = true ∧
      t.f TB_STATUS.STATE = 3 ∧ t.on TB_ALARM.HOLDOVER = true ∧ t.tb.holdSince = s.count) ∧
  (∀ (s : State) (n : Nat), s.off = false → s.leaf ≤ n * 1000000 + 10000 → n * 1000000 + 10000 < 2 ^ 56 → s.tb.lastAgree = none →
      s.f TB_STATUS.EMARK_MISS = 2 →
    Instr.wellFormed (.emarkMissCheck n) = true → ∃ t, exec (.emarkMissCheck n) s = .next t ∧ t.f TB_STATUS.EMARK_MISS = 3 ∧
      t.on TB_ALARM.EMARK_MISS = true ∧
      t.leaf = n * 1000000 + 10000)

/-- Time base, lock, holdover and substitution (R55, R58 to R61, R63 to R65): each command answers a next state, and what it shows. Where the rules
leave a choice, it is the model's: log entries 15, 17, 18 and 53. The constructors whose completion it states: emarkEdge, holdLimit, slewComplete,
acquisitionTimeout, substituteEntry, substituteExit, acceptStep, replicaCheck. -/
def Obligations.TimeHoldoverCommandsComplete : Prop :=
  (∀ (s : State) (m : EtodMsg) (a b : Nat) (pa pb : Bool), s.off = false → s.f TB_STATUS.STATE = 1 → s.f TB_CTL.PREF = 0 → s.f TB_CTL.SRC = 0 →
    s.on TB_STATUS.A_QUAL = true → s.tb.stuck = false → s.tb.pendingMsg = some m → a ≤ 25 →
    10000 * 256 ≤ s.count - m.at_ → s.count - m.at_ ≤ 990000 * 256 →
    ((s.count : Int) - (m.markLeaf * 256 : Nat)).natAbs ≤ 1024 * 256 →
    Instr.wellFormed (.emarkEdge s.count a b pa pb) = true → ∃ t, exec (.emarkEdge s.count a b pa pb) s = .next t ∧ t.f TB_STATUS.STATE = 1 ∧
      t.f TB_STATUS.EMARK_MISS = 0 ∧
      t.f TB_STATUS.PHASE_ERR = phaseErrBits ((s.count : Int) - (m.markLeaf * 256 : Nat)) ∧ t.tb.pendingMsg = none ∧
      t.tb.lastAgree = some s.leaf ∧ t.tb.slewError = ((s.count : Int) - (m.markLeaf * 256 : Nat)).natAbs) ∧
  (∀ (s : State) (c : Nat), s.off = false → c ≤ s.count → s.f TB_STATUS.STATE = 3 → s.tb.noBound = false → s.tb.overLimit = false →
    s.f TB_CTL.HOLD_LIMIT * 256 < s.f TB_HOLD.BOUND →
    Instr.wellFormed (.holdLimit c) = true →
      exec (.holdLimit c) s = .next { s.raise TB_ALARM.HOLD_LIMIT with tb := { s.tb with overLimit := true } }) ∧
  (∀ s : State, s.off = false → s.on TB_STATUS.SLEWING = true → ∃ t, exec .slewComplete s = .next t ∧ t.f TB_STATUS.SLEWING = 0 ∧
    t.tb = { s.tb with slewError := 0, slewFlag := false }) ∧
  (∀ s : State, s.off = false → s.f TB_STATUS.STATE = 0 → s.on TB_STATUS.A_QUAL = false → s.on TB_STATUS.B_QUAL = false →
    s.bootAt + wbits (s.setting 2) 31 16 * 256000000 ≤ s.count →
    ∃ t, exec .acquisitionTimeout s = .next t ∧ t.f TB_STATUS.STATE = 3 ∧ t.on TB_ALARM.HOLDOVER = true ∧ t.tb.holdSince = s.count) ∧
  (∀ (s : State) (who : Requester) (v : Word), s.off = false → TB_CTL.SRC.of v = 3 → s.f TB_STATUS.STATE ≠ 4 → s.admits who 8 TB_CTL v = true →
    ∃ t, exec (.substituteEntry who v) s = .next t ∧ t.f TB_STATUS.STATE = 4 ∧ t.f TB_CTL.SRC = 3 ∧ t.f TB_STATUS.A_QUAL = 0 ∧
      t.f TB_STATUS.B_QUAL = 0 ∧ t.f TB_STATUS.SLEWING = 0 ∧ t.tb.pendingMsg = none) ∧
  (∀ (s : State) (who : Requester) (v : Word), s.off = false → TB_CTL.SRC.of v ≠ 3 → s.f TB_STATUS.STATE = 4 →
    s.on TB_STATUS.EVER_LOCKED = true → s.admits who 8 TB_CTL v = true →
    ∃ t, exec (.substituteExit who v) s = .next t ∧ t.f TB_STATUS.STATE = 3 ∧ t.f TB_CTL.SRC = TB_CTL.SRC.of v ∧
      t.on TB_ALARM.HOLDOVER = true ∧ t.tb.noBound = true) ∧
  (∀ (s : State) (who : Requester) (v : Word), s.off = false → s.f TB_STATUS.STATE = 3 → TB_CTL.SRC.of v = 0 → TB_CTL.ACCEPT_STEP.of v = 1 →
    s.admits who 8 TB_CTL v = true →
    ∃ t, exec (.acceptStep who v) s = .next t ∧ t.f TB_CTL.ACCEPT_STEP = 1 ∧ t.count = s.count) ∧
  (∀ (s : State) (g : Nat) (dies : List (Nat × Int)), s.off = false → dies ≠ [] →
    Instr.wellFormed (.replicaCheck g dies) = true → exec (.replicaCheck g dies) s = .next { (s.untilLeaf (g * 1024)).raise TB_ALARM.REPLICA with
      replicas := dies.foldl (fun t e => t.set 0 (e.1 % 6) e.2) (s.untilLeaf (g * 1024)).replicas })

/-- Software mode changes (R70 to R73): posting, readiness, cut-off, target and withdrawal each answer a next state. The shadows of a change that is
discarded here are those of blocks MC, MG and CSS. Where the rules leave a choice, it is the model's: log entries 44 and 54. The constructors
whose completion it states: arm, abort, participantReady, cutoff, target. -/
def Obligations.ModeChangeCommandsComplete : Prop :=
  (∀ (s a : State) (who : Requester) (n : Nat) (v : Word), s.stopped = false → n < 6 → (TB_MCn_CTL.ARM n).of v = 1 → (TB_MCn_CTL.ABORT n).of v = 0 →
    s.admits who 8 (TB_MCn_CTL n) v = true → s.slotLive n = false → a = s.setF (TB_MCn_CTL.SCOPE n) ((TB_MCn_CTL.SCOPE n).of v) →
    a.refusal n (a.pendingShadows ((TB_MCn_CTL.SCOPE n).of v)) = none →
    Instr.wellFormed (.arm who n v) = true → ∃ t, exec (.arm who n v) s = .next t ∧ t.slotState n = 1 ∧ t.f (TB_MCn_STATUS.CAUSE n) = 0 ∧
      t.f (TB_MCn_CTL.SCOPE n) = (TB_MCn_CTL.SCOPE n).of v ∧
      (t.slot n).cut = s.f (TB_MCn_CUTOFF.CUTOFF n) ∧ (t.slot n).target = s.f (TB_MCn_TARGET.TARGET n) ∧
      (t.slot n).shadows = a.pendingShadows ((TB_MCn_CTL.SCOPE n).of v) ∧ (t.slot n).participants.all (fun p => !p.ready) = true) ∧
  (∀ (s : State) (who : Requester) (n : Nat) (v : Word), s.stopped = false → n < 6 → (TB_MCn_CTL.ABORT n).of v = 1 → (TB_MCn_CTL.ARM n).of v = 0 →
    s.admits who 8 (TB_MCn_CTL n) v = true → s.slotState n = 1 → s.leaf < (s.slot n).cut → (s.slot n).change = .none →
    (∀ k ∈ (s.slot n).shadows, k / 0x10000000 = 5 ∨ k / 0x10000000 = 6 ∨ k / 0x10000000 = 8) →
    Instr.wellFormed (.abort who n v) = true → ∃ t, exec (.abort who n v) s = .next t ∧ t.slotState n = 4 ∧ t.f (TB_MCn_STATUS.CAUSE n) = 2 ∧
      (t.slot n).shadows = []) ∧
  (∀ (s : State) (n loc : Nat), s.stopped = false → s.slotState n = 1 → s.leaf < (s.slot n).cut → s.mayReport n loc = true →
    Instr.wellFormed (.participantReady n loc) = true → exec (.participantReady n loc) s = .next (s.modSlot n (fun sl => { sl with
      participants := sl.participants.map (fun p => if p.loc = loc then { p with ready := true } else p) }))) ∧
  (∀ (s : State) (n : Nat), s.stopped = false → n < 8 → s.slotState n = 1 → (s.slot n).judged = false → (s.slot n).modules = 0 →
    (s.slot n).participants.all (·.ready) = true → (s.slot n).cut < 2 ^ 56 →
    Instr.wellFormed (.cutoff n) = true → ∃ t, exec (.cutoff n) s = .next t ∧ t.slotState n = 2 ∧ t.leaf = max s.leaf (s.slot n).cut ∧
      t.slots = s.slots) ∧
  (∀ (s : State) (n : Nat), s.stopped = false → n < 8 → s.slotState n = 1 → (s.slot n).judged = false → (s.slot n).modules = 0 →
    (s.slot n).change = .none → (s.slot n).participants.all (·.ready) = false → (s.slot n).participants.length < 8192 →
    (∀ p ∈ (s.slot n).participants, p.loc < 2 ^ 24) →
    (∀ k ∈ (s.slot n).shadows, k / 0x10000000 = 5 ∨ k / 0x10000000 = 6 ∨ k / 0x10000000 = 8) →
    Instr.wellFormed (.cutoff n) = true → ∃ t, exec (.cutoff n) s = .next t ∧ t.slotState n = 4 ∧ t.f (TB_MCn_STATUS.CAUSE n) = 1 ∧
      t.f (TB_MCn_STATUS.NR_COUNT n) = (s.slot n).late.length ∧ t.f (TB_MCn_STATUS.NR_LOC n) = lowest (s.slot n).late) ∧
  (∀ (s : State) (n k : Nat), s.stopped = false → n < 8 → s.slotState n = 2 → (s.slot n).change = .none → (s.slot n).shadows = [k] →
    k / 0x10000000 = 8 → (s.slot n).target < 2 ^ 56 → s.turnOf (s.slot n).target 2 = true →
    Instr.wellFormed (.target n) = true → ∃ t, exec (.target n) s = .next t ∧ t.slotState n = 3 ∧ t.reg (k - 8) = s.reg k ∧
      t.leaf = max s.leaf (s.slot n).target ∧
      t.dirty.contains k = false ∧ (t.slot n).shadows = [])

/-- Hardware and system mode changes (R76, R448 to R450): each command answers a next state. Where the rules leave a choice, it is the model's: log
entries 44 and 54. The constructors whose completion it states: hardwareChange, post, verdict, coordinatorDecision, decision, decisionTimeout. -/
def Obligations.HardwareAndSystemChangesComplete : Prop :=
  (∀ (s : State) (sets : List (Nat × Nat)) (nb : Nat) (rest : List Waiting), s.stopped = false → (∀ m < 8, s.slotLive m = false) →
    s.waiting = { notBefore := nb, change := .channels sets } :: rest → s.leaf < 2 ^ 55 → nb < 2 ^ 55 →
    ∃ t, exec .hardwareChange s = .next t ∧ t.slotState 7 = 1 ∧ t.f (TB_MCn_CUTOFF.CUTOFF 7) = max s.leaf nb + 4 ∧
      t.f (TB_MCn_TARGET.TARGET 7) = max s.leaf nb + 6 ∧ (t.slot 7).change = .channels sets ∧ t.waiting = rest ∧
      (t.slot 7).participants.all (·.ready) = true) ∧
  (∀ (s : State) (o k cut t mods scope : Nat) (evac : Option (Nat × Nat × Bool)), s.stopped = false → mods.testBit s.moduleNo = true →
    Instr.wellFormed (.post o k cut t mods scope evac) = true → exec (.post o k cut t mods scope evac) s = .next { s with waiting := s.waiting ++
      [{ notBefore := s.leaf, change := .posted o k scope cut t mods evac }] }) ∧
  (∀ (s : State) (m o k cut t count loc n : Nat), s.stopped = false → s.slotNamed o k = some n → (s.slot n).cut = cut → (s.slot n).target = t →
    (modulesOf (s.slot n).modules).head? = some s.moduleNo →
    Instr.wellFormed (.verdict m o k cut t count loc) = true →
      exec (.verdict m o k cut t count loc) s = .next (s.modSlot n (fun x => { x with verdicts := x.verdicts ++ [(m, count, loc)] }))) ∧
  (∀ (s : State) (n : Nat), s.stopped = false → n < 8 → s.slotState n = 1 → (s.slot n).judged = true →
    (modulesOf (s.slot n).modules).head? = some s.moduleNo → (s.slot n).refusers = [] → (s.slot n).cut + 1 < 2 ^ 56 →
    Instr.wellFormed (.coordinatorDecision n) = true → ∃ t, exec (.coordinatorDecision n) s = .next t ∧ t.slotState n = 2 ∧ t.slots = s.slots ∧
      t.leaf = max s.leaf ((s.slot n).cut + 1)) ∧
  (∀ (s : State) (o k count loc n : Nat), s.stopped = false → s.slotNamed o k = some n → s.slotState n = 1 →
    Instr.wellFormed (.decision o k true count loc) = true → exec (.decision o k true count loc) s = .next (s.setF (TB_MCn_STATUS.STATE n) 2)) ∧
  (∀ (s : State) (n : Nat), s.stopped = false → n < 8 → s.slotState n = 1 → (s.slot n).judged = true →
    (∀ k ∈ (s.slot n).shadows, k / 0x10000000 = 5 ∨ k / 0x10000000 = 6 ∨ k / 0x10000000 = 8) →
    Instr.wellFormed (.decisionTimeout n) = true → ∃ t, exec (.decisionTimeout n) s = .next t ∧ t.slotState n = 4 ∧ t.f (TB_MCn_STATUS.CAUSE n) = 1 ∧
      t.f (TB_MCn_STATUS.NR_COUNT n) = 1 ∧ t.on BL_ALARM.MC_SPLIT = true)

/-- The Icmora instructions (R95 to R97, R103 to R107, R476, R477): each answers a next state with its own effect. Where the rules leave a choice, it
is the model's: log entries 3 and 41. The constructors whose completion it states: agwWait, agwWaitr, agwWaitEnd, agsSb, agsScrub, ageCall,
ageRet. -/
def Obligations.IcmoraInstructionsComplete : Prop :=
  (∀ (s u : State) (h raw rd : Nat), s.acting h raw .wait = some u → u.settled h = true → iRd (instrWord raw) = rd → (u.hart h).resv.isSome = true →
    (u.hart h).takeable (u.hartCount h) = none → u.hartCount h < ((u.hart h).getX (iRs1 (instrWord raw))).toNat →
    Instr.wellFormed (.agwWait h raw) = true → ∃ t, exec (.agwWait h raw) s = .next t ∧
      (t.hart h).run = .agw ((u.hart h).getX (iRs1 (instrWord raw))).toNat rd ∧
      (t.hart h).pc = (u.hart h).pc ∧ (t.hart h).x = (u.hart h).x) ∧
  (∀ (s u : State) (h raw rd : Nat), s.acting h raw .waitr = some u → u.settled h = true → iRd (instrWord raw) = rd → (u.hart h).resv.isSome = true →
    (u.hart h).takeable (u.hartCount h) = none → u.hartCount h < 2 ^ 64 - 1 → (u.hart h).getX (iRs1 (instrWord raw)) ≠ 0 →
    Instr.wellFormed (.agwWaitr h raw) = true → ∃ t, exec (.agwWaitr h raw) s = .next t ∧
      (t.hart h).run = .agw (min (2 ^ 64 - 1) (u.hartCount h + ((u.hart h).getX (iRs1 (instrWord raw))).toNat)) rd ∧ (t.hart h).x = (u.hart h).x) ∧
  (∀ (s u : State) (h raw : Nat), s.acting h raw .wait = some u → u.settled h = true → (u.hart h).resv = none →
    Instr.wellFormed (.agwWait h raw) = true → ∃ t, exec (.agwWait h raw) s = .next t ∧
      t.Advanced u h raw ((u.hart h).setX (iRd (instrWord raw)) 0).x) ∧
  (∀ (s : State) (h d rd : Nat), s.stopped = false → s.countFor h d < 2 ^ 64 → (s.hart h).run = .agw d rd → s.cs (coreOf h) ≤ 1 →
    s.f (CPU_CORE_STATUSc.STATE (coreOf h)) ≤ 1 → (s.hart h).takeable (s.hartCount h) = none → s.settled h = true →
    Instr.wellFormed (.agwWaitEnd h true) = true → ∃ t, exec (.agwWaitEnd h true) s = .next t ∧ (t.hart h).run = .running ∧
      (t.hart h).x = ((s.hart h).setX rd 1).x ∧
      (t.hart h).pc = (s.hart h).pc + 4 ∧ (t.hart h).resv = none ∧ s.countFor h d ≤ t.count ∧ (s.replicas = [] → d ≤ t.count)) ∧
  (∀ (s u : State) (h raw : Nat), s.acting h raw .sb = some u → u.settled h = true →
    Instr.wellFormed (.agsSb h raw) = true → ∃ t, exec (.agsSb h raw) s = .next t ∧ t.Advanced u h raw (u.hart h).x ∧ t.dram = u.dram ∧
      t.regs = u.regs) ∧
  (∀ (s u : State) (h raw : Nat), s.acting h raw .scrub = some u → u.settled h = true →
    ((u.hart h).getX (iRs1 (instrWord raw))).toNat % 8 = 0 →
    Instr.wellFormed (.agsScrub h raw) = true → ∃ t, exec (.agsScrub h raw) s = .next t ∧ t.Advanced u h raw (u.hart h).x ∧ (t.hart h).ras = [] ∧ (t.hart h).mdp = [] ∧
      (t.core (coreOf h)).base = [] ∧ (t.core (coreOf h)).short = [] ∧ (t.core (coreOf h)).long = [] ∧
      (t.core (coreOf h)).chooser = [] ∧ (t.core (coreOf h)).btb = [] ∧ (t.core (coreOf h)).itb = []) ∧
  (∀ (s : State) (h raw : Nat) (wrong : List WrongAcc), s.ActsEither h raw .call wrong (fun u => u.settled h = true ∧
      (u.hart h).takeable (u.hartCount h) = none ∧ (u.hart h).world = false ∧ (u.hart h).priv ≠ 0 ∧ (u.hart h).virt = false ∧
      (u.f (ENDP_HARTn_STATUS.STATE h) = 1 ∨ u.f (ENDP_HARTn_STATUS.STATE h) = 2)) →
    Instr.wellFormed (.ageCall h raw wrong) = true → ∃ u t, s.mayAct h raw .call wrong u ∧
      exec (.ageCall h raw wrong) s = .next t ∧ (t.hart h).world = true ∧ (t.hart h).priv = 3 ∧
      t.f (ENDP_HARTn_STATUS.STATE h) = 3 ∧
      (t.hart h).retPc = (u.hart h).pc + BitVec.ofNat 64 (instrLen raw) ∧ (t.hart h).retPriv = (u.hart h).priv ∧
      (t.hart h).f = [] ∧ (t.hart h).v = [] ∧ (t.hart h).x = (u.hart h).x.filter (fun e => decide (10 ≤ e.1 ∧ e.1 ≤ 17)) ∧
      (t.hart h).csrIn true 0x341 = (u.hart h).pc ∧ (t.hart h).csrIn true 0x342 = (if u.f (ENDP_HARTn_STATUS.STATE h) = 1 then 49 else 48)) ∧
  (∀ (s : State) (h raw : Nat) (wrong : List WrongAcc), s.ActsEither h raw .ret wrong (fun u => u.settled h = true ∧ (u.hart h).world = true ∧
      (u.hart h).priv = 3 ∧ u.svc.othersHeld = false) →
    Instr.wellFormed (.ageRet h raw wrong) = true → ∃ u t, s.mayAct h raw .ret wrong u ∧
      exec (.ageRet h raw wrong) s = .next t ∧ (t.hart h).world = false ∧
      (t.hart h).priv = (u.hart h).retPriv ∧
      (t.hart h).pc = (u.hart h).retPc ∧ t.f (ENDP_HARTn_STATUS.STATE h) = 2 ∧
      (t.hart h).x = (u.hart h).x.filter (fun e => decide (10 ≤ e.1 ∧ e.1 ≤ 13)) ∧ (t.hart h).f = [] ∧ (t.hart h).v = [])

/-- Traps, interrupts, waits and CSR instructions (R81, R90 to R93, R96, R99, R114, R127, R136, R505, R538): each answers a next state with its own
effect. Where the rules leave a choice, it is the model's: log entries 3, 6, 41 and 55. The constructors whose completion it states:
illegalInstruction, wfi, pauseHint, interrupt, msi, csrAccess, agfteWrite, mhpmeventWrite. -/
def Obligations.HartControlCommandsComplete : Prop :=
  (∀ (s : State) (h raw : Nat) (wrong : List WrongAcc),
    s.ActsEither h raw .illegal wrong (fun u => u.settled h = true ∧ (u.hart h).world = false ∧ (u.hart h).priv = 3) →
    Instr.wellFormed (.illegalInstruction h raw wrong) = true → ∃ u t, s.mayAct h raw .illegal wrong u ∧
      exec (.illegalInstruction h raw wrong) s = .next t ∧ (t.hart h).priv = 3 ∧
      (t.hart h).pc = trapPc ((u.hart h).rd 0x305) false 2 ∧
      (t.hart h).csrIn false 0x341 = (u.hart h).pc ∧ (t.hart h).csrIn false 0x342 = 2 ∧
      (t.hart h).csrIn false 0x343 = BitVec.ofNat 64 (rawBits raw) ∧ (t.hart h).x = (u.hart h).x) ∧
  (∀ (s u : State) (h raw : Nat) (wrong : List WrongAcc), s.acting h raw .wfi = some u → u.settled h = true →
    (u.hart h).pc = (s.hart h).pc → (u.hart h).world = false → (u.hart h).priv = 3 → (u.hart h).mip (u.hartCount h) &&& ((u.hart h).rd 0x304).toNat = 0 →
    Instr.wellFormed (.wfi h raw wrong) = true → ∃ t, exec (.wfi h raw wrong) s = .next t ∧ (t.hart h).run = .wfi ∧ (t.hart h).x = (u.hart h).x ∧
      (t.hart h).pc = (u.hart h).pc + BitVec.ofNat 64 (instrLen raw)) ∧
  (∀ (s u : State) (h raw : Nat), s.acting h raw .pause = some u → u.settled h = true → (u.hart h).world = true →
    Instr.wellFormed (.pauseHint h raw) = true → ∃ t, exec (.pauseHint h raw) s = .next t ∧ (t.hart h).run = .paused ∧ (t.hart h).x = (u.hart h).x ∧
      (t.hart h).pc = (u.hart h).pc + BitVec.ofNat 64 (instrLen raw)) ∧
  (∀ (s : State) (h n : Nat), s.stopped = false → (s.hart h).run = .running → s.f (CPU_CORE_STATUSc.STATE (coreOf h)) < 2 →
    s.cs (coreOf h) < 2 → (s.hart h).io = none → (s.hart h).atomic = none → (s.hart h).takeable (s.hartCount h) = some (0, n) → s.settled h = true →
    Instr.wellFormed (.interrupt h) = true → ∃ t, exec (.interrupt h) s = .next t ∧ (t.hart h).priv = 3 ∧
      (t.hart h).pc = trapPc ((s.hart h).rd 0x305) true n ∧
      (t.hart h).csrIn false 0x341 = (s.hart h).pc ∧ (t.hart h).csrIn false 0x342 = BitVec.ofNat 64 (n + 2 ^ 63) ∧
      (t.hart h).x = (s.hart h).x) ∧
  (∀ (s : State) (h file id : Nat), s.stopped = false → 0 < id → id < 256 → file ≤ 8 →
    Instr.wellFormed (.msi h file id) = true → ∃ t, exec (.msi h file id) s = .next t ∧ ((t.hart h).file file).pend.getLsbD id = true ∧
      (t.hart h).x = (s.hart h).x ∧
      (∀ i, i ≠ id → ((t.hart h).file file).pend.getLsbD i = ((s.hart h).file file).pend.getLsbD i) ∧
      (∀ g, g ≠ file → (t.hart h).file g = (s.hart h).file g)) ∧
  (∀ (s u : State) (h raw : Nat) (wrong : List WrongAcc), s.acting h raw .csr = some u → u.settled h = true →
    (u.hart h).pc = (s.hart h).pc → (u.hart h).world = false → (u.hart h).priv = 3 →
    iF12 (instrWord raw) = 0x340 → iF3 (instrWord raw) = 1 → (u.hart h).virt = false →
    Instr.wellFormed (.csrAccess h raw wrong) = true → ∃ t, exec (.csrAccess h raw wrong) s = .next t ∧
      (t.hart h).csrIn false 0x340 = (u.hart h).getX (iRs1 (instrWord raw)) ∧
      t.Advanced u h raw ((u.hart h).setX (iRd (instrWord raw)) ((u.hart h).csrIn false 0x340)).x) ∧
  (∀ (s u : State) (h raw : Nat) (wrong : List WrongAcc), s.acting h raw .agfte = some u → u.settled h = true →
    (u.hart h).pc = (s.hart h).pc → iF3 (instrWord raw) = 1 → (u.hart h).virt = false →
    (u.hart h).csrCheck 0x8C0 true = .ok → iF12 (instrWord raw) = 0x8C0 →
    Instr.wellFormed (.agfteWrite h raw wrong) = true → ∃ t, exec (.agfteWrite h raw wrong) s = .next t ∧
      (t.hart h).rd 0x8C0 = wmasked ((u.hart h).rd 0x8C0) ((u.hart h).getX (iRs1 (instrWord raw))) 31 ∧
      (t.hart h).pc = (u.hart h).pc + BitVec.ofNat 64 (instrLen raw)) ∧
  (∀ (s u : State) (h raw : Nat) (wrong : List WrongAcc), s.acting h raw .mhpm = some u → u.settled h = true →
    (u.hart h).pc = (s.hart h).pc → iF3 (instrWord raw) = 1 → (u.hart h).world = false →
    (u.hart h).priv = 3 → (u.hart h).virt = false →
    Instr.wellFormed (.mhpmeventWrite h raw wrong) = true → ∃ t, exec (.mhpmeventWrite h raw wrong) s = .next t ∧
      (t.hart h).csrIn false (iF12 (instrWord raw)) = eventValue ((u.hart h).getX (iRs1 (instrWord raw))) ∧
      (t.hart h).pc = (u.hart h).pc + BitVec.ofNat 64 (instrLen raw))

/-- Loads, stores, LR, SC and AMO (R83 to R85, R136, R150): where the access itself answers, the instruction answers a next state with its result in
the register, and a store stands in the hart's store queue. Where the rules leave a choice, it is the model's: log entries 3, 6 and 41 to 43. The
constructors whose completion it states: loadStore, lr, sc, amo, lrHoldEnd. -/
def Obligations.MemoryInstructionsComplete : Prop :=
  (∀ (s u u1 : State) (h raw v : Nat) (fits : Bool) (wrong : List WrongAcc), s.acting h raw .mem = some u → iOp (instrWord raw) = 0x03 →
    u.loadOne h (u.hart h).dataMode .load ((u.hart h).getX (iRs1 (instrWord raw)) + word (immI (instrWord raw))) (2 ^ (iF3 (instrWord raw) % 4)) none
      = (u1, none, .value v) → u1.settled h = true → (u1.hart h).pc = (s.hart h).pc →
    Instr.wellFormed (.loadStore h raw false fits wrong) = true → ∃ t, exec (.loadStore h raw false fits wrong) s = .next t ∧
      t.Advanced u1 h raw ((u1.hart h).setX (iRd (instrWord raw))
      (if iF3 (instrWord raw) < 4 then word (sgn (8 * 2 ^ (iF3 (instrWord raw) % 4)) v) else BitVec.ofNat 64 v)).x) ∧
  (∀ (s u u1 u2 : State) (h raw pa n : Nat) (va : Word) (fits : Bool) (wrong : List WrongAcc), s.acting h raw .mem = some u →
    iOp (instrWord raw) = 0x23 → n = 2 ^ iF3 (instrWord raw) →
      va = (u.hart h).maskAddr (u.hart h).dataMode .store ((u.hart h).getX (iRs1 (instrWord raw)) + word (immS (instrWord raw))) →
    u.dataTrigger h [1] va = none → u.locate h (u.hart h).dataMode .store va n = (u1, .at [(pa, n, va)]) → u1.region pa = .dram →
    (u1.ownDram pa && u1.guardRefuses 0 pa (u1.hart h).world true) = false → u1.farOwned h (lineParts [(pa, n, va)]) = (u2, .value 0) →
    (u2.hart h).stores.length < 64 → u2.settled h = true → (u2.hart h).pc = (s.hart h).pc →
    Instr.wellFormed (.loadStore h raw false fits wrong) = true → ∃ t, exec (.loadStore h raw false fits wrong) s = .next t ∧
      t.Advanced u2 h raw (u2.hart h).x ∧ (t.hart h).stores = (u2.hart h).stores ++
        [retire (u1.hart h).world (u2.hart h).ntl (pa, n, va) (((u.hart h).getX (iRs2 (instrWord raw))).toNat % 2 ^ (8 * n))] ∧
      t.dram = u2.dram ∧ t.tiles = u2.tiles) ∧
  (∀ (s u u0 u1 : State) (h raw pa n : Nat) (va : Word) (d : Line) (wrong : List WrongAcc), s.acting h raw .lr = some u →
    n = 2 ^ iF3 (instrWord raw) → (u1.hart h).pc = (s.hart h).pc →
    va = (u.hart h).maskAddr (u.hart h).dataMode .load ((u.hart h).getX (iRs1 (instrWord raw))) → u.dataTrigger h [0] va = none → va.toNat % n = 0 →
    u.locateOne h (u.hart h).dataMode .load va n = (u0, .ok pa) → u0.region pa = .dram →
    u0.ownLineFor h .reserve (pa, n, va) = (u1, some (some d)) → u1.settled h = true →
    Instr.wellFormed (.lr h raw wrong) = true → ∃ t, exec (.lr h raw wrong) s = .next t ∧ (t.hart h).resv = some (pa / 64) ∧ (t.hart h).constrained = true ∧
      t.Advanced u1 h raw ((u1.hart h).setX (iRd (instrWord raw)) (word (sgn (8 * n) ((u1.hart h).forward pa n (lineBits d (pa % 64) n))))).x) ∧
  (∀ (s u u1 : State) (h raw pa n : Nat) (va : Word) (wrong : List WrongAcc), s.acting h raw .sc = some u →
    n = 2 ^ iF3 (instrWord raw) → (u1.hart h).pc = (s.hart h).pc →
    va = (u.hart h).maskAddr (u.hart h).dataMode .store ((u.hart h).getX (iRs1 (instrWord raw))) → u.dataTrigger h [1] va = none → va.toNat % n = 0 →
    u.locateOne h (u.hart h).dataMode .store va n = (u1, .ok pa) → u1.region pa = .dram → (u1.hart h).resv ≠ some (pa / 64) →
    u1.settled h = true →
    Instr.wellFormed (.sc h raw wrong) = true → ∃ t, exec (.sc h raw wrong) s = .next t ∧ (t.hart h).resv = none ∧
      t.Advanced u1 h raw ((u1.hart h).setX (iRd (instrWord raw)) 1).x ∧
      t.tiles = u1.tiles ∧ t.dram = u1.dram) ∧
  (∀ (s u u0 u1 u2 : State) (h raw pa n : Nat) (va : Word) (d : Line) (wrong : List WrongAcc), s.acting h raw .sc = some u →
    n = 2 ^ iF3 (instrWord raw) → (u2.hart h).pc = (s.hart h).pc →
    va = (u.hart h).maskAddr (u.hart h).dataMode .store ((u.hart h).getX (iRs1 (instrWord raw))) → u.dataTrigger h [1] va = none → va.toNat % n = 0 →
    u.locateOne h (u.hart h).dataMode .store va n = (u0, .ok pa) → u0.region pa = .dram → (u0.hart h).resv = some (pa / 64) →
    (u0.hart h).stores = [] → u0.ownLineFor h .write (pa, n, va) = (u1, some (some d)) → (u1.hart h).resv = some (pa / 64) →
    u2 = u1.writeOwned h (pa, n, va) ((u1.hart h).getX (iRs2 (instrWord raw))).toNat → u2.settled h = true →
    Instr.wellFormed (.sc h raw wrong) = true → ∃ t, exec (.sc h raw wrong) s = .next t ∧ (t.hart h).resv = none ∧
      t.Advanced u2 h raw ((u2.hart h).setX (iRd (instrWord raw)) 0).x ∧
      t.tiles = u2.tiles) ∧
  (∀ (s u u0 u1 u2 : State) (h raw pa n : Nat) (va : Word) (d : Line) (wrong : List WrongAcc), s.acting h raw .amo = some u →
    n = 2 ^ iF3 (instrWord raw) → n < 16 → (u2.hart h).pc = (s.hart h).pc →
    va = (u.hart h).maskAddr (u.hart h).dataMode .store ((u.hart h).getX (iRs1 (instrWord raw))) → u.dataTrigger h [0, 1] va = none → va.toNat % n = 0 →
    u.locateOne h (u.hart h).dataMode .store va n = (u0, .ok pa) → u0.region pa = .dram → (u0.hart h).stores = [] →
    u0.ownLineFor h .write (pa, n, va) = (u1, some (some d)) →
    ((ib (instrWord raw) 31 27 ≠ 5 ∧ u2 = u1.writeOwned h (pa, n, va) (amoValue (ib (instrWord raw) 31 27) (8 * n) (lineBits d (pa % 64) n)
      (((u1.hart h).getX (iRs2 (instrWord raw))).toNat % 2 ^ (8 * n)))) ∨
     (ib (instrWord raw) 31 27 = 5 ∧ lineBits d (pa % 64) n = ((u1.hart h).getX (iRd (instrWord raw))).toNat % 2 ^ (8 * n) ∧
      u2 = u1.writeOwned h (pa, n, va) (((u1.hart h).getX (iRs2 (instrWord raw))).toNat % 2 ^ (8 * n))) ∨
     (ib (instrWord raw) 31 27 = 5 ∧ lineBits d (pa % 64) n ≠ ((u1.hart h).getX (iRd (instrWord raw))).toNat % 2 ^ (8 * n) ∧ u2 = u1)) →
    u2.settled h = true →
    Instr.wellFormed (.amo h raw wrong) = true → ∃ t, exec (.amo h raw wrong) s = .next t ∧ t.tiles = u2.tiles ∧
      t.Advanced u2 h raw ((u2.hart h).setX (iRd (instrWord raw)) (word (sgn (8 * n) (lineBits d (pa % 64) n)))).x) ∧
  (∀ (s : State) (h : Nat), s.stopped = false → (s.hart h).constrained = true → s.settled h = true →
    Instr.wellFormed (.lrHoldEnd h) = true → exec (.lrHoldEnd h) s = .next (s.modHart h (fun t => { t with constrained := false })))

/-- Integer and floating-point instructions (R78, R87, R101), fences, prefetches and cache-block operations (R86, R91, R171, R191): each answers a
next state with its own effect. Where the rules leave a choice, it is the model's: log entries 3, 6, 9, 16 and 41. The constructors whose
completion it states: integerInstruction, floatingPointInstruction, fence, fenceI, prefetch, cboZero, cboClean, cboFlush, cboInval. -/
def Obligations.ArithmeticAndCacheInstructionsComplete : Prop :=
  (∀ (s u : State) (h raw : Nat) (v : Word) (wrong : List WrongAcc), s.acting h raw .int = some u → u.settled h = true →
    (u.hart h).pc = (s.hart h).pc → iOp (instrWord raw) = 0x33 → rvAluOp (iF7 (instrWord raw)) (iF3 (instrWord raw)) ((u.hart h).getX (iRs1 (instrWord raw))) ((u.hart h).getX (iRs2 (instrWord raw))) = some v →
    Instr.wellFormed (.integerInstruction h raw wrong) = true → ∃ t, exec (.integerInstruction h raw wrong) s = .next t ∧
      t.Advanced u h raw ((u.hart h).setX (iRd (instrWord raw)) v).x) ∧
  (∀ (s u : State) (h raw : Nat) (v : Word) (wrong : List WrongAcc), s.acting h raw .int = some u → u.settled h = true →
    (u.hart h).pc = (s.hart h).pc → iOp (instrWord raw) = 0x13 → aluImm (instrWord raw) ((u.hart h).getX (iRs1 (instrWord raw))) = some v →
    Instr.wellFormed (.integerInstruction h raw wrong) = true → ∃ t, exec (.integerInstruction h raw wrong) s = .next t ∧
      t.Advanced u h raw ((u.hart h).setX (iRd (instrWord raw)) v).x) ∧
  (∀ (s : State) (h raw : Nat) (wrong : List WrongAcc), s.ActsEither h raw .int wrong (fun u => u.settled h = true) →
    iOp (instrWord raw) = 0x6F → Instr.wellFormed (.integerInstruction h raw wrong) = true →
    ∃ u t, s.mayAct h raw .int wrong u ∧ exec (.integerInstruction h raw wrong) s = .next t ∧
      (t.hart h).pc = (u.hart h).pc + word (immJ (instrWord raw)) ∧
      (t.hart h).x = ((u.hart h).setX (iRd (instrWord raw)) ((u.hart h).pc + BitVec.ofNat 64 (instrLen raw))).x) ∧
  (∀ (s : State) (h raw : Nat) (taken : Bool) (wrong : List WrongAcc), s.ActsEither h raw .int wrong (fun u => u.settled h = true ∧
      branchTaken (iF3 (instrWord raw)) ((u.hart h).getX (iRs1 (instrWord raw))) ((u.hart h).getX (iRs2 (instrWord raw))) = some taken) →
    iOp (instrWord raw) = 0x63 → Instr.wellFormed (.integerInstruction h raw wrong) = true →
    ∃ u t, s.mayAct h raw .int wrong u ∧ exec (.integerInstruction h raw wrong) s = .next t ∧ (t.hart h).x = (u.hart h).x ∧
      (t.hart h).pc = (u.hart h).pc + (if taken then word (immB (instrWord raw)) else BitVec.ofNat 64 (instrLen raw))) ∧
  (∀ (s u : State) (h raw : Nat) (t' : Hart) (wrong : List WrongAcc), s.acting h raw .fp = some u → u.settled h = true →
    t'.pc = (s.hart h).pc →
    (u.hart h).execFp (fun k => (Config.freeWord (u.free + k)).toNat) (instrWord raw) = .done t' →
      t'.csrIn false 0x7B0 = (u.hart h).csrIn false 0x7B0 →
    Instr.wellFormed (.floatingPointInstruction h raw wrong) = true → ∃ t, exec (.floatingPointInstruction h raw wrong) s = .next t ∧
      (t.hart h).x = t'.x ∧
      (t.hart h).f = t'.f ∧ (t.hart h).v = t'.v ∧
      (t.hart h).pc = t'.pc + BitVec.ofNat 64 (instrLen raw)) ∧
  (∀ (s u : State) (h raw : Nat), s.acting h raw .fence = some u → u.settled h = true → u.storesDone h = true →
    Instr.wellFormed (.fence h raw) = true → ∃ t, exec (.fence h raw) s = .next t ∧ t.Advanced u h raw (u.hart h).x ∧ t.tiles = u.tiles ∧
      t.dram = u.dram) ∧
  (∀ (s u : State) (h raw : Nat), s.acting h raw .fenceI = some u → u.settled h = true → (u.hart h).stores = [] →
    Instr.wellFormed (.fenceI h raw) = true → ∃ t, exec (.fenceI h raw) s = .next t ∧ t.Advanced u h raw (u.hart h).x ∧ t.tiles = u.tiles ∧
      t.dram = u.dram) ∧
  (∀ (s u u1 u2 : State) (h raw pa kind T : Nat) (va : Word) (m : AccMode) (a : MemAcc) (l1 : Bool) (r : HoldResult),
    s.acting h raw .prefetch = some u → u.Prefetches h raw kind m a va → u.locateOne h m a va 1 = (u1, .ok pa) → u1.region pa = .dram →
    (u1.ownDram pa && u1.guardRefuses 0 pa (u.hart h).world (decide (kind = 3))) = false → T = u1.tileOfHart h →
    l1 = u1.l1Hit T (decide (kind ≠ 0)) va.toNat (pa / 64) (u.hart h).world →
    (u1.l1Miss T h (pa / 64) (decide (kind ≠ 0)) l1).reach T h (pa / 64) (if kind = 3 then .write else .read true) (u.hart h).world (u.hart h).ntl l1
      = (u2, r) → u2.settled h = true →
    Instr.wellFormed (.prefetch h raw) = true → ∃ t, exec (.prefetch h raw) s = .next t ∧ t.Advanced u2 h raw (u2.hart h).x ∧
      (r = .held → t.tile T = (u2.tile T).fillL1 (decide (kind ≠ 0)) va.toNat (pa / 64) (u.hart h).ntl (u2.usable T (if kind = 0 then .l1i else .l1d))) ∧
      (r ≠ .held → t.tiles = u2.tiles)) ∧
  (∀ (s u u1 : State) (h raw kind : Nat) (va : Word) (m : AccMode) (a : MemAcc) (r : Trans), s.acting h raw .prefetch = some u →
    u.Prefetches h raw kind m a va → u.locateOne h m a va 1 = (u1, r) → (∀ pa, r = .ok pa → u1.region pa ≠ .dram) → u1.settled h = true →
    Instr.wellFormed (.prefetch h raw) = true → ∃ t, exec (.prefetch h raw) s = .next t ∧ t.Advanced u1 h raw (u1.hart h).x ∧ t.tiles = u1.tiles ∧
      t.sent = u1.sent) ∧
  (∀ (s u u0 u1 : State) (h raw pa T : Nat) (va : Word) (l1 : Bool) (wrong : List WrongAcc), s.acting h raw .zero = some u →
    (u.hart h).priv = 3 → (u1.hart h).pc = (s.hart h).pc → va = (u.hart h).maskAddr (u.hart h).dataMode .store ((u.hart h).getX (iRs1 (instrWord raw))) → u.dataTrigger h [1] va = none →
    u.locateOne h (u.hart h).dataMode .store va 1 = (u0, .ok pa) → u0.region pa = .dram → (u0.hart h).stores = [] → T = u0.tileOfHart h →
    l1 = u0.l1Hit T true va.toNat (pa / 64) (u.hart h).world →
    ((((u0.tile T).holds (pa / 64)).any (fun e => decide (e.st = .modified ∨ e.st = .exclusive)) = true ∧
        (u0.l1Miss T h (pa / 64) true l1).reach T h (pa / 64) .write (u.hart h).world (u.hart h).ntl l1 = (u1, .held)) ∨
      (((u0.tile T).holds (pa / 64)).any (fun e => decide (e.st = .modified ∨ e.st = .exclusive)) = false ∧
        ∃ u', ((u0.l1Miss T h (pa / 64) true l1).countReach T h (pa / 64) (u.hart h).world).tileRequest T h (pa / 64) .zero (u.hart h).world
          (u.hart h).ntl [] = (u', .held) ∧ u1 = u'.modTile T (fun x => x.took (pa / 64)))) →
    u1.mayWrite T (pa / 64) = true → u1.settled h = true →
    Instr.wellFormed (.cboZero h raw wrong) = true → ∃ t, exec (.cboZero h raw wrong) s = .next t ∧ t.Advanced u1 h raw (u1.hart h).x ∧ t.tile T =
      ((u1.tile T).fillL1 true va.toNat (pa / 64) (u.hart h).ntl (u1.usable T .l1d)).writeLine (pa / 64) (fun _ => 0) true) ∧
  (∀ (s u u0 u1 : State) (h raw pa : Nat) (va : Word) (k : ReqKind) (c : Instr) (r : HoldResult) (wrong : List WrongAcc), (u.hart h).priv = 3 →
    ((c = .cboClean h raw wrong ∧ k = .cmoClean ∧ s.acting h raw .clean = some u) ∨
      (c = .cboFlush h raw wrong ∧ k = .cmoFlush ∧ s.acting h raw .flush = some u) ∨
      (c = .cboInval h raw wrong ∧ k = .cmoInval ∧ s.acting h raw .inval = some u)) → (u1.hart h).pc = (s.hart h).pc →
    va = (u.hart h).maskAddr (u.hart h).dataMode .store ((u.hart h).getX (iRs1 (instrWord raw))) → u.dataTrigger h [1] va = none →
    u.locateOne h (u.hart h).dataMode .store va 1 = (u0, .ok pa) → u0.region pa = .dram →
    (u0.ownDram pa && u0.guardRefuses 0 pa (u.hart h).world true) = false → (u0.hart h).stores = [] → u0.cmo h (pa / 64) k = (u1, r) →
    (r = .held ∨ (r = .waits ∧ u1.ownDram pa = true)) → u1.settled h = true →
    c.wellFormed = true → ∃ t, exec c s = .next t ∧ t.Advanced u1 h raw (u1.hart h).x ∧ t.tiles = u1.tiles)

/-- Detection, retry and sparing (R129 to R145, R149, R151): each command answers a next state with its own effect. Where the rules leave a choice, it
is the model's: log entries 21, 56, 57 and 68. The constructors whose completion it states: detection, retrySuccess, keepScrub, keepIslandSupply,
clockFailure, powerFailure, hang, performRetiredStores, cpuSpareCmdGo. -/
def Obligations.RetryAndSparingCommandsComplete : Prop :=
  (∀ (s : State) (c u a e : Nat) (d : Detection), s.stopped = false → s.f (CPU_CORE_STATUSc.STATE c) = 0 → (s.core c).retrying = false →
    (s.core c).retryDue = false → (d = .logic ∨ ((d = .registerFile ∨ d = .entry) ∧ (s.core c).hardOnce.contains (u, a, e) = false)) →
    (s.tile (s.tileOfCore c)).held = [] → Instr.wellFormed (.detection c d u a e) = true →
    (s.ioOut c = false → ∃ t, exec (.detection c d u a e) s = .next t ∧ t.f (CPU_CORE_STATUSc.STATE c) = 1 ∧ (t.core c).retrying = true ∧
      (t.core c).hardOnce = (if d = .logic then (s.core c).hardOnce else (u, a, e) :: (s.core c).hardOnce) ∧
      (t.hart (2 * c)).resv = none ∧ (t.hart (2 * c + 1)).resv = none ∧
      (t.hart (2 * c)).sinceRetry = 0 ∧ (t.hart (2 * c + 1)).sinceRetry = 0) ∧
    (s.ioOut c = true → ∃ t, exec (.detection c d u a e) s = .next t ∧ (t.core c).retryDue = true ∧ (t.core c).retrying = false ∧
      t.harts = s.harts)) ∧
  (∀ (s : State) (c : Nat), s.stopped = false → (s.core c).retrying = true → (s.core c).retryDue = false → s.attemptDone c = true →
    (s.core c).warned = false → s.f CPU_RAS_CTL.RETRY_WARN ≠ 0 → s.f CPU_RAS_CTL.RETRY_WARN ≤ (s.core c).good + 1 →
    Instr.wellFormed (.retrySuccess c) = true → ∃ t, exec (.retrySuccess c) s = .next t ∧ t.f (CPU_CORE_STATUSc.STATE c) = 0 ∧
      (t.core c).retrying = false ∧
      (t.core c).good = (s.core c).good + 1 ∧ t.on CPU_RAS_ALARM.RETRY_WARN = true ∧ t.on (CPU_CORE_STATUSc.WARN c) = true ∧ t.harts = s.harts) ∧
  (∀ (s : State) (c : Nat), s.stopped = false →
    Instr.wellFormed (.keepScrub c .clean) = true → exec (.keepScrub c .clean) s = .next s ∧
      exec (.keepScrub c .corrected) s = .next ((s.lifeInc (tileLife (s.tileOfCore c) + 16) 0 32).raise CPU_RAS_ALARM.KEEP_CE)) ∧
  (∀ (s : State) (c : Nat), s.stopped = false → s.f (CPU_CORE_STATUSc.STATE c) < 2 → s.f (CPU_SPARE_MAPn.SPARE (c / 8)) = 15 →
    Instr.wellFormed (.keepIslandSupply c) = true →
      exec (.keepIslandSupply c) s = .next ((s.modCore c (fun x => { x with keepLost := true })).raise (CPU_CORE_STATUSc.UNPROT c)) ∧
    exec (.keepScrub c .lost) s = .next (((s.lifeInc (tileLife (s.tileOfCore c) + 16) 0 32).modCore c (fun x =>
      { x with keepLost := true })).raise (CPU_CORE_STATUSc.UNPROT c))) ∧
  (∀ (s : State) (c l : Nat) (i : Instr) (r : Nat), s.stopped = false → s.f (CPU_CORE_STATUSc.STATE c) < 2 → s.hasSpare c = true →
    s.on (CPU_CORE_STATUSc.UNPROT c) = false →
    ((i = .clockFailure c ∧ r = 4) ∨ (i = .powerFailure c l ∧ r = 5) ∨
      (∃ h, i = .hang h ∧ coreOf h = c ∧ r = 3 ∧ s.runs h = true ∧ (s.hart h).waitsOut = false)) →
    i.wellFormed = true → ∃ t k, exec i s = .next t ∧ t.f (CPU_CORE_STATUSc.STATE c) = 2 ∧ t.f (CPU_CORE_STATUSc.REASON c) = r ∧ (t.core c).takeover = some k ∧
      k.src = s.f (CPU_CORE_STATUSc.TILE c) ∧ k.dst = s.f (CPU_SPARE_MAPn.SPARE (c / 8)) ∧ k.reason = r ∧ k.ready = false) ∧
  (∀ (s : State) (c : Nat), s.stopped = false → s.f (CPU_CORE_STATUSc.STATE c) < 2 → s.f (CPU_SPARE_MAPn.SPARE (c / 8)) = 15 →
    (s.core c).takeover = none → Instr.wellFormed (.clockFailure c) = true → ∃ t, exec (.clockFailure c) s = .next t ∧ t.f (CPU_CORE_STATUSc.STATE c) = 3 ∧
      t.on CPU_RAS_ALARM.LOST = true ∧
      (t.hart (2 * c)).run = .stopped ∧ (t.hart (2 * c + 1)).run = .stopped ∧ (t.core c).takeover = none) ∧
  (∀ (s u : State) (c : Nat) (k : Takeover), s.stopped = false → (s.core c).takeover = some k → k.ready = false → k.routerOut = false →
    (s.stepTaken (.spare c)).isSome = true → s.ioOut c = false → (s.core c).keepLost = false → u = s.flushTile (9 * (c / 8) + k.src) →
    (u.hart (2 * c)).stores = [] → (u.hart (2 * c + 1)).stores = [] →
    Instr.wellFormed (.performRetiredStores c false) = true → ∃ t, exec (.performRetiredStores c false) s = .next t ∧
      (t.core c).takeover = some { k with ready := true } ∧ t.tiles = u.tiles ∧ t.dram = u.dram) ∧
  (∀ (s : State) (who : Requester) (v : Word), s.stopped = false → s.admits who 8 CPU_SPARE_CMD v = true → CPU_SPARE_CMD.GO.of v = 1 →
    s.moveRefused (CPU_SPARE_CMD.LCORE.of v) = false →
    ∃ t, exec (.cpuSpareCmdGo who v) s = .next t ∧ t.f (CPU_CORE_STATUSc.STATE (CPU_SPARE_CMD.LCORE.of v)) = 2 ∧
      t.f (CPU_CORE_STATUSc.REASON (CPU_SPARE_CMD.LCORE.of v)) = 7 ∧ ((t.core (CPU_SPARE_CMD.LCORE.of v)).takeover).isSome = true)

/-- Errors of arrays and slices (R163 to R166, R169, R170): each command answers a next state with its own effect. Where the rules leave a choice, it
is the model's: log entries 21 and 65. The constructors whose completion it states: arrayError, wayWalkEnd, l3SliceCmdGo, handoffEnd,
sliceControlCheck. -/
def Obligations.ArrayAndSliceCommandsComplete : Prop :=
  (∀ (s : State) (t set w : Nat) (k : ArrayKind), s.stopped = false →
    (s.wayState t k).corrected.get 0 (k.num * 16 + w) + 1 < s.wayThresh k → (s.tile t).held = [] →
    Instr.wellFormed (.arrayError t false k set w .corrected) = true → ∃ u, exec (.arrayError t false k set w .corrected) s = .next u ∧
      (u.wayState t k).corrected.get 0 (k.num * 16 + w) = (s.wayState t k).corrected.get 0 (k.num * 16 + w) + 1 ∧ u.dram = s.dram) ∧
  (∀ (s : State) (t w : Nat) (k : ArrayKind), s.stopped = false → t < 216 → w < 8 → (k = .l1i ∨ k = .l1d) →
    (s.wayState t k).walking.find? (fun x => decide (x.1 = k)) = some (k, w) → (s.tile t).held = [] →
    Instr.wellFormed (.wayWalkEnd t k) = true → ∃ u, exec (.wayWalkEnd t k) s = .next u ∧ (u.f (retiredField t k)).testBit w = true ∧
      u.on CPU_CACHE_ALARM.L1_RET = true ∧ u.dram = s.dram) ∧
  (∀ (s : State) (who : Requester) (v : Word), s.stopped = false → s.admits who 8 L3_SLICE_CMD v = true → L3_SLICE_CMD.GO.of v = 1 →
    L3_SLICE_CMD.SLICE.of v < 216 → (∀ m < 216, s.f (L3_SLICE_STATUSs.STATE m) = 0) →
    ∃ t, exec (.l3SliceCmdGo who v) s = .next t ∧ t.f (L3_SLICE_STATUSs.STATE (L3_SLICE_CMD.SLICE.of v)) = 1 ∧
      t.on L3_RAS_ALARM.SLICE_RETIRING = true ∧ t.waiting = s.waiting ++ [{ notBefore := s.leaf + 3, change := .slice (L3_SLICE_CMD.SLICE.of v) }]) ∧
  (∀ (s : State) (who : Requester) (v : Word), s.stopped = false → s.admits who 8 L3_SLICE_CMD v = true → L3_SLICE_CMD.GO.of v = 1 →
    s.f (L3_SLICE_STATUSs.STATE (L3_SLICE_CMD.SLICE.of v)) ≠ 0 →
    exec (.l3SliceCmdGo who v) s = .next (s.raise L3_RAS_ALARM.CMD_REFUSED)) ∧
  (∀ (s : State) (n : Nat), s.stopped = false → n < 216 → s.f (L3_SLICE_STATUSs.STATE n) = 2 →
    Instr.wellFormed (.handoffEnd n) = true → ∃ t, exec (.handoffEnd n) s = .next t ∧ t.f (L3_SLICE_STATUSs.STATE n) = 3 ∧
      t.f (L3_SLICE_STATUSs.ENTRIES n) = s.f (L3_SLICE_STATUSs.ENTRIES n) ∧
      t.on L3_RAS_ALARM.SLICE_RETIRED = true ∧ (t.slice n).l3 = {} ∧ (t.slice n).dir = (s.slice n).dir) ∧
  (∀ (s : State) (n : Nat) (dir : Bool), s.stopped = false → n < 216 → s.f (L3_SLICE_STATUSs.STATE n) = 0 →
    Instr.wellFormed (.sliceControlCheck n dir) = true → ∃ t, exec (.sliceControlCheck n dir) s = .next t ∧ t.f (L3_SLICE_STATUSs.STATE n) = 1 ∧
      t.on L3_RAS_ALARM.SLICE_RETIRING = true ∧
      (dir = true → (t.slice n).dirBad = true) ∧ t.waiting = s.waiting ++ [{ notBefore := s.leaf + 3, change := .slice n }])

/-- Requests of another module's tiles and engines at a home of this module (R175, R179, R183, R188, R200): where the line is populated, no guard
refuses it, its window is not being handed over and the home holds no other transaction, each is served: a packet answers it, and the directory
knows the holder. Where the rules leave a choice, it is the model's: log entries 3, 19, 34, 58 and 60. The constructors whose completion it states: rds, rdown, upg, zero, rdcur, wrfull,
wrpart, wb, evn, cmoClean, cmoFlush, cmoInvalidate. -/
def Obligations.HomeRequestsComplete : Prop :=
  (∀ (s u : State) (m t line home : Nat) (w nl : Bool) (err : LineErr) (d : Line) (p : Bool), s.stopped = false → s.svc.warmAt = none →
      m ≠ s.moduleNo →
    s.populated (line * 64) = true → s.guardRefuses 0 (line * 64) w false = false → home = s.homeSlice (line * 64) → s.slice home = {} →
    s.recoveries = [] → s.leaving line = false → s.readLine (line * 64) err = (u, d, p) → u.slices = s.slices → u.moduleNo = s.moduleNo →
    (Instr.wellFormed (.rds m t line w true nl err) = true → ∃ v, exec (.rds m t line w true nl err) s = .next v ∧
      .packet 3 0 m t (256 + home) (line * 64) w p (some d) 64 none ∈ v.sent ∧
      (v.slice home).dirOf line = some { line := line, owned := true, holders := [(m, t)] }) ∧
    (Instr.wellFormed (.rds m t line w false nl err) = true → ∃ v, exec (.rds m t line w false nl err) s = .next v ∧
      .packet 3 0 m t (256 + home) (line * 64) w p (some d) 64 none ∈ v.sent ∧
      (v.slice home).dirOf line = some { line := line, owned := false, holders := [(m, t)], fwd := some (m, t) })) ∧
  (∀ (s u : State) (m t line home : Nat) (w nl : Bool) (err : LineErr) (d : Line) (p : Bool), s.stopped = false → s.svc.warmAt = none →
      m ≠ s.moduleNo →
    s.populated (line * 64) = true → s.guardRefuses 0 (line * 64) w true = false → home = s.homeSlice (line * 64) → s.slice home = {} →
    s.recoveries = [] → s.leaving line = false → s.readLine (line * 64) err = (u, d, p) → u.slices = s.slices → u.moduleNo = s.moduleNo →
    Instr.wellFormed (.rdown m t line w nl err) = true → ∃ v, exec (.rdown m t line w nl err) s = .next v ∧
      .packet 3 0 m t (256 + home) (line * 64) w p (some d) 64 none ∈ v.sent ∧
      (v.slice home).dirOf line = some { line := line, owned := true, holders := [(m, t)] }) ∧
  (∀ (s : State) (m t line home way : Nat) (w : Bool) (e : DirEntry), s.stopped = false → s.svc.warmAt = none → m ≠ s.moduleNo →
    s.populated (line * 64) = true → s.guardRefuses 0 (line * 64) w true = false → home = s.homeSlice (line * 64) → (s.slice home).txns = [] →
    (s.slice home).stalled = [] → s.recoveries = [] → s.leaving line = false → (s.slice home).dirWay line = some way → (s.slice home).dirOf line = some e →
    e.coarse = false → e.owned = false → e.holders = [(m, t)] →
    Instr.wellFormed (.upg m t line w) = true → ∃ v, exec (.upg m t line w) s = .next v ∧ .packet 2 0 m t (256 + home) (line * 64) w false none 64 none ∈ v.sent ∧
      (v.slice home).dirOf line = some { line := line, owned := true, holders := [(m, t)] } ∧ v.dram = s.dram) ∧
  (∀ (s : State) (m t line home : Nat) (w : Bool), s.stopped = false → s.svc.warmAt = none → m ≠ s.moduleNo →
    s.populated (line * 64) = true → s.guardRefuses 0 (line * 64) w true = false → home = s.homeSlice (line * 64) → s.slice home = {} →
    s.recoveries = [] → s.leaving line = false →
    Instr.wellFormed (.zero m t line w) = true → ∃ v, exec (.zero m t line w) s = .next v ∧ .packet 3 1 m t (256 + home) (line * 64) w false (some 0) 64 none ∈ v.sent ∧
      (v.slice home).dirOf line = some { line := line, owned := true, holders := [(m, t)] } ∧ v.dram = s.dram) ∧
  (∀ (s u : State) (m die line home : Nat) (err : LineErr) (d : Line) (p : Bool), s.stopped = false → s.svc.warmAt = none → m ≠ s.moduleNo →
    s.populated (line * 64) = true → s.guardRefuses 0 (line * 64) false false = false → home = s.homeSlice (line * 64) → s.slice home = {} →
    s.recoveries = [] → s.leaving line = false → s.readLine (line * 64) err = (u, d, p) → u.slices = s.slices → u.moduleNo = s.moduleNo →
    Instr.wellFormed (.rdcur m die line err) = true → ∃ v, exec (.rdcur m die line err) s = .next v ∧
      .packet 3 0 m (216 + die) (256 + home) (line * 64) false p (some d) 64 none ∈ v.sent ∧
      (v.slice home).dirOf line = none) ∧
  (∀ (s u : State) (die line home : Nat) (err : LineErr) (d : Line) (p : Bool), s.stopped = false → s.populated (line * 64) = true →
    s.guardRefuses 0 (line * 64) false false = false → home = s.homeSlice (line * 64) → s.slice home = {} → s.recoveries = [] → s.leaving line = false →
    s.readLine (line * 64) err = (u, d, p) → u.slices = s.slices → u.moduleNo = s.moduleNo →
    Instr.wellFormed (.rdcur s.moduleNo die line err) = true → ∃ v, exec (.rdcur s.moduleNo die line err) s = .next v ∧
      v.curCopies.get none (copyKey die line false) = some (d, p) ∧ (v.slice home).dirOf line = none) ∧
  (∀ (s : State) (m die line home k : Nat) (d : Line) (p : Place), s.stopped = false → s.svc.warmAt = none → m ≠ s.moduleNo →
    s.populated (line * 64) = true → s.guardRefuses 0 (line * 64) false true = false → home = s.homeSlice (line * 64) → s.slice home = {} →
    s.recoveries = [] → s.leaving line = false → s.halfScrubbed p.lower p.line = false →
    s.place (line * 64) = some p → s.writeOrder p = [k] → s.movingTo (line * 64) = none →
    Instr.wellFormed (.wrfull m die line d false) = true → ∃ v, exec (.wrfull m die line d false) s = .next v ∧
      .packet 2 0 m (216 + die) (256 + home) (line * 64) false false none 64 none ∈ v.sent ∧
      v.dram = Memory.writeLine s.dram (lineAddr k p.line) d) ∧
  (∀ (s : State) (m die line home k : Nat) (d : Line) (mask : BitVec 64) (err : LineErr) (p : Place) (e : CLine), s.stopped = false →
    s.svc.warmAt = none → m ≠ s.moduleNo → s.populated (line * 64) = true → s.guardRefuses 0 (line * 64) false true = false →
    home = s.homeSlice (line * 64) → (s.slice home).txns = [] → (s.slice home).stalled = [] →
    s.recoveries = [] → s.leaving line = false → s.halfScrubbed p.lower p.line = false → (s.slice home).dir = [] → s.l3Allocates home = true → s.l3Find home line = some e →
    e.poison = false → s.place (line * 64) = some p → s.writeOrder p = [k] → s.movingTo (line * 64) = none →
    Instr.wellFormed (.wrpart m die line d mask false err) = true → ∃ v, exec (.wrpart m die line d mask false err) s = .next v ∧
      .packet 2 0 m (216 + die) (256 + home) (line * 64) false false none 64 none ∈ v.sent ∧
      v.dram = Memory.writeLine s.dram (lineAddr k p.line) (lineMerge e.data d mask)) ∧
  (∀ (s : State) (m t line home k : Nat) (d : Line) (p : Place) (w : Bool), s.stopped = false → s.ownLine line = true → home = s.homeSlice (line * 64) →
    (s.slice home).txns = [] → s.place (line * 64) = some p → s.halfScrubbed p.lower p.line = false → s.writeOrder p = [k] →
    s.movingTo (line * 64) = none →
    Instr.wellFormed (.wb m t line d false true w) = true → ∃ v, exec (.wb m t line d false true w) s = .next v ∧
      .packet 2 0 m t (256 + home) (line * 64) w false none 64 none ∈ v.sent ∧
      v.dram = Memory.writeLine s.dram (lineAddr k p.line) d) ∧
  (∀ (s : State) (m t line home : Nat), s.stopped = false → s.ownLine line = true → home = s.homeSlice (line * 64) → (s.slice home).txns = [] →
    Instr.wellFormed (.evn m t line) = true → exec (.evn m t line) s = .next (s.dirRemove home line (m, t))) ∧
  (∀ (s : State) (m t line home : Nat) (w : Bool) (c : Instr), s.stopped = false → s.svc.warmAt = none → m ≠ s.moduleNo →
    s.populated (line * 64) = true → s.guardRefuses 0 (line * 64) w true = false → home = s.homeSlice (line * 64) → s.slice home = {} →
    s.recoveries = [] → s.leaving line = false → (c = .cmoClean m t line w ∨ c = .cmoFlush m t line w ∨ c = .cmoInvalidate m t line w) →
    c.wellFormed = true → ∃ v, exec c s = .next v ∧ .packet 2 0 m t (256 + home) (line * 64) w false none 64 none ∈ v.sent ∧ (v.slice home).dirOf line = none ∧
      v.dram = s.dram)

/-- Snoops of another module's home at a tile, and the answers to a tile (R176, R183 to R186, R200): each answers a next state. Where the rules leave
a choice, it is the model's: log entries 3, 19, 58 and 60. The constructors whose completion it states: snpshr, snpinv, snpkill, snpdrop,
snpclean, snpcur, snpset, snpslice, doneResponse, notHeld, wbInFlight, accessFault, guardRefusal, cleanData, modifiedDataPassedOn, snoopTimeout. -/
def Obligations.SnoopCommandsComplete : Prop :=
  (∀ (s : State) (t line rm ru : Nat) (e : CLine), s.stopped = false → s.ownLine line = false → s.mesh.routersOut.contains t = false →
    (s.tile t).held = [] →
    (s.tile t).holds line = some e → e.st ≠ .modified →
    Instr.wellFormed (.snpshr t line rm ru) = true → exec (.snpshr t line rm ru) s = .next (((s.modTile t (fun x => x.setState line .shared)).emit
      (.packet 3 0 rm ru t (line * 64) false e.poison (some e.data))).emit (.packet 2 0 (s.moduleOfLine line) 255 t (line * 64) false false none))) ∧
  (∀ (s : State) (t line rm ru : Nat) (e : CLine), s.stopped = false → s.ownLine line = false → s.mesh.routersOut.contains t = false →
    (s.tile t).held = [] →
    s.holdsAnswer t line = false → (s.tile t).holds line = some e → e.st = .modified →
    Instr.wellFormed (.snpinv t line (some (rm, ru))) = true →
      exec (.snpinv t line (some (rm, ru))) s = .next ((((s.modTile t (fun x => x.drop line)).lineGone t line 0).emit
      (.packet 3 1 rm ru t (line * 64) false e.poison (some e.data))).emit (.packet 2 0 (s.moduleOfLine line) 255 t (line * 64) false false none))) ∧
  (∀ (s : State) (t line : Nat) (e : CLine) (other : Bool), s.stopped = false → s.ownLine line = false → s.mesh.routersOut.contains t = false →
    (s.tile t).held = [] →
    s.holdsAnswer t line = false → (s.tile t).holds line = some e →
    (e.st ≠ .modified → Instr.wellFormed (.snpkill t line other) = true →
      exec (.snpkill t line other) s = .next (((s.modTile t (fun x => x.drop line)).lineGone t line (if other then 3 else 0)).emit
      (.packet 2 0 (s.moduleOfLine line) 255 t (line * 64) false false none))) ∧
    exec (.snpdrop t line other) s = .next (((s.modTile t (fun x => x.drop line)).lineGone t line (if other then 3 else 0)).emit
      (.packet 2 0 (s.moduleOfLine line) 255 t (line * 64) false false none))) ∧
  (∀ (s : State) (t line : Nat) (e : CLine), s.stopped = false → s.ownLine line = false → s.mesh.routersOut.contains t = false →
    (s.tile t).held = [] → (s.tile t).holds line = some e →
    (e.st ≠ .modified → Instr.wellFormed (.snpclean t line) = true →
      exec (.snpclean t line) s = .next (s.emit (.packet 2 0 (s.moduleOfLine line) 255 t (line * 64) false false none))) ∧
    (e.st = .modified → Instr.wellFormed (.snpcur t line) = true → exec (.snpcur t line) s = .next (s.emit
      (.packet 3 0 (s.moduleOfLine line) 255 t (line * 64) false e.poison (some e.data))))) ∧
  (∀ (s : State) (t line : Nat) (c : Instr), s.stopped = false → s.ownLine line = false → s.mesh.routersOut.contains t = false →
    (s.tile t).held = [] → s.holdsAnswer t line = false → (s.tile t).holds line = none → (s.tile t).wbs = [] →
    ((∃ rm ru, c = .snpshr t line rm ru) ∨ (∃ q, c = .snpinv t line q) ∨ (∃ o, c = .snpkill t line o) ∨ (∃ o, c = .snpdrop t line o) ∨ c = .snpclean t line ∨
      c = .snpcur t line) →
    c.wellFormed = true → exec c s = .next (s.emit (.packet 2 1 (s.moduleOfLine line) 255 t (line * 64) false false none))) ∧
  (∀ (s : State) (t hm n set : Nat) (homed : List Nat), s.stopped = false → hm ≠ s.moduleNo →
    Instr.wellFormed (.snpset t hm n set homed) = true →
      exec (.snpset t hm n set homed) s = .next ((s.killWhere t (fun l => homed.contains l && decide (s.moduleOfLine l = hm) &&
      decide (l3Set l = set))).emit (.packet 2 0 hm 255 t (recoveryName n (some set) * 64) false false none)) ∧
    exec (.snpslice t hm n homed) s = .next ((s.killWhere t (fun l => homed.contains l && decide (s.moduleOfLine l = hm))).emit
      (.packet 2 0 hm 255 t (recoveryName n none * 64) false false none))) ∧
  (∀ (s : State) (m v t line : Nat) (a : Ask) (e : CLine), s.stopped = false → t < 216 → line < 2 ^ 43 → (s.tile t).wbs = [] →
    (s.tile t).asks.find? (fun a => decide (a.line = line)) = some a → a.kind = .upg → (s.tile t).holds line = some e → e.st ≠ .modified →
    Instr.wellFormed (.doneResponse m v t line false) = true →
      exec (.doneResponse m v t line false) s = .next ((s.modTile t (fun x => { (x.setState line .exclusive).untag line with
      asks := x.asks.filter (fun b => decide (b.line ≠ line)) })).answeredAt t)) ∧
  (∀ (s : State) (m v name : Nat) (r : Recovery), s.stopped = false → s.ownLine name = false → s.recoveries = [r] → r.name = name →
    r.await.filter (· ≠ (m, v)) ≠ [] → Instr.wellFormed (.doneResponse m v 0 name true) = true →
      exec (.doneResponse m v 0 name true) s = .next { s with recoveries := [{ r with await := r.await.filter (· ≠ (m, v)) }] }) ∧
  (∀ (s : State) (m v line home : Nat) (x : HomeTxn), s.stopped = false → s.ownLine line = true → home = s.homeSlice (line * 64) →
    (s.slice home).txns.find? (fun x => decide (x.line = line) && x.await.contains (m, v)) = some x → x.await.filter (· ≠ (m, v)) ≠ [] →
    Instr.wellFormed (.notHeld m v line) = true →
      exec (.notHeld m v line) s = .next ((s.dirLacks home line (m, v)).modSlice home (fun sl => { sl with txns := sl.txns.map (fun y =>
      if y.line = line then { y with await := x.await.filter (· ≠ (m, v)), got := x.got, passed := x.passed
                                     lapsed := x.lapsed || ((s.slice home).dirOf line).elim false (fun e => decide (e.fwd = some (m, v))) } else y) }))) ∧
  (∀ (s : State) (m v line : Nat), s.stopped = false → s.ownLine line = true →
    (s.slice (s.homeSlice (line * 64))).txns.any (fun x => decide (x.line = line) && x.landed.contains (m, v)) = false →
    Instr.wellFormed (.wbInFlight m v line) = true →
      exec (.wbInFlight m v line) s = .next (s.modSlice (s.homeSlice (line * 64)) (fun sl => { sl with txns := sl.txns.map (fun x =>
      if x.line = line ∧ x.await.contains (m, v) = true then { x with flying := (m, v) :: x.flying } else x) }))) ∧
  (∀ (s : State) (t line : Nat), s.stopped = false → t < 216 → line < 2 ^ 43 →
    Instr.wellFormed (.accessFault t line) = true →
      exec (.accessFault t line) s = .next ((s.modTile t (fun x => { x with asks := x.asks.map (fun b => if b.line = line then { b with ans := 2 }
      else b) })).answeredAt t) ∧
    exec (.guardRefusal t line) s = .next ((s.modTile t (fun x => { x with asks := x.asks.map (fun b => if b.line = line then { b with ans := 3 }
      else b) })).answeredAt t)) ∧
  (∀ (s u : State) (m v t line : Nat) (d : Line) (psn : Bool) (a : Ask), s.stopped = false →
    (s.tile t).asks.find? (fun a => decide (a.line = line)) = some a → a.kind = .rdOwn → (s.tile t).holds line = none → s.tileIdle t = false →
    u = (if s.draw.1.getLsbD 0 then s.draw.2.l3Missed a.hart else s.draw.2).modTile t (fun x => { x with
      asks := x.asks.filter (fun a => decide (a.line ≠ line)), vb := x.vb.filter (fun e => decide (e.line ≠ line)), arrived := line :: x.arrived }) →
    Instr.wellFormed (.cleanData m v t line d psn true) = true → exec (.cleanData m v t line d psn true) s =
      .next ((u.fillL2 t { line := line, st := .exclusive, data := d, poison := psn, world := a.world } a.hint).answeredAt t) ∧
    exec (.modifiedDataPassedOn m v t line d psn) s =
      .next ((u.fillL2 t { line := line, st := .modified, data := d, poison := psn, world := a.world } a.hint).answeredAt t)) ∧
  (∀ (s u : State) (line home : Nat) (h : Nat × Nat) (x : HomeTxn) (k : SnoopKind) (out : List (Nat × Nat)), s.stopped = false →
    s.ownLine line = true → home = s.homeSlice (line * 64) → (s.slice home).txns.find? (fun x => decide (x.line = line)) = some x → x.await = [h] →
    h.1 ≠ s.moduleNo → h.1 < 8 → h ∉ out → s.waitStands x.since = false →
    snoopFor x.req.kind (((s.slice home).dirOf line).elim false (·.owned)) (((s.slice home).dirOf line).elim false
      (fun e => decide (e.fwd = some h))) = some k →
    u = (s.untilLeaf (x.since + s.f L3_COH_CTL.SNOOP_TO)).raise L3_COH_ALARM.SNOOP_TO →
    Instr.wellFormed (.snoopTimeout line out) = true →
      exec (.snoopTimeout line out) s = .next ((u.modSlice home (fun sl => { sl with txns := sl.txns.map (fun y =>
        if y.line = line then { y with since := u.leaf } else y) })).emit (.packet 1 k.op h.1 h.2 (256 + home) (line * 64) x.req.world false none)))

/-- Mesh links and die links (R203, R205): each command answers a next state with its own effect. Where the rules leave a choice, it is the model's:
log entries 3 and 59. The constructors whose completion it states: packetUe, dieLinkMeasure. -/
def Obligations.MeshCommandsComplete : Prop :=
  (∀ (s u : State) (d x y : Nat) (v : Bool) (hdr : BitVec 128) (errs : List Nat), s.stopped = false →
    u = s.addF (MESH_LINKSd.CE d) (errs.filter (fun e => decide (e = 1))).length → Instr.wellFormed (.packetUe d v x y hdr errs) = true →
    ((∀ e ∈ errs, e ≤ 1) → (Header.of hdr).reserved = false → exec (.packetUe d v x y hdr errs) s = .next u) ∧
    ((∃ e ∈ errs, 2 ≤ e) ∨ (Header.of hdr).reserved = true → s.mesh.errors.get 0 (linkNo d v x y) + 1 < s.f MESH_CTL.UE_LIMIT →
      exec (.packetUe d v x y hdr errs) s = .next ((((u.incF (MESH_LINKSd.UE d)).raise MESH_ALARM.LINK_UE).sendAgain d (8 * y + x)
        (if v then 0 else 1) hdr).modMesh (fun m => { m with errors := m.errors.set 0 (linkNo d v x y) (s.mesh.errors.get 0 (linkNo d v x y) + 1) })))) ∧
  (∀ (s : State) (k l : Nat) (mv deg : Int) (r : Nat), s.stopped = false → s.f (MESH_DLINKk_STATUS.STATE k) ≠ 2 → mv.natAbs ≤ 250 → deg.natAbs ≤ 40 →
    s.mesh.beyond.get none k = none →
    Instr.wellFormed (.dieLinkMeasure k l mv deg r false) = true → ∃ t, exec (.dieLinkMeasure k l mv deg r false) s = .next t ∧
      t.f (MESH_DLINKk_STATUS.VDIFF k) = signedBits 16 mv ∧
      t.f (MESH_DLINKk_STATUS.TDIFF k) = signedBits 8 deg ∧ t.f (MESH_DLINKk_STATUS.STATE k) = 0 ∧
      t.f (MESH_DLINKk_STATUS.REPLAYS k) = min (s.f (MESH_DLINKk_STATUS.REPLAYS k) + r) (2 ^ (MESH_DLINKk_STATUS.REPLAYS k).width - 1)) ∧
  (∀ (s : State) (k l : Nat) (mv deg : Int) (r : Nat), s.stopped = false → s.f (MESH_DLINKk_STATUS.STATE k) ≠ 2 → 250 < mv.natAbs →
    s.mesh.beyond.get none k = none →
    Instr.wellFormed (.dieLinkMeasure k l mv deg r false) = true → ∃ t, exec (.dieLinkMeasure k l mv deg r false) s = .next t ∧
      t.f (MESH_DLINKk_STATUS.STATE k) = 1 ∧ t.on MESH_ALARM.XDIFF = true)

/-- Channel failures, replacement in service and the bandwidth registry (R217 to R221, R224, R225): each command answers a next state with its own
effect. Where the rules leave a choice, it is the model's: log entries 23, 25 and 61. The constructors whose completion it states: channelFailure,
offline, online, channelSafe, powerGood, channelTrained, resilverEnd, selfRefreshEntry, floorWrite, weightEffect. -/
def Obligations.ChannelCommandsComplete : Prop :=
  (∀ (s : State) (k c : Nat), s.stopped = false → k < 16 → (s.chState k = 2 ∨ s.chState k = 6 ∨ s.chState k = 7) → (s.chan k).half = none →
    Instr.wellFormed (.channelFailure k c) = true → ∃ t, exec (.channelFailure k c) s = .next t ∧ t.chState k = 8 ∧
      t.on MC_ALARM.CH_FAIL = true ∧ t.dram = s.dram) ∧
  (∀ (s : State) (k c : Nat), s.stopped = false → k < 16 → s.chState k = 3 → (s.chan k).failing = false → (s.chan (pairOf k)).failing = false →
    Instr.wellFormed (.channelFailure k c) = true → ∃ t, exec (.channelFailure k c) s = .next t ∧ t.chState k = 3 ∧
      t.on MC_ALARM.MIR_ALONE = true ∧ (t.chan k).failing = true ∧
      t.waiting = s.waiting ++ [{ notBefore := s.leaf, change := .channels [(k, 8), (pairOf k, 4)] }] ∧ t.dram = s.dram) ∧
  (∀ (s : State) (who : Requester) (k : Nat) (v : Word), s.stopped = false → k < 16 →
    v = MC_CHAN_CMD.GO.put 1 (MC_CHAN_CMD.OP.put 0 (MC_CHAN_CMD.CHAN.put k 0)) → s.admits who 8 MC_CHAN_CMD v = true → s.chState k = 3 →
    (s.chan k).failing = false → (s.chan (pairOf k)).failing = false →
    Instr.wellFormed (.offline who k) = true → ∃ t, exec (.offline who k) s = .next t ∧ (t.chan k).leaving = true ∧
      t.waiting = s.waiting ++ [{ notBefore := s.leaf, change := .channels [(k, 8), (pairOf k, 4)] }] ∧ t.dram = s.dram) ∧
  (∀ (s : State) (who : Requester) (k : Nat) (v : Word), s.stopped = false → k < 16 →
    v = MC_CHAN_CMD.GO.put 1 (MC_CHAN_CMD.OP.put 0 (MC_CHAN_CMD.CHAN.put k 0)) → s.admits who 8 MC_CHAN_CMD v = true → s.chState k = 4 →
    s.chState (pairOf k) = 8 →
    Instr.wellFormed (.offline who k) = true → ∃ t, exec (.offline who k) s = .next t ∧ (t.chan (pairOf k)).leaving = true ∧ t.dram = s.dram) ∧
  (∀ (s : State) (who : Requester) (k : Nat) (v : Word), s.stopped = false → k < 16 →
    v = MC_CHAN_CMD.GO.put 1 (MC_CHAN_CMD.OP.put 1 (MC_CHAN_CMD.CHAN.put k 0)) → s.admits who 8 MC_CHAN_CMD v = true →
    (s.chState k = 5 → s.chState (pairOf k) = 4 → s.scopeLive 4 = false → (s.chan k).mpwr = false →
      Instr.wellFormed (.online who k) = true → ∃ t, exec (.online who k) s = .next t ∧ (t.chan k).mpwr = true ∧
      t.hb.queue.length = s.hb.queue.length + 2) ∧
    (s.chState k ≠ 5 → Instr.wellFormed (.online who k) = true → exec (.online who k) s = .next (s.raise MC_ALARM.CMD_REFUSED))) ∧
  (∀ (s : State) (k : Nat), s.stopped = false → k < 16 → (s.chan k).leaving = true → s.chState k = 8 → s.channelStepped k false = true →
    Instr.wellFormed (.channelSafe k) = true → ∃ t, exec (.channelSafe k) s = .next t ∧ t.chState k = 5 ∧ t.f (MC_CHk_STATUS.SR k) = 1 ∧
      (t.chan k).mpwr = false ∧ (t.chan k).leaving = false) ∧
  (∀ (s : State) (k n ty g r d st x : Nat) (x4 : Bool), s.stopped = false → k < 16 → s.chState k = 5 → (s.chan k).mpwr = true → s.channelStepped k true = true →
    s.dimmsMatch ⟨n, ty, g, r, d, st, x, x4⟩ (pairOf k) = true → s.chState (pairOf k) = 4 →
    Instr.wellFormed (.powerGood k n ty g r d st x x4) = true → ∃ t, exec (.powerGood k n ty g r d st x x4) s = .next t ∧ t.chState k = 6 ∧
      t.f (MC_CHk_STATUS.SR k) = 0 ∧ (t.chan k).dimmGib = g ∧
      (t.chan k).ranks = r ∧ (t.chan k).stack = st ∧ t.f (MC_CHk_STATUS.RATE k) = s.f (MC_CHk_STATUS.RATE (pairOf k))) ∧
  (∀ (s : State) (k : Nat), s.stopped = false → k < 16 → s.chState k = 6 → s.chState (pairOf k) = 4 → (s.chan k).half = none →
    Instr.wellFormed (.channelTrained k) = true → ∃ t, exec (.channelTrained k) s = .next t ∧ t.chState k = 7 ∧ t.chState (pairOf k) = 4 ∧
      t.dram = s.dram) ∧
  (∀ (s : State) (k : Nat), s.stopped = false → s.chState k = 7 → s.chState (pairOf k) = 4 →
    s.hwUnderWay (fun c => decide (c = .channels [(k, 3), (pairOf k, 3)])) = false →
    Instr.wellFormed (.resilverEnd k) = true →
      exec (.resilverEnd k) s = .next ((s.copyLines (pairOf k) k (s.f (MC_CHk_STATUS.CAP (pairOf k)) * 2 ^ 24)).startHw s.leaf
      (.channels [(k, 3), (pairOf k, 3)]))) ∧
  (∀ (s : State) (k : Nat), s.stopped = false → s.chState k = 2 → s.f MC_CTL.SR_IDLE ≠ 0 →
    Instr.wellFormed (.selfRefreshEntry k) = true →
      exec (.selfRefreshEntry k) s = .next ((s.untilLeaf ((s.chan k).lastReq + s.f MC_CTL.SR_IDLE)).setF (MC_CHk_STATUS.SR k) 1)) ∧
  (∀ (s a : State) (who : Requester) (e floor : Nat), s.stopped = false → e < 448 → floor < 2 ^ (MC_BWR_ENTRYe.FLOOR e).width →
    s.admits who 8 (MC_BWR_ENTRYe e) ((MC_BWR_ENTRYe.FLOOR e).put floor (s.reg (MC_BWR_ENTRYe e))) = true → floor ≤ s.f (MC_BWR_ENTRYe.FLOOR e) →
    a = ((s.setF (MC_BWR_ENTRYe.WEIGHT e) (s.f (MC_BWR_ENTRYe.WEIGHT e))).setF (MC_BWR_ENTRYe.FLOOR e) floor).showAdmitted →
    Instr.wellFormed (.floorWrite who e floor) = true →
    (a.sheds = false → exec (.floorWrite who e floor) s = .next { a with floorsDue := if s.sheds then List.range 451 else e :: a.floorsDue }) ∧
    (a.sheds = true → exec (.floorWrite who e floor) s = .next (a.askGrants (a.f MC_BWR_TOTAL.DERATED) (a.f (MC_BWR_ENTRYe.FLOOR 450))))) ∧
  (∀ (s : State) (g : Nat), s.stopped = false → Instr.wellFormed (.weightEffect g) = true → ∃ t, exec (.weightEffect g) s = .next t ∧
    (∀ e < 448, t.weights.get 1 e = s.f (MC_BWR_ENTRYe.WEIGHT e)) ∧
    (s.leaf < 1024 * g → t.floorsDue = [] ∧ ∀ e < 448, e ∈ s.floorsDue → t.f (MC_BWR_ENTRYe.GRANT e) = s.f (MC_BWR_ENTRYe.FLOOR e)))

/-- Scrubbing, row repair, raw access and the guards' lock (R236 to R249): each command answers a next state with its own effect. Where the rules
leave a choice, it is the model's: log entries 5, 24 and 62. The constructors whose completion it states: scrubBurst, scrubWake, lapWarn,
softRepair, softRepairEnd, rawRead, rawWrite, rawAccessEnd, mgLock. -/
def Obligations.ProtectionCommandsComplete : Prop :=
  (∀ (s : State) (k n lines : Nat) (half : Bool) (errs : List (Nat × LineErr)), s.stopped = false → s.scrubs k = true →
    s.on (MC_CHk_STATUS.SR k) = false → n % s.f SCR_CTL.PERIOD = k % s.f SCR_CTL.PERIOD → (s.chan k).burstAt ≤ n →
    s.burstTurn n = true → Instr.wellFormed (.scrubBurst k n lines half errs) = true →
      exec (.scrubBurst k n lines half errs) s = .next (s.atLeaf n (fun a => (a.modChan k (fun c =>
      { c with burstAt := n + 1 })).scrubLines k (min lines (s.f SCR_CTL.BURST)) (half && decide (lines < s.f SCR_CTL.BURST)) errs))) ∧
  (∀ (s : State) (k g lines most : Nat) (half : Bool) (errs : List (Nat × LineErr)), s.stopped = false → s.scrubs k = true →
    s.on (MC_CHk_STATUS.SR k) = true → (s.chan k).wakeAt ≤ g → s.burstTurn (1024 * g + 64 * (k % 16)) = true → most = s.f SCR_CTL.BURST * (1024 / s.f SCR_CTL.PERIOD) →
    Instr.wellFormed (.scrubWake k g lines half errs) = true →
      exec (.scrubWake k g lines half errs) s = .next (s.atLeaf (1024 * g + 64 * (k % 16)) (fun a =>
      (a.modChan k (fun c => { c with wakeAt := g + 1 })).scrubLines k (min lines most) (half && decide (lines < most)) errs))) ∧
  (∀ (s : State) (k : Nat), s.stopped = false → s.laps k = true →
    Instr.wellFormed (.lapWarn k) = true → ∃ t, exec (.lapWarn k) s = .next t ∧ t.on SCR_ALARM.LAP_WARN = true ∧ t.dram = s.dram ∧
      t.channels = s.channels) ∧
  (∀ (s : State) (k row dev time : Nat) (rest : List (Nat × Nat)), s.stopped = false → (s.chan k).due = (row, dev) :: rest → (s.chan k).repair = none →
    scrubbed (s.chState k) = true →
    (time ≤ 4 → Instr.wellFormed (.softRepair k true time []) = true → ∃ t, exec (.softRepair k true time []) s = .next t ∧
      (t.chan k).repair = some { row := row, device := dev, lines := [] } ∧ (t.chan k).due = rest ∧
      t.on (SCR_CHk_STATUS.REPAIRING k) = true) ∧
    ((s.chan k).repairs.length < 64 → (s.chan k).repairs.contains (row, dev) = false → (∀ r, (r = false ∨ 4 < time) →
      Instr.wellFormed (.softRepair k r time []) = true → ∃ t, exec (.softRepair k r time []) s = .next t ∧
      (t.chan k).repairs = (s.chan k).repairs ++ [(row, dev)] ∧
      (t.chan k).due = rest))) ∧
  (∀ (s : State) (k : Nat) (r : SoftRepair), s.stopped = false → (s.chan k).repair = some r → r.lines = [] → (s.chan k).repairs.length < 64 →
    (s.chan k).repairs.contains (r.row, r.device) = false →
    Instr.wellFormed (.softRepairEnd k) = true → ∃ t, exec (.softRepairEnd k) s = .next t ∧ (t.chan k).repair = none ∧
      (t.chan k).repairs = (s.chan k).repairs ++ [(r.row, r.device)] ∧
      t.on SCR_ALARM.ROW_REPAIR = true ∧ t.f (SCR_CHk_STATUS.REPAIRING k) = 0 ∧ t.dram = s.dram) ∧
  (∀ (s : State) (who : Requester) (copy op : Nat) (v : Word) (p : Place) (c : Instr), s.stopped = false → copy < 2 →
    v = SCR_TEST_CTL.GO.put 1 (SCR_TEST_CTL.OP.put op (SCR_TEST_CTL.COPY.put copy 0)) → s.admits who 8 SCR_TEST_CTL v = true →
    s.place (s.f SCR_TEST_ADDR.LINE * 64) = some p → s.rawRefused (s.f SCR_TEST_ADDR.LINE * 64) op copy (decide (who ≠ .text)) = false →
    s.slice (s.homeSlice (s.f SCR_TEST_ADDR.LINE * 64)) = {} → ((c = .rawRead who copy ∧ op = 0) ∨ (c = .rawWrite who copy ∧ op = 1)) →
    c.wellFormed = true → ∃ t, exec c s = .next t ∧ t.on SCR_TEST_CTL.BUSY = true ∧ t.dram = s.dram ∧ t.raw = some
      { line := s.f SCR_TEST_ADDR.LINE, chan := rawChannel p copy, place := p.line, copy := copy, write := decide (op = 1),
        data := s.rawData, checks := s.rawChecks }) ∧
  (∀ (s : State) (err : LineErr) (r : RawAccess) (x : HomeTxn), s.stopped = false → s.raw = some r → r.write = true →
    (s.slice (s.homeSlice (r.line * 64))).txns.find? (fun x => decide (x.line = r.line)) = some x → x.await = [rawHolder] → x.queue = [] →
    (s.slice (s.homeSlice (r.line * 64))).stalled = [] → (s.place (r.line * 64)).all (fun p => !s.halfScrubbed p.lower p.line) = true →
    x.req = { kind := .cmoFlush, src := .engine s.moduleNo 0, line := r.line } →
    ∃ t, exec (.rawAccessEnd err) s = .next t ∧ t.raw = none ∧ t.f SCR_TEST_CTL.BUSY = 0 ∧
      t.dram = Memory.writeLine s.dram (lineAddr r.chan r.place) r.data) ∧
  (∀ (s : State) (who : Requester) (g : Nat) (v : Word), s.stopped = false → g < 7 → (MG_CTLg.LOCK g).of v = 1 → s.admits who 8 (MG_CTLg g) v = true →
    (s.on (MG_CTLg.LOCK g) = false → s.mgBusy = false →
      Instr.wellFormed (.mgLock who g v) = true → ∃ t, exec (.mgLock who g v) s = .next t ∧ t.on (MG_CTLg.LOCK g) = true ∧
      t.f (MG_CTLg.DEF_SHADOW g) = (MG_CTLg.DEF_SHADOW g).of v ∧
        t.f (MG_CTLg.DEF g) = s.f (MG_CTLg.DEF g)) ∧
    (s.on (MG_CTLg.LOCK g) = true → Instr.wellFormed (.mgLock who g v) = true → ∃ t, exec (.mgLock who g v) s = .next t ∧
      t.on MG_ALARM.DENIED_WRITE = true ∧
      t.f (MG_CTLg.DEF_SHADOW g) = s.f (MG_CTLg.DEF_SHADOW g)))

/-- Queues, doorbells and acceptance (R255 to R262, R267): each command answers a next state with its own effect. Where the rules leave a choice, it
is the model's: log entries 25, 30 and 70. The constructors whose completion it states: queueEnable, queueDisable, resume, sqDoorbell, cqDoorbell,
shortDoorbell, commandAccepted. -/
def Obligations.QueueCommandsComplete : Prop :=
  (∀ (s : State) (who : Requester) (q : Nat) (v : Word), s.stopped = false → q < 16384 → v = (CSS_Qq_CTL.ENABLE q).put 1 (s.reg (CSS_Qq_CTL q)) →
    s.admits who 8 (CSS_Qq_CTL q) v = true → s.resetting (instOf q) = false → s.qState q = 0 → s.f (CSS_SIi_BIND.KIND (instOf q)) ≠ 0 →
    s.on (CSS_Qq_SQBASE.HOST q) = false → s.on (CSS_Qq_CQBASE.HOST q) = false →
    Instr.wellFormed (.queueEnable who q) = true → ∃ t, exec (.queueEnable who q) s = .next t ∧ t.qState q = 1 ∧
      t.on (CSS_Qq_CTL.ENABLE q) = true ∧ t.f (CSS_Qq_PTRS.SQ_TAIL q) = 0 ∧
      t.f (CSS_Qq_PTRS.CQ_HEAD q) = 0 ∧ t.f (CSS_Qq_STATUS.SQ_HEAD q) = 0 ∧ t.f (CSS_Qq_STATUS.CQ_TAIL q) = 0 ∧
      t.on (CSS_Qq_STATUS.PHASE q) = true ∧ t.journal = s.journal ∧ t.dram = s.dram) ∧
  (∀ (s : State) (who : Requester) (q : Nat) (v : Word), s.stopped = false → q < 16384 → v = (CSS_Qq_CTL.ENABLE q).put 0 (s.reg (CSS_Qq_CTL q)) →
    s.admits who 8 (CSS_Qq_CTL q) v = true → s.resetting (instOf q) = false → (CSS_Qq_CTL.RESUME q).of v = 0 → s.qState q = 1 → s.frames = [] →
    ((s.cmdsOf q = [] ∧ (s.queue q).out = []) → Instr.wellFormed (.queueDisable who q) = true → ∃ t, exec (.queueDisable who q) s = .next t ∧
      t.qState q = 0 ∧ t.on (CSS_Qq_CTL.ENABLE q) = false) ∧
    (s.cmdsOf q ≠ [] → (∀ m ∈ s.cmdsOf q, m.2.opcode ≠ 6) → ((s.queue q).out = [] ∨ s.queueWrites q = true) → s.PortsRest →
      Instr.wellFormed (.queueDisable who q) = true → ∃ t, exec (.queueDisable who q) s = .next t ∧ t.qState q = 3 ∧
      t.on (CSS_Qq_CTL.ENABLE q) = false ∧ t.journal = s.journal)) ∧
  (∀ (s : State) (who : Requester) (q : Nat) (v : Word), s.stopped = false → q < 16384 → v = (CSS_Qq_CTL.RESUME q).put 1 (s.reg (CSS_Qq_CTL q)) →
    s.admits who 8 (CSS_Qq_CTL q) v = true → s.resetting (instOf q) = false → s.on (CSS_Qq_CTL.ENABLE q) = true → s.qState q = 4 →
    (s.queue q).out = [] →
    Instr.wellFormed (.resume who q) = true → ∃ t, exec (.resume who q) s = .next t ∧
      t.qState q = (if s.on (CSS_Qq_PAUSE.PAUSE q) then 2 else 1) ∧ t.f (CSS_Qq_STATUS.CAUSES q) = 0) ∧
  (∀ (s : State) (q : Nat) (v : Word), s.stopped = false → s.qState q = 1 ∨ s.qState q = 2 → bitsOf v 31 24 = s.gen (instOf q) →
    bitsOf v 63 32 = 0 → bitsOf v 23 16 = 0 →
    (bitsOf v 15 0 < s.sqSize q → Instr.wellFormed (.sqDoorbell q v) = true →
      exec (.sqDoorbell q v) s = .next (s.setF (CSS_Qq_PTRS.SQ_TAIL q) (bitsOf v 15 0))) ∧
    (bitsOf v 15 0 < s.cqSize q → (s.queue q).out = [] →
      inRing (s.cqSize q) (s.f (CSS_Qq_PTRS.CQ_HEAD q)) (s.f (CSS_Qq_STATUS.CQ_TAIL q)) (bitsOf v 15 0) = true →
      Instr.wellFormed (.cqDoorbell q v) = true → exec (.cqDoorbell q v) s = .next (s.setF (CSS_Qq_PTRS.CQ_HEAD q) (bitsOf v 15 0)))) ∧
  (∀ (s : State) (off : Nat), s.stopped = false → off < 0x100000 → off % 4096 < 0x400 →
    Instr.wellFormed (.shortDoorbell off) = true →
      exec (.shortDoorbell off) s = .next (s.incF (CSS_Qq_PTRS.DB_DISCARD (64 * (off / 4096) + off % 512 / 8)))) ∧
  (∀ (s : State) (q n : Nat), s.stopped = false → s.qState q = 1 ∨ s.qState q = 2 ∨ s.qState q = 4 →
    (s.queue q).next ≠ s.f (CSS_Qq_PTRS.SQ_TAIL q) → s.journalUp = true → s.freeEntry (instOf q) = some n →
    Instr.wellFormed (.commandAccepted q) = true → ∃ t, exec (.commandAccepted q) s = .next t ∧ t.seqNext = s.seqNext + 1 ∧
      t.entry n = some { seq := s.seqNext, queue := q, index := (s.queue q).next, gen := s.gen (instOf q) } ∧
      (t.queue q).next = ((s.queue q).next + 1) % s.sqSize q ∧ t.dram = s.dram)

/-- The journal's copies and a stopped I/O die (R270 to R272): each command answers a next state with its own effect. Where the rules leave a choice,
it is the model's: log entries 30 and 70. The constructors whose completion it states: journalAlone, journalRebuilt, journalLost, dieStopped. -/
def Obligations.JournalCommandsComplete : Prop :=
  (∀ (s : State) (c : Nat), s.stopped = false →
    Instr.wellFormed (.journalAlone c) = true → ∃ t, exec (.journalAlone c) s = .next t ∧
      t.f (if c = 0 then CSS_JOURNAL.COPY0 else CSS_JOURNAL.COPY1) = 2 ∧
      t.on CSS_ALARM.JOURNAL_ALONE = true ∧ t.journal = s.journal) ∧
  (∀ (s : State) (c : Nat), s.stopped = false → s.f (if c = 0 then CSS_JOURNAL.COPY0 else CSS_JOURNAL.COPY1) = 1 →
    Instr.wellFormed (.journalRebuilt c) = true → ∃ t, exec (.journalRebuilt c) s = .next t ∧
      t.f (if c = 0 then CSS_JOURNAL.COPY0 else CSS_JOURNAL.COPY1) = 0 ∧
      t.f CSS_JOURNAL.REBUILD = 100 ∧ t.on CSS_ALARM.JOURNAL_REBUILT = true) ∧
  (∀ (s : State) (n : Nat) (far : FarData), s.stopped = false → s.stuck = [] → (s.entry n).isSome = true →
    Instr.wellFormed (.journalLost n true far) = true → ∃ t, exec (.journalLost n true far) s = .next t ∧ t.entry n = none ∧
      t.on CSS_ALARM.COMMANDS_LOST = true) ∧
  (∀ (s : State) (d : Nat), s.stopped = false → d < 2 → s.journal = [] →
    Instr.wellFormed (.dieStopped d) = true → ∃ t, exec (.dieStopped d) s = .next t ∧ t.deadDies.contains d = true ∧
      t.on CSS_ALARM.DIE_STOPPED = true ∧
      (∀ q < 16384, s.queueDie q = d → t.qState q = 5))

/-- Paths, answers, timers and kept addresses (R274 to R283): each command answers a next state with its own effect. Where the rules leave a choice,
it is the model's: log entries 26 and 30. The constructors whose completion it states: requestAnswered, pathFailed, pathRecoveryRead, pathWrite,
channelTimeout, keptAddressExpiry. -/
def Obligations.PathAndAnswerCommandsComplete : Prop :=
  (∀ (s : State) (id : Nat) (r : PortReq) (e : JEntry) (d : Line) (data : List Byte), s.stopped = false →
    s.reqs.find? (fun x => decide (x.id = id)) = some r → r.freed = false → r.gen = s.gen (instOf r.queue) → r.fate = 0 → r.back = false →
    r.write = true → s.entry r.entry = some e → e.desc = some d → dOpcode d ≠ 7 →
    s.reqs.any (fun x => decide (x.id ≠ id ∧ x.seq = e.seq ∧ x.fate = 0)) = true →
    Instr.wellFormed (.requestAnswered id 0 data) = true → ∃ t, exec (.requestAnswered id 0 data) s = .next t ∧
      t.entry r.entry = some (e.markDone r.off r.len) ∧
      t.reqs = s.reqs.filter (fun x => decide (x.id ≠ id)) ∧ t.dram = s.dram) ∧
  (∀ (s : State) (i a p detail : Nat), s.stopped = false → i < 256 → a < 16 → p < 4 → s.pathFault i a p = none → s.reqs = [] →
    Instr.wellFormed (.pathFailed i a p detail) = true → ∃ t, exec (.pathFailed i a p detail) s = .next t ∧ t.pathFault i a p = some detail ∧
      t.on CSS_ALARM.PATH_FAILED = true ∧
      t.f (CSS_SIi_TGTt_PATHp.STATE i a p) = (if s.on (CSS_SIi_TGTt_PATHp.RETIRE i a p) then 2 else 1)) ∧
  (∀ (s : State) (port i a p : Nat), s.stopped = false → s.rootUp port = true → s.pathsOf port = [(i, a, p)] → (s.pathFault i a p).isSome = true →
    Instr.wellFormed (.pathRecoveryRead port true) = true → ∃ t, exec (.pathRecoveryRead port true) s = .next t ∧ t.pathFault i a p = none ∧
      t.f (CSS_SIi_TGTt_PATHp.STATE i a p) = (if s.on (CSS_SIi_TGTt_PATHp.RETIRE i a p) then 2 else 0)) ∧
  (∀ (s : State) (who : Requester) (i a p : Nat) (v : Word), s.stopped = false → i < 256 → a < 16 → p < 4 → s.cmdsOfInst i = [] →
    s.admits who 8 (CSS_SIi_TGTt_PATHp i a p) v = true → (CSS_SIi_TGTt_PATHp.VALID i a p).of v = 1 →
    s.on (CSS_SIi_TGTt_PATHp.VALID i a p) = false → s.rootUp ((CSS_SIi_TGTt_PATHp.PORT i a p).of v) = true →
    Instr.wellFormed (.pathWrite who i a p v) = true → ∃ t, exec (.pathWrite who i a p v) s = .next t ∧
      t.on (CSS_SIi_TGTt_PATHp.VALID i a p) = true ∧ t.pathFault i a p = none ∧
      t.f (CSS_SIi_TGTt_PATHp.PORT i a p) = (CSS_SIi_TGTt_PATHp.PORT i a p).of v ∧
      t.f (CSS_SIi_TGTt_PATHp.OFFSET i a p) = (CSS_SIi_TGTt_PATHp.OFFSET i a p).of v) ∧
  (∀ (s : State) (n l : Nat) (e : JEntry) (r : PortReq), s.stopped = false → s.entry n = some e → e.timer = some l → l < 2 ^ 56 →
    s.takesEvents (s.engineOf e.queue) = true → s.resetting (instOf e.queue) = false → s.firingLeaf l = l → s.liveReqs e.seq = [r] → r.back = false → e.out = none → e.idem = true → s.jobs = [] →
    e.attempts < s.f CSS_CTL.REISSUE → s.turnOf l 6 = true →
    s.cto.get 0 (CSS_SIi_TGTt_PATHp (instOf e.queue) (e.desc.elim 0 dTarget) e.path) + 1 < s.f CSS_CTL.CTO_LIMIT →
    Instr.wellFormed (.channelTimeout n) = true → ∃ t e', exec (.channelTimeout n) s = .next t ∧ t.entry n = some e' ∧
      e'.attempts = e.attempts + 1 ∧ e'.cause = 11 ∧ e'.sent = 0 ∧
      e'.mark = 0 ∧ e'.timer = none ∧ t.leaf = max s.leaf l ∧ t.liveReqs e.seq = []) ∧
  (∀ (s : State) (port e : Nat), s.stopped = false → s.windowEnd port = some e → (s.ports.get {} port).msgs = [] →
    e + s.f CSS_CTL.AFTER_WINDOW < 2 ^ 56 →
    Instr.wellFormed (.keptAddressExpiry port) = true → ∃ t, exec (.keptAddressExpiry port) s = .next t ∧
      t.leaf = max s.leaf (e + s.f CSS_CTL.AFTER_WINDOW) ∧
      t.kept.get [] port = (s.kept.get [] port).filter (fun k => k.ended.elim true (fun x => decide (t.leaf < x.1 + s.f CSS_CTL.AFTER_WINDOW))))

/-- The commands that send to a port (R292 to R297): each answers a next state in which the request of the command whose turn it is has left for the
port of the path that R277 selects, with its address, its length and the command's mark of what is sent. Where the rules leave a choice, it is the
model's: log entries 3, 26 and 69. The constructors whose completion it states: readCommand, writeCommand, controlCommand, senseCommand,
indexedCommand. -/
def Obligations.DescriptorCommandsComplete : Prop :=
  (∀ (s s1 s2 : State) (q n p len : Nat) (e : JEntry) (d : Line) (far : FarData), s.Issues q 1 n e d p s1 → e.sent < dLength d →
    len = s.pieceAt q d p ((dWord d 2).toNat + e.sent) (dLength d - e.sent) → s1.Takes q len e d s2 →
    Instr.wellFormed (.readCommand q 1 far) = true → ∃ t r, exec (.readCommand q 1 far) s = .next t ∧ t.reqs = s.reqs ++ [r] ∧
      r.Leaves s q n e d p e.sent ((dWord d 2).toNat + e.sent) ∧ r.write = false ∧ r.len = len) ∧
  (∀ (s s1 s2 s3 s4 : State) (q n p len : Nat) (e : JEntry) (d : Line) (far : FarData) (b : BytesRead), s.Issues q 2 n e d p s1 →
    e.sent < dLength d → len = s.pieceAt q d p ((dWord d 2).toNat + e.sent) (dLength d - e.sent) → s1.Takes q len e d s2 →
    s2.passStaging q e.seq e.sent len = (s3, false) → s3.readBuffer q d e.sent len far = (s4, b) → b.status = 0 → s4.stuck = [] →
    Instr.wellFormed (.writeCommand q 1 far) = true → ∃ t r, exec (.writeCommand q 1 far) s = .next t ∧ t.reqs = s4.reqs ++ [r] ∧
      r.Leaves s q n e d p e.sent ((dWord d 2).toNat + e.sent) ∧
      r.write = true ∧ r.len = len) ∧
  (∀ (s s1 s2 : State) (q n p : Nat) (e : JEntry) (d : Line), s.Issues q 3 n e d p s1 → e.sent = 0 → 0 < dLength d → s1.Takes q (dLength d) e d s2 →
    Instr.wellFormed (.controlCommand q) = true → ∃ t r, exec (.controlCommand q) s = .next t ∧ t.reqs = s.reqs ++ [r] ∧
      r.Leaves s q n e d p 0 (dWord d 2).toNat ∧ r.write = true ∧ r.len = dLength d) ∧
  (∀ (s s1 s2 : State) (q n p : Nat) (e : JEntry) (d : Line), s.Issues q 4 n e d p s1 → e.sent = 0 → 0 < dLength d → s1.Takes q (dLength d) e d s2 →
    Instr.wellFormed (.senseCommand q) = true → ∃ t r, exec (.senseCommand q) s = .next t ∧ t.reqs = s.reqs ++ [r] ∧
      r.Leaves s q n e d p 0 (dWord d 2).toNat ∧ r.write = false ∧ r.len = dLength d) ∧
  (∀ (s s1 s2 s3 : State) (q n p o a len : Nat) (e : JEntry) (d : Line) (far : FarData), s.Issues q 5 n e d p s1 → e.sent < dLength d →
    dScatter d = false → s1.tableEntry q d (e.sent / dElem d) far = (s2, 0, o) → a = ((dWord d 2).toNat + o) % 2 ^ 64 + e.sent % dElem d →
    len = s.pieceAt q d p a (dElem d - e.sent % dElem d) → s2.Takes q len e d s3 → s3.stuck = [] →
    Instr.wellFormed (.indexedCommand q 1 far) = true → ∃ t r, exec (.indexedCommand q 1 far) s = .next t ∧ t.reqs = s3.reqs ++ [r] ∧
      r.write = false ∧ r.Leaves s q n e d p e.sent a ∧ r.len = len)

/-- Fences, pauses and posted buffers (R296, R302, R306 to R309): each command answers a next state with its own effect. Where the rules leave a
choice, it is the model's: log entry 26. The constructors whose completion it states: fenceCommand, fenceComplete, queuePause, queueUnpause,
quiet, streamReceive. -/
def Obligations.FenceAndPauseCommandsComplete : Prop :=
  (∀ (s : State) (q n : Nat) (e : JEntry), s.stopped = false → s.turn q = some (n, e) → e.opcode = 15 → e.out = none → s.standardFor q = true →
    Instr.wellFormed (.fenceCommand q) = true → exec (.fenceCommand q) s = .next (s.modEntry n (fun x => { x with state := 3 }))) ∧
  (∀ (s : State) (q n : Nat) (e : JEntry), s.stopped = false →
    (s.cmdsOf q).find? (fun m => decide (m.2.opcode = 15) && m.2.out.isNone) = some (n, e) → s.entry n = some e → s.fenceWaits e = false →
    e.pred = none → s.standardFor q = true → s.resetting (instOf q) = false → s.jobs = [] → s.reports = [] →
    Instr.wellFormed (.fenceComplete q) = true → ∃ t e', exec (.fenceComplete q) s = .next t ∧ t.entry n = some e' ∧ e'.out = some (0, 0, 0)) ∧
  (∀ (s : State) (who : Requester) (q : Nat), s.stopped = false → q < 16384 → s.resetting (instOf q) = false →
    (s.admits who 8 (CSS_Qq_PAUSE q) 1 = true → s.qState q = 1 →
      Instr.wellFormed (.queuePause who q) = true → ∃ t, exec (.queuePause who q) s = .next t ∧ t.qState q = 2 ∧
      t.on (CSS_Qq_PAUSE.PAUSE q) = true ∧ ∀ n, t.entry n = (s.entry n).map (fun e =>
        if e.queue = q ∧ s.liveReqs e.seq = [] then { e with timer := none } else e)) ∧
    (s.admits who 8 (CSS_Qq_PAUSE q) 0 = true → s.qState q = 2 →
      Instr.wellFormed (.queueUnpause who q) = true → ∃ t, exec (.queueUnpause who q) s = .next t ∧ t.qState q = 1 ∧
      t.on (CSS_Qq_PAUSE.PAUSE q) = false ∧ t.on (CSS_Qq_PAUSE.QUIET q) = false)) ∧
  (∀ (s : State) (q : Nat), s.stopped = false → s.qState q = 2 → s.reqs = [] →
    Instr.wellFormed (.quiet q) = true → ∃ t, exec (.quiet q) s = .next t ∧ t.on (CSS_Qq_PAUSE.QUIET q) = true ∧ t.journal = s.journal ∧
      t.qState q = 2) ∧
  (∀ (s : State) (q n : Nat) (e : JEntry), s.stopped = false → s.standardFor q = true →
    (s.cmdsOf q).find? (fun m => decide (m.2.opcode = 6) && m.2.out.isNone && m.2.pred.isNone && decide (m.2.state = 0 ∨ m.2.state = 3)) = some (n,
      e) →
    Instr.wellFormed (.streamReceive q) = true → exec (.streamReceive q) s = .next (s.modEntry n (fun x => { x with state := 2 })))

/-- Streams (R309 to R312, R431, R432): each command answers a next state with its own effect. Where the rules leave a choice, it is the
model's: log entries 3 and 69. The constructors whose completion it states: streamDataWrite, streamClosingWrite, framePlacement, frameWaitTimeout. -/
def Obligations.StreamCommandsComplete : Prop :=
  (∀ (s : State) (p a off : Nat) (data : List Byte), s.stopped = false → s.framesTaken p = true → s.openFrame p a = none →
    off + data.length ≤ 196608 → s.PortsRest → s.StagingOpen true → (s.on (CSS_Pp_STRMs.VALID p a) = true →
      s.frameBytes (instOf (s.f (CSS_Pp_STRMs.QUEUE p a))) + data.length ≤ 196608) →
    Instr.wellFormed (.streamDataWrite p a off data false) = true → ∃ t f, exec (.streamDataWrite p a off data false) s = .next t ∧
      t.frames = s.frames ++ [f] ∧ f.port = p ∧ f.stream = a ∧ f.closed = none ∧
      ∀ j < data.length, f.bytes.get 0 (off + j) = (data.getD j 0).toNat + 1) ∧
  (∀ (s : State) (p a : Nat) (v : Word) (f : Frame), s.stopped = false → s.framesTaken p = true → s.openFrame p a = some f → f.long = false →
    v.toNat ≤ 196608 → s.PortsRest → s.on (CSS_Pp_STRMs.VALID p a) = true → exactBytes f.bytes v.toNat = true →
    Instr.wellFormed (.streamClosingWrite p a v 8 false) = true → ∃ t, exec (.streamClosingWrite p a v 8 false) s = .next t ∧
      t.frames = s.frames.filter (fun x => !x.isOpen p a) ++
      [{ f with closed := some (v.toNat, s.f (CSS_Pp_STRMs.QUEUE p a), s.leaf) }]) ∧
  (∀ (s : State) (p a n q l : Nat) (f : Frame) (b : Nat × JEntry × Line), s.stopped = false →
    s.frames.find? (fun f => decide (f.port = p ∧ f.stream = a) && f.closed.isSome) = some f → f.closed = some (n, q, l) → s.qState q = 1 →
    s.standardFor q = true → s.resetting (instOf q) = false → s.pointOpen (272 + s.queueDie q) (instOf q) = true → s.PortsRest → s.StagingOpen false →
    s.buffersOf q a = [b] → s.entryOfSeq b.2.1.seq = some (b.1, b.2.1) → s.entry b.1 = some b.2.1 → b.2.1.out = none → n ≤ dLength b.2.2 →
    s.writes = [] → (if dBhost b.2.2 then s.hostOpen (instOf q) = true ∧ (s.instFunc (instOf q)).isSome = true else n = 0) →
    Instr.wellFormed (.framePlacement p a) = true → ∃ t e', exec (.framePlacement p a) s = .next t ∧ t.frames = s.frames.erase f ∧
      t.entry b.1 = some e' ∧ e'.out.isSome = true ∧
      e'.aux = BitVec.ofNat 64 (n % 2 ^ 18 + f.stream % 256 * 2 ^ 24)) ∧
  (∀ (s : State) (p a n q l : Nat) (f : Frame), s.stopped = false → s.PortsRest → l + 2 ^ 32 < 2 ^ 56 →
    s.frames.find? (fun f => decide (f.port = p ∧ f.stream = a) && f.closed.isSome) = some f → f.closed = some (n, q, l) →
    Instr.wellFormed (.frameWaitTimeout p a) = true → ∃ t, exec (.frameWaitTimeout p a) s = .next t ∧ t.frames = s.frames.erase f ∧
      t.leaf = max s.leaf (l + 16 * s.f (CSS_Qq_CTL.TIMEOUT q) + 1) ∧
      t.f (CSS_Pp_STRMs.DROP_WAIT p a) = min (s.f (CSS_Pp_STRMs.DROP_WAIT p a) + 1) (2 ^ (CSS_Pp_STRMs.DROP_WAIT p a).width - 1))

/-- Instances (R316 to R337): binding, reset and removal each answer a next state with their own effect. Where the rules leave a choice, it is the
model's: log entry 3. The constructors whose completion it states: bindWrite, instanceReset, instanceRemove, resetEnd. -/
def Obligations.InstanceCommandsComplete : Prop :=
  (∀ (s : State) (who : Requester) (i : Nat) (v : Word), s.stopped = false → i < 256 → s.admits who 8 (CSS_SIi_BIND i) v = true →
    s.bindRefused i v = false →
    Instr.wellFormed (.bindWrite who i v) = true → ∃ t, exec (.bindWrite who i v) s = .next t ∧
      t.f (CSS_SIi_BIND.KIND i) = (CSS_SIi_BIND.KIND i).of v ∧
      t.f (CSS_SIi_BIND.FUNC i) = (CSS_SIi_BIND.FUNC i).of v ∧ t.gen i = s.gen i) ∧
  (∀ (s : State) (who : Requester) (i : Nat), s.stopped = false → i < 256 → s.resetting i = false →
    (s.admits who 8 (CSS_SIi_CTL i) 1 = true →
      Instr.wellFormed (.instanceReset who i) = true → ∃ t, exec (.instanceReset who i) s = .next t ∧ t.resetting i = true ∧
      t.gen i = (s.gen i + 1) % 256 ∧ (t.inst i).leafX = s.leaf ∧
        t.on (CSS_SIi_STATUS.REMOVING i) = false ∧ ∀ j < 64, t.qState (64 * i + j) = 5) ∧
    (i ≠ 0 → s.admits who 8 (CSS_SIi_CTL i) 2 = true →
      Instr.wellFormed (.instanceRemove who i) = true → ∃ t, exec (.instanceRemove who i) s = .next t ∧ t.resetting i = true ∧
      t.gen i = (s.gen i + 1) % 256 ∧ (t.inst i).leafX = s.leaf ∧
        t.on (CSS_SIi_STATUS.REMOVING i) = true ∧ ∀ j < 64, t.qState (64 * i + j) = 5)) ∧
  (∀ (s : State) (i : Nat) (far : FarData), s.stopped = false → s.stuck = [] → i < 256 → s.resetting i = true →
    s.on (CSS_SIi_STATUS.PENDING i) = false → s.on (CSS_SIi_STATUS.REMOVING i) = false → s.instFunc i = none → s.cmdsOfInst i = [] →
    (∀ j < 64, (s.queue (64 * i + j)).flying = none) →
    Instr.wellFormed (.resetEnd i far) = true → ∃ t, exec (.resetEnd i far) s = .next t ∧ t.resetting i = false ∧ t.on CSS_INST_ALARM.RESET_DONE = true ∧
      t.gen i = s.gen i ∧
      ∀ j < 64, t.qState (64 * i + j) = 0 ∧ t.on (CSS_Qq_CTL.ENABLE (64 * i + j)) = false ∧ (t.queue (64 * i + j)).out = [])

/-- Arbitration and rate limits (R321 to R328): each command answers a next state with its own effect. Where the rules leave a choice, it is the
model's: log entry 3. The constructors whose completion it states: draw, bucketRefill, rateWrite. -/
def Obligations.ArbitrationCommandsComplete : Prop :=
  (∀ (s : State) (pt q : Nat), s.stopped = false → 272 ≤ pt → s.grants.get none pt = none → s.readyAt pt q = true →
    Instr.wellFormed (.draw pt [q]) = true → ∃ t, exec (.draw pt [q]) s = .next t ∧
      t.grants.get none pt = some { inst := instOf q, queue := q, beats := s.burst pt } ∧
      t.lfsr.get 0 pt = lfsrNext (s.lfsr.get 0 pt) ∧ t.regs = s.regs) ∧
  (∀ (s : State) (pt : Nat) (qs : List Nat) (g : Grant), s.stopped = false → 272 ≤ pt → s.grants.get none pt = some g → 1 < g.beats →
    (∃ q ∈ qs, instOf q = g.inst ∧ s.readyAt pt q = true) →
    Instr.wellFormed (.draw pt qs) = true →
      exec (.draw pt qs) s = .next { s with
        grants := s.grants.set none pt (some { g with beats := g.beats - 1 })
        losses := s.losses.filter (fun e => decide (e.1 / 256 ≠ pt) || qs.any (fun q => s.readyAt pt q && decide (instOf q = e.1 % 256))) }) ∧
  (∀ (s : State) (n : Nat), s.stopped = false → s.leaf ≤ n → s.bucketAt ≠ n + 1 → n < 2 ^ 56 →
    Instr.wellFormed (.bucketRefill n) = true → ∃ t, exec (.bucketRefill n) s = .next t ∧ t.leaf = n ∧ t.bucketAt = n + 1 ∧
      ∀ k < 512, t.buckets.get {} k = s.refill (k % 256) (s.buckets.get {} k)) ∧
  (∀ (s : State) (who : Requester) (i : Nat) (v : Word), s.stopped = false → i < 256 → s.admits who 8 (CSS_SIi_RATE i) v = true →
    ((CSS_SIi_RATE.BYTE_RATE i).of v ≠ 0 →
      16 ≤ (CSS_SIi_RATE.BYTE_DEPTH i).of v ∧ (CSS_SIi_RATE.BYTE_RATE i).of v ≤ 4 * (CSS_SIi_RATE.BYTE_DEPTH i).of v) →
    ((CSS_SIi_RATE.CMD_RATE i).of v ≠ 0 → (CSS_SIi_RATE.CMD_RATE i).of v ≤ (CSS_SIi_RATE.CMD_DEPTH i).of v) →
    Instr.wellFormed (.rateWrite who i v) = true → ∃ t, exec (.rateWrite who i v) s = .next t ∧
      t.f (CSS_SIi_RATE.BYTE_RATE i) = (CSS_SIi_RATE.BYTE_RATE i).of v ∧
      t.f (CSS_SIi_RATE.BYTE_DEPTH i) = (CSS_SIi_RATE.BYTE_DEPTH i).of v ∧ t.f (CSS_SIi_RATE.CMD_RATE i) = (CSS_SIi_RATE.CMD_RATE i).of v ∧
      t.f (CSS_SIi_RATE.CMD_DEPTH i) = (CSS_SIi_RATE.CMD_DEPTH i).of v ∧ (t.buckets.get {} i).fill = true ∧ (t.buckets.get {} (256 + i)).fill = true)

/-- The instructions of a channel engine that touch its own sockets, index and data space (R342 to R361, R368): each answers a next state in which the
engine is as the instruction makes it. Where the rules leave a choice, it is the model's: log entries 3, 4 and 27. The constructors whose
completion it states: socketMove, aluTrigger, mulTrigger, divTrigger, compareTrigger, guardsWrite, lih, lil, jmp, jrel, call, callr, evWait,
evRet. -/
def Obligations.EngineInstructionsComplete : Prop :=
  (∀ (s u : State) (l : Nat) (m : Move) (b : BitVec 32), s.issuing l .plain = some (u, m, b) → isRegister m.dest = true ∨ isOperand m.dest = true →
    m.dest ≠ 0xCA → Instr.wellFormed (.socketMove l) = true → ∃ t, exec (.socketMove l) s = .next t ∧
      t.Issued u l (((u.engine l).setSock m.dest b).done 1)) ∧
  (∀ (s u : State) (l : Nat) (m : Move) (b : BitVec 32), s.issuing l .alu = some (u, m, b) → Instr.wellFormed (.aluTrigger l) = true →
      ∃ t, exec (.aluTrigger l) s = .next t ∧
    t.Issued u l (Engine.done { u.engine l with
      delayed := (u.engine l).delayed ++ [⟨(u.engine l).cycle + 2, 0x41, aluOp m.dest ((u.engine l).sock 0x40) b⟩] } 1)) ∧
  (∀ (s u : State) (l : Nat) (m : Move) (b : BitVec 32), s.issuing l .mul = some (u, m, b) → Instr.wellFormed (.mulTrigger l) = true →
      ∃ t, exec (.mulTrigger l) s = .next t ∧
    t.Issued u l (Engine.done { u.engine l with
      delayed := (u.engine l).delayed ++ [⟨(u.engine l).cycle + 3, 0x90, mulOp m.dest ((u.engine l).sock 0x80) b⟩] } 1)) ∧
  (∀ (s u : State) (l : Nat) (m : Move) (b : BitVec 32), s.issuing l .div = some (u, m, b) → Instr.wellFormed (.divTrigger l) = true →
      ∃ t, exec (.divTrigger l) s = .next t ∧
    t.Issued u l (Engine.done { u.engine l with
      divide := some ⟨(u.engine l).cycle, decide (m.dest = 0xA5), (u.engine l).sock 0xA0, b⟩ } 1)) ∧
  (∀ (s u : State) (l : Nat) (m : Move) (b : BitVec 32), s.issuing l .compare = some (u, m, b) → Instr.wellFormed (.compareTrigger l) = true →
      ∃ t, exec (.compareTrigger l) s = .next t ∧
    t.Issued u l (Engine.done { u.engine l with gDelay := (u.engine l).gDelay ++
      [((u.engine l).cycle + 2, (m.dest - 0xB4) / 4 + 1, compareOp m.dest ((u.engine l).sock 0xB0) b)] } 1)) ∧
  (∀ (s u : State) (l : Nat) (m : Move) (b : BitVec 32), s.issuing l .guards = some (u, m, b) → Instr.wellFormed (.guardsWrite l) = true →
      ∃ t, exec (.guardsWrite l) s = .next t ∧
    t.Issued u l (Engine.done { u.engine l with gDelay := (u.engine l).gDelay ++
      ([1, 2, 3].filter (fun g => !(u.engine l).busy g)).map (fun g => ((u.engine l).cycle + 2, g, b.getLsbD (g - 1))) } 1)) ∧
  (∀ (s u : State) (l : Nat) (m : Move) (b : BitVec 32), s.issuing l .lih = some (u, m, b) → Instr.wellFormed (.lih l) = true →
      ∃ t, exec (.lih l) s = .next t ∧
    t.Issued u l (((u.engine l).setSock 0xDE (b.setWidth 16 ++ 0#16)).done 1)) ∧
  (∀ (s u : State) (l : Nat) (m : Move) (b : BitVec 32), s.issuing l .lil = some (u, m, b) → Instr.wellFormed (.lil l) = true →
      ∃ t, exec (.lil l) s = .next t ∧
    t.Issued u l (((u.engine l).setSock 0xDE (((u.engine l).sock 0xDE).extractLsb' 16 16 ++ b.setWidth 16)).done 1)) ∧
  (∀ (s u : State) (l : Nat) (m : Move) (b : BitVec 32), s.issuing l .jmp = some (u, m, b) → Instr.wellFormed (.jmp l) = true →
      ∃ t, exec (.jmp l) s = .next t ∧
    t.Issued u l ((u.engine l).transfer b.toNat false)) ∧
  (∀ (s u : State) (l : Nat) (m : Move) (b : BitVec 32), s.issuing l .jrel = some (u, m, b) → Instr.wellFormed (.jrel l) = true →
      ∃ t, exec (.jrel l) s = .next t ∧
    t.Issued u l ((u.engine l).transfer (((u.engine l).pc : Int) + b.toInt).toNat false)) ∧
  (∀ (s u : State) (l : Nat) (m : Move) (b : BitVec 32), s.issuing l .call = some (u, m, b) → Instr.wellFormed (.call l) = true →
      ∃ t, exec (.call l) s = .next t ∧
    t.Issued u l (((u.engine l).setSock 0xC4 (BitVec.ofNat 32 ((u.engine l).pc + 3))).transfer b.toNat false)) ∧
  (∀ (s u : State) (l : Nat) (m : Move) (b : BitVec 32), s.issuing l .callr = some (u, m, b) → Instr.wellFormed (.callr l) = true →
      ∃ t, exec (.callr l) s = .next t ∧
    t.Issued u l (((u.engine l).setSock 0xC4 (BitVec.ofNat 32 ((u.engine l).pc + 3))).transfer (((u.engine l).pc : Int) + b.toInt).toNat false)) ∧
  (∀ (s u : State) (l : Nat) (m : Move) (b : BitVec 32), s.issuing l .wait = some (u, m, b) → Instr.wellFormed (.evWait l) = true →
      ∃ t, exec (.evWait l) s = .next t ∧
    t.Issued u l (Engine.done { u.engine l with waiting := true } 1)) ∧
  (∀ (s u : State) (l : Nat) (m : Move) (b : BitVec 32), s.issuing l .ret = some (u, m, b) → (u.engine l).saved = none →
    Instr.wellFormed (.evRet l) = true → ∃ t, exec (.evRet l) s = .next t ∧ t.Issued u l
      (Engine.transfer { u.engine l with isRet := true, retAt := (u.engine l).cycle } (u.engine l).resume false))

/-- The data-space, instruction-space and I/O-space instructions of a channel engine, and what it launches (R351 to R357, R369 to R378, R434): each
answers a next state with its own effect. Where the rules leave a choice, it is the model's: log entries 8, 27 and 60. The constructors whose
completion it states: dsLoad, dsStore, ldwInc, stwInc, isRd, ioRd, ioWr, ioWctl, dmGo, rdTake, rdFetch, rdJnl, rdDone, tuGo, extPost, extRd. -/
def Obligations.EngineAccessInstructionsComplete : Prop :=
  (∀ (s u : State) (l : Nat) (m : Move) (b : BitVec 32), s.issuing l .load = some (u, m, b) → Instr.wellFormed (.dsLoad l) = true →
      ∃ t, exec (.dsLoad l) s = .next t ∧
    t.Issued u l (Engine.done { u.engine l with delayed := (u.engine l).delayed ++
      [⟨(u.engine l).cycle + 2, 0xE1, loadResult m.dest ((u.engine l).loadData b.toNat (dataSize m.dest))⟩] } 2)) ∧
  (∀ (s u : State) (l : Nat) (m : Move) (b : BitVec 32), s.issuing l .store = some (u, m, b) → Instr.wellFormed (.dsStore l) = true →
      ∃ t, exec (.dsStore l) s = .next t ∧
    t.Issued u l (((u.engine l).storeData ((u.engine l).sock 0xE0).toNat (dataSize m.dest) b).done 2)) ∧
  (∀ (s u : State) (l : Nat) (m : Move) (b : BitVec 32), s.issuing l .ldwInc = some (u, m, b) → Instr.wellFormed (.ldwInc l) = true →
      ∃ t, exec (.ldwInc l) s = .next t ∧
    t.Issued u l (Engine.done { (u.engine l).setSock 0xE0 ((u.engine l).sock 0xE0 + 4) with delayed := (u.engine l).delayed ++
      [⟨(u.engine l).cycle + 2, 0xE1, BitVec.ofNat 32 ((u.engine l).loadData ((u.engine l).sock 0xE0).toNat 4)⟩] } 2)) ∧
  (∀ (s u : State) (l : Nat) (m : Move) (b : BitVec 32), s.issuing l .stwInc = some (u, m, b) → Instr.wellFormed (.stwInc l) = true →
      ∃ t, exec (.stwInc l) s = .next t ∧
    t.Issued u l ((((u.engine l).storeData ((u.engine l).sock 0xE0).toNat 4 b).setSock 0xE0 ((u.engine l).sock 0xE0 + 4)).done 2)) ∧
  (∀ (s u : State) (l : Nat) (m : Move) (b : BitVec 32), s.issuing l .isRd = some (u, m, b) → Instr.wellFormed (.isRd l) = true →
      ∃ t, exec (.isRd l) s = .next t ∧
    t.Issued u l (Engine.done { u.engine l with delayed := (u.engine l).delayed ++ [⟨(u.engine l).cycle + 2, 0x141, (u.engine l).word b.toNat⟩] }
      2)) ∧
  (∀ (s u : State) (l : Nat) (m : Move) (b : BitVec 32) (far : FarData), s.issuing l .ioRd = some (u, m, b) →
    (b.toNat < 0x1000000 → Instr.wellFormed (.ioRd l far) = true → ∃ t, exec (.ioRd l far) s = .next t ∧
      t.Issued u l (((u.engine l).launch (m.dest - 0x103)
      (.ioRead 0 (BitVec.ofNat 32 (u.portWord l (b.toNat / 0x20000) (b.toNat % 0x20000))))).done 1)) ∧
    (0x1000000 ≤ b.toNat → b.toNat < 0x2000000 → Instr.wellFormed (.ioRd l far) = true → ∃ t, exec (.ioRd l far) s = .next t ∧
      t.Issued u l (((u.engine l).launch (m.dest - 0x103)
      (.ioRead 0 (BitVec.ofNat 32 (u.queueWord ((b.toNat - 0x1000000) / 0x400) (b.toNat % 0x400))))).done 1)) ∧
    (0x2000000 ≤ b.toNat → b.toNat < 0x2010000 → Instr.wellFormed (.ioRd l far) = true → ∃ t, exec (.ioRd l far) s = .next t ∧
      t.Issued u l (((u.engine l).launch (m.dest - 0x103)
      (.ioRead 0 (BitVec.ofNat 32 (u.engineWord l (b.toNat - 0x2000000))))).done 1))) ∧
  (∀ (s u : State) (l : Nat) (m : Move) (b : BitVec 32), s.issuing l .ioWr = some (u, m, b) → (u.engine l).sock 0x100 = 0x2000004#32 →
    Instr.wellFormed (.ioWr l) = true → ∃ t, exec (.ioWr l) s = .next t ∧ t.Issued u l (Engine.done { u.engine l with tick := b.toNat } 1)) ∧
  (∀ (s u : State) (l : Nat) (m : Move) (b : BitVec 32), s.issuing l .ioWctl = some (u, m, b) → Instr.wellFormed (.ioWctl l) = true →
      ∃ t, exec (.ioWctl l) s = .next t ∧
    t.Issued u l (Engine.done { u.engine l with
      windows := (u.engine l).windows.set {} ((u.engine l).sock 0x120).toNat
        { valid := b.getLsbD 13, host := b.getLsbD 12, base := (u.engine l).windowBase b.toNat, inst := b.toNat % 256 } } 1)) ∧
  (∀ (s u : State) (l : Nat) (m : Move) (b : BitVec 32), s.issuing l .dmGo = some (u, m, b) → 0x1000000 ≤ ((u.engine l).sock 0x161).toNat →
    Instr.wellFormed (.dmGo l) = true → ∃ t, exec (.dmGo l) s = .next t ∧
      t.Issued u l (((u.engine l).launch (m.dest - 0x167) (.move ((u.engine l).sock 0x160).toNat
      ((u.engine l).sock 0x161).toNat ((u.engine l).sock 0x162).toNat ((u.engine l).sock 0x163).toNat ((u.engine l).sock 0x164).toNat
      (u.engine l).windows 0 false)).done 1)) ∧
  (∀ (s u : State) (l : Nat) (m : Move) (b : BitVec 32), s.issuing l .rdTake = some (u, m, b) → (s.engine l).imem ≠ [] →
    Instr.wellFormed (.rdTake l) = true → ∃ t, exec (.rdTake l) s = .next t ∧
      t.Issued u l (Engine.done { u.engine l with rdNext := 0, taken := some (b.toNat % 16384) } 1)) ∧
  (∀ (s u : State) (l : Nat) (m : Move) (b : BitVec 32), s.issuing l .rdFetch = some (u, m, b) → Instr.wellFormed (.rdFetch l) = true →
      ∃ t, exec (.rdFetch l) s = .next t ∧
    t.Issued u l (((u.engine l).launch (m.dest - 0x1C3) (.fetch b.toNat)).done 1)) ∧
  (∀ (s u : State) (l : Nat) (m : Move) (b : BitVec 32), s.issuing l .rdJnl = some (u, m, b) → Instr.wellFormed (.rdJnl l) = true →
      ∃ t, exec (.rdJnl l) s = .next t ∧
    t.Issued u l (((u.engine l).launch (m.dest - 0x1C7) (.journal b.toNat (u.queue b.toNat).cur (u.queue b.toNat).wState (u.queue b.toNat).wPath
      (u.queue b.toNat).wAttempts (u.queue b.toNat).wMark)).done 1)) ∧
  (∀ (s u : State) (l : Nat) (m : Move) (b : BitVec 32), s.issuing l .rdDone = some (u, m, b) →
    ((u.queue b.toNat).cur = none →
      Instr.wellFormed (.rdDone l) = true → ∃ t, exec (.rdDone l) s = .next t ∧
      t.Issued u l (((u.engine l).launch (m.dest - 0x1CB) (.complete b.toNat none)).done 1)) ∧
    (∀ (n : Nat) (e : JEntry), (u.queue b.toNat).cur = some n → u.entry n = some e → e.out = none → u.queueStopped b.toNat = false →
      u.resetting (instOf e.queue) = false → u.jobs = [] → u.reports = [] →
      Instr.wellFormed (.rdDone l) = true → ∃ t e', exec (.rdDone l) s = .next t ∧
      (t.engine l).async.get none (m.dest - 0x1CB) = some (.complete b.toNat (some (n, e.seq))) ∧
        t.entry n = some e' ∧ e'.own = some (u.queue b.toNat).wRecord ∧ e'.out = some (((u.queue b.toNat).wRecord.extractLsb' 192 8).toNat,
          ((u.queue b.toNat).wRecord.extractLsb' 200 16).toNat, ((u.queue b.toNat).wRecord.extractLsb' 0 32).toNat))) ∧
  (∀ (s u : State) (l : Nat) (m : Move) (b : BitVec 32), s.issuing l .tuGo = some (u, m, b) → Instr.wellFormed (.tuGo l) = true →
      ∃ t, exec (.tuGo l) s = .next t ∧
    t.engine l = ((u.engine l).launch (m.dest - 0x60F) (.transform u.jobNext)).done 1 ∧ t.jobNext = u.jobNext + 1 ∧
    t.jobs.length = u.jobs.length + 1 ∧ ∃ j ∈ t.jobs, j.id = u.jobNext ∧ j.socket = some (l, m.dest - 0x60F) ∧
      j.queue = ((u.engine l).sock 0x60B).toNat ∧ j.len = ((u.engine l).sock 0x60A).toNat) ∧
  (∀ (s u : State) (l : Nat) (m : Move) (b : BitVec 32), s.issuing l .extPost = some (u, m, b) →
    Instr.wellFormed (.extPost l) = true → ∃ t, exec (.extPost l) s = .next t ∧ t.Issued u l ((u.engine l).done 1) ∧
      t.extCredit.get 0 (u.f (CE_CTLl.EXT_PORT l)) = u.extCredit.get 0 (u.f (CE_CTLl.EXT_PORT l)) - 1) ∧
  (∀ (s u : State) (l : Nat) (m : Move) (b : BitVec 32), s.issuing l .extRd = some (u, m, b) → Instr.wellFormed (.extRd l) = true →
      ∃ t, exec (.extRd l) s = .next t ∧
    t.Issued u l (((u.engine l).launch (m.dest - 0x77F) (.extRead (b.toNat % 128))).done 1))

/-- Event FIFOs, the receive region, and the ends of an engine's operations (R344, R348, R369 to R380, R434): each command answers a next state with
its own effect. Where the rules leave a choice, it is the model's: log entries 8, 27, 60 and 69. The constructors whose completion it states: popQueue,
rxSel, rxBase, rxPop, divideEnd, ioRdEnd, ioWriteError, dmGoEnd, rdFetchEnd, rdJnlEnd, rdDoneEnd, extRdEnd. -/
def Obligations.EngineOperationEndsComplete : Prop :=
  (∀ (s u : State) (l : Nat) (m : Move) (b : BitVec 32), s.issuing l .pop = some (u, m, b) → u.timedOf l = none → (u.engine l).frameWait = [] →
    (u.engine l).ctlWait = [] → Instr.wellFormed (.popQueue l) = true → ∃ t, exec (.popQueue l) s = .next t ∧
      (t.engine l).timerQ = (if b.getLsbD 0 then (u.engine l).timerQ.drop 1 else (u.engine l).timerQ) ∧
      (t.engine l).frameQ = (if b.getLsbD 1 then (u.engine l).frameQ.drop 1 else (u.engine l).frameQ) ∧
      (t.engine l).ctlQ = (if b.getLsbD 2 then (u.engine l).ctlQ.drop 1 else (u.engine l).ctlQ) ∧
      (t.engine l).ioWerr = (if b.getLsbD 3 then 0 else (u.engine l).ioWerr) ∧ t.journal = u.journal) ∧
  (∀ (s u : State) (l p : Nat) (m : Move) (b : BitVec 32), s.issuing l .rxSel = some (u, m, b) → p = ((u.engine l).sock 0x100).toNat / 0x20000 →
    Instr.wellFormed (.rxSel l) = true → ∃ t, exec (.rxSel l) s = .next t ∧ t.rxView l p = (b.toNat % 16384, 0) ∧
      t.Issued u l ((u.engine l).done 1)) ∧
  (∀ (s u : State) (l p : Nat) (m : Move) (b : BitVec 32), s.issuing l .rxBase = some (u, m, b) → p = ((u.engine l).sock 0x100).toNat / 0x20000 →
    b.toNat % 4096 = 0 → b.toNat / 4096 < 48 →
    Instr.wellFormed (.rxBase l) = true → ∃ t, exec (.rxBase l) s = .next t ∧ t.rxView l p = ((u.rxView l p).1, b.toNat / 4096) ∧
      t.Issued u l ((u.engine l).done 1)) ∧
  (∀ (s u : State) (l p : Nat) (m : Move) (b : BitVec 32) (f : Frame), s.issuing l .rxPop = some (u, m, b) →
    p = ((u.engine l).sock 0x100).toNat / 0x20000 → b.getLsbD 0 = true → u.headFrame l p = some f → u.PortsRest →
    Instr.wellFormed (.rxPop l) = true → ∃ t, exec (.rxPop l) s = .next t ∧ t.frames = u.frames.erase f ∧ t.rxView l p = ((u.rxView l p).1, 0) ∧
      t.Issued u l ((u.engine l).done 1)) ∧
  (∀ (s : State) (l : Nat) (d : Divide), s.stopped = false → (s.engine l).divide = some d → (s.engine l).waiting = true →
    Instr.wellFormed (.divideEnd l) = true → ∃ t, exec (.divideEnd l) s = .next t ∧ (t.engine l).divide = none ∧
      (t.engine l).sock 0xA8 = (divOp d.signed d.a d.b).1 ∧
      (t.engine l).sock 0xA9 = (divOp d.signed d.a d.b).2 ∧ (t.engine l).cycle = max (s.engine l).cycle (d.at_ + 34) ∧ t.regs = s.regs) ∧
  (∀ (s : State) (l n st : Nat) (v : BitVec 32), s.stopped = false → (s.engine l).async.get none n = some (.ioRead st v) → 1 ≤ n → n ≤ 3 →
    Instr.wellFormed (.ioRdEnd l n) = true → ∃ t, exec (.ioRdEnd l n) s = .next t ∧
      t.AsyncEnded l n [(0x107 + n, v), (0x10B + n, BitVec.ofNat 32 st)] ∧ t.regs = s.regs) ∧
  (∀ (s : State) (l a st : Nat), s.stopped = false → 0x80000000 ≤ a → (s.engine l).ioWerr.getLsbD 31 = false →
    Instr.wellFormed (.ioWriteError l a st) = true → ∃ t, exec (.ioWriteError l a st) s = .next t ∧
      (t.engine l).ioWerr = BitVec.ofNat 32 (2 ^ 31 + st) ∧
      (t.engine l).ioWerrA = BitVec.ofNat 32 a ∧ t.regs = s.regs) ∧
  (∀ (s s1 : State) (l n st reached src dst len mode q done x c : Nat) (psn p : Bool) (ws : Table IoWindow) (m : MoveJob) (far : FarData),
    s.stopped = false → 1 ≤ n → n ≤ 3 → (s.engine l).async.get none n = some (.move src dst len mode q ws done psn) →
    m = { l := l, n := n, ws := ws, q := q, src := src, dst := dst, mode := mode, len := s.moveLen l src len } → m.frame = false →
    s.moveStop src dst q st = none → s.moveOn m m.len far (m.len / 64 + 2) done psn = (s1, ⟨x, p, some c⟩) → s1.stuck = [] →
    Instr.wellFormed (.dmGoEnd l n st reached far) = true → ∃ t bytes status, exec (.dmGoEnd l n st reached far) s = .next t ∧
      t.MoveEnded l n bytes status ∧ t.dram = s1.dram ∧ status = (if c ≠ 0 then c else if x = m.len ∧ m.len < len then 11 else if p then 3 else 0) ∧
      bytes = (if status = 11 then m.len else if x = len then x else x / swapUnit (mode % 4) * swapUnit (mode % 4))) ∧
  (∀ (s : State) (l n st src dst len mode q : Nat) (ws : Table IoWindow) (far : FarData), s.stopped = false → s.stuck = [] → 1 ≤ n → n ≤ 3 →
    (s.engine l).async.get none n = some (.move src dst len mode q ws 0 false) → s.queueStopped q = true → 0 < s.moveLen l src len →
    s.moveLen l src len = len → Instr.wellFormed (.dmGoEnd l n st 0 far) = true → ∃ t, exec (.dmGoEnd l n st 0 far) s = .next t ∧
      t.MoveEnded l n 0 7 ∧ t.dram = s.dram) ∧
  (∀ (s s1 : State) (l n q k st : Nat) (far : FarData), s.stopped = false → 1 ≤ n → n ≤ 3 → (s.takesEvents l && decide (s.boot ≥ 0xB0)) = false →
    (s.engine l).async.get none n = some (.fetch q) → s.fetchNext q far = (s1, some st) →
    s1.stuck = [] →
    Instr.wellFormed (.rdFetchEnd l n k far) = true → ∃ t, exec (.rdFetchEnd l n k far) s = .next t ∧
      t.AsyncEnded l n [(0x1CF + n, BitVec.ofNat 32 st)] ∧ t.journal = s1.journal ∧ t.queues = s1.queues) ∧
  (∀ (s : State) (l n q k st path attempts mark : Nat) (e : JEntry), s.stopped = false → 1 ≤ n → n ≤ 3 → s.queueStopped q = false →
    (s.engine l).async.get none n = some (.journal q (some k) st path attempts mark) → s.entry k = some e →
    Instr.wellFormed (.rdJnlEnd l n) = true → ∃ t, exec (.rdJnlEnd l n) s = .next t ∧ t.AsyncEnded l n [(0x1CF + n, 0)] ∧ t.entry k = some { e with
      state := if e.state = 4 then 4 else st,
      path := path, attempts := attempts, mark := mark, orphan := false, issued := e.issued && decide (attempts ≤ e.attempts) }) ∧
  (∀ (s : State) (n l : Nat) (e : JEntry), s.stopped = false → s.entry n = some e → e.state = 4 → s.recordDone e.queue n = true →
    chainKeeps e.status = true →
    Instr.wellFormed (.rdDoneEnd n l) = true → ∃ t, exec (.rdDoneEnd n l) s = .next t ∧ t.entry n = none ∧ t.dram = s.dram) ∧
  (∀ (s : State) (l n k st : Nat) (data : BitVec 32), s.stopped = false → 1 ≤ n → n ≤ 3 → (s.engine l).async.get none n = some (.extRead k) →
    s.rootUp (s.leadPort (s.f (CE_CTLl.EXT_PORT l))) = true →
    Instr.wellFormed (.extRdEnd l n st data) = true → ∃ t, exec (.extRdEnd l n st data) s = .next t ∧
      t.AsyncEnded l n [(0x783 + n, if st = 0 then data else 0), (0x787 + n, if st = 0 then 0 else 5)] ∧ t.regs = s.regs)

/-- Events, loading, halting, faults and sparing of the channel engines (R362, R368, R384 to R395): each command answers a next state with its own
effect. Where the rules leave a choice, it is the model's: log entry 27. The constructors whose completion it states: eventEntry,
engineMemoryWrite, runHalt, halted, runStart, haltEngine, haltHung, watchdog, engineHardwareFault, selfTestEnd. -/
def Obligations.EngineControlCommandsComplete : Prop :=
  (∀ (s : State) (l at_ n : Nat), s.stopped = false → s.engineRuns l = true → (s.engine l).slots = 0 → (s.engine l).entering = none →
    (s.engine l).inEvent = false → (s.engine l).dueLine = some n → n ≠ 1 → n ≠ 2 → n ≠ 5 →
    Instr.wellFormed (.eventEntry l at_) = true → ∃ t, exec (.eventEntry l at_) s = .next t ∧ t.Issued s l ((s.engine l).enterLine n
      (if (s.engine l).waiting then max (s.engine l).cycle at_ else (s.engine l).cycle))) ∧
  (∀ (s : State) (who : Requester) (off die o l k : Nat) (v : Word), s.stopped = false → engineWindow off = some (die, o, l, k) → off % 4 = 0 →
    s.deadDies.contains die = false → s.locked who 9 = false → (who = .serviceEngine ∨ s.guardRefuses (5 + die) o (decide (who = .endpaper)) true = false) →
    s.f (CE_STATUSl.STATE l) = 2 → k < 0x10000 →
    Instr.wellFormed (.engineMemoryWrite who off 4 v) = true → ∃ t, exec (.engineMemoryWrite who off 4 v) s = .next t ∧
      (t.engine l).imem.get none (k / 4) = some (v.setWidth 32) ∧
      (t.engine l).loaded = true ∧ t.regs = s.regs ∧ t.dram = s.dram) ∧
  (∀ (s : State) (who : Requester) (l : Nat), s.stopped = false → l < 256 →
    s.admits who 8 (CE_CTLl l) ((CE_CTLl.RUN l).put 0 (s.reg (CE_CTLl l))) = true → s.f (CE_STATUSl.STATE l) = 0 →
    Instr.wellFormed (.runHalt who l) = true → ∃ t, exec (.runHalt who l) s = .next t ∧ t.f (CE_STATUSl.STATE l) = 1 ∧
      t.on (CE_CTLl.RUN l) = false ∧ (t.engine l).haltAt = s.leaf) ∧
  (∀ (s : State) (l : Nat), s.stopped = false → s.f (CE_STATUSl.STATE l) = 1 → (s.engine l).async = [] → s.reqs = [] →
    (s.engine l).runHeld = false → Instr.wellFormed (.halted l) = true → exec (.halted l) s = .next (s.setF (CE_STATUSl.STATE l) 2)) ∧
  (∀ (s : State) (who : Requester) (l : Nat), s.stopped = false → l < 256 →
    s.admits who 8 (CE_CTLl l) ((CE_CTLl.RUN l).put 1 (s.reg (CE_CTLl l))) = true → s.f (CE_STATUSl.STATE l) = 2 → s.cmdsOfEngine l = [] →
    Instr.wellFormed (.runStart who l) = true → ∃ t, exec (.runStart who l) s = .next t ∧ t.f (CE_STATUSl.STATE l) = 0 ∧
      t.on (CE_CTLl.RUN l) = true ∧ (t.engine l).pc = 0 ∧
      (t.engine l).guards = 7 ∧ (t.engine l).waiting = false ∧ (t.engine l).imem = (s.engine l).imem ∧
      t.f (CE_STATUSl.START l) = (if (s.engine l).loaded then 1 else 3)) ∧
  (∀ (s u : State) (l k : Nat) (m : Move), s.stopped = false → l < 256 → k < 272 → s.mayIssue l = true → k = s.f (CE_STATUSl.PHYS l) →
    u = s.modEngine l (fun e => e.settleTo e.cycle) → (u.engine l).pc ≤ 16383 → m = moveOf ((u.engine l).word (u.engine l).pc) → m.dest = 0xCC →
    m.imm = true → m.staticFault (decide ((u.engine l).slots ≠ 0)) = none → (u.engine l).annul = false → m.holds (u.engine l).guards = true →
    (u.engine l).taken = none →
    Instr.wellFormed (.haltEngine l) = true → ∃ t, exec (.haltEngine l) s = .next t ∧ t.f (CE_STATUSl.FAULT_CODE l) = 0x20 ∧
      t.on CE_ALARM.PROG_FAULT = true ∧
      t.f (CE_PHYSk.STATE k) = 2 ∧ t.on (CE_FAULTl.VALID l) = true) ∧
  (∀ (s : State) (l k : Nat) (c : Instr) (cause : Nat), s.stopped = false → l < 256 → k < 272 → k = s.f (CE_STATUSl.PHYS l) →
    s.f (CE_PHYSk.STATE k) = 0 → s.f (CE_PHYSk.LOGICAL k) = l → (s.engine l).haltAt + 2049 < 2 ^ 56 →
    ((c = .haltHung l ∧ cause = 6 ∧ s.f (CE_STATUSl.STATE l) = 1) ∨
      (c = .watchdog l ∧ cause = 4 ∧ s.engineRuns l = true ∧ (s.engine l).waiting = false) ∨ (c = .engineHardwareFault k cause ∧ cause < 16)) →
    c.wellFormed = true → ∃ t, exec c s = .next t ∧ t.f (CE_PHYSk.STATE k) = 3 ∧ t.f (CE_STATUSl.HW_CAUSE l) = cause ∧
      t.on CE_ALARM.HW_FAULT = true) ∧
  (∀ (s : State) (k : Nat) (pass : Bool), s.stopped = false → s.selfTests.find? (fun x => decide (x.1 = k)) = some (k, none) →
    Instr.wellFormed (.selfTestEnd k pass) = true → ∃ t, exec (.selfTestEnd k pass) s = .next t ∧ t.f (CE_PHYSk.STATE k) = (if pass then 1 else 3) ∧
      t.selfTests = s.selfTests.filter (fun x => decide (x.1 ≠ k)))

/-- TRANSFORM commands and transform units (R295, R404 to R412): each command answers a next state with its own effect. Where the rules leave a
choice, it is the model's: log entries 4, 28 and 69. The constructors whose completion it states: transformCommand, tuBlock, tuDetection, tuJobEnd. -/
def Obligations.TransformCommandsComplete : Prop :=
  (∀ (s s0 s1 : State) (q n : Nat) (e : JEntry) (d : Line), s.stopped = false → s.nextCmd q = some (n, e, d) → s.entry n = some e →
    dOpcode d = 7 → s.jobs = [] → dBhost d = false → dTarget d = 0 → s.engineBeat q = some s0 → s0.takeTokens q 0 (!e.issued) = some s1 →
    Instr.wellFormed (.transformCommand q) = true → ∃ t j, exec (.transformCommand q) s = .next t ∧
      t.entry n = some { e with state := 1, issued := true } ∧
      t.jobs = [j] ∧ t.jobNext = s.jobNext + 1 ∧
      j.id = s.jobNext ∧ j.entry = some (n, e.seq) ∧ j.inst = instOf q ∧ j.die = s.queueDie q ∧ j.src = (dWord d 3).toNat ∧
      j.dst = (dWord d 2).toNat ∧
      j.len = dLength d) ∧
  (∀ (s s1 s3 : State) (u id want : Nat) (j : TuJob) (raw : List Byte) (far : FarData), s.stopped = false →
    s.jobs.find? (fun j => decide (j.id = id)) = some j → j.unit = some u → j.fail = none → j.ended = none → j.entry = none → s.qState j.queue ≠ 2 →
    j.srcHost = none → j.dstHost = none → s.pointOpen (402 + u) j.inst = true → s.pointOpen (272 + j.die) j.inst = true →
    bitsOf j.j0 7 0 = 0x20 → j.made = 0 → j.ahead = 0 → j.input.length = j.used → want = j.len - j.used → 0 < want → want ≤ 65536 →
    s.jobRead j far (want / 64 + 2) (j.src + j.used) want = (s1, raw, 0, false) → raw.length = want →
    (∀ o w, (s1.incF (TU_STATUSu.BLOCKS u)).guardRefuses (3 + j.die) o false w = false) →
    (s1.incF (TU_STATUSu.BLOCKS u)).sysWrite j.die j.inst false (cellsAt j.dst (sha256 (j.input ++ raw))) [] = (s3, 0) → s3.stuck = [] →
    s3.jobs.any (fun x => decide (x.id = id)) = true →
    Instr.wellFormed (.tuBlock u id false far) = true → ∃ t j', exec (.tuBlock u id false far) s = .next t ∧ j' ∈ t.jobs ∧ j'.id = id ∧
      j'.input = j.input ++ raw ∧ j'.used = j.len ∧ j'.made = 32 ∧ j'.ended = some (false, 0) ∧ j'.fail = none ∧ t.dram = s3.dram) ∧
  (∀ (s : State) (u id : Nat) (j : TuJob), s.stopped = false → u < 16 →
      s.jobs.find? (fun j => decide (j.id = id) && decide (j.unit = some u)) = some j →
    j.rerun = false → Instr.wellFormed (.tuDetection u id) = true → ∃ t j', exec (.tuDetection u id) s = .next t ∧
      t.on TU_ALARM.UNIT_FAULT = true ∧ j' ∈ t.jobs ∧ j'.id = id ∧ j'.rerun = true) ∧
  (∀ (s : State) (id l n made check : Nat) (short : Bool) (j : TuJob), s.stopped = false → s.jobs.find? (fun j => decide (j.id = id)) = some j →
    j.fail = none → j.ended = some (short, check) → j.socket = some (l, n) → j.made = made → 1 ≤ n → n ≤ 3 →
    (s.engine l).async.get none n = some (.transform id) →
    ∃ t, exec (.tuJobEnd id) s = .next t ∧ t.AsyncEnded l n [(0x613 + n, 0), (0x617 + n, BitVec.ofNat 32 made)] ∧
      t.jobs.all (fun x => decide (x.id ≠ id)) = true)

/-- Training, link-up, Recovery and loss of a link of PCI Express (R416, R423 to R429, R582): each command answers a next state with its own effect.
Where the rules leave a choice, it is the model's: log entries 29 and 31. The constructors whose completion it states: linkUp, linkDown, recovery,
recoveryEnd, completionTimeout, inboundUr, errorMessage, dpcRelease, trainingFailure, backoffEnd, backoffDetection, retrain, retrainEvent. -/
def Obligations.PortLinkCommandsComplete : Prop :=
  (∀ (s : State) (p gen w : Nat), s.stopped = false → p < 128 → s.trains p = true → s.portState p = 1 ∨ s.portState p = 2 →
      (s.widthLeft p).isSome = true →
    s.f (PRT_Pp_CFG.MODE p) = 1 → (s.port p).msgs = [] →
    Instr.wellFormed (.linkUp p gen w) = true → ∃ t, exec (.linkUp p gen w) s = .next t ∧ t.portState p = 4 ∧ t.extCredit.get 0 p = 16 ∧
      t.on (PRT_Pp_STATUS.PRESENT p) = true ∧
      t.f (PRT_Pp_STATUS.BACKOFF_K p) = 0 ∧ t.f (PRT_Pp_STATUS.GEN p) = min gen (s.f (PRT_Pp_CFG.MAXGEN p)) ∧
      t.f (PRT_Pp_STATUS.NWIDTH p) = min (min w (s.f (PRT_Pp_CFG.WIDTH p))) ((s.widthLeft p).getD 0)) ∧
  (∀ (s : State) (p : Nat), s.stopped = false → p < 128 → s.trains p = true → s.portUp p = true → s.f (PRT_Pp_CFG.MODE p) = 1 → s.pathsOf p = [] →
    s.PortsRest → Instr.wellFormed (.linkDown p .surprise) = true → ∃ t, exec (.linkDown p .surprise) s = .next t ∧
      t.portState p = (if s.on (PRT_Pp_CFG.DPC p) then 7 else 1) ∧ t.on PRT_ALARM.LINK_DOWN = true ∧
      t.f (PRT_Pp_STATUS.GEN p) = 0 ∧ t.f (PRT_Pp_STATUS.NWIDTH p) = 0 ∧ t.on (PRT_Pp_STATUS.PRESENT p) = false ∧
      t.frames = s.frames.filter (fun f => !(decide (f.port = p) && f.closed.isNone))) ∧
  (∀ (s : State) (p : Nat), s.stopped = false → p < 128 → s.trains p = true → s.portState p = 4 → s.f (PRT_Pp_CFG.MODE p) ≠ 3 →
    Instr.wellFormed (.recovery p) = true → ∃ t, exec (.recovery p) s = .next t ∧ t.portState p = 5 ∧ t.journal = s.journal ∧ t.dram = s.dram ∧
      t.f (PRT_Pp_COUNTS.RETRAINS p) = min (s.f (PRT_Pp_COUNTS.RETRAINS p) + 1) 65535) ∧
  (∀ (s : State) (p gen w : Nat), s.stopped = false → p < 128 → s.trains p = true → s.portState p = 5 → s.f (PRT_Pp_CFG.MODE p) ≠ 3 → s.journal = [] →
    Instr.wellFormed (.recoveryEnd p gen w) = true → ∃ t, exec (.recoveryEnd p gen w) s = .next t ∧ t.portState p = 4 ∧
      t.f (PRT_Pp_STATUS.GEN p) = min gen (s.f (PRT_Pp_CFG.MAXGEN p))) ∧
  (∀ (s : State) (id : Nat) (r : PortReq), s.stopped = false → s.reqs.find? (fun x => decide (x.id = id)) = some r → r.write = false →
      r.freed = false →
    r.leaf + 1024 * s.f PRT_CTL.CTO < 2 ^ 56 →
    ∃ t, exec (.completionTimeout id) s = .next t ∧ t.leaf = max s.leaf (r.leaf + 1024 * s.f PRT_CTL.CTO) ∧
      t.reqs = s.reqs.map (fun x => if x.id = id then { x with freed := true } else x) ∧ t.journal = s.journal) ∧
  (∀ (s : State) (p : Nat) (posted : Bool), s.stopped = false → s.rootUp p = true →
    Instr.wellFormed (.inboundUr p posted) = true → ∃ t, exec (.inboundUr p posted) s = .next t ∧ t.on PRT_ALARM.INBOUND_UR = true ∧ t.dram = s.dram ∧
      t.f (PRT_Pp_COUNTS.INBOUND_UR p) = min (s.f (PRT_Pp_COUNTS.INBOUND_UR p) + 1) 65535) ∧
  (∀ (s : State) (p : Nat) (hdr : Option Nat), s.stopped = false → s.rootUp p = true →
    Instr.wellFormed (.errorMessage p 0 hdr) = true → exec (.errorMessage p 0 hdr) s = .next (s.incF (PRT_Pp_STATUS.ERR_MSGS p))) ∧
  (∀ (s : State) (p : Nat), s.stopped = false → p < 128 → s.portState p = 7 → (s.port p).since + 10 < 2 ^ 56 →
    Instr.wellFormed (.dpcRelease p) = true → ∃ t, exec (.dpcRelease p) s = .next t ∧ t.portState p = 1 ∧
      t.leaf = max s.leaf ((s.port p).since + 10)) ∧
  (∀ (s : State) (p l : Nat), s.stopped = false → p < 128 → s.trains p = true → s.portState p = 1 ∨ s.portState p = 2 → l < 2 ^ 56 →
    Instr.wellFormed (.trainingFailure p false l) = true → ∃ t, exec (.trainingFailure p false l) s = .next t ∧ t.portState p = 3 ∧
      t.leaf = max s.leaf l ∧ t.on (PRT_Pp_STATUS.PRESENT p) = false ∧
      t.f (PRT_Pp_STATUS.BACKOFF_K p) = min (s.f (PRT_Pp_STATUS.BACKOFF_K p) + 1) 15) ∧
  (∀ (s : State) (p : Nat), s.stopped = false → p < 128 → s.portState p = 3 → (s.port p).since < 2 ^ 55 →
    (Instr.wellFormed (.backoffEnd p) = true → ∃ t, exec (.backoffEnd p) s = .next t ∧ t.portState p = 1 ∧ t.leaf = max s.leaf ((s.port p).since +
      1024 * 2 ^ min (s.f (PRT_Pp_STATUS.BACKOFF_K p) - 1) (s.f PRT_CTL.BACKOFF_MAX))) ∧
    ((s.port p).found = false → Instr.wellFormed (.backoffDetection p) = true → ∃ t, exec (.backoffDetection p) s = .next t ∧ t.portState p = 1 ∧
      t.leaf = s.leaf ∧
      t.f (PRT_Pp_STATUS.BACKOFF_K p) = 0 ∧ t.on (PRT_Pp_STATUS.PRESENT p) = true)) ∧
  (∀ (s : State) (who : Requester) (p k : Nat), s.stopped = false → k = s.leadPort p → s.admits who 8 (PRT_Pp_CMD p) 1 = true → s.portUp k = true →
    s.postedEvent (.retrain k) = none →
    Instr.wellFormed (.retrain who p) = true →
      exec (.retrain who p) s = .next { s with posted := s.posted ++ [{ leaf := s.leaf + 2, kind := .retrain k }] }) ∧
  (∀ (s : State) (p : Nat) (e : LeafEvent), s.stopped = false → p < 128 → s.postedEvent (.retrain p) = some e → e.leaf < 2 ^ 56 → s.trains p = true →
    s.portState p = 4 → s.f (PRT_Pp_CFG.MODE p) ≠ 3 →
    Instr.wellFormed (.retrainEvent p) = true → ∃ t, exec (.retrainEvent p) s = .next t ∧ t.portState p = 5 ∧ t.leaf = max s.leaf e.leaf)

/-- Lanes, and the credits and signals of customer logic (R417 to R419, R434): each command answers a next state with its own effect. Where the rules
leave a choice, it is the model's: log entry 31. The constructors whose completion it states: laneDue, laneSwap, creditReturn, extensionSignal. -/
def Obligations.LaneAndExtensionCommandsComplete : Prop :=
  (∀ (s : State) (lane errs : Nat) (check : Bool), s.stopped = false → lane < 256 →
    (s.f (PRT_Gj_LANES.DISABLED (lane / 8))).testBit (lane % 8) = false →
    (check = true ∨ s.f PRT_CTL.LANE_THRESH ≠ 0 ∧ s.f PRT_CTL.LANE_THRESH ≤ errs) → s.postedEvent (.laneSwap lane) = none →
    s.on (PRT_Gj_LANES.SPARE_USED (lane / 8)) = false → s.on (PRT_Gj_LANES.SPARE_FAILED (lane / 8)) = false → s.swapPosted (lane / 8) = false →
    Instr.wellFormed (.laneDue lane errs check) = true → ∃ t, exec (.laneDue lane errs check) s = .next t ∧
      t.postedEvent (.laneSwap lane) = some { leaf := s.leaf + 4, kind := .laneSwap lane } ∧
      t.regs = s.regs) ∧
  (∀ (s : State) (lane : Nat) (e : LeafEvent), s.stopped = false → lane < 256 → s.postedEvent (.laneSwap lane) = some e → e.leaf < 2 ^ 56 →
    s.f (PRT_Pp_CFG.MODE (s.leadPort (lane / 2))) = 0 →
    Instr.wellFormed (.laneSwap lane) = true → ∃ t, exec (.laneSwap lane) s = .next t ∧ t.on (PRT_Gj_LANES.SPARE_USED (lane / 8)) = true ∧
      t.f (PRT_Gj_LANES.SPARE_POS (lane / 8)) = lane % 8 ∧
      t.on PRT_ALARM.LANE_SPARED = true ∧ t.leaf = max s.leaf e.leaf) ∧
  (∀ (s : State) (p : Nat) (v : BitVec 32), s.stopped = false → s.rootUp p = true → 1 ≤ v.toNat % 32 → v.toNat % 32 ≤ 16 →
    s.extCredit.get 0 p + v.toNat % 32 ≤ 16 →
    Instr.wellFormed (.creditReturn p v) = true →
      exec (.creditReturn p v) s = .next { s with extCredit := s.extCredit.set 0 p (s.extCredit.get 0 p + v.toNat % 32) }) ∧
  (∀ (s : State) (p : Nat), s.stopped = false → s.rootUp p = true →
    Instr.wellFormed (.extensionSignal p) = true → ∃ t, exec (.extensionSignal p) s = .next t ∧ t.regs = s.regs ∧
      (∀ l < 256, s.on (CE_CTLl.EXT_EN l) = true → s.f (CE_CTLl.EXT_PORT l) = p →
        s.takesEvents l = false → (t.engine l).pend.getLsbD 6 = true))

/-- Module links (R440 to R446): each command answers a next state with its own effect. Where the rules leave a choice, it is the model's: log entries
32 and 33. The constructors whose completion it states: flit, nak, replayTimeout, train, broipTrainingTimeout, broipBackoffEnd, linkSilence,
retrainReq, widthReq, grant, linkState. -/
def Obligations.ModuleLinkCommandsComplete : Prop :=
  (∀ (s : State) (j : Nat) (bytes : List Byte), s.stopped = false → s.linkStateOf j = 3 ∨ s.linkStateOf j = 4 → flitGood bytes = false →
    (s.blink j).naked = false →
    Instr.wellFormed (.flit j bytes) = true →
      exec (.flit j bytes) s = .next ((s.putFlit j (s.blink j).next 2 none).modLink j (fun b => { b with naked := true }))) ∧
  (∀ (s : State) (j h : Nat) (bytes : List Byte), s.stopped = false → s.linkStateOf j = 3 → flitGood bytes = true → h = leNat (bytes.take 8) →
    h / 2 ^ 37 % 8 = 3 → h / 2 ^ 52 % 4096 = (s.blink j).expect → (s.blink j).unacked = [] → (s.blink j).told < 31 →
    Instr.wellFormed (.flit j bytes) = true → ∃ t, exec (.flit j bytes) s = .next t ∧ (t.blink j).expect = ((s.blink j).expect + 1) % 4096 ∧
      (t.blink j).told = (s.blink j).told + 1 ∧
      (t.blink j).lastGood = s.leaf ∧ (t.blink j).naked = false ∧ t.regs = s.regs ∧ t.sent = s.sent) ∧
  (∀ (s : State) (j ack q : Nat) (m : LinkMsg), s.stopped = false → s.linkStateOf j = 3 → (s.blink j).unacked = [(q, m)] → q < 4096 → ack < 4096 →
    ack ≠ q → (s.blink j).resends < s.f BL_CTL.REPLAY_LIMIT →
    Instr.wellFormed (.nak j ack) = true → ∃ t, exec (.nak j ack) s = .next t ∧ (t.blink j).unacked = [(q, m)] ∧
      (t.blink j).resends = (s.blink j).resends + 1 ∧ t.on BL_ALARM.REPLAY = true ∧
      t.sent = s.sent ++ [.flit j q (((s.blink j).expect + 4095) % 4096) (if m.payload then 0 else 3) (some m)
        (flitBytes s.moduleNo j q (((s.blink j).expect + 4095) % 4096) (if m.payload then 0 else 3) (s.blink j).credits.1 (s.blink j).credits.2
          (some m))]) ∧
  (∀ (s : State) (j : Nat), s.stopped = false → s.linkStateOf j = 3 → (s.blink j).unacked ≠ [] → (s.blink j).resends < s.f BL_CTL.REPLAY_LIMIT →
    (s.blink j).ackAt + 512 < 2 ^ 64 →
    Instr.wellFormed (.replayTimeout j) = true → ∃ t, exec (.replayTimeout j) s = .next t ∧ t.count = max s.count ((s.blink j).ackAt + 512) ∧
      (t.blink j).resends = (s.blink j).resends + 1 ∧
      (t.blink j).unacked = (s.blink j).unacked ∧ t.on BL_ALARM.REPLAY = true) ∧
  (∀ (s : State) (j m link off last : Nat) (serial : Word), s.stopped = false → j < 32 → s.linkStateOf j = 1 ∨ s.linkStateOf j = 4 →
    (m = s.moduleNo → Instr.wellFormed (.train j m serial link off last) = true → ∃ t, exec (.train j m serial link off last) s = .next t ∧
      t.linkStateOf j = 5 ∧ t.on BL_ALARM.MID_CLASH = true) ∧
    (m ≠ s.moduleNo → m < 8 → link < 32 → linkWidth (off ||| s.lanesOff j) ≠ 0 → s.blinks = [] → s.blWaiting = [] →
      Instr.wellFormed (.train j m serial link off last) = true → ∃ t, exec (.train j m serial link off last) s = .next t ∧ t.linkStateOf j = 3 ∧
      t.f (BL_Lj_STATUS.PEER_MOD j) = m ∧
        t.f (BL_Lj_STATUS.PEER_LINK j) = link ∧ t.f (BL_Lj_STATUS.WIDTH j) = linkWidth (off ||| s.lanesOff j) ∧ (t.blink j).serial = some serial)) ∧
  (∀ (s : State) (j : Nat), s.stopped = false → j < 32 → s.linkStateOf j = 1 → (s.blink j).since + 512000 < 2 ^ 64 →
    Instr.wellFormed (.broipTrainingTimeout j) = true → ∃ t, exec (.broipTrainingTimeout j) s = .next t ∧ t.linkStateOf j = 2 ∧
      t.count = max s.count ((s.blink j).since + 512000) ∧
      t.f (BL_Lj_STATUS.BACKOFF_K j) = min (s.f (BL_Lj_STATUS.BACKOFF_K j) + 1) 15) ∧
  (∀ (s : State) (j : Nat), s.stopped = false → j < 32 → s.linkStateOf j = 2 → (∀ i < 4, s.f (PRT_Pp_CFG.MODE (4 * j + i)) = 2) →
    (s.blink j).since < 2 ^ 63 →
    Instr.wellFormed (.broipBackoffEnd j) = true → ∃ t, exec (.broipBackoffEnd j) s = .next t ∧ t.linkStateOf j = 1 ∧
      t.count = max s.count ((s.blink j).since + min (512000 * 2 ^ (s.f (BL_Lj_STATUS.BACKOFF_K j) - 1)) 256000000)) ∧
  (∀ (s : State) (j : Nat), s.stopped = false → j < 32 → s.linkStateOf j = 3 → (∀ i < 4, s.f (PRT_Pp_CFG.MODE (4 * j + i)) = 2) →
    (∀ k < 32, k ≠ j → s.linkStateOf k ≠ 3) → s.blWaiting = [] → (s.blink j).lastGood + 4 < 2 ^ 56 →
    Instr.wellFormed (.linkSilence j) = true → ∃ t, exec (.linkSilence j) s = .next t ∧ t.linkStateOf j = 1 ∧ t.on BL_ALARM.LINK_DOWN = true ∧
      t.f (BL_Lj_STATUS.WIDTH j) = 0 ∧
      t.leaf = max s.leaf ((s.blink j).lastGood + 4)) ∧
  (∀ (s : State) (j : Nat) (c : Instr), s.stopped = false → j < 32 → s.linkStateOf j = 3 →
    ((c = .retrainReq j ∨ c = .widthReq j) ∧ (s.blink j).asked = 0) ∨ (c = .grant j ∧ (s.blink j).asked ≠ 0) →
    c.wellFormed = true → ∃ t, exec c s = .next t ∧ t.linkStateOf j = 4 ∧ (t.blink j).halted = true ∧ (t.blink j).asked = 0 ∧
      (t.blink j).since = s.count) ∧
  (∀ (s : State) (m k last j : Nat), s.stopped = false → s.linkTo m k = some j → s.linkStateOf j = 1 → (s.blink j).unacked = [] → (s.blink j).queue = [] →
    Instr.wellFormed (.linkState m k last) = true → ∃ t, exec (.linkState m k last) s = .next t ∧ (t.blink j).unacked = [] ∧
      (t.blink j).queue = [] ∧ t.regs = s.regs)

/-- Partners and evacuation (R447, R451 to R453): each command answers a next state with its own effect. Where the rules leave a choice, it is the
model's: log entry 34. The constructors whose completion it states: peerLost, clearLost, evacuate, returnHome, evacuationCopyEnd,
evacuationHandoverEnd, depart. -/
def Obligations.PeerAndEvacuationCommandsComplete : Prop :=
  (∀ (s : State) (m : Nat), s.stopped = false → m < 8 → m ≠ s.moduleNo → s.f (BL_PEERm.STATE m) = 2 → s.slices = [] → s.tiles = [] → s.blinks = [] →
    s.recoveries = [] → s.peerSince.get 0 m + 1024 * s.f BL_CTL.LOST_TO < 2 ^ 56 →
    Instr.wellFormed (.peerLost m) = true → ∃ t, exec (.peerLost m) s = .next t ∧ t.f (BL_PEERm.STATE m) = 3 ∧ t.on BL_ALARM.PEER_LOST = true ∧
      (s.svc.warmAt = none → t.on L3_COH_ALARM.MODULE_LOST = true) ∧
      (s.svc.warmAt.isSome = true → t.svc.lostLater = s.svc.lostLater ++ [m]) ∧
      t.leaf = max s.leaf (s.peerSince.get 0 m + 1024 * s.f BL_CTL.LOST_TO)) ∧
  (∀ (s : State) (who : Requester) (m : Nat), s.stopped = false → m < 8 → m ≠ s.moduleNo → s.f (BL_PEERm.STATE m) = 3 → s.blWaiting = [] →
    s.admits who 8 (BL_PEERm m) ((BL_PEERm.STATE m).put 0 (s.reg (BL_PEERm m))) = true → s.hasRoute m = false →
    Instr.wellFormed (.clearLost who m) = true → ∃ t, exec (.clearLost who m) s = .next t ∧ t.f (BL_PEERm.STATE m) = 0 ∧ t.dram = s.dram) ∧
  (∀ (s : State) (who : Requester) (v w : Word), s.stopped = false → w = BL_EVAC.GO.put 1 (BL_EVAC.OP.put 0 v) → s.admits who 8 BL_EVAC w = true →
    s.evacRefused 0 (BL_EVAC.PEER.of v) true = false →
    ∃ t, exec (.evacuate who v true) s = .next t ∧ t.f BL_EVAC.STATE = 1 ∧ t.f BL_EVAC.PROGRESS = 0 ∧ t.f BL_EVAC.PEER = BL_EVAC.PEER.of v ∧
      ∀ h < 384, (t.hart h).run = .stopped) ∧
  (∀ (s : State) (who : Requester) (v w : Word), s.stopped = false → w = BL_EVAC.GO.put 1 (BL_EVAC.OP.put 1 v) → s.admits who 8 BL_EVAC w = true →
    s.evacRefused 1 (BL_EVAC.PEER.of v) true = false →
    ∃ t, exec (.returnHome who v true) s = .next t ∧ t.f BL_EVAC.STATE = 1 ∧ t.f BL_EVAC.OP = 1 ∧ t.f BL_EVAC.PROGRESS = 0 ∧ t.harts = s.harts) ∧
  (∀ (s : State) (l : Nat), s.stopped = false → s.f BL_EVAC.STATE = 1 → s.f BL_EVAC.OP = 1 → s.tiles = [] → l < 2 ^ 56 →
    Instr.wellFormed (.evacuationCopyEnd l) = true → ∃ t, exec (.evacuationCopyEnd l) s = .next t ∧ t.f BL_EVAC.STATE = 2 ∧
      t.f BL_EVAC.PROGRESS = 100 ∧ t.leaf = max s.leaf l ∧
      t.waiting = s.waiting ++ [{ notBefore := max s.leaf l + 1, change := .evacuate (s.f BL_EVAC.PEER) (s.f BL_EVAC.PEER) true }]) ∧
  (∀ (s : State), s.stopped = false → s.f BL_EVAC.STATE = 3 → s.answersIn = true →
    ∃ t, exec .evacuationHandoverEnd s = .next t ∧ t.f BL_EVAC.STATE = (if s.f BL_EVAC.OP = 0 then 4 else 0) ∧ t.on BL_ALARM.EVAC_DONE = true) ∧
  (∀ (s : State) (m : Nat), s.stopped = false → m ≠ s.moduleNo → Instr.wellFormed (.depart m) = true →
      exec (.depart m) s = .next (s.setF (BL_PEERm.STATE m) 4))

/-- Requests through a root-port window and between modules (R200, R421, R422): each answers a next state with its own effect. Where the rules leave a
choice, it is the model's: log entry 42. The constructors whose completion it states: coreWindowLoad, configurationLoad, coreWindowStore,
configurationStore, ioRead, ioWrite, ioReadData. -/
def Obligations.WindowAndInputOutputCommandsComplete : Prop :=
  (∀ (s u u0 : State) (h raw n p o : Nat) (va x : Word) (wrong : List WrongAcc), s.acting h raw .mem = some u → u0.settled h = true →
    (u0.hart h).pc = (s.hart h).pc → iOp (instrWord raw) = 0x03 → n = 2 ^ (iF3 (instrWord raw) % 4) →
    va = (u.hart h).maskAddr (u.hart h).dataMode .load ((u.hart h).getX (iRs1 (instrWord raw)) + word (immI (instrWord raw))) →
      u.InWindow u0 h n va p o false →
    (0x10000000 ≤ o → Instr.wellFormed (.coreWindowLoad h raw (.ok x) wrong) = true → ∃ t, exec (.coreWindowLoad h raw (.ok x) wrong) s = .next t ∧
      t.sent = u0.sent ++ [.tlp p false ((u0.reg (PRT_Pp_MBASE p)).toNat + (o - 0x10000000)) n false [] false] ∧
      t.Advanced u0 h raw ((u0.hart h).setX (iRd (instrWord raw)) (if iF3 (instrWord raw) < 4 then word (sgn (8 * n) (x.toNat % 2 ^ (8 * n)))
        else BitVec.ofNat 64 (x.toNat % 2 ^ (8 * n)))).x) ∧
    (o < 0x10000000 → Instr.wellFormed (.configurationLoad h raw (.ok x) wrong) = true → ∃ t, exec (.configurationLoad h raw (.ok x) wrong) s = .next t ∧
      t.sent = u0.sent ++ [.cfg p false (o / 4096) (o % 4096) n 0] ∧
      t.Advanced u0 h raw ((u0.hart h).setX (iRd (instrWord raw)) (if iF3 (instrWord raw) < 4 then word (sgn (8 * n) (x.toNat % 2 ^ (8 * n)))
        else BitVec.ofNat 64 (x.toNat % 2 ^ (8 * n)))).x)) ∧
  (∀ (s u u0 : State) (h raw n p o v : Nat) (va x : Word) (wrong : List WrongAcc), s.acting h raw .mem = some u → u0.settled h = true →
    (u0.hart h).pc = (s.hart h).pc → iOp (instrWord raw) = 0x23 →
    n = 2 ^ iF3 (instrWord raw) → v = ((u.hart h).getX (iRs2 (instrWord raw))).toNat % 2 ^ (8 * n) →
    va = (u.hart h).maskAddr (u.hart h).dataMode .store ((u.hart h).getX (iRs1 (instrWord raw)) + word (immS (instrWord raw))) → u.InWindow u0 h n va p o true →
    (0x10000000 ≤ o → Instr.wellFormed (.coreWindowStore h raw wrong) = true → ∃ t, exec (.coreWindowStore h raw wrong) s = .next t ∧
      t.Advanced u0 h raw (u0.hart h).x ∧
      t.sent = u0.sent ++ [.tlp p true ((u0.reg (PRT_Pp_MBASE p)).toNat + (o - 0x10000000)) n false
        ((List.range n).map (fun i => BitVec.ofNat 8 (v / 2 ^ (8 * i)))) false]) ∧
    (o < 0x10000000 → Instr.wellFormed (.configurationStore h raw (.ok x) wrong) = true → ∃ t, exec (.configurationStore h raw (.ok x) wrong) s = .next t ∧
      t.Advanced u0 h raw (u0.hart h).x ∧
      t.sent = u0.sent ++ [.cfg p true (o / 4096) (o % 4096) n (BitVec.ofNat 64 v)])) ∧
  (∀ (s s1 : State) (m i addr n off x : Nat) (world : Bool) (e : LinkEnd) (far : FarData), s.stopped = false → addr % n = 0 →
    s.region addr = .setup s.moduleNo off → s.setupRead (if world then .endpaper else .text) off n = (s1, some x) → s1.stuck = [] →
    Instr.wellFormed (.ioRead (.core m i) addr n world e far) = true → exec (.ioRead (.core m i) addr n world e far) s =
      .next (s1.emit (.packet 3 2 m i 222 addr world false (some (BitVec.ofNat 512 (x * 2 ^ (8 * (addr % 64)))))))) ∧
  (∀ (s : State) (m i addr n off : Nat) (v : Word) (world fits : Bool) (e : LinkEnd), s.stopped = false → addr % n = 0 →
    (s.region addr = .setup s.moduleNo off → s.setupRefuses (if world then .endpaper else .text) off = false →
      Instr.wellFormed (.ioWrite (.core m i) addr n v world e fits) = true →
      exec (.ioWrite (.core m i) addr n v world e fits) s = .next ((s.setupWrite (if world then .endpaper else .text) n off
        (BitVec.ofNat 64 (v.toNat % 2 ^ (8 * n))) fits).emit (.packet 2 0 m i 222 addr world false none))) ∧
    (s.region addr = .doorbell s.moduleNo off → Instr.wellFormed (.ioWrite (.core m i) addr n v world e fits) = true →
      exec (.ioWrite (.core m i) addr n v world e fits) s =
      .next ((s.doorbellStore off n (v.toNat % 2 ^ (8 * n))).emit (.packet 2 0 m i 222 addr world false none)))) ∧
  (∀ (s : State) (i c addr : Nat) (v : Word) (a : IoAsk), s.stopped = false → c < 192 → (∀ d < 192, s.tileOfCore d = i ↔ d = c) →
    (s.hart (2 * c)).io = some a → a.ans = none → a.addr = addr →
    s.f (CPU_CORE_STATUSc.STATE c) < 2 → (s.core c).retryDue = false →
    Instr.wellFormed (.ioReadData i addr v) = true → ∃ t, exec (.ioReadData i addr v) s = .next t ∧
      (t.hart (2 * c)).io = some { a with ans := some (0, v) } ∧
      (∀ k, k ≠ 2 * c → t.hart k = if k = 2 * c + 1 then { s.hart k with waitsOut := (t.hart k).waitsOut } else s.hart k) ∧ t.regs = s.regs)

/-- Resets of the attach endpoint and its bus mastering (R463 to R465): each command answers a next state with its own effect. Where the rules leave a
choice, it is the model's: log entries 35 and 63. The constructors whose completion it states: functionLevelReset, pf0Flr, vfEnableCleared,
numvfsLowered, busMasterEnableSet, conventionalReset, busMasterEnableCleared, perstDeassertion. -/
def Obligations.EndpointResetCommandsComplete : Prop :=
  (∀ (s : State) (n i : Nat), s.stopped = false → 1 ≤ n → n < 256 → (s.group s.activeGroup).named n = true → s.instanceOf n = some i →
    s.resetting i = false →
    Instr.wellFormed (.functionLevelReset s.activeGroup n) = true → ∃ t, exec (.functionLevelReset s.activeGroup n) s = .next t ∧
      t.on AEP_ALARM.FLR = true ∧ t.on (AEP_VFn_STATUS.FLR n) = true ∧
      t.resetting i = true ∧ t.gen i = (s.gen i + 1) % 256) ∧
  (∀ (s : State) (g : Nat), s.stopped = false →
    Instr.wellFormed (.pf0Flr g) = true → ∃ t, exec (.pf0Flr g) s = .next t ∧ (t.group g).vfEn = false ∧ (t.group g).numVfs = 0 ∧
      (t.group g).dstate = 0 ∧ (t.group g).intOff = false ∧
      (t.group g).pmeEn = (s.group g).pmeEn ∧ (t.group g).pmeStatus = (s.group g).pmeStatus) ∧
  (∀ (s : State) (g n : Nat) (en : Bool), s.stopped = false → (∀ i < 256, s.instFunc i = none) →
    (Instr.wellFormed (.vfEnableCleared g en) = true → ∃ t, exec (.vfEnableCleared g en) s = .next t ∧ (t.group g).vfEn = en ∧
      (t.group g).numVfs = (s.group g).numVfs) ∧
    (Instr.wellFormed (.numvfsLowered g n) = true → ∃ t, exec (.numvfsLowered g n) s = .next t ∧ (t.group g).numVfs = n ∧
      (t.group g).vfEn = (s.group g).vfEn) ∧
    (Instr.wellFormed (.busMasterEnableSet g n) = true → ∃ t, exec (.busMasterEnableSet g n) s = .next t ∧ (t.vf g n).bme = true)) ∧
  (∀ (s : State) (g : Nat) (perst cold : Bool), s.stopped = false → s.portUp (groupLead g) = false → (s.group g).vfEn = false →
    Instr.wellFormed (.conventionalReset g perst cold) = true → ∃ t, exec (.conventionalReset g perst cold) s = .next t ∧
      (t.group g).numVfs = 0 ∧ (t.group g).perst = ((s.group g).perst || perst) ∧
      (t.group g).dstate = (if perst && cold then 2 else 0)) ∧
  (∀ (s : State) (n : Nat), s.stopped = false → (s.vf s.activeGroup n).bme = true →
    Instr.wellFormed (.busMasterEnableCleared s.activeGroup n) = true → ∃ t, exec (.busMasterEnableCleared s.activeGroup n) s = .next t ∧
      (t.vf s.activeGroup n).bme = false ∧ t.on AEP_ALARM.BME_HELD = true) ∧
  (∀ (s : State) (g : Nat), s.stopped = false → (s.group g).perst = true →
    Instr.wellFormed (.perstDeassertion g) = true → ∃ t, exec (.perstDeassertion g) s = .next t ∧ (t.group g).perst = false ∧
      (t.group g).wake = false ∧ (t.group g).dstate = 0)

/-- Power states, wake, idle states and INTx of the attach endpoint, and its standby group (R462, R466 to R472): each command answers a next state
with its own effect. Where the rules leave a choice, it is the model's: log entries 35 and 63. The constructors whose completion it states:
d3hotEntry, d0Return, wakeEvent, aepWake, pmeRepeat, l0sEntry, l1Entry, intxPendClear, interruptDisable, failover, switchGroups,
hostCompletionTimeout. -/
def Obligations.EndpointStateCommandsComplete : Prop :=
  (∀ (s : State) (g : Nat) (pmeEn : Bool), s.stopped = false →
    Instr.wellFormed (.d3hotEntry g pmeEn) = true → ∃ t, exec (.d3hotEntry g pmeEn) s = .next t ∧ (t.group g).dstate = 3 ∧ (t.group g).pmeEn = pmeEn ∧
      (g = s.activeGroup → t.f AEP_STATUS.DSTATE = 3)) ∧
  (∀ (s : State) (g : Nat) (pmeEn clear : Bool), s.stopped = false → (s.group g).dstate = 3 → (∀ i < 256, s.instFunc i = none) →
    Instr.wellFormed (.d0Return g pmeEn clear) = true → ∃ t, exec (.d0Return g pmeEn clear) s = .next t ∧ (t.group g).dstate = 0 ∧
      (t.group g).pmeEn = pmeEn ∧
      (t.group g).pmeStatus = ((s.group g).pmeStatus && !clear)) ∧
  (∀ (s : State) (who : Requester) (frame : Bool) (a : Nat) (c : Instr), s.stopped = false → a = s.activeGroup → (s.group a).pmeEn = true →
    (s.group a).dstate = 3 → ((c = .wakeEvent frame ∧ s.wakeDue frame = true) ∨ (c = .aepWake who ∧ s.admits who 8 AEP_CMD 2 = true)) →
    c.wellFormed = true → ∃ t, exec c s = .next t ∧ (t.group a).pmeStatus = true ∧ (t.group a).pmeAt = s.leaf ∧ t.on AEP_ALARM.WAKE_SENT = true ∧
      t.sent = s.sent ++ [.epMessage a 0]) ∧
  (∀ (s : State) (a : Nat), s.stopped = false → a = s.activeGroup → (s.group a).pmeStatus = true → (s.group a).dstate = 3 →
    (s.group a).pmeAt + 100000 < 2 ^ 56 →
    ∃ t, exec .pmeRepeat s = .next t ∧ t.leaf = max s.leaf ((s.group a).pmeAt + 100000) ∧ (t.group a).pmeAt = t.leaf ∧
      t.sent = s.sent ++ [.epMessage a 0]) ∧
  (∀ (s : State) (g l : Nat), s.stopped = false → s.groupL0 g = true → l < 2 ^ 56 →
    ((s.group g).aspm % 2 = 1 → Instr.wellFormed (.l0sEntry g l false) = true → ∃ t, exec (.l0sEntry g l false) s = .next t ∧
      (t.group g).idle = 1 ∧ t.leaf = max s.leaf l) ∧
    ((s.group g).aspm / 2 % 2 = 1 ∨ (s.group g).dstate = 3 →
      Instr.wellFormed (.l1Entry g l) = true → ∃ t, exec (.l1Entry g l) s = .next t ∧ (t.group g).idle = 2 ∧ t.leaf = max s.leaf l)) ∧
  (∀ (s : State) (v : BitVec 256), s.stopped = false → s.forerunner = true →
    ∃ t, exec (.intxPendClear v) s = .next t ∧ t.intxPend = s.intxPend &&& ~~~v ∧ t.regs = s.regs ∧ (t.intxPend = 0 → t.intxOn = false)) ∧
  (∀ (s : State) (g : Nat) (v : Bool), s.stopped = false →
    Instr.wellFormed (.interruptDisable g v) = true → ∃ t, exec (.interruptDisable g v) s = .next t ∧ (t.group g).intOff = v ∧
      t.intxPend = s.intxPend ∧
      (g = s.activeGroup → v = true → t.intxOn = false)) ∧
  (∀ (s : State) (who : Requester) (f a : Nat) (c : Instr), s.stopped = false → a = s.activeGroup → s.standby = true → s.groupL0 (1 - a) = true →
    (∀ i < 256, s.instFunc i = none) → s.leaf + 2 < 2 ^ 56 → f + 2 < 2 ^ 56 →
    ((c = .failover f false ∧ (s.group a).perst = false ∧ s.portUp (groupLead a) = false ∧ s.leaf ≤ f) ∨
      (c = .switchGroups who ∧ s.groupL0 a = true ∧ s.admits who 8 AEP_CMD 1 = true ∧ (∀ n < 255, s.on (AEP_VFn_STATUS.FLR (n + 1)) = false) ∧
        f = s.leaf)) →
    c.wellFormed = true → ∃ t, exec c s = .next t ∧ t.activeGroup = 1 - a ∧ t.on AEP_ALARM.FAILOVER = true ∧ t.leaf = f + 2) ∧
  (∀ (s : State) (q : Nat) (ring : Bool), s.stopped = false → (s.instFunc (instOf q)).isSome = true →
    s.hostTries.get 0 (instOf q) + 1 ≤ s.f AEP_CTL.HRETRY →
    Instr.wellFormed (.hostCompletionTimeout q ring) = true → ∃ t, exec (.hostCompletionTimeout q ring) s = .next t ∧
      t.on AEP_ALARM.HOST_TIMEOUT = true ∧
      t.hostTries.get 0 (instOf q) = s.hostTries.get 0 (instOf q) + 1 ∧ t.journal = s.journal)

/-- The watchdog and the restarts of Endpaper, and the key service (R480 to R482, R491 to R493): each command answers a next state with its own
effect. Where the rules leave a choice, it is the model's: log entries 39 and 40. The constructors whose completion it states: endpaperHang,
restartMeasured, keyServiceResult, keyServiceTakeover. -/
def Obligations.EndpaperCommandsComplete : Prop :=
  (∀ (s : State) (h : Nat), s.stopped = false → (s.hart h).world = true → (s.hart h).run ≠ .debug → (s.core (coreOf h)).takeover = none →
    Instr.wellFormed (.endpaperHang h) = true → ∃ t, exec (.endpaperHang h) s = .next t ∧ (t.hart h).world = false ∧
      (t.hart h).getX 10 = 0xFFFFFFFFFFFFFFF0 ∧ (t.hart h).getX 11 = 1 ∧
      (t.hart h).getX 12 = 0 ∧ (t.hart h).getX 13 = 0 ∧ t.f (ENDP_HARTn_STATUS.STATE h) = 4 ∧ t.f (ENDP_HARTn_STATUS.LAST_CAUSE h) = 1 ∧
      t.on (ENDP_KSn_CTL.BUSY h) = false ∧ t.on ENDP_ALARM.HANG = true) ∧
  (∀ (s s1 : State) (h l : Nat), s.stopped = false → s.f (ENDP_HARTn_STATUS.STATE h) = 4 → (s.seFor (coreOf h / 48)).isSome = true →
    ((s.untilLeaf l).writeArea h).measureCode = (s1, some true) → s1.svc.restarts.get [] h = [] → 2 ≤ s1.f ENDP_CTL.RESTART_LIMIT →
    s1.f (ENDP_HARTn_STATUS.RESTARTS h) < 2 ^ 32 - 1 →
    Instr.wellFormed (.restartMeasured h l) = true → ∃ t, exec (.restartMeasured h l) s = .next t ∧ t.f (ENDP_HARTn_STATUS.STATE h) = 1 ∧
      t.on ENDP_ALARM.RESTARTED = true ∧
      t.f (ENDP_HARTn_STATUS.RESTARTS h) = s1.f (ENDP_HARTn_STATUS.RESTARTS h) + 1 ∧ t.svc.restarts.get [] h = [s1.leaf]) ∧
  (∀ (s : State) (h r : Nat) (out : Option Word), s.stopped = false → s.on (ENDP_KSn_CTL.BUSY h) = true →
    s.svc.ksWait.get none h = some (r, out) → r < 8 →
    Instr.wellFormed (.keyServiceResult h) = true → ∃ t, exec (.keyServiceResult h) s = .next t ∧ t.f (ENDP_KSn_CTL.RESULT h) = r ∧
      t.on (ENDP_KSn_CTL.BUSY h) = false ∧
      t.svc.ksWait.get none h = none ∧ (∀ v, out = some v → t.reg (ENDP_KSn_OUT h) = v)) ∧
  (∀ (s : State) (works : Bool), s.off = false → s.svc.keySe ≠ none →
    (works = true → s.svc.out.contains 1 = false → ∃ t, exec (.keyServiceTakeover works) s = .next t ∧ t.svc.keySe = some 1 ∧
      t.svc.out.contains 0 = true ∧ t.regs = s.regs) ∧
    (works = false ∨ s.svc.out.contains 1 = true → ∃ t, exec (.keyServiceTakeover works) s = .next t ∧ t.svc.keySe = none ∧
      t.svc.out.contains 0 = true ∧ t.on ENDP_ALARM.KEY_ABSENT = true))

/-- Requests to the key service through a hart's mailbox (R409, R474, R491, R492): each command answers a next state in which the request runs, with
what it will return. Where the rules leave a choice, it is the model's: log entries 4 and 40. The constructors whose completion it states:
generateKey, importKey, exportKey, revokeKey. -/
def Obligations.KeyRequestCommandsComplete : Prop :=
  ∀ (s : State) (who : Requester) (h : Nat) (arg0 arg1 : Word) (u : Nat → Word → State), s.stopped = false → h < 384 → who ≠ .text →
    s.on (ENDP_KSn_CTL.BUSY h) = false → s.svc.keySe.isSome = true →
    (∀ op a1, u op a1 = ((s.setF (ENDP_KSn_OP.OP h) op).setReg (ENDP_KSn_ARG0 h) arg0).setReg (ENDP_KSn_ARG1 h) a1) →
    (∀ i, wbits arg0 9 8 < 2 → (List.range 4096).find? (fun j => !(s.keys.get {} j).valid) = some i →
      Instr.wellFormed (.generateKey who h arg0) = true → ∃ t, exec (.generateKey who h arg0) s = .next t ∧ t.on (ENDP_KSn_CTL.BUSY h) = true ∧
        t.svc.ksWait.get none h = some (0, some (t.handleOf i)) ∧ (t.keys.get {} i).valid = true ∧
        (t.keys.get {} i).inst = wbits arg0 7 0 ∧ (t.keys.get {} i).kind = wbits arg0 9 8 ∧ t.dram = s.dram) ∧
    (∀ i s1 blob key, (u 2 arg1).seRead arg1.toNat (keyLen (wbits arg0 9 8) + 8) = (s1, some (blob, false)) →
      keyUnwrap (u 2 arg1).kek blob = some key → weakPair (wbits arg0 9 8) key = false →
      (List.range 4096).find? (fun j => !(s1.keys.get {} j).valid) = some i →
      Instr.wellFormed (.importKey who h arg0 arg1) = true → ∃ t, exec (.importKey who h arg0 arg1) s = .next t ∧ t.on (ENDP_KSn_CTL.BUSY h) = true ∧
        t.svc.ksWait.get none h = some (0, some (t.handleOf i)) ∧ (t.keys.get {} i).valid = true ∧ (t.keys.get {} i).key = key ∧
        t.dram = s1.dram) ∧
    (∀ i blob, (u 3 arg1).entryOf arg0 = some i → blob = keyWrap (u 3 arg1).kek (s.keys.get {} i).key →
      Instr.wellFormed (.exportKey who h arg0 arg1) = true → ∃ t, exec (.exportKey who h arg0 arg1) s = .next t ∧ t.on (ENDP_KSn_CTL.BUSY h) = true ∧
        t.svc.ksWait.get none h = some (0, some (BitVec.ofNat 64 blob.length)) ∧
        t.dram = ((u 3 arg1).seWrite (cellsAt arg1.toNat blob)).dram ∧ t.slices = ((u 3 arg1).seWrite (cellsAt arg1.toNat blob)).slices) ∧
    (∀ i, (u 4 0).entryOf arg0 = some i →
      Instr.wellFormed (.revokeKey who h arg0) = true → ∃ t, exec (.revokeKey who h arg0) s = .next t ∧ t.on (ENDP_KSn_CTL.BUSY h) = true ∧
      t.svc.ksWait.get none h = some (0, none) ∧
        (t.keys.get {} i).valid = false ∧ (t.keys.get {} i).epoch = ((s.keys.get {} i).epoch + 1) % 2 ^ 16 ∧ t.dram = s.dram)

/-- The forecasts, holds and restarts of the Headband controller (R496 to R504): each command answers a next state with its own effect. Where the
rules leave a choice, it is the model's: log entries 20 and 22. The constructors whose completion it states: leafClose, hold, hbRestart,
hbRestartEnd. -/
def Obligations.HeadbandCommandsComplete : Prop :=
  (∀ (s : State) (l : Nat), s.off = false → s.hb.closed < l → l < 2 ^ 56 → s.hb.started = false →
    Instr.wellFormed (.leafClose l) = true → ∃ t, exec (.leafClose l) s = .next t ∧ t.hb.closed = l ∧ t.count = max s.count ((l - 1) * 256) ∧
      t.sent = s.sent ++ (List.range 4).map (fun k => .forecast k (withCrc16 (BitVec.ofNat 128 (0xA7 + k * 2 ^ 8 + 2 ^ 10))))) ∧
  (∀ (s : State) (l : Nat) (r : Reservation), s.off = false → s.hb.closed < l → l < 2 ^ 56 → s.hb.started = true → s.hb.frozen = false →
    s.hb.queue = [r] → s.hb.granted = [] → s.hb.drop = [] → r.rail < 12 → r.leaf ≤ l → 1 ≤ r.cls → r.cls ≤ 5 → r.up = true →
    (∀ n u, r.what ≠ .level n u) → r.amount ≤ 4 * s.f (HB_RAILr.STEP_MAX r.rail) →
    s.f (HB_RAILr.RESERVED r.rail) + r.amount ≤ s.f (HB_RAILr.IMAX r.rail) →
    Instr.wellFormed (.leafClose l) = true → ∃ t, exec (.leafClose l) s = .next t ∧ t.hb.closed = l ∧ t.hb.queue = [] ∧
      t.hb.granted = [{ r with leaf := l, told := true }] ∧
      t.f (HB_RAILr.RESERVED r.rail) = s.f (HB_RAILr.RESERVED r.rail) + r.amount ∧ t.sent.length = s.sent.length + 4) ∧
  (∀ (s : State) (k : Nat), s.off = false → k < 4 → s.hb.started = true → s.count < s.hb.closed * 256 → s.hb.heldAt.get 0 k ≠ s.hb.closed →
    s.f (HB_LINKk_STATUS.HELD k) + 1 < 2 ^ 32 →
    Instr.wellFormed (.hold k) = true → ∃ t, exec (.hold k) s = .next t ∧ t.hb.heldAt.get 0 k = s.hb.closed ∧
      t.on (HB_LINKk_STATUS.HOLD k) = true ∧ t.on HB_ALARM.HOLD = true ∧
      t.f (HB_LINKk_STATUS.HELD k) = s.f (HB_LINKk_STATUS.HELD k) + 1 ∧
      ∀ x ∈ t.hb.granted, x ∈ s.hb.granted ∧ ¬(x.leaf = s.hb.closed ∧ (linkRails k).contains x.rail = true)) ∧
  (∀ s : State, s.off = false → ∃ t, exec .hbRestart s = .next t ∧ t.on HB_ALARM.HB_RESTART = true ∧ t.hb = { s.hb with
    frozen := true,
    queue := s.hb.granted.map (fun x => { x with slid := true }) ++ s.hb.queue,
    granted := [] }) ∧
  (∀ s : State, s.off = false → exec .hbRestartEnd s = .next { s with hb := { s.hb with frozen := false } })

/-- Sleep states and steps (R497, R498, R505 to R507): each command answers a next state with its own effect. Where the rules leave a choice, it is
the model's: log entry 22. The constructors whose completion it states: wake, currentStep, park, gate, wakeComplete. -/
def Obligations.SleepCommandsComplete : Prop :=
  (∀ (s : State) (c : Nat), s.stopped = false → c < 192 → 2 ≤ s.cs c → s.stepTaken (.wake c) = none →
    (∀ r ∈ s.hb.granted, r.what ≠ .wake c) →
    Instr.wellFormed (.wake c) = true → ∃ t, exec (.wake c) s = .next t ∧ t.regs = s.regs ∧ t.hb.granted = s.hb.granted ∧
      t.hb.queue = s.hb.queue.filter (fun r => decide (r.what ≠ .wake c)) ++ [{
        rail := c / 48, up := true, amount := if s.lq32 then 14 else 16, cls := 3, leaf := (s.count + 255) / 256 + 1, what := .wake c }]) ∧
  (∀ (s : State) (g : Reservation), s.stopped = false → s.hb.frozen = false → s.hb.granted = [g] → s.turnOf g.leaf 3 = true → g.leaf * 256 + 32 < 2 ^ 64 →
    (∀ c, g.what = .wake c → ∃ t, exec .currentStep s = .next t ∧ t.hb.granted = [] ∧ t.stepTaken (.wake c) = some t.count ∧
      t.count = max s.count (g.leaf * 256 + 32)) ∧
    (∀ n, g.what = .level n true → n < 24 → 1 ≤ s.f (HB_QSTATUSn.LEVEL n) → s.f (HB_QSTATUSn.LEVEL n) ≤ 16 →
      ∃ t, exec .currentStep s = .next t ∧ t.hb.granted = [] ∧ t.f (HB_QSTATUSn.LEVEL n) = s.f (HB_QSTATUSn.LEVEL n) - 1 ∧
        t.f (HB_QSTATUSn.FREQ n) = (if s.lq32 then 3200 else 3600) - 100 * t.f (HB_QSTATUSn.LEVEL n))) ∧
  (∀ (s : State) (c : Nat), s.stopped = false → c < 192 → s.cs c = 1 → s.f HB_CTL.PARK_IDLE ≠ 0 → s.coreDeadline c = none →
    s.hb.csSince.get 0 c + s.f HB_CTL.PARK_IDLE < 2 ^ 56 → s.hb.queue = [] →
    Instr.wellFormed (.park c) = true → ∃ t, exec (.park c) s = .next t ∧ t.cs c = 2 ∧
      t.leaf = max s.leaf (s.hb.csSince.get 0 c + s.f HB_CTL.PARK_IDLE) ∧
      t.hb.csSince.get 0 c = t.leaf ∧ t.hb.queue = [{
        rail := c / 48, up := false, amount := if s.lq32 then 14 else 16, cls := 3, leaf := (t.count + 255) / 256 + 1, what := .park c }]) ∧
  (∀ (s : State) (c : Nat), s.stopped = false → c < 192 → s.cs c = 2 → s.f HB_CTL.GATE_IDLE ≠ 0 → s.coreDeadline c = none →
    s.stepTaken (.wake c) = none → (∀ r ∈ s.hb.granted, r.what ≠ .wake c) →
    Instr.wellFormed (.gate c) = true → ∃ t, exec (.gate c) s = .next t ∧ t.cs c = 3 ∧ t.hb.csSince.get 0 c = t.leaf) ∧
  (∀ (s : State) (c at_ : Nat), s.stopped = false → c < 192 → 2 ≤ s.cs c → s.stepTaken (.wake c) = some at_ → at_ + wakeUnits (s.cs c) < 2 ^ 64 →
    Instr.wellFormed (.wakeComplete c) = true → ∃ t, exec (.wakeComplete c) s = .next t ∧ t.cs c = 0 ∧
      t.count = max s.count (at_ + wakeUnits (s.cs c)) ∧ t.stepTaken (.wake c) = none)

/-- Heat and droop (R508 to R512, R522): each command answers a next state with its own effect. Where the rules leave a choice, it is the model's: log
entries 46 and 66. The constructors whose completion it states: levelAdjust, thermalEmergency, thermtrip, droop, droopStretchEnd, droopSummary,
thermalCycle. -/
def Obligations.ThermalCommandsComplete : Prop :=
  (∀ (s : State) (g n t : Nat), s.stopped = false → g * 1024 < 2 ^ 56 → n < 24 → t < 256 → s.stepPosted (.level n true) = false →
    s.stepPosted (.level n false) = false →
    (s.f HB_THERM.THROTTLE ≤ t → s.f (HB_QSTATUSn.LEVEL n) < 16 → s.awake n ≠ 0 →
      Instr.wellFormed (.levelAdjust g n t) = true → ∃ u, exec (.levelAdjust g n t) s = .next u ∧ u.f (HB_QSTATUSn.TMAX n) = t ∧
      u.f (HB_QSTATUSn.LEVEL n) = s.f (HB_QSTATUSn.LEVEL n) ∧
        u.leaf = max s.leaf (g * 1024) ∧ u.hb.queue = s.hb.queue ++ [{
          rail := n / 6, up := false, amount := (2 * s.awake n + 4) / 5, cls := 3, leaf := (u.count + 255) / 256 + 1, what := .level n false }]) ∧
    (t + s.f HB_THERM.HYST ≤ s.f HB_THERM.THROTTLE → t < s.f HB_THERM.THROTTLE → s.f (HB_QSTATUSn.LEVEL n) ≠ 0 →
      s.f (HB_QSTATUSn.LEVEL n) ≤ 16 → s.awake n = 0 →
      Instr.wellFormed (.levelAdjust g n t) = true → ∃ u, exec (.levelAdjust g n t) s = .next u ∧ u.f (HB_QSTATUSn.TMAX n) = t ∧
      u.f (HB_QSTATUSn.LEVEL n) = s.f (HB_QSTATUSn.LEVEL n) ∧ u.hb.queue = s.hb.queue ++ [{
          rail := n / 6, up := true, amount := 0, cls := 4, leaf := (u.count + 255) / 256 + 1, what := .level n true }])) ∧
  (∀ (s : State) (n : Nat), s.stopped = false → n < 24 → s.hb.emergency.contains n = false → s.awake n ≠ 0 → s.f (HB_QSTATUSn.LEVEL n) ≤ 16 →
    Instr.wellFormed (.thermalEmergency n) = true → ∃ t, exec (.thermalEmergency n) s = .next t ∧ t.on HB_ALARM.THERM_EMERG = true ∧
      t.hb.emergency = n :: s.hb.emergency ∧
      t.hb.queue = s.hb.queue.filter (fun r => decide (r.what ≠ .level n true) && decide (r.what ≠ .level n false)) ++
        List.replicate (16 - s.f (HB_QSTATUSn.LEVEL n)) {
          rail := n / 6, up := false, amount := (2 * s.awake n + 4) / 5, cls := 2, leaf := (s.count + 255) / 256 + 1, what := .level n false }) ∧
  (∀ s : State, s.off = false → exec .thermtrip s = .next { s with stopped := true, thermtrip := true }) ∧
  (∀ (s : State) (d c mv : Nat), s.stopped = false → d < 24 → c < 2 ^ 64 → s.f (HB_QSTATUSn.DROOPS d) + 1 < 2 ^ 16 →
    s.hb.droops.get {} d = {} → s.life.get 0 (64 * (0x7300 + 8 * d)) + 1 < 2 ^ 64 →
    Instr.wellFormed (.droop d c mv) = true → ∃ t, exec (.droop d c mv) s = .next t ∧ t.count = max s.count c ∧ t.on HB_ALARM.DROOP = true ∧
      t.f (HB_QSTATUSn.DROOPS d) = s.f (HB_QSTATUSn.DROOPS d) + 1 ∧ t.hb.stretched.contains d = true ∧
      t.life.get 0 (64 * (0x7300 + 8 * d)) = s.life.get 0 (64 * (0x7300 + 8 * d)) + 1 ∧
      t.hb.droops.get {} d = { firings := 1, first := t.count, last := t.count, deepest := mv }) ∧
  (∀ (s : State) (d : Nat), s.stopped = false →
    Instr.wellFormed (.droopStretchEnd d) = true →
      exec (.droopStretchEnd d) s = .next { s with hb := { s.hb with stretched := s.hb.stretched.filter (· ≠ d) } }) ∧
  (∀ (s : State) (g d : Nat) (r : DroopRun), s.off = false → g * 1024 < 2 ^ 56 → s.hb.droops = [(d, r)] → s.logQueue.length < 1024 →
    Instr.wellFormed (.droopSummary g) = true → ∃ t, exec (.droopSummary g) s = .next t ∧ t.hb.droops = [] ∧ t.leaf = max s.leaf (g * 1024) ∧
      t.logQueue = s.logQueue ++ [{
      type := 0x33, time := BitVec.ofNat 64 t.count, hold := t.holdFlag, late := false, source := false, loc := (s.droopLoc d).1,
      fields := (s.droopLoc d).2, payload := [r.firings, r.first, r.last, r.deepest] }]) ∧
  (∀ (s : State) (t : Nat), s.off = false →
    (85 ≤ t → s.hb.cold = true → s.life.get 0 (64 * 0x18 + 32) + 1 < 2 ^ 16 → Instr.wellFormed (.thermalCycle t) = true →
      ∃ u, exec (.thermalCycle t) s = .next u ∧ u.hb.cold = false ∧
      u.life.get 0 (64 * 0x18 + 32) = s.life.get 0 (64 * 0x18 + 32) + 1 ∧ u.regs = s.regs) ∧
    (t ≤ 45 → Instr.wellFormed (.thermalCycle t) = true → exec (.thermalCycle t) s = .next { s with hb := { s.hb with cold := true } }))

/-- The settings of the Colophon: the working copy, STORE and DISCARD (R517, R519): each command answers a next state with its own effect. Where the
rules leave a choice, it is the model's: log entry 37. The constructors whose completion it states: colWorkWrite, storeSettings, storeEnd,
discardSettings. -/
def Obligations.SettingsCommandsComplete : Prop :=
  (∀ (s : State) (who : Requester) (size o : Nat) (v : Word), s.off = false → s.locked who 15 = false → s.on COL_STATUS.STORE = false →
    24 ≤ o → o + size ≤ 0x7FFFC → o % size = 0 →
    (size = 8 → ∃ t, exec (.colWorkWrite who size o v) s = .next t ∧ t.col.work.get 0 (o / 8) = v ∧
      (∀ w, w ≠ o / 8 → t.col.work.get 0 w = s.col.work.get 0 w) ∧ t.col.mram = s.col.mram ∧ t.regs = s.regs) ∧
    (size = 4 → ∃ t, exec (.colWorkWrite who size o v) s = .next t ∧
      (t.col.work.get 0 (o / 8)).toNat / 2 ^ (8 * (o % 8)) % 2 ^ 32 = v.toNat % 2 ^ 32 ∧
      (t.col.work.get 0 (o / 8)).toNat / 2 ^ (32 - 8 * (o % 8)) % 2 ^ 32 = (s.col.work.get 0 (o / 8)).toNat / 2 ^ (32 - 8 * (o % 8)) % 2 ^ 32 ∧
      (∀ w, w ≠ o / 8 → t.col.work.get 0 w = s.col.work.get 0 w) ∧ t.col.mram = s.col.mram ∧ t.regs = s.regs)) ∧
  (∀ (s : State) (who : Requester), s.off = false → s.on COL_STATUS.STORE = false → s.admits who 8 COL_CMD (COL_CMD.STORE.put 1 0) = true →
    ∃ t, exec (.storeSettings who) s = .next t ∧ t.on COL_STATUS.STORE = true ∧ t.col.work = s.col.work ∧
      t.col.target = some (1 - s.newestSlot.elim (s.f COL_STATUS.SLOT) (fun w => w.2.1))) ∧
  (∀ (s : State) (k seq : Nat), s.off = false → s.col.target = some k → k < 2 → s.svc.owed = [] →
    seq = s.newestSlot.elim 1 (fun w => w.2.2 + 1) →
    (∃ t, exec (.storeEnd false) s = .next t ∧ t.on COL_STATUS.STORE = false ∧ t.col.target = none ∧ t.on COL_ALARM.STORE_DONE = true ∧
      t.f COL_STATUS.SLOT = k ∧ t.f COL_STATUS.SEQ = seq % 2 ^ 32 ∧
      (s.f COL_STATUS.COPY0 ≠ 2 → t.slotWord 0 k 0 = BitVec.ofNat 64 seq) ∧ (s.f COL_STATUS.COPY1 ≠ 2 → t.slotWord 1 k 0 = BitVec.ofNat 64 seq)) ∧
    (∃ t, exec (.storeEnd true) s = .next t ∧ t.on COL_STATUS.STORE = false ∧ t.col = { s.col with target := none } ∧
      t.on COL_ALARM.STORE_FAILED = true ∧ t.f COL_STATUS.SLOT = s.f COL_STATUS.SLOT ∧ t.sent = s.sent)) ∧
  (∀ (s : State) (who : Requester), s.off = false → s.on COL_STATUS.STORE = false → s.admits who 8 COL_CMD (COL_CMD.DISCARD.put 1 0) = true →
    exec (.discardSettings who) s = .next { s with col := { s.col with
      work := s.newestSlot.elim defaultSlot (fun w => s.slotWords w.1 w.2.1) } })

/-- The lifetime counters, the repair record, the copies and the event log of the Colophon, and the locks of set-up space (R514, R520, R521, R523,
R524, R536): each command answers a next state with its own effect. Where the rules leave a choice, it is the model's: log entries 37 and 38. The
constructors whose completion it states: commitLifetime, lifetimeCommit, lifetimeCommitEnd, repairRecordWrite, colophonCopyFailure,
colophonRebuilt, eventLogRecord, agingMeasure, svcLock. -/
def Obligations.RecordCommandsComplete : Prop :=
  (∀ (s : State) (who : Requester), s.off = false → s.admits who 8 COL_CMD (COL_CMD.COMMIT.put 1 0) = true →
    exec (.commitLifetime who) s = .next { s with posted := s.posted ++ [{ leaf := s.leaf + 2, kind := .lifetimeCommit }] }) ∧
  (∀ (s : State) (l h : Nat), s.off = false → l < 2 ^ 56 → h = (s.newerHalf 0x40000).elim 0 (fun n => 1 - n) →
    (l % 1048576 = 0 → s.leaf ≤ l → s.turnOf l 7 = true → ∃ t, exec (.lifetimeCommit l) s = .next t ∧ t.col.half = some h ∧ t.on COL_STATUS.LIFE = true ∧ t.leaf = l) ∧
    (∀ e : LeafEvent, l % 1048576 ≠ 0 → s.posted = [e] → e.kind = .lifetimeCommit → e.leaf < 2 ^ 56 → ∃ t, exec (.lifetimeCommit l) s = .next t ∧
      t.col.half = some h ∧ t.on COL_STATUS.LIFE = true ∧ t.leaf = max s.leaf e.leaf ∧ t.posted = [])) ∧
  (∀ (s : State) (h : Nat), s.off = false → s.col.half = some h → s.f (copyField s.colCopy) ≠ 2 →
    ∃ t, exec .lifetimeCommitEnd s = .next t ∧ t.col.half = none ∧ t.on COL_STATUS.LIFE = false ∧
      t.colWord (0x40000 + h * 0x10000) =
        BitVec.ofNat 64 ((s.newerHalf 0x40000).elim 1 (fun n => (s.colWord (0x40000 + n * 0x10000)).toNat + 1))) ∧
  (∀ (s : State) (base : Nat), s.off = false → s.f (copyField s.colCopy) ≠ 2 →
    base = 0x20000 + (s.newerHalf 0x20000).elim 0 (fun h => 1 - h) * 0x10000 →
    ∃ t, exec .repairRecordWrite s = .next t ∧ t.regs = s.regs ∧ t.colWord base =
      BitVec.ofNat 64 ((s.newerHalf 0x20000).elim 1 (fun h => (s.colWord (0x20000 + h * 0x10000)).toNat + 1))) ∧
  (∀ (s : State) (c : Nat), s.off = false → c < 2 →
    (s.f (copyField c) ≠ 2 → Instr.wellFormed (.colophonCopyFailure c) = true → ∃ t, exec (.colophonCopyFailure c) s = .next t ∧
      t.f (copyField c) = 2 ∧
      t.f (copyField (1 - c)) = s.f (copyField (1 - c)) ∧ t.on COL_ALARM.COPY_ALONE = true ∧ t.col = s.col) ∧
    (s.f (copyField c) = 1 → Table.wf (fun _ => 0) s.col.mram = true → (∀ e ∈ s.col.mram, e.1 < 2 ^ 21) →
      Instr.wellFormed (.colophonRebuilt c) = true → ∃ t, exec (.colophonRebuilt c) s = .next t ∧ t.f (copyField c) = 0 ∧
      t.on COL_ALARM.COPY_REBUILT = true ∧
        ∀ w < 2 ^ 20, t.col.mram.get 0 (c * 2 ^ 20 + w) = s.col.mram.get 0 ((1 - c) * 2 ^ 20 + w) ∧
          t.col.mram.get 0 ((1 - c) * 2 ^ 20 + w) = s.col.mram.get 0 ((1 - c) * 2 ^ 20 + w))) ∧
  (∀ (s : State) (r : LogRecord) (rest : List LogRecord), s.off = false → s.logQueue = r :: rest → s.f (copyField s.colCopy) ≠ 2 →
    ∃ t, exec .eventLogRecord s = .next t ∧ t.logQueue = rest ∧ t.f COL_LOG_STATUS.LAST_SEQ = (s.f COL_LOG_STATUS.LAST_SEQ + 1) % 2 ^ 32 ∧
      t.f COL_LOG_STATUS.NEXT = (s.f COL_LOG_STATUS.NEXT + 1) % 65536 ∧ t.colWord (0x80000 + 8 * s.f COL_LOG_STATUS.NEXT + 1) = r.time) ∧
  (∀ (s : State) (g n drift mv temp gain : Nat), s.off = false → g * 1024 < 2 ^ 56 → n < 216 → stressGain mv temp = (gain, true) →
    Instr.wellFormed (.agingMeasure g [(n, drift, mv, temp)]) = true → ∃ t, exec (.agingMeasure g [(n, drift, mv, temp)]) s = .next t ∧
      t.leaf = max s.leaf (g * 1024) ∧
      t.life.get 0 (64 * (0x100 + 32 * n)) = min (s.life.get 0 (64 * (0x100 + 32 * n)) + gain) (2 ^ 64 - 1) ∧
      t.life.get 0 (64 * (0x108 + 32 * n)) = drift) ∧
  (∀ (s : State) (who : Requester) (v : Word), s.stopped = false → s.admits who 8 SVC_LOCK v = true →
    ∃ t, exec (.svcLock who v) s = .next t ∧ t.reg SVC_LOCK = s.reg SVC_LOCK ||| (v &&& 0xFFFF) ∧
      (∀ b < 16, v.getLsbD b = true → s.lockFrom.get 0 b = 0 → t.lockFrom.get 0 b = s.leaf + 1))

/-- Set-up space, the edges of gatherings and leaves, and the supplies (R20, R40, R383, R528 to R540, R543): each command answers a next state with
its own effect. Where the rules leave a choice, it is the model's: log entries 2 and 17. The constructors whose completion it states:
registerWrite, gatheringEdge, tick, mainPgFall, vkeepLoss. -/
def Obligations.RegisterAndEdgeCommandsComplete : Prop :=
  (∀ (s : State) (who : Requester) (k : Nat) (v : Word) (fits : Bool) (d : RegDesc), s.stopped = false →
    k ∈ [HB_CTL, HB_THERM, COL_CTL, CPU_RAS_CTL, MESH_CTL, CSS_CTL, PRT_CTL, BL_CTL] → findReg k = some (d, []) → s.admits who 8 k v = true →
    Instr.wellFormed (.registerWrite who 8 k v fits) = true →
      exec (.registerWrite who 8 k v fits) s = .next (s.setReg k (appliedFields d.fields (s.reg k) v))) ∧
  (∀ (s : State) (who : Requester) (size o : Nat) (v : Word) (fits : Bool), s.stopped = false → o < 0x80000 →
    Instr.wellFormed (.registerWrite who size (15 * 0x10000000 + 0x100000 + o) v fits) = true →
      exec (.registerWrite who size (15 * 0x10000000 + 0x100000 + o) v fits) s = .next (s.workWrite who size o v)) ∧
  (∀ (s : State) (g : Nat), s.stopped = false → g * 1024 < 2 ^ 56 →
    Instr.wellFormed (.gatheringEdge g) = true → ∃ t, exec (.gatheringEdge g) s = .next t ∧ t.leaf = max s.leaf (g * 1024) ∧
      t.mesh = { s.mesh with errors := [] } ∧ t.dram = s.dram ∧
      (∀ c < 192, t.f (CPU_CORE_STATUSc.FAILS c) = 0 ∧ (t.core c).good = 0)) ∧
  (∀ (s : State) (l n : Nat), s.stopped = false → n < 2 ^ 56 → s.leaf ≤ n → (s.engine l).tick ≠ 0 → n % (s.engine l).tick = 0 →
    (s.untilLeaf n).takesEvents l = false →
    Instr.wellFormed (.tick l n) = true → ∃ t, exec (.tick l n) s = .next t ∧ t.leaf = n ∧ (t.engine l).pend = (s.engine l).pend ||| 0x80 ∧
      t.dram = s.dram) ∧
  (∀ s : State, s.off = false → s.mainPg = true → exec .mainPgFall s = .next { s with stopped := true, mainEn := false, mainPg := false }) ∧
  (∀ s : State, exec .vkeepLoss s = .next { s with stopped := true, off := true, mainEn := false, mainPg := false })

/-- Power-up and boot (R541 to R548, with R213, R215, R234): each command answers a next state with its own effect. Where the rules leave a choice, it
is the model's: log entries 10 and 46. The constructors whose completion it states: coldReset, railTimeout, mainPgRise, bootImageLoaded,
ddrTrainingDone, fillDone. -/
def Obligations.BootCommandsComplete : Prop :=
  (∀ (s : State) (mid se copies : Nat) (bad : Bool),
    (se % 4 = 3 → Instr.wellFormed (.coldReset mid se bad copies) = true → ∃ t, exec (.coldReset mid se bad copies) s = .next t ∧
      t.boot = 0xE010 ∧ t.dram = s.dram ∧ t.harts = []) ∧
    (se % 4 ≠ 3 → bad = true → Instr.wellFormed (.coldReset mid se bad copies) = true → ∃ t, exec (.coldReset mid se bad copies) s = .next t ∧
      t.boot = 0xE020 ∧ t.dram = s.dram ∧ t.harts = []) ∧
    (se % 4 ≠ 3 → bad = false → copies % 4 = 3 → Instr.wellFormed (.coldReset mid se bad copies) = true →
      ∃ t, exec (.coldReset mid se bad copies) s = .next t ∧ t.boot = 0xE030 ∧
      t.f COL_STATUS.COPY0 = 2 ∧ t.f COL_STATUS.COPY1 = 2 ∧ t.dram = s.dram) ∧
    (se % 4 ≠ 3 → bad = false → copies % 4 ≠ 3 → Instr.wellFormed (.coldReset mid se bad copies) = true →
      ∃ t, exec (.coldReset mid se bad copies) s = .next t ∧ t.boot = 0x0040 ∧ t.mainEn = true)) ∧
  (∀ s : State, s.stopped = false → s.boot = 0x0040 → s.mainPg = false →
    exec .railTimeout s = .next { s with boot := 0xE040 } ∧
    (∀ dead, Instr.wellFormed (.mainPgRise true dead) = true → exec (.mainPgRise true dead) s = .next { s with mainPg := true, boot := 0xE041 }) ∧
    ((s.diesReached 6 [4]).length = 6 → Instr.wellFormed (.mainPgRise false []) = true → ∃ t, exec (.mainPgRise false []) s = .next t ∧
      t.mainPg = true ∧ t.boot = 0x0060 ∧
      t.hb = { s.hb with started := true, closed := s.leaf })) ∧
  (∀ (s : State) (a b : Option (List Byte)), s.stopped = false → s.boot = 0x0060 →
    exec (.bootImageLoaded false a b) s = .next { s with boot := 0xE060 } ∧
    (∀ l, a = some l → l.length = s.imageLen false → (s.setting 0x88).getLsbD 0 = false ∨ sha384 l = s.expected false → s.released = false →
      ∃ t, exec (.bootImageLoaded true a b) s = .next t ∧ t.boot = 0x0070 ∧ t.svc.staged = l ∧
        ∀ k < 6, t.reg (ENDP_MEAS_BOOTk k) = digestWord (sha384 l) k)) ∧
  (∀ s : State, s.stopped = false → s.boot = 0x0070 →
    (Instr.wellFormed (.ddrTrainingDone []) = true → ∃ t, exec (.ddrTrainingDone []) s = .next t ∧ t.boot = 0xE070) ∧
    (∀ r : SlotReport, r.chan < 16 → 1 ≤ r.count → r.fits = true → r.trained = true →
      Instr.wellFormed (.ddrTrainingDone [r]) = true → ∃ t, exec (.ddrTrainingDone [r]) s = .next t ∧ t.boot = 0x0080 ∧ t.chState r.chan = 2 ∧
      t.fillStart = s.count ∧
        t.f SCR_FILL_STATUS.STATE = 1 ∧ t.reg (MC_ILVr 0) = regionWord 0 0 (r.chan, 0, r.count * r.gib) ∧
        t.f (MC_CHk_STATUS.RATE r.chan) = min 88 (min r.rate (configRate r)))) ∧
  (∀ (s : State) (l : Nat) (ks : List Nat), s.stopped = false → s.boot = 0x0080 → s.svc.staged = [] → Instr.wellFormed (.fillDone l ks) = true →
    (∀ k < 16, s.fills k = true → (s.f SCR_FILL_STATUS.DONE).testBit k = false → k ∉ ks →
      ∃ t, exec (.fillDone l ks) s = .next t ∧ t.boot = 0x0080 ∧ t.f SCR_FILL_STATUS.STATE = s.f SCR_FILL_STATUS.STATE ∧
        ∀ j ∈ ks, s.fills j = true → (t.f SCR_FILL_STATUS.DONE).testBit j = true) ∧
    ((∀ k < 16, s.fills k = true → (s.f SCR_FILL_STATUS.DONE).testBit k = true ∨ k ∈ ks) →
      (s.populated s.loadBase.toNat = false → ∃ t, exec (.fillDone l ks) s = .next t ∧ t.boot = 0xE090 ∧ t.f SCR_FILL_STATUS.STATE = 2 ∧
        t.on SCR_ALARM.FILL_DONE = true ∧
        ∀ e, e ∈ t.dram ↔ e ∈ s.dram ∧ ∀ k ∈ ks, s.fills k = true → e.1 < k * 2 ^ 41 ∨ (k + 1) * 2 ^ 41 ≤ e.1) ∧
      (s.populated s.loadBase.toNat = true → s.populated (s.loadBase.toNat - 1) = true → s.released = false →
        ∃ t, exec (.fillDone l ks) s = .next t ∧ (t.boot = 0x00B0 ∨ t.boot = 0x00C0 ∨ t.boot = 0x00C1))))

/-- The release of the boot hart, and warm reset (R545, R549 to R551): each command answers a next state with its own effect. Where the rules leave a
choice, it is the model's: log entry 45. The constructors whose completion it states: bootHartRelease, warmReset, warmResetW3. -/
def Obligations.ReleaseAndWarmResetCommandsComplete : Prop :=
  (∀ s : State, s.stopped = false → s.f TB_STATUS.STATE ≠ 0 →
    (s.boot = 0x00C0 → ∃ t, exec .bootHartRelease s = .next t ∧ t.released = true ∧ t.boot = 0x00F0 ∧ t.svc.othersHeld = true ∧
      (t.hart (2 * s.bootCore)).world = true ∧ (t.hart (2 * s.bootCore)).priv = 3 ∧
      (t.hart (2 * s.bootCore)).pc = BitVec.ofNat 64 s.endpBase) ∧
    (s.boot = 0x00C1 → ∃ t, exec .bootHartRelease s = .next t ∧ t.released = true ∧ t.boot = 0x00F0 ∧ t.svc.othersHeld = false ∧
      (t.hart (2 * s.bootCore)).world = false ∧ (t.hart (2 * s.bootCore)).priv = 3 ∧ (t.hart (2 * s.bootCore)).pc = s.loadBase ∧
      (t.hart (2 * s.bootCore)).getX 10 = 0xFFFFFFFFFFFFFFEF)) ∧
  (∀ s : State, s.stopped = false → s.boot = 0x00F0 → s.released = true → s.svc.warmAt = none → s.svc.resetAt = none →
    ∃ t, exec .warmReset s = .next t ∧ t.svc.warmAt = some s.leaf) ∧
  (∀ (s : State) (l x : Nat), s.stopped = false → s.svc.warmAt = some x → x + 1001 ≤ l → s.on COL_STATUS.STORE = false → s.heldReqs = [] →
    s.svc.lostLater = [] → (∀ i < 256, s.resetting i = false) → s.channels = [] →
    ∃ t, exec (.warmResetW3 l) s = .next t ∧ t.boot = 0x0060 ∧ t.svc.warmAt = none ∧ t.journal = [] ∧ t.queues = [] ∧ t.engines = [] ∧
      t.dram = s.dram)

/-- Requests of the service ports that read, write or reset (R555 to R559): each, where a service engine carries it out, answers a next state with its
response and its own effect. A private read of the I3C target answers the response that is ready, or NACK (R553), and the test access port shows
its IDCODE after a reset (R554). Where the rules leave a choice, it is the model's: log entries 47, 48 and 64. The constructors whose completion
it states: info, bootStatus, resetCold, resetWarm, sysRead, sysWrite, logRead, journalRead, dmi. -/
def Obligations.ServiceAccessCommandsComplete : Prop :=
  (∀ (s : State) (p tag : Nat), s.Serves p 1 →
    Instr.wellFormed (.info p tag []) = true → exec (.info p tag []) s = .next (s.responded p 0x01 tag 0
      (leBytes 8 (s.reg SVC_IDENT0).toNat ++ leBytes 8 (s.reg SVC_IDENT1).toNat ++ leBytes 1 ((s.portSe p).getD 0))) ∧
    exec (.bootStatus p tag) s = .next (s.responded p 0x02 tag 0 (leBytes 2 s.boot)) ∧
    (Instr.wellFormed (.resetCold p tag) = true → ∃ t, exec (.resetCold p tag) s = .next t ∧ t.svc.resetAt = some (s.leaf + 1000, true) ∧
      t.regs = s.regs ∧
      t.sent = s.sent ++ [.drufy p (drufyFrame 0x10 tag 0 [])]) ∧
    (s.svc.resetAt = none → Instr.wellFormed (.resetWarm p tag) = true → ∃ t, exec (.resetWarm p tag) s = .next t ∧
      t.svc.resetAt = some (s.leaf + 1000, false) ∧ t.regs = s.regs ∧
      t.sent = s.sent ++ [.drufy p (drufyFrame 0x11 tag 0 [])])) ∧
  (∀ (s : State) (p tag : Nat), s.off = false → (s.portSe p).isSome = true → Instr.wellFormed (.info p tag [.read (s.wires p).address]) = true →
    exec (.info p tag [.read (s.wires p).address]) s = exec (.info p tag []) (if (s.wires p).response = [] then s.record (.i3c p none)
      else (s.modWires p (fun w => { w with response := [] })).record (.i3c p (some (s.wires p).response)))) ∧
  (∀ (s : State) (p tag bits : Nat) (found : WireFound), s.off = false → Instr.wellFormed (.info p tag [.tapReset, .scanDr 32 bits found]) = true →
    exec (.info p tag [.tapReset, .scanDr 32 bits found]) s =
      exec (.info p tag []) ((s.modWires p (fun w => { w with ir := 1 })).record (.jtag p 32 0x29624987))) ∧
  (∀ (s s1 : State) (p tag a size m k v : Nat), s.Serves p 5 → s.sysBad a size = false → s.on ENDP_DEBUG.TEXT_INV = true →
    s.region a = .setup m k → s.setupRead .text k size = (s1, some v) → s1.svc = s.svc →
    Instr.wellFormed (.sysRead p tag a size) = true → exec (.sysRead p tag a size) s = .next (s1.responded p 0x03 tag 0 (leBytes size v))) ∧
  (∀ (s s1 : State) (p tag a size : Nat) (d : Line), s.Serves p 5 → s.sysBad a size = false → s.on ENDP_DEBUG.TEXT_INV = true →
    s.region a = .dram → s.guardRefuses 0 a false false = false → s1.svc = s.svc →
    s.readCur (4 + p) (a / 64) = (s1, some (d, false)) →
    Instr.wellFormed (.sysRead p tag a size) = true →
      exec (.sysRead p tag a size) s = .next (s1.responded p 0x03 tag 0 ((List.range size).map (fun i => lineByte d (a % 64 + i))))) ∧
  (∀ (s u : State) (p tag a size m k : Nat) (v : Word) (fits : Bool), s.Serves p 5 → s.sysBad a size = false →
    s.on ENDP_DEBUG.TEXT_INV = true → s.region a = .setup m k → s.sysLocked k = false → u = s.setupWrite .text size k v fits → u.svc = s.svc →
    Instr.wellFormed (.sysWrite p tag a size v fits) = true → exec (.sysWrite p tag a size v fits) s = .next (u.responded p 0x04 tag 0 [])) ∧
  (∀ (s : State) (p tag n : Nat), s.Serves p 3 → n < 65536 →
    Instr.wellFormed (.logRead p tag n) = true → exec (.logRead p tag n) s = .next (s.responded p 0x05 tag 0
      ((List.range (8 * min 16 (65536 - n))).flatMap (fun i => leBytes 8 (s.colWord (0x80000 + 8 * n + i)).toNat)))) ∧
  (∀ (s : State) (p tag n : Nat) (e : JEntry), s.Serves p 10 → n < 262144 → s.deadDies = [] → s.f CSS_JOURNAL.COPY0 = 0 → s.entry n = some e →
    Instr.wellFormed (.journalRead p tag n) = true → exec (.journalRead p tag n) s = .next (s.responded p 0x06 tag 0 e.bytes)) ∧
  (∀ (s : State) (p tag a v : Nat), s.Serves p 5 → s.dmBusy = false →
    Instr.wellFormed (.dmi p tag a none) = true → exec (.dmi p tag a none) s = .next (s.responded p 0x07 tag 0 (leBytes 4 (s.dmRead a))) ∧
    ((s.svc.dm.get 0 0x10).getLsbD 0 = true → a = 4 ∨ a = 5 → Instr.wellFormed (.dmi p tag a (some v)) = true →
      ∃ t, exec (.dmi p tag a (some v)) s = .next t ∧
      t.svc.dm.get 0 a = BitVec.ofNat 32 v ∧ t.harts = s.harts ∧ t.regs = s.regs ∧ t.sent = s.sent ++ [.drufy p (drufyFrame 0x07 tag 0 [])]))

/-- Requests of the service ports about units, and debug unlock (R559 to R563): each, where a service engine carries it out, answers a next state with
its response and its own effect; and the end of a loop-back test. Where the rules leave a choice, it is the model's: log entries 36, 49 and 50.
The constructors whose completion it states: moveCore, retire, requalify, loopback, loopbackEnd, loopResult, margin, debugChallenge, debugUnlock. -/
def Obligations.ServiceUnitCommandsComplete : Prop :=
  (∀ (s : State) (p tag c : Nat), s.Serves p 13 →
    (s.moveRefused c = false → Instr.wellFormed (.moveCore p tag c) = true → ∃ t, exec (.moveCore p tag c) s = .next t ∧
      t.f (CPU_CORE_STATUSc.STATE c) = 2 ∧
      t.f (CPU_CORE_STATUSc.REASON c) = 8 ∧ t.sent = s.sent ++ [.drufy p (drufyFrame 0x20 tag 0 [])]) ∧
    (s.moveRefused c = true → Instr.wellFormed (.moveCore p tag c) = true → exec (.moveCore p tag c) s = .next (s.responded p 0x20 tag 6 []))) ∧
  (∀ (s : State) (p tag loc d : Nat), s.Serves p 13 → s.unitOf loc = some (.colophon d) → s.deadDies = [] → d < 2 →
    (s.f (copyField d) = 0 → Instr.wellFormed (.retire p tag loc) = true → ∃ t, exec (.retire p tag loc) s = .next t ∧ t.f (copyField d) = 2 ∧
      t.on COL_ALARM.COPY_ALONE = true ∧
      t.sent = s.sent ++ [.drufy p (drufyFrame 0x21 tag 0 [])]) ∧
    (s.f (copyField d) ≠ 0 → Instr.wellFormed (.retire p tag loc) = true → exec (.retire p tag loc) s = .next (s.responded p 0x21 tag 6 []))) ∧
  (∀ (s : State) (p tag loc n : Nat), s.Serves p 5 → s.unitOf loc = some (.lane n) → s.deadDies = [] → n < 256 →
    (s.f (PRT_Gj_LANES.DISABLED (n / 8))).testBit (n % 8) = true →
    (Instr.wellFormed (.requalify p tag loc true) = true → ∃ t, exec (.requalify p tag loc true) s = .next t ∧
      (t.f (PRT_Gj_LANES.DISABLED (n / 8))).testBit (n % 8) = false ∧
      t.sent = s.sent ++ [.drufy p (drufyFrame 0x22 tag 0 [])]) ∧
    exec (.requalify p tag loc false) s = .next (s.responded p 0x22 tag 7 [])) ∧
  (∀ (s : State) (p tag loc r : Nat), s.Serves p 5 → s.unitOf loc = some (.router r) → s.svc.tests = [] →
    Instr.wellFormed (.loopback p tag loc 0) = true → ∃ t test, exec (.loopback p tag loc 0) s = .next t ∧ t.svc.tests = [test] ∧
      test.state = 0 ∧ test.until_ = s.leaf + 2 ^ 20 ∧ t.regs = s.regs ∧
      t.sent = s.sent ++ [.drufy p (drufyFrame 0x30 tag 0 [])]) ∧
  (∀ (s : State) (loc r errors checked : Nat) (test : LoopTest), s.off = false → s.unitOf loc = some (.router r) →
    s.unitOf (test.loc.word 5) = some (.router r) → s.svc.tests = [test] → test.state = 0 → test.saved = [] → test.spare = none →
    test.until_ < 2 ^ 56 →
    Instr.wellFormed (.loopbackEnd loc errors checked) = true → ∃ t, exec (.loopbackEnd loc errors checked) s = .next t ∧
      t.leaf = max s.leaf test.until_ ∧
      t.svc.tests = [{ test with state := if errors = 0 then 1 else 2, errors := errors, checked := checked }]) ∧
  (∀ (s : State) (p tag loc : Nat) (u : SvcUnit) (test : LoopTest), s.Serves p 5 → s.unitOf loc = some u → s.unitAbsent u = false →
    s.testOf u = some test →
    Instr.wellFormed (.loopResult p tag loc) = true →
      exec (.loopResult p tag loc) s = .next (s.responded p 0x31 tag 0 (leBytes 1 test.state ++ leBytes 8 test.errors ++ leBytes 8 test.checked))) ∧
  (∀ (s : State) (p tag loc n : Nat) (resp : List Byte), s.Serves p 10 → s.unitOf loc = some (.lane n) → s.deadDies = [] →
    s.trains (s.leadPort (n / 2)) = true → s.portState (s.leadPort (n / 2)) = 4 →
    Instr.wellFormed (.margin p tag loc resp) = true → exec (.margin p tag loc resp) s = .next (s.responded p 0x32 tag 0 resp)) ∧
  (∀ (s s1 : State) (p tag : Nat) (l : List Byte), s.Serves p 1 → s.drawBytes 4 = (l, s1) →
    Instr.wellFormed (.debugChallenge p tag) = true → ∃ t, exec (.debugChallenge p tag) s = .next t ∧
      t.svc.nonce = some (BitVec.ofNat 256 (leNat l)) ∧ t.regs = s.regs ∧
      t.sent = s.sent ++ [.drufy p (drufyFrame 0x40 tag 0 l)]) ∧
  (∀ (s : State) (p tag : Nat), s.Serves p 3 → s.svc.nonce.isSome = true →
    (Instr.wellFormed (.debugUnlock p tag false) = true → ∃ t, exec (.debugUnlock p tag false) s = .next t ∧ t.svc.nonce = none ∧
      t.keys = s.keys ∧ t.col = s.col ∧
      t.sent = s.sent ++ [.drufy p (drufyFrame 0x41 tag 7 [])]) ∧
    (s.on COL_STATUS.STORE = false → Instr.wellFormed (.debugUnlock p tag true) = true → ∃ t, exec (.debugUnlock p tag true) s = .next t ∧
      t.keys = [] ∧ t.on COL_STATUS.STORE = true ∧
      (t.col.work.get 0 2).getLsbD 1 = false ∧ t.svc.owed.get none p = some { op := 0x41, tag := tag, what := .unlockStore } ∧ t.sent = s.sent))

/-- A step runs the command at the front of the queue on the state with the queue's rest; with no command waiting, one unit of the time count passes
where VKEEP stands (the model's choice, log entry 2). -/
def Obligations.StepRunsTheFrontCommand : Prop :=
  (∀ (s : State) (c : Instr) (rest : List Instr), s.pending = c :: rest → step s = exec c { s with pending := rest }) ∧
  (∀ s : State, s.pending = [] → s.off = true → step s = .next s) ∧
  (∀ s : State, s.pending = [] → s.off = false → ∃ t, step s = .next t ∧ t.count = (s.count + 1) % 2 ^ 64 ∧ t.pending = [])

/-- The state at reset: the boot-status code is 0x0010, no command waits, every hart is held, the clock acquires, no mode change is posted, no queue
is enabled, no step of current is posted, nothing is in flight, and the tables have their form. The values that no register's table gives are the
model's choice, log entry 10. -/
def Obligations.ResetState : Prop :=
  State.reset.boot = 0x0010 ∧ State.reset.pending = [] ∧ State.reset.stopped = false ∧ State.reset.released = false ∧
  State.reset.mainEn = false ∧ State.reset.f TB_STATUS.STATE = 0 ∧ State.reset.f ENDP_CTL.CALL_LIMIT = 256 ∧
  State.reset.f HB_CTL.PARK_IDLE = 16 ∧ State.reset.journal = [] ∧ State.reset.reqs = [] ∧ State.reset.hb.granted = [] ∧
  (∀ h < 384, (State.reset.hart h).run = .held) ∧ (∀ n < 8, State.reset.slotState n = 0) ∧ (∀ q < 16384, State.reset.qState q = 0) ∧
  Memory.wf State.reset.dram = true ∧ State.reset.ListsRegisters

/-- A write to a register is judged in the order size, world, lock, reserved value; one that is not carried out sets its flag, and changes no other
register but the address capture and, under a lock, the write-one-to-clear flags of the register itself. A write to CPU_SPEC_CTLc of a LOST core is
judged too, and then ignored (R151); one to a unit whose die has stopped reaches nothing (R530). -/
def Obligations.RegisterWritesAreJudged : Prop :=
  (∀ (s : State) (who : Requester) (c : Nat) (v : Word) (fits : Bool), s.stopped = false → c < 192 → s.lostCore c = true →
    s.admits who 8 (CPU_SPEC_CTLc c) v = true → exec (.registerWrite who 8 (CPU_SPEC_CTLc c) v fits) s = .next s) ∧
  (∀ (s : State) (who : Requester) (size k : Nat) (v : Word) (fits : Bool) (d : RegDesc) (is : List Nat), s.stopped = false → k % 8 = 0 →
    inWindow k = false → findReg k = some (d, is) →
    (s.unitGone k = true → exec (.registerWrite who size k v fits) s = .next s) ∧
    (s.unitGone k = false → size ≠ 8 → ∃ t, exec (.registerWrite who size k v fits) s = .next t ∧ t.on SVC_ALARM.BAD_ACCESS = true ∧
      t.on SVC_BAD_ADDR.VALID = true ∧
      (∀ j, j ≠ SVC_ALARM → j ≠ SVC_BAD_ADDR → t.reg j = s.reg j)) ∧
    (s.unitGone k = false → size = 8 → endpaperOnly k = true → who = .text →
      exec (.registerWrite who size k v fits) s = .next (s.raise (if k / 0x10000000 = 14 then ENDP_ALARM.DENIED_WRITE else MG_ALARM.DENIED_WRITE))) ∧
    (s.unitGone k = false → size = 8 → endpaperOnly k = false → s.locked who d.block = true →
      d.fields.all (fun f => decide (f.acc = .rw)) = true → d.fields ≠ [] →
      ∃ t, exec (.registerWrite who size k v fits) s = .next t ∧ t.on SVC_ALARM.LOCKED_WRITE = true ∧
        (∀ j, j ≠ SVC_ALARM → j ≠ SVC_BAD_ADDR → t.reg j = s.reg j)) ∧
    (s.unitGone k = false → size = 8 → endpaperOnly k = false ∨ who ≠ .text → s.locked who d.block = false → reservedIn d.fields v = true →
      exec (.registerWrite who size k v fits) s = .next (s.raise (cfgErrOf d.block))))

/-- An offset within a block that no register or window occupies ignores writes of every size, from every requester, and reads as zero (R529). -/
def Obligations.AbsentOffsetsReadZeroAndIgnoreWrites : Prop :=
  ∀ (s : State) (who : Requester) (size k : Nat) (v : Word) (fits : Bool), s.stopped = false → s.ListsRegisters → k < 17 * 0x10000000 →
    findReg (k / 8 * 8) = none → inWindow k = false →
    exec (.registerWrite who size k v fits) s = .next s ∧ s.setupRead who k size = (s, some 0)

/-- A misaligned LR raises cause 4, and a misaligned SC, AMO or compare-and-swap cause 6: in the text world at the level that takes it, in Endpaper
U-mode in Endpaper's M-mode, and in Endpaper M-mode as a crash that shows the cause in a2 (R84, with R479). -/
def Obligations.MisalignedAtomicsTrap : Prop :=
  ∀ (s : State) (h n raw cause : Nat) (c : Instr) (k : InstrClass) (kinds : List Nat) (va : Word) (wrong : List WrongAcc),
    ((c = .lr h raw wrong ∧ k = .lr ∧ cause = 4 ∧ kinds = [0]) ∨ (c = .sc h raw wrong ∧ k = .sc ∧ cause = 6 ∧ kinds = [1]) ∨
      (c = .amo h raw wrong ∧ k = .amo ∧ cause = 6 ∧ kinds = [0, 1])) →
    s.ActsEither h raw k wrong (fun u => u.settled h = true ∧ u.AtomicAt h n raw kinds va) → va.toNat % n ≠ 0 →
    ∃ u t, s.mayAct h raw k wrong u ∧ exec c s = .next t ∧
      ((u.hart h).world = false → (t.hart h).x = (u.hart h).x ∧ t.dram = u.dram ∧
        (t.hart h).csrIn false ([0x342, 0x142, 0x242].getD ((u.hart h).excLevel cause) 0) = BitVec.ofNat 64 cause ∧
        (t.hart h).csrIn false ([0x341, 0x141, 0x241].getD ((u.hart h).excLevel cause) 0) = (u.hart h).pc) ∧
      ((u.hart h).world = true → (u.hart h).priv ≠ 3 → (t.hart h).x = (u.hart h).x ∧ (t.hart h).priv = 3 ∧
        (t.hart h).csrIn true 0x342 = BitVec.ofNat 64 cause ∧ (t.hart h).csrIn true 0x341 = (u.hart h).pc) ∧
      ((u.hart h).world = true → (u.hart h).priv = 3 → (t.hart h).world = false ∧ (t.hart h).getX 11 = 2 ∧
        (t.hart h).getX 12 = BitVec.ofNat 64 cause)

/-- A thermal cycle is counted each time the hottest sensor reaches 85 °C after 45 °C or below since the last count, and the first time after power-
on (R522); the count saturates. -/
def Obligations.ThermalCyclesAreCounted : Prop :=
  (State.reset.hb.cold = true) ∧
  (∀ (s : State) (t : Nat), s.off = false →
    (85 ≤ t → s.hb.cold = true → exec (.thermalCycle t) s = .next { s with
      life := s.life.set 0 (64 * 0x18 + 32) (min (s.life.get 0 (64 * 0x18 + 32) + 1) (2 ^ 16 - 1)),
      hb := { s.hb with cold := false } }) ∧
    (t ≤ 45 → exec (.thermalCycle t) s = .next { s with hb := { s.hb with cold := true } }) ∧
    (45 < t → t < 85 ∨ s.hb.cold = false → exec (.thermalCycle t) s = .next s))

/-- A module that has stopped holds still: with VKEEP out of its range, any run of commands but cold resets changes nothing but the queue; and where
VKEEP stands, a command that only running units carry out changes nothing (R40, R510, R543). -/
def Obligations.StoppedModuleHoldsStill : Prop :=
  (∀ (n : Nat) (s : State), s.off = true → s.stopped = true → s.mainEn = false → s.mainPg = false →
    (∀ c ∈ s.pending, ∀ mid se bad copies, c ≠ .coldReset mid se bad copies) →
    s.run n = some { s with pending := s.pending.drop n }) ∧
  (∀ (s : State) (c : Instr), s.stopped = true → onVkeep c = false → exec c s = .next s)

/-- Closing a leaf keeps every rail's budgets: the steps granted for it stay within four times STEP_MAX in either direction, the reserved total stays
within IMAX, and nothing is granted for a leaf after the one closed (R496, R497). -/
def Obligations.LeafCloseKeepsTheBudgets : Prop :=
  ∀ (s : State) (l : Nat), s.off = false → s.hb.closed < l → l < 2 ^ 56 → s.hb.started = true → s.hb.frozen = false →
    (∀ x ∈ s.hb.granted, x.leaf ≤ s.hb.closed) →
    ∃ t, exec (.leafClose l) s = .next t ∧ t.hb.closed = l ∧ (∀ x ∈ t.hb.granted, x.leaf ≤ l) ∧
      (∀ r < 12, t.stepTotal l r true ≤ 4 * t.f (HB_RAILr.STEP_MAX r) ∧ t.stepTotal l r false ≤ 4 * t.f (HB_RAILr.STEP_MAX r) ∧
        t.f (HB_RAILr.IMAX r) = s.f (HB_RAILr.IMAX r) ∧ t.f (HB_RAILr.STEP_MAX r) = s.f (HB_RAILr.STEP_MAX r) ∧
        (s.f (HB_RAILr.RESERVED r) ≤ s.f (HB_RAILr.IMAX r) → t.f (HB_RAILr.RESERVED r) ≤ t.f (HB_RAILr.IMAX r)))

/-- What the commands of the time base, the Headband controller, the Colophon and the key service leave unchanged: every part of the state but those
named, memory, harts, queues, engines and links among it, and every register outside the blocks named; of the time base only an edge of EMARK, at
which the count may step, moves what is scheduled, and of a hart only the leaves from which durations are
measured. -/
def Obligations.TimePowerAndStoreCommandsFrame : Prop :=
  (∀ (s t : State) (cmd : Instr), cmd.wellFormed = true → exec cmd s = .next t →
    ((∃ bytes, cmd = .etodMessage bytes) ∨ cmd = .etodGapTimeout ∨ cmd = .etodFramingError ∨
      (∃ t distA distB a b, cmd = .emarkEdge t distA distB a b) ∨ cmd = .pendingMessageExpiry ∨ (∃ second, cmd = .emarkMissCheck second) ∨
      (∃ b n ppb, cmd = .inputQualified b n ppb) ∨ (∃ l, cmd = .inputLost l) ∨ (∃ t, cmd = .holdLimit t) ∨ cmd = .slewComplete ∨
      (∃ who v, cmd = .substituteEntry who v) ∨ (∃ who v, cmd = .substituteExit who v) ∨ (∃ who v, cmd = .acceptStep who v) ∨
      (∃ g dies, cmd = .replicaCheck g dies)) →
    t.KeepsOutside s [0, 16] ∧
    ((∀ n distA distB a b, cmd ≠ .emarkEdge n distA distB a b) →
      t = { s with regs := t.regs, tb := t.tb, replicas := t.replicas, floorsDue := t.floorsDue, held := t.held }) ∧
    t = { s with regs := t.regs, tb := t.tb, replicas := t.replicas, floorsDue := t.floorsDue, held := t.held, posted := t.posted, slots := t.slots,
                 waiting := t.waiting, lockFrom := t.lockFrom, hb := t.hb, svc := t.svc, journal := t.journal, channels := t.channels,
                 lateRow := t.lateRow, mesh := { s.mesh with beyond := t.mesh.beyond, stopped := t.mesh.stopped }, fillStart := t.fillStart,
                 harts := t.harts, slices := t.slices, recoveries := t.recoveries, ports := t.ports, blinks := t.blinks, peerSince := t.peerSince,
                 col := { s.col with powered := t.col.powered, poweredTo := t.col.poweredTo } } ∧
    ∀ h, t.hart h = { s.hart h with lastRetire := (t.hart h).lastRetire, enterLeaf := (t.hart h).enterLeaf }) ∧
  (∀ (s t : State) (cmd : Instr), cmd.wellFormed = true → exec cmd s = .next t →
    ((∃ c, cmd = .wake c) ∨ (∃ l, cmd = .leafClose l) ∨ (∃ k, cmd = .hold k) ∨ cmd = .currentStep ∨ cmd = .hbRestart ∨ cmd = .hbRestartEnd ∨
      (∃ c, cmd = .park c) ∨ (∃ g n t, cmd = .levelAdjust g n t) ∨ (∃ n, cmd = .thermalEmergency n) ∨ (∃ d t mv, cmd = .droop d t mv) ∨
      (∃ d, cmd = .droopStretchEnd d) ∨ (∃ g, cmd = .droopSummary g) ∨ (∃ t, cmd = .thermalCycle t) ∨ (∃ c, cmd = .wakeComplete c)) →
    t = { s with regs := t.regs, hb := t.hb, life := t.life, logQueue := t.logQueue, sent := t.sent, replicas := t.replicas,
                 floorsDue := t.floorsDue, held := t.held } ∧ t.KeepsOutside s [0, 1, 15]) ∧
  (∀ (s t : State) (cmd : Instr), cmd.wellFormed = true → exec cmd s = .next t →
    ((∃ who size o v, cmd = .colWorkWrite who size o v) ∨ (∃ who, cmd = .storeSettings who) ∨ (∃ fails, cmd = .storeEnd fails) ∨
      (∃ who, cmd = .discardSettings who) ∨ (∃ who, cmd = .commitLifetime who) ∨ (∃ l, cmd = .lifetimeCommit l) ∨ cmd = .lifetimeCommitEnd ∨
      cmd = .repairRecordWrite ∨ (∃ c, cmd = .colophonCopyFailure c) ∨ (∃ c, cmd = .colophonRebuilt c) ∨ cmd = .eventLogRecord ∨
      (∃ g ms, cmd = .agingMeasure g ms) ∨ (∃ who v, cmd = .svcLock who v) ∨ (∃ h, cmd = .keyServiceResult h) ∨
      (∃ works, cmd = .keyServiceTakeover works)) →
    t = { s with regs := t.regs, col := t.col, posted := t.posted, sent := t.sent, svc := t.svc,
                 logQueue := t.logQueue, life := t.life, free := t.free, lockFrom := t.lockFrom, lateRow := t.lateRow,
                 tb := { s.tb with forced := t.tb.forced }, replicas := t.replicas, floorsDue := t.floorsDue, held := t.held } ∧ t.KeepsOutside s [0, 14, 15, 16])

/-- What the commands of the attach endpoint, the module links and the ports leave unchanged: every part of the state but those named, memory, harts,
queues and engines among it (the journal but for the timers that stop when bus mastering is withdrawn), and every register outside the blocks named. -/
def Obligations.LinkCommandsFrame : Prop :=
  (∀ (s t : State) (cmd : Instr), cmd.wellFormed = true → exec cmd s = .next t →
    ((∃ g pmeEn, cmd = .d3hotEntry g pmeEn) ∨ (∃ frame, cmd = .wakeEvent frame) ∨ cmd = .pmeRepeat ∨ (∃ g l flit, cmd = .l0sEntry g l flit) ∨
      (∃ g l, cmd = .l1Entry g l) ∨ (∃ v, cmd = .intxPendClear v) ∨ (∃ g v, cmd = .interruptDisable g v) ∨ (∃ g, cmd = .perstDeassertion g) ∨
      (∃ g n, cmd = .busMasterEnableCleared g n)) →
    t = { s with regs := t.regs, ep := t.ep, vfs := t.vfs, sent := t.sent, intxPend := t.intxPend, journal := t.journal,
                 intxOn := t.intxOn, blinks := t.blinks, blWaiting := t.blWaiting, replicas := t.replicas, floorsDue := t.floorsDue, held := t.held } ∧ t.KeepsOutside s [0, 12, 13]) ∧
  (∀ (s t : State) (cmd : Instr), cmd.wellFormed = true → exec cmd s = .next t →
    ((∃ p posted, cmd = .inboundUr p posted) ∨ (∃ j bytes, cmd = .flit j bytes) ∨ (∃ j ack, cmd = .nak j ack) ∨ (∃ j, cmd = .replayTimeout j) ∨
      (∃ j m serial link off last, cmd = .train j m serial link off last) ∨ (∃ j, cmd = .broipTrainingTimeout j) ∨
      (∃ j, cmd = .broipBackoffEnd j) ∨ (∃ j, cmd = .linkSilence j) ∨ (∃ j, cmd = .retrainReq j) ∨ (∃ j, cmd = .widthReq j) ∨
      (∃ j, cmd = .grant j) ∨ (∃ m k last, cmd = .linkState m k last) ∨ (∃ who m, cmd = .clearLost who m) ∨
      (∃ m, cmd = .depart m)) →
    t = { s with regs := t.regs, sent := t.sent, blinks := t.blinks, blWaiting := t.blWaiting, life := t.life,
                 peerSince := t.peerSince, replicas := t.replicas, floorsDue := t.floorsDue, held := t.held } ∧ t.KeepsOutside s [0, 11, 12, 16]) ∧
  (∀ (s t : State), exec .evacuationHandoverEnd s = .next t →
    t = { s with regs := t.regs, sent := t.sent, blinks := t.blinks, blWaiting := t.blWaiting, slices := t.slices, writes := t.writes,
                 mesh := t.mesh } ∧
      t.KeepsOutside s [12]) ∧
  (∀ (s t : State) (cmd : Instr), cmd.wellFormed = true → exec cmd s = .next t →
    ((∃ id, cmd = .completionTimeout id) ∨ (∃ p, cmd = .dpcRelease p) ∨ (∃ p found l, cmd = .trainingFailure p found l) ∨
      (∃ p, cmd = .backoffEnd p) ∨ (∃ p, cmd = .backoffDetection p) ∨ (∃ who p, cmd = .retrain who p) ∨ (∃ p v, cmd = .creditReturn p v)) →
    t = { s with regs := t.regs, ports := t.ports, posted := t.posted, reqs := t.reqs,
                 extCredit := t.extCredit, replicas := t.replicas, floorsDue := t.floorsDue, held := t.held } ∧ t.KeepsOutside s [0, 11, 16])

/-- What the commands of the channel engines, the queues, the cores and the memory channels that store nothing leave unchanged: every part of the
state but those named, memory among it, and every register outside the blocks named. -/
def Obligations.ChannelAndCoreCommandsFrame : Prop :=
  (∀ (s t : State) (cmd : Instr), cmd.wellFormed = true → exec cmd s = .next t →
    ((∃ l, cmd = .divideEnd l) ∨ (∃ l n, cmd = .ioRdEnd l n) ∨ (∃ l a st, cmd = .ioWriteError l a st) ∨ (∃ l n, cmd = .rdJnlEnd l n) ∨
      (∃ l n st data, cmd = .extRdEnd l n st data) ∨ (∃ p, cmd = .extensionSignal p) ∨
      (∃ who off size v, cmd = .engineMemoryWrite who off size v) ∨ (∃ l n, cmd = .tick l n)) →
    t = { s with regs := t.regs, engines := t.engines, journal := t.journal, replicas := t.replicas, floorsDue := t.floorsDue, held := t.held } ∧
    t.KeepsOutside s [0, 6, 9, 16]) ∧
  (∀ (s t : State) (cmd : Instr), cmd.wellFormed = true → exec cmd s = .next t →
    ((∃ off, cmd = .shortDoorbell off) ∨ (∃ q, cmd = .commandAccepted q) ∨ (∃ c, cmd = .journalAlone c) ∨ (∃ c, cmd = .journalRebuilt c) ∨
      (∃ port ok, cmd = .pathRecoveryRead port ok) ∨ (∃ who k t p v, cmd = .pathWrite who k t p v) ∨ (∃ q, cmd = .streamReceive q) ∨
      (∃ q, cmd = .fenceCommand q) ∨ (∃ who q, cmd = .queuePause who q) ∨ (∃ q, cmd = .quiet q) ∨ (∃ who q, cmd = .queueUnpause who q) ∨
      (∃ p st off data psn, cmd = .streamDataWrite p st off data psn) ∨ (∃ p st v len relaxed, cmd = .streamClosingWrite p st v len relaxed) ∨
      (∃ p st, cmd = .frameWaitTimeout p st) ∨ (∃ who k v, cmd = .bindWrite who k v) ∨ (∃ n, cmd = .bucketRefill n) ∨
      (∃ who k v, cmd = .rateWrite who k v)) →
    t = { s with regs := t.regs, journal := t.journal, queues := t.queues, seqNext := t.seqNext,
                 frames := t.frames, engines := t.engines, buckets := t.buckets, bucketAt := t.bucketAt, pathBad := t.pathBad,
                 sent := t.sent, cto := t.cto, ports := t.ports, replicas := t.replicas, floorsDue := t.floorsDue, held := t.held } ∧
    t.KeepsOutside s [0, 6, 8, 11, 13, 16]) ∧
  (∀ (s t : State) (cmd : Instr), cmd.wellFormed = true → (∀ n, (s.tile n).held = []) → exec cmd s = .next t →
    ((∃ c, cmd = .retrySuccess c) ∨ (∃ c k, cmd = .keepScrub c k) ∨ (∃ h, cmd = .hang h) ∨ (∃ c, cmd = .clockFailure c) ∨
      (∃ c l, cmd = .powerFailure c l) ∨ (∃ c, cmd = .keepIslandSupply c) ∨ (∃ who v, cmd = .cpuSpareCmdGo who v) ∨
      (∃ h file id, cmd = .msi h file id) ∨ ((∀ c < 192, (s.core c).retryDue = false) ∧ ∃ t addr v, cmd = .ioReadData t addr v) ∨
      (∃ m t line, cmd = .evn m t line) ∨
      ((∀ n < 216, ∀ x ∈ (s.slice n).txns, x.landed = []) ∧ ∃ m u line, cmd = .wbInFlight m u line)) →
    t = { s with regs := t.regs, cores := t.cores, harts := t.harts, hb := t.hb, life := t.life,
                 logQueue := t.logQueue, slices := t.slices, free := t.free, replicas := t.replicas,
                 floorsDue := t.floorsDue, held := t.held } ∧ t.KeepsOutside s [0, 1, 2, 15, 16]) ∧
  (∀ (s t : State) (cmd : Instr), cmd.wellFormed = true → (∀ k < 16, (s.chan k).half = none) → exec cmd s = .next t →
    ((∃ who k, cmd = .offline who k) ∨ (∃ who k, cmd = .online who k) ∨ (∃ k, cmd = .channelSafe k) ∨
      (∃ k count type gib ranks density stack rate x4, cmd = .powerGood k count type gib ranks density stack rate x4) ∨ (∃ k, cmd = .channelTrained k) ∨
      (∃ k, cmd = .selfRefreshEntry k) ∨ (∃ who e floor, cmd = .floorWrite who e floor) ∨ (∃ g, cmd = .weightEffect g) ∨
      (∃ k, cmd = .lapWarn k) ∨ (∃ who g v, cmd = .mgLock who g v) ∨ (∃ who v, cmd = .l3SliceCmdGo who v) ∨ (∃ n, cmd = .handoffEnd n)) →
    t = { s with regs := t.regs, channels := t.channels, hb := t.hb, waiting := t.waiting,
                 weights := t.weights, slots := t.slots, slices := t.slices, dirty := t.dirty,
                 logQueue := t.logQueue, replicas := t.replicas, floorsDue := t.floorsDue, held := t.held } ∧ t.KeepsOutside s [0, 1, 3, 5, 6, 7, 15, 16])

/-- An integer instruction that computes a register writes its destination and goes on; memory, set-up space and every other hart are unchanged, and
of its own hart every other register, the retired stores, the reservation, the interrupt files and the CSRs of traps; x0 reads zero. -/
def Obligations.RegisterInstructionsFrame : Prop :=
  ∀ (s u : State) (h raw w : Nat) (a b v : Word) (wrong : List WrongAcc), s.acting h raw .int = some u → u.settled h = true →
    (u.hart h).pc = (s.hart h).pc → w = instrWord raw →
    a = (u.hart h).getX (iRs1 w) → b = (u.hart h).getX (iRs2 w) →
    ((iOp w = 0x13 ∧ aluImm w a = some v) ∨ (iOp w = 0x1B ∧ aluImmW w a = some v) ∨ (iOp w = 0x33 ∧ rvAluOp (iF7 w) (iF3 w) a b = some v) ∨
      (iOp w = 0x3B ∧ rvAluOpW (iF7 w) (iF3 w) (iRs2 w) a b = some v) ∨ (iOp w = 0x37 ∧ v = word (immU w)) ∨
      (iOp w = 0x17 ∧ v = (u.hart h).pc + word (immU w))) →
    ∃ t, exec (.integerInstruction h raw wrong) s = .next t ∧ t.Advanced u h raw ((u.hart h).setX (iRd w) v).x ∧
      t = { u with harts := t.harts, free := t.free } ∧ (∀ g, g ≠ h → t.hart g = u.hart g) ∧
      (t.hart h).getX 0 = 0 ∧ (∀ r, r ≠ iRd w → (t.hart h).getX r = (u.hart h).getX r) ∧ (t.hart h).f = (u.hart h).f ∧ (t.hart h).v = (u.hart h).v ∧
      (t.hart h).stores = (u.hart h).stores ∧ (t.hart h).resv = (u.hart h).resv ∧ (t.hart h).files = (u.hart h).files ∧
      (∀ a ∈ [0x300, 0x305, 0x340, 0x341, 0x342, 0x343], (t.hart h).csrIn false a = (u.hart h).csrIn false a)

/-- The commands at the homes, in the memory controllers and in the scrubber keep the canonical form of stored memory. -/
def Obligations.MemoryKeepsItsForm : Prop :=
  ∀ (s t : State) (cmd : Instr), cmd.wellFormed = true → Memory.wf s.dram = true → exec cmd s = .next t →
    ((∃ m t line world resolved noL3 err, cmd = .rds m t line world resolved noL3 err) ∨
      (∃ m t line world noL3 err, cmd = .rdown m t line world noL3 err) ∨ (∃ m t line world, cmd = .upg m t line world) ∨
      (∃ m t line world, cmd = .zero m t line world) ∨ (∃ m die line err, cmd = .rdcur m die line err) ∨
      (∃ m die line d psn, cmd = .wrfull m die line d psn) ∨ (∃ m die line d mask psn err, cmd = .wrpart m die line d mask psn err) ∨
      (∃ m t line d psn keeps world, cmd = .wb m t line d psn keeps world) ∨ (∃ m t line world, cmd = .cmoClean m t line world) ∨
      (∃ m t line world, cmd = .cmoFlush m t line world) ∨ (∃ m t line world, cmd = .cmoInvalidate m t line world) ∨
      (∃ m u t line atHome, cmd = .doneResponse m u t line atHome) ∨ (∃ m u line, cmd = .notHeld m u line) ∨
      (∃ k copied, cmd = .channelFailure k copied) ∨ (∃ k, cmd = .resilverEnd k) ∨ (∃ k n lines half errs, cmd = .scrubBurst k n lines half errs) ∨
      (∃ k g lines half errs, cmd = .scrubWake k g lines half errs) ∨ (∃ k resource lines time, cmd = .softRepair k resource lines time) ∨
      (∃ k, cmd = .softRepairEnd k) ∨ (∃ who copy, cmd = .rawRead who copy) ∨ (∃ who copy, cmd = .rawWrite who copy) ∨
      (∃ err, cmd = .rawAccessEnd err)) →
    Memory.wf t.dram = true
end

