-- ==== Sys2Proof/Laws/Cipher.lean ====
section
/-! SUPPORT. The inverse cipher of AES undoes the cipher, and what AES Key Wrap wraps unwraps (R491, R492). -/

namespace Sys2Proof.Machine

open Sys2Proof

/-! ### One block -/

theorem aesXtime_xor (a b : Byte) : aesXtime (a ^^^ b) = aesXtime a ^^^ aesXtime b := by
  unfold aesXtime
  rw [BitVec.shiftLeft_xor_distrib, BitVec.getLsbD_xor]
  cases a.getLsbD 7 <;> cases b.getLsbD 7 <;> simp [BitVec.xor_assoc]
  ac_rfl

theorem aesMul_xor (c : Nat) (a b : Byte) : aesMul c (a ^^^ b) = aesMul c a ^^^ aesMul c b := by
  simp only [aesMul, aesXtime_xor]
  cases c.testBit 0 <;> cases c.testBit 1 <;> cases c.testBit 2 <;> cases c.testBit 3 <;>
    simp only [Bool.false_eq_true, if_false, if_true] <;> ac_rfl

/-- The columns of the inverse mix times those of the mix. -/
theorem aesMul_cols : ∀ a : Byte,
    (aesMul 14 (aesMul 2 a) ^^^ aesMul 11 (aesMul 1 a) ^^^ aesMul 13 (aesMul 1 a) ^^^ aesMul 9 (aesMul 3 a) = a ∧
     aesMul 14 (aesMul 3 a) ^^^ aesMul 11 (aesMul 2 a) ^^^ aesMul 13 (aesMul 1 a) ^^^ aesMul 9 (aesMul 1 a) = 0) ∧
    aesMul 14 (aesMul 1 a) ^^^ aesMul 11 (aesMul 3 a) ^^^ aesMul 13 (aesMul 2 a) ^^^ aesMul 9 (aesMul 1 a) = 0 ∧
    aesMul 14 (aesMul 1 a) ^^^ aesMul 11 (aesMul 1 a) ^^^ aesMul 13 (aesMul 3 a) ^^^ aesMul 9 (aesMul 2 a) = 0 := by
  decide +kernel

/-- One byte of a column through both mixes: `a` is the byte itself, `b`, `c`, `d` those below it, round the column. -/
theorem aesMul_byte (a b c d : Byte) :
    aesMul 14 (aesMul 2 a ^^^ aesMul 3 b ^^^ aesMul 1 c ^^^ aesMul 1 d) ^^^ aesMul 11 (aesMul 1 a ^^^ aesMul 2 b ^^^ aesMul 3 c ^^^ aesMul 1 d) ^^^
      aesMul 13 (aesMul 1 a ^^^ aesMul 1 b ^^^ aesMul 2 c ^^^ aesMul 3 d) ^^^
      aesMul 9 (aesMul 3 a ^^^ aesMul 1 b ^^^ aesMul 1 c ^^^ aesMul 2 d) = a := by
  have ha := (aesMul_cols a).1.1
  have hb := (aesMul_cols b).1.2
  have hc := (aesMul_cols c).2.1
  have hd := (aesMul_cols d).2.2
  simp only [aesMul_xor]
  calc _ = (aesMul 14 (aesMul 2 a) ^^^ aesMul 11 (aesMul 1 a) ^^^ aesMul 13 (aesMul 1 a) ^^^ aesMul 9 (aesMul 3 a)) ^^^
      (aesMul 14 (aesMul 3 b) ^^^ aesMul 11 (aesMul 2 b) ^^^ aesMul 13 (aesMul 1 b) ^^^ aesMul 9 (aesMul 1 b)) ^^^
      (aesMul 14 (aesMul 1 c) ^^^ aesMul 11 (aesMul 3 c) ^^^ aesMul 13 (aesMul 2 c) ^^^ aesMul 9 (aesMul 1 c)) ^^^
      (aesMul 14 (aesMul 1 d) ^^^ aesMul 11 (aesMul 1 d) ^^^ aesMul 13 (aesMul 3 d) ^^^ aesMul 9 (aesMul 2 d)) := by ac_rfl
    _ = a := by rw [ha, hb, hc, hd]; simp

theorem list16 {s : List Byte} (h : s.length = 16) : ∃ a b c d e f g i j k l m n o p q, s = [a, b, c, d, e, f, g, i, j, k, l, m, n, o, p, q] := by
  match s, h with
  | [a, b, c, d, e, f, g, i, j, k, l, m, n, o, p, q], _ => exact ⟨a, b, c, d, e, f, g, i, j, k, l, m, n, o, p, q, rfl⟩

theorem aesMix_inv {s : List Byte} (h : s.length = 16) : aesMix [14, 11, 13, 9] (aesMix [2, 3, 1, 1] s) = s := by
  obtain ⟨a, b, c, d, e, f, g, i, j, k, l, m, n, o, p, q, rfl⟩ := list16 h
  have r4 : List.range 4 = [0, 1, 2, 3] := by decide
  have r16 : List.range 16 = [0, 1, 2, 3, 4, 5, 6, 7, 8, 9, 10, 11, 12, 13, 14, 15] := by decide
  simp only [aesMix, r4, r16, List.map_cons, List.map_nil, List.foldl_cons, List.foldl_nil]
  norm_num
  refine ⟨?_, ?_, ?_, ?_, ?_, ?_, ?_, ?_, ?_, ?_, ?_, ?_, ?_, ?_, ?_, ?_⟩
  · exact aesMul_byte a b c d
  · refine Eq.trans ?_ (aesMul_byte b c d a); simp only [aesMul_xor]; ac_rfl
  · refine Eq.trans ?_ (aesMul_byte c d a b); simp only [aesMul_xor]; ac_rfl
  · refine Eq.trans ?_ (aesMul_byte d a b c); simp only [aesMul_xor]; ac_rfl
  · exact aesMul_byte e f g i
  · refine Eq.trans ?_ (aesMul_byte f g i e); simp only [aesMul_xor]; ac_rfl
  · refine Eq.trans ?_ (aesMul_byte g i e f); simp only [aesMul_xor]; ac_rfl
  · refine Eq.trans ?_ (aesMul_byte i e f g); simp only [aesMul_xor]; ac_rfl
  · exact aesMul_byte j k l m
  · refine Eq.trans ?_ (aesMul_byte k l m j); simp only [aesMul_xor]; ac_rfl
  · refine Eq.trans ?_ (aesMul_byte l m j k); simp only [aesMul_xor]; ac_rfl
  · refine Eq.trans ?_ (aesMul_byte m j k l); simp only [aesMul_xor]; ac_rfl
  · exact aesMul_byte n o p q
  · refine Eq.trans ?_ (aesMul_byte o p q n); simp only [aesMul_xor]; ac_rfl
  · refine Eq.trans ?_ (aesMul_byte p q n o); simp only [aesMul_xor]; ac_rfl
  · refine Eq.trans ?_ (aesMul_byte q n o p); simp only [aesMul_xor]; ac_rfl

theorem aesInvSub_sub : ∀ a : Byte, aesInvSub (aesSub a) = a := by decide +kernel

/-- SubBytes and ShiftRows. -/
def cipherHalf (s : List Byte) : List Byte := aesShiftRows (s.map aesSub)

@[simp] theorem cipherHalf_length (s : List Byte) : (cipherHalf s).length = 16 := by simp [cipherHalf, aesShiftRows]

@[simp] theorem aesMix_length (c : List Nat) (s : List Byte) : (aesMix c s).length = 16 := by simp [aesMix]

theorem cipherHalf_inv {s : List Byte} (h : s.length = 16) : (aesInvShiftRows (cipherHalf s)).map aesInvSub = s := by
  obtain ⟨a, b, c, d, e, f, g, i, j, k, l, m, n, o, p, q, rfl⟩ := list16 h
  have r16 : List.range 16 = [0, 1, 2, 3, 4, 5, 6, 7, 8, 9, 10, 11, 12, 13, 14, 15] := by decide
  simp [cipherHalf, aesShiftRows, aesInvShiftRows, r16, aesInvSub_sub]

@[simp] theorem xorBytes_length (a b : List Byte) : (xorBytes a b).length = min a.length b.length := by simp [xorBytes]

theorem xorBytes_cancel {a b : List Byte} (h : a.length ≤ b.length) : xorBytes (xorBytes a b) b = a := by
  induction a generalizing b with
  | nil => simp [xorBytes]
  | cons x a ih =>
    cases b with
    | nil => simp at h
    | cons y b =>
      have := ih (b := b) (by simpa using h)
      simp only [xorBytes, List.zipWith_cons_cons, BitVec.xor_assoc, BitVec.xor_self, BitVec.xor_zero] at this ⊢
      rw [this]

/-- The middle rounds forward, and back. -/
theorem aesRounds_inv {ks : List (List Byte)} (hk : ∀ k ∈ ks, k.length = 16) {s : List Byte} (h : s.length = 16) :
    (ks.foldl (fun s k => xorBytes (aesMix [2, 3, 1, 1] (cipherHalf s)) k) s).length = 16 ∧
    ks.reverse.foldl (fun s k => aesMix [14, 11, 13, 9] (xorBytes ((aesInvShiftRows s).map aesInvSub) k))
      (cipherHalf (ks.foldl (fun s k => xorBytes (aesMix [2, 3, 1, 1] (cipherHalf s)) k) s)) = cipherHalf s := by
  induction ks generalizing s with
  | nil => exact ⟨h, rfl⟩
  | cons k ks ih =>
    have hk0 : k.length = 16 := hk k (by simp)
    have hl : (xorBytes (aesMix [2, 3, 1, 1] (cipherHalf s)) k).length = 16 := by simp [hk0]
    obtain ⟨h1, h2⟩ := ih (fun x hx => hk x (by simp [hx])) hl
    refine ⟨h1, ?_⟩
    rw [List.foldl_cons, List.reverse_cons, List.foldl_append, h2, List.foldl_cons, List.foldl_nil, cipherHalf_inv hl,
      xorBytes_cancel (by simp [hk0]), aesMix_inv (cipherHalf_length s)]

/-- Round keys as the cipher needs them: at least two, each of 16 bytes. -/
def aesKeysOk (keys : List (List Byte)) : Prop := 2 ≤ keys.length ∧ ∀ k ∈ keys, k.length = 16

/-- The inverse cipher undoes the cipher. -/
theorem aesDecrypt_encrypt {keys : List (List Byte)} (hk : aesKeysOk keys) {b : List Byte} (hb : b.length = 16) :
    (aesEncrypt keys b).length = 16 ∧ aesDecrypt keys (aesEncrypt keys b) = b := by
  obtain ⟨h2, h16⟩ := hk
  obtain ⟨k0, rest, rfl⟩ : ∃ k0 rest, keys = k0 :: rest := by
    cases keys with
    | nil => simp at h2
    | cons a l => exact ⟨a, l, rfl⟩
  obtain ⟨ks, kn, rfl⟩ : ∃ ks kn, rest = ks ++ [kn] := by
    have hr : rest ≠ [] := by rintro rfl; simp at h2
    exact ⟨rest.dropLast, rest.getLast hr, (List.dropLast_append_getLast hr).symm⟩
  have h0 : k0.length = 16 := h16 _ (by simp)
  have hn : kn.length = 16 := h16 _ (by simp)
  have hx : (xorBytes b k0).length = 16 := by simp [hb, h0]
  obtain ⟨hl, hi⟩ := aesRounds_inv (ks := ks) (fun k hk => h16 k (by simp [hk])) hx
  have he : aesEncrypt (k0 :: (ks ++ [kn])) b =
      xorBytes (cipherHalf (ks.foldl (fun s k => xorBytes (aesMix [2, 3, 1, 1] (cipherHalf s)) k) (xorBytes b k0))) kn := by
    have hg : (k0 :: (ks ++ [kn])).getLastD [] = kn := by
      rw [List.getLastD_eq_getLast?, ← List.cons_append, List.getLast?_concat]; rfl
    unfold aesEncrypt
    rw [hg]
    simp [cipherHalf]
  rw [he]
  refine ⟨by simp [hn], ?_⟩
  unfold aesDecrypt
  have hr : (k0 :: (ks ++ [kn])).reverse = kn :: (ks.reverse ++ [k0]) := by simp
  have hg : (kn :: (ks.reverse ++ [k0])).getLastD [] = k0 := by
    rw [List.getLastD_eq_getLast?, ← List.cons_append, List.getLast?_concat]; rfl
  have hd : ((kn :: (ks.reverse ++ [k0])).drop 1).dropLast = ks.reverse := by simp
  simp only [hr, hg, hd, List.headD_cons]
  rw [xorBytes_cancel (by simp [hn]), hi, cipherHalf_inv hx, xorBytes_cancel (by simp [hb, h0])]

/-! ### The round keys -/

theorem aesExpand_ok (k : Nat) (hk : 0 < k) (n i : Nat) (rc : Byte) (ws : List (List Byte)) (hw : k ≤ ws.length) (h4 : ∀ w ∈ ws, w.length = 4) :
    (aesExpand k n i rc ws).length = ws.length + n ∧ ∀ w ∈ aesExpand k n i rc ws, w.length = 4 := by
  induction n generalizing i rc ws with
  | zero => exact ⟨rfl, h4⟩
  | succ n ih =>
    have ht : (ws.headD []).length = 4 := by
      cases ws with
      | nil => simp at hw; omega
      | cons a l => exact h4 a (by simp)
    have ho : (ws.getD (k - 1) []).length = 4 := by
      have hlt : k - 1 < ws.length := by omega
      rw [List.getD_eq_getElem _ _ hlt]
      exact h4 _ (List.getElem_mem hlt)
    have step : ∀ (i : Nat) (rc : Byte) (x : List Byte), x.length = 4 →
        (aesExpand k n i rc (x :: ws)).length = ws.length + (n + 1) ∧ ∀ w ∈ aesExpand k n i rc (x :: ws), w.length = 4 := by
      intro i rc x hx
      obtain ⟨a, b⟩ := ih i rc (x :: ws) (by simp; omega) (by
        intro w hm
        rcases List.mem_cons.mp hm with rfl | hm
        · exact hx
        · exact h4 w hm)
      exact ⟨by rw [a]; simp; omega, b⟩
    have hr : ((ws.headD []).rotateLeft 1).length = 4 := by
      match ws.headD [], ht with
      | [a, b, c, d], _ => rfl
    simp only [aesExpand]
    split
    · exact step _ _ _ (by simp only [xorBytes_length, List.length_map, ho, hr, List.length_cons, List.length_nil]; decide)
    · split
      · exact step _ _ _ (by simp only [xorBytes_length, List.length_map, ho, ht]; decide)
      · exact step _ _ _ (by simp only [xorBytes_length, ho, ht]; decide)

theorem chunksOf_ok {α : Type} (n : Nat) (hn : 0 < n) (m : Nat) (l : List α) (h : l.length = n * m) :
    (chunksOf n m l).length = m ∧ (chunksOf n m l).flatten = l ∧ ∀ c ∈ chunksOf n m l, c.length = n ∧ ∀ x ∈ c, x ∈ l := by
  induction m generalizing l with
  | zero => simp at h; simp [chunksOf, h]
  | succ m ih =>
    have hl : l.isEmpty = false := by
      cases l with
      | nil => simp at h; omega
      | cons a t => rfl
    have hd : (l.drop n).length = n * m := by
      simp [h, Nat.mul_succ]
    obtain ⟨a, b, c⟩ := ih (l.drop n) hd
    simp only [chunksOf, hl, Bool.false_eq_true, if_false, List.length_cons, a, List.flatten_cons, b, List.take_append_drop, true_and]
    intro x hx
    rcases List.mem_cons.mp hx with rfl | hx
    · exact ⟨by simp [h, Nat.mul_succ], fun y hy => List.mem_of_mem_take hy⟩
    · exact ⟨(c x hx).1, fun y hy => List.mem_of_mem_drop ((c x hx).2 y hy)⟩

theorem aesKeys_ok {key : List Byte} (h : key.length = 32) : aesKeysOk (aesKeys key) := by
  have hc := chunksOf_ok 4 (by decide) 8 key (by rw [h])
  have he := aesExpand_ok 8 (by decide) 52 8 1 (chunksOf 4 8 key).reverse (by simp [hc.1]) (fun w hw => (hc.2.2 w (by simpa using hw)).1)
  have hk := chunksOf_ok 4 (by decide) 15 (aesExpand 8 52 8 1 (chunksOf 4 8 key).reverse).reverse (by
    rw [List.length_reverse, he.1, List.length_reverse, hc.1])
  unfold aesKeysOk aesKeys
  simp only [h]
  norm_num
  refine ⟨by rw [hk.1]; omega, fun c hm => ?_⟩
  obtain ⟨h1, h2⟩ := hk.2.2 c hm
  match c, h1 with
  | [w, x, y, z], _ =>
    have := he.2 w (by simpa using h2 w (by simp))
    have := he.2 x (by simpa using h2 x (by simp))
    have := he.2 y (by simpa using h2 y (by simp))
    have := he.2 z (by simpa using h2 z (by simp))
    simp [*]

/-! ### Key wrap -/

/-- The shape of the two registers of a wrapping of n blocks. -/
def wrapOk (n : Nat) (acc : List Byte × List (List Byte)) : Prop := acc.1.length = 8 ∧ acc.2.length = n ∧ ∀ r ∈ acc.2, r.length = 8

theorem unwrapStep_wrapStep {keys : List (List Byte)} (hk : aesKeysOk keys) {n : Nat} (hn : 0 < n) {acc : List Byte × List (List Byte)} (t : Nat)
    (h : wrapOk n acc) : wrapOk n (wrapStep keys n acc t) ∧ unwrapStep keys n (wrapStep keys n acc t) t = acc := by
  obtain ⟨a, r⟩ := acc
  obtain ⟨ha, hr, h8⟩ := h
  simp only at ha hr h8
  have hi : (t - 1) % n < r.length := by rw [hr]; exact Nat.mod_lt _ hn
  have hl : (r.getD ((t - 1) % n) []).length = 8 := by rw [List.getD_eq_getElem _ _ hi]; exact h8 _ (List.getElem_mem hi)
  have hset : r.set ((t - 1) % n) (r.getD ((t - 1) % n) []) = r := by rw [List.getD_eq_getElem _ _ hi]; exact List.set_getElem_self hi
  have hbe : (beBytes 8 t).length = 8 := by simp only [beBytes, List.length_map, List.length_range]
  unfold wrapStep unwrapStep wrapOk
  simp only
  generalize hx : r.getD ((t - 1) % n) [] = x at *
  generalize hj : (t - 1) % n = j at *
  obtain ⟨e1, e2⟩ := aesDecrypt_encrypt hk (b := a ++ x) (by simp only [List.length_append, ha, hl])
  generalize aesEncrypt keys (a ++ x) = e at *
  have hs : (r.set j (e.drop 8)).getD j [] = e.drop 8 := by rw [List.getD_eq_getElem _ _ (by simpa using hi)]; simp
  refine ⟨⟨by simp [e1, hbe], by simp [hr], fun y hy => ?_⟩, ?_⟩
  · rcases List.mem_or_eq_of_mem_set hy with hy | rfl
    · exact h8 y hy
    · simp [e1]
  · rw [xorBytes_cancel (by simp [e1, hbe]), hs, List.take_append_drop, e2, List.set_set, List.take_append_of_le_length (by omega),
      List.take_of_length_le (by omega), List.drop_append_of_le_length (by omega), List.drop_of_length_le (by omega), List.nil_append, hset]

theorem unwrap_wrap {keys : List (List Byte)} (hk : aesKeysOk keys) {n : Nat} (hn : 0 < n) (ts : List Nat) {acc : List Byte × List (List Byte)}
    (h : wrapOk n acc) : wrapOk n (ts.foldl (wrapStep keys n) acc) ∧
      ts.reverse.foldl (unwrapStep keys n) (ts.foldl (wrapStep keys n) acc) = acc := by
  induction ts generalizing acc with
  | nil => exact ⟨h, rfl⟩
  | cons t ts ih =>
    obtain ⟨a, b⟩ := unwrapStep_wrapStep hk hn t h
    obtain ⟨c, d⟩ := ih a
    refine ⟨c, ?_⟩
    rw [List.foldl_cons, List.reverse_cons, List.foldl_append, d, List.foldl_cons, List.foldl_nil, b]

theorem chunksOf_flatten {α : Type} (n : Nat) (hn : 0 < n) (rs : List (List α)) (h : ∀ r ∈ rs, r.length = n) :
    chunksOf n rs.length rs.flatten = rs := by
  induction rs with
  | nil => rfl
  | cons r rs ih =>
    have hr := h r (by simp)
    have hne : (r ++ rs.flatten).isEmpty = false := by
      cases r with
      | nil => simp at hr; omega
      | cons a t => rfl
    simp only [List.length_cons, chunksOf, List.flatten_cons, hne, Bool.false_eq_true, if_false]
    rw [List.take_append_of_le_length (by omega), List.drop_append_of_le_length (by omega), List.take_of_length_le (by omega),
      List.drop_of_length_le (by omega), List.nil_append, ih (fun x hx => h x (by simp [hx]))]

/-- What AES Key Wrap wraps unwraps, under a storage key of 32 bytes. -/
theorem keyUnwrap_wrap {kek key : List Byte} (hk : kek.length = 32) (n : Nat) (hn : 0 < n) (h : key.length = 8 * n) :
    (keyWrap kek key).length = 8 * (n + 1) ∧ keyUnwrap kek (keyWrap kek key) = some key := by
  have hc := chunksOf_ok 8 (by decide) n key h
  have hd : key.length / 8 = n := by omega
  have hw : wrapOk n (List.replicate 8 (0xA6 : Byte), chunksOf 8 n key) := ⟨by simp, hc.1, fun r hr => (hc.2.2 r hr).1⟩
  obtain ⟨⟨h1, h2, h3⟩, h4⟩ := unwrap_wrap (aesKeys_ok hk) hn ((List.range (6 * n)).map (· + 1)) hw
  have hf : ∀ rs : List (List Byte), (∀ r ∈ rs, r.length = 8) → rs.flatten.length = 8 * rs.length := by
    intro rs hrs
    induction rs with
    | nil => rfl
    | cons r rs ih => simp [ih (fun x hx => hrs x (by simp [hx])), hrs r (by simp)]; omega
  have hlen : (keyWrap kek key).length = 8 * (n + 1) := by
    unfold keyWrap
    simp only [hd, List.length_append, hf _ h3, h1, h2]; omega
  refine ⟨hlen, ?_⟩
  have hn1 : (keyWrap kek key).length / 8 - 1 = n := by rw [hlen]; omega
  unfold keyUnwrap
  simp only [hn1]
  have ht : (keyWrap kek key).take 8 = (((List.range (6 * n)).map (· + 1)).foldl (wrapStep (aesKeys kek) n)
      (List.replicate 8 0xA6, chunksOf 8 n key)).1 := by
    unfold keyWrap; simp only [hd]
    rw [List.take_append_of_le_length (by omega), List.take_of_length_le (by omega)]
  have hr : chunksOf 8 n ((keyWrap kek key).drop 8) = (((List.range (6 * n)).map (· + 1)).foldl (wrapStep (aesKeys kek) n)
      (List.replicate 8 0xA6, chunksOf 8 n key)).2 := by
    unfold keyWrap; simp only [hd]
    rw [List.drop_append_of_le_length (by omega), List.drop_of_length_le (by omega), List.nil_append]
    refine Eq.trans ?_ (chunksOf_flatten 8 (by decide) _ h3)
    rw [h2]
  rw [ht, hr, Prod.mk.eta, h4]
  simp [hc.2.1]

end Sys2Proof.Machine
end

