-- ==== Sys2Proof/Laws/Table.lean ====
section
/-! SUPPORT. The laws of sparse tables: what is read after a write, and that a write keeps the canonical form. -/

namespace Sys2Proof.Machine

variable {α : Type}

theorem Table.get_erase_same (d : α) (t : Table α) (k : Nat) : Table.get d (Table.erase t k) k = d := by
  induction t with
  | nil => rfl
  | cons e t ih =>
    obtain ⟨j, v⟩ := e
    by_cases h : j = k <;> simp [Table.erase, Table.get, h, ih]

theorem Table.get_erase_other (d : α) (t : Table α) {k k' : Nat} (hk : k' ≠ k) :
    Table.get d (Table.erase t k) k' = Table.get d t k' := by
  induction t with
  | nil => rfl
  | cons e t ih =>
    obtain ⟨j, v⟩ := e
    by_cases h : j = k
    · simp [Table.erase, Table.get, h, ih, Ne.symm hk]
    · simp [Table.erase, Table.get, h, ih]

theorem Table.get_insert_same (d : α) (t : Table α) (k : Nat) (v : α) :
    Table.get d (Table.insert (Table.erase t k) k v) k = v := by
  induction t with
  | nil => simp [Table.erase, Table.insert, Table.get]
  | cons e t ih =>
    obtain ⟨j, w⟩ := e
    by_cases h : j = k
    · simp [Table.erase, h, ih]
    · by_cases h2 : k < j <;> simp [Table.erase, Table.insert, Table.get, h, h2, ih]

theorem Table.get_insert_other (d : α) (t : Table α) {k k' : Nat} (v : α) (hk : k' ≠ k) :
    Table.get d (Table.insert t k v) k' = Table.get d t k' := by
  induction t with
  | nil => simp [Table.insert, Table.get, Ne.symm hk]
  | cons e t ih =>
    obtain ⟨j, w⟩ := e
    by_cases h2 : k < j <;> simp [Table.insert, Table.get, h2, ih, Ne.symm hk]

variable [DecidableEq α]

/-- The number that was written reads the value. -/
@[simp] theorem Table.get_set_same (d : α) (t : Table α) (k : Nat) (v : α) : Table.get d (Table.set d t k v) k = v := by
  unfold Table.set
  split
  · simp [Table.get_erase_same, *]
  · exact Table.get_insert_same d t k v

/-- Every other number reads as before. -/
theorem Table.get_set_other (d : α) (t : Table α) {k k' : Nat} (v : α) (hk : k' ≠ k) :
    Table.get d (Table.set d t k v) k' = Table.get d t k' := by
  unfold Table.set
  split
  · exact Table.get_erase_other d t hk
  · rw [Table.get_insert_other d _ v hk, Table.get_erase_other d t hk]

/-- What a number reads after a write. -/
theorem Table.get_set (d : α) (t : Table α) (k k' : Nat) (v : α) :
    Table.get d (Table.set d t k v) k' = if k' = k then v else Table.get d t k' := by
  by_cases h : k' = k
  · subst h; simp
  · simp [h, Table.get_set_other d t v h]

/-- Where the default differs from number to number: every other number reads as before. -/
theorem Table.get_set_other' (d d' : α) (t : Table α) {k k' : Nat} (v : α) (hk : k' ≠ k) :
    Table.get d' (Table.set d t k v) k' = Table.get d' t k' := by
  unfold Table.set
  split
  · exact Table.get_erase_other d' t hk
  · rw [Table.get_insert_other d' _ v hk, Table.get_erase_other d' t hk]

@[simp] theorem Table.get_modify_same (d : α) (t : Table α) (k : Nat) (f : α → α) :
    Table.get d (Table.modify d t k f) k = f (Table.get d t k) := by simp [Table.modify]

theorem Table.get_modify_other (d : α) (t : Table α) {k k' : Nat} (f : α → α) (hk : k' ≠ k) :
    Table.get d (Table.modify d t k f) k' = Table.get d t k' := by simp [Table.modify, Table.get_set_other d t _ hk]

/-! ### The canonical form -/

/-- All numbers of a table lie above a bound. -/
def Table.above (lo : Nat) (t : Table α) : Prop := ∀ e ∈ t, lo < e.1

omit [DecidableEq α] in
theorem Table.rising_some {lo : Nat} {t : Table α} : Table.rising (some lo) t = true ↔ Table.rising none t = true ∧ Table.above lo t := by
  induction t generalizing lo with
  | nil => simp [Table.rising, Table.above]
  | cons e t ih =>
    obtain ⟨k, v⟩ := e
    simp only [Table.rising, Bool.and_eq_true, decide_eq_true_eq, ih, Table.above, List.mem_cons, forall_eq_or_imp]
    constructor
    · rintro ⟨h1, h2, h3⟩
      exact ⟨⟨h2, h3⟩, h1, fun e he => lt_trans h1 (h3 e he)⟩
    · rintro ⟨⟨h2, h3⟩, h1, -⟩
      exact ⟨h1, h2, h3⟩

omit [DecidableEq α] in
theorem Table.rising_cons {k : Nat} {v : α} {t : Table α} :
    Table.rising none ((k, v) :: t) = true ↔ Table.rising none t = true ∧ Table.above k t := by
  simp only [Table.rising, Table.rising_some]

omit [DecidableEq α] in
theorem Table.mem_erase {t : Table α} {k : Nat} {e : Nat × α} : e ∈ Table.erase t k → e ∈ t ∧ e.1 ≠ k := by
  induction t with
  | nil => simp [Table.erase]
  | cons f t ih =>
    obtain ⟨j, v⟩ := f
    by_cases h : j = k
    · simp only [Table.erase, h, if_true]
      intro he
      exact ⟨List.mem_cons_of_mem _ (ih he).1, (ih he).2⟩
    · simp only [Table.erase, h, if_false, List.mem_cons]
      rintro (rfl | he)
      · exact ⟨Or.inl rfl, h⟩
      · exact ⟨Or.inr (ih he).1, (ih he).2⟩

omit [DecidableEq α] in
theorem Table.mem_insert {t : Table α} {k : Nat} {v : α} {e : Nat × α} :
    e ∈ Table.insert t k v → e = (k, v) ∨ e ∈ t := by
  induction t with
  | nil => simp [Table.insert]
  | cons f t ih =>
    obtain ⟨j, w⟩ := f
    by_cases h : k < j
    · simp [Table.insert, h]
    · simp only [Table.insert, h, if_false, List.mem_cons]
      rintro (rfl | he)
      · exact Or.inr (Or.inl rfl)
      · rcases ih he with h1 | h1
        · exact Or.inl h1
        · exact Or.inr (Or.inr h1)

omit [DecidableEq α] in
theorem Table.rising_erase {t : Table α} (k : Nat) (h : Table.rising none t = true) : Table.rising none (Table.erase t k) = true := by
  induction t with
  | nil => rfl
  | cons f t ih =>
    obtain ⟨j, v⟩ := f
    rw [Table.rising_cons] at h
    by_cases hj : j = k
    · simpa [Table.erase, hj] using ih h.1
    · simp only [Table.erase, hj, if_false, Table.rising_cons]
      exact ⟨ih h.1, fun e he => h.2 e (Table.mem_erase he).1⟩

omit [DecidableEq α] in
theorem Table.rising_insert {t : Table α} (k : Nat) (v : α) (h : Table.rising none t = true) (hk : ∀ e ∈ t, e.1 ≠ k) :
    Table.rising none (Table.insert t k v) = true := by
  induction t with
  | nil => rfl
  | cons f t ih =>
    obtain ⟨j, w⟩ := f
    have h' := h
    rw [Table.rising_cons] at h
    by_cases hj : k < j
    · simp only [Table.insert, hj, if_true, Table.rising_cons (k := k)]
      refine ⟨h', ?_⟩
      intro e he
      rcases List.mem_cons.mp he with rfl | he
      · exact hj
      · exact lt_trans hj (h.2 e he)
    · simp only [Table.insert, hj, if_false, Table.rising_cons]
      refine ⟨ih h.1 (fun e he => hk e (List.mem_cons_of_mem _ he)), ?_⟩
      intro e he
      rcases Table.mem_insert he with rfl | he
      · have := hk (j, w) (List.mem_cons_self ..)
        simp only at this
        simp only
        omega
      · exact h.2 e he

/-- A write keeps the canonical form. -/
theorem Table.wf_set {d : Nat → α} {t : Table α} (k : Nat) (v : α) (h : Table.wf d t = true) :
    Table.wf d (Table.set (d k) t k v) = true := by
  simp only [Table.wf, Bool.and_eq_true, List.all_eq_true, decide_eq_true_eq] at h ⊢
  unfold Table.set
  split
  · exact ⟨Table.rising_erase k h.1, fun e he => h.2 e (Table.mem_erase he).1⟩
  · rename_i hv
    refine ⟨Table.rising_insert k v (Table.rising_erase k h.1) (fun e he => (Table.mem_erase he).2), ?_⟩
    intro e he
    rcases Table.mem_insert he with rfl | he
    · exact hv
    · exact h.2 e (Table.mem_erase he).1

/-- A part of a table picked by number keeps the canonical form. -/
theorem Table.wf_filter {d : Nat → α} {t : Table α} (p : Nat × α → Bool) (h : Table.wf d t = true) : Table.wf d (t.filter p) = true := by
  simp only [Table.wf, Bool.and_eq_true, List.all_eq_true, decide_eq_true_eq] at h ⊢
  refine ⟨?_, fun e he => h.2 e (List.mem_filter.mp he).1⟩
  have h1 := h.1
  clear h
  induction t with
  | nil => rfl
  | cons f t ih =>
    obtain ⟨j, w⟩ := f
    rw [Table.rising_cons] at h1
    by_cases hp : p (j, w) = true
    · rw [List.filter_cons_of_pos hp, Table.rising_cons]
      exact ⟨ih h1.1, fun e he => h1.2 e (List.mem_filter.mp he).1⟩
    · rw [List.filter_cons_of_neg hp]
      exact ih h1.1

theorem Table.wf_nil (d : Nat → α) : Table.wf d ([] : Table α) = true := rfl

end Sys2Proof.Machine
end

