-- ==== Sys2Proof/Laws/Regs.lean ====
section
/-! SUPPORT. The laws of registers and their fields: a field reads what was put into it, and every other field and register reads as before. -/

namespace Sys2Proof.Machine

open Sys2Proof

/-! ### Words and fields -/

/-- A field description that names bits of a 64-bit register. -/
def Fld.ok (f : Fld) : Bool := decide (f.lo ≤ f.hi) && decide (f.hi < 64)

/-- Two fields without a common bit. -/
def Fld.apart (f g : Fld) : Bool := decide (f.hi < g.lo) || decide (g.hi < f.lo)

theorem Fld.width_pos {f : Fld} (h : f.ok = true) : 0 < f.width := by
  simp only [Fld.ok, Bool.and_eq_true, decide_eq_true_eq] at h
  unfold Fld.width; omega

theorem Fld.of_eq (f : Fld) (w : Word) : f.of w = (w.toNat >>> f.lo) % 2 ^ f.width := by
  rw [Fld.of, Nat.shiftRight_eq_div_pow]

/-- Bit i of a field. -/
theorem Fld.of_testBit (f : Fld) (w : Word) (i : Nat) : (f.of w).testBit i = (decide (i < f.width) && w.getLsbD (f.lo + i)) := by
  rw [Fld.of_eq, Nat.testBit_mod_two_pow, Nat.testBit_shiftRight]
  rfl

theorem Fld.mask_getLsbD (f : Fld) (h : f.ok = true) (i : Nat) : f.mask.getLsbD i = (decide (f.lo ≤ i) && decide (i ≤ f.hi)) := by
  simp only [Fld.ok, Bool.and_eq_true, decide_eq_true_eq] at h
  unfold Fld.mask Fld.width
  rw [BitVec.getLsbD_ofNat, ← Nat.shiftLeft_eq, Nat.testBit_shiftLeft, Nat.testBit_two_pow_sub_one]
  by_cases h1 : f.lo ≤ i <;> by_cases h2 : i ≤ f.hi <;> simp [h1, h2] <;> omega

theorem Fld.put_getLsbD (f : Fld) (h : f.ok = true) (v : Nat) (w : Word) (i : Nat) :
    (f.put v w).getLsbD i =
      if f.lo ≤ i ∧ i ≤ f.hi then v.testBit (i - f.lo) else w.getLsbD i := by
  have hm := Fld.mask_getLsbD f h i
  simp only [Fld.ok, Bool.and_eq_true, decide_eq_true_eq] at h
  unfold Fld.put
  rw [BitVec.getLsbD_or, BitVec.getLsbD_and, BitVec.getLsbD_not, hm, BitVec.getLsbD_ofNat, ← Nat.shiftLeft_eq, Nat.testBit_shiftLeft,
    Nat.testBit_mod_two_pow]
  unfold Fld.width
  by_cases h1 : f.lo ≤ i
  · by_cases h2 : i ≤ f.hi
    · have h3 : i < 64 := by omega
      have h4 : i - f.lo < f.hi + 1 - f.lo := by omega
      simp [h1, h2, h3, h4]
    · have h4 : ¬ (i - f.lo < f.hi + 1 - f.lo) := by omega
      by_cases h3 : i < 64
      · simp [h1, h2, h3, h4]
      · have : w.getLsbD i = false := BitVec.getLsbD_of_ge w i (by omega)
        simp [h1, h2, h3, this]
  · by_cases h3 : i < 64
    · simp [h1, h3]
    · have : w.getLsbD i = false := BitVec.getLsbD_of_ge w i (by omega)
      simp [h1, h3, this]

/-- A field reads what was put into it. -/
theorem Fld.of_put (f : Fld) (h : f.ok = true) (v : Nat) (w : Word) : f.of (f.put v w) = v % 2 ^ f.width := by
  apply Nat.eq_of_testBit_eq
  intro i
  rw [Fld.of_testBit, Fld.put_getLsbD f h, Nat.testBit_mod_two_pow]
  simp only [Fld.ok, Bool.and_eq_true, decide_eq_true_eq] at h
  unfold Fld.width
  by_cases hi : i < f.hi + 1 - f.lo
  · have h1 : f.lo ≤ f.lo + i ∧ f.lo + i ≤ f.hi := by omega
    simp [hi, h1]
  · simp [hi]

/-- A field without a common bit reads as before. -/
theorem Fld.of_put_other (f g : Fld) (h : f.ok = true) (hg : g.ok = true) (hd : f.apart g = true) (v : Nat) (w : Word) :
    g.of (f.put v w) = g.of w := by
  apply Nat.eq_of_testBit_eq
  intro i
  rw [Fld.of_testBit, Fld.of_testBit, Fld.put_getLsbD f h]
  simp only [Fld.ok, Fld.apart, Bool.and_eq_true, Bool.or_eq_true, decide_eq_true_eq] at h hg hd
  unfold Fld.width
  by_cases hi : i < g.hi + 1 - g.lo
  · have h1 : ¬ (f.lo ≤ g.lo + i ∧ g.lo + i ≤ f.hi) := by omega
    simp [h1]
  · simp [hi]

theorem Fld.of_lt (f : Fld) (w : Word) : f.of w < 2 ^ f.width := Nat.mod_lt _ (Nat.two_pow_pos _)

/-! ### Registers -/

/-- The register that was written reads the value. -/
@[simp] theorem State.reg_setReg_same (s : State) (k : Nat) (v : Word) : (s.setReg k v).reg k = v := by
  simp [State.reg, State.setReg]

/-- Every other register reads as before. -/
theorem State.reg_setReg_other (s : State) {k k' : Nat} (v : Word) (h : k' ≠ k) : (s.setReg k v).reg k' = s.reg k' := by
  simp [State.reg, State.setReg, Table.get_set_other' _ _ _ _ h]

/-- A field of a register reads what was put into it. -/
theorem State.f_setF_same (s : State) (fld : Fld) (v : Nat) (h : fld.ok = true) : (s.setF fld v).f fld = v % 2 ^ fld.width := by
  simp [State.f, State.setF, Fld.of_put fld h]

/-- Another field of the same register reads as before. -/
theorem State.f_setF_apart (s : State) (fld g : Fld) (v : Nat) (h : fld.ok = true) (hg : g.ok = true) (hk : g.key = fld.key)
    (hd : fld.apart g = true) : (s.setF fld v).f g = s.f g := by
  simp [State.f, State.setF, hk, Fld.of_put_other fld g h hg hd]

/-- A field of another register reads as before. -/
theorem State.f_setF_other (s : State) (fld g : Fld) (v : Nat) (hk : g.key ≠ fld.key) : (s.setF fld v).f g = s.f g := by
  simp [State.f, State.setF, State.reg_setReg_other s _ hk]

/-- A flag that is raised reads 1. -/
theorem State.on_raise (s : State) (fld : Fld) (h : fld.ok = true) : (s.raise fld).on fld = true := by
  have hw := Fld.width_pos h
  have h1 : 1 < 2 ^ fld.width := Nat.one_lt_two_pow (by omega)
  simp [State.on, State.raise, State.f_setF_same s fld 1 h, Nat.mod_eq_of_lt h1]

/-- The registers' own form: every write of a register keeps the file canonical. -/
theorem State.regs_wf_setReg (s : State) (k : Nat) (v : Word) (h : Table.wf resetOf s.regs = true) :
    Table.wf resetOf (s.setReg k v).regs = true := Table.wf_set k v h

theorem State.regs_wf_setF (s : State) (fld : Fld) (v : Nat) (h : Table.wf resetOf s.regs = true) :
    Table.wf resetOf (s.setF fld v).regs = true := State.regs_wf_setReg s _ _ h

end Sys2Proof.Machine
end

