-- ==== Sys2Proof/Laws/Memory.lean ====
section
/-! SUPPORT. The laws of stored memory: read after write, and that every operation keeps the canonical form. -/

namespace Sys2Proof.Machine

open Sys2Proof

/-- The byte that was written is read. -/
@[simp] theorem Memory.read_write_same (m : Memory) (a : Nat) (b : Byte) : Memory.read (Memory.write m a b) a = b :=
  Table.get_set_same 0 m a b

/-- Every other byte reads as before. -/
theorem Memory.read_write_other (m : Memory) {a a' : Nat} (b : Byte) (h : a' ≠ a) :
    Memory.read (Memory.write m a b) a' = Memory.read m a' := Table.get_set_other 0 m b h

/-- A write keeps the canonical form. -/
theorem Memory.wf_write {m : Memory} (a : Nat) (b : Byte) (h : Memory.wf m = true) : Memory.wf (Memory.write m a b) = true :=
  Table.wf_set (d := fun _ => (0 : Byte)) a b h

/-- Writes one after another keep it. -/
theorem Memory.wf_foldl_write {β : Type} (l : List β) (at_ : β → Nat) (byte : β → Byte) {m : Memory} (h : Memory.wf m = true) :
    Memory.wf (l.foldl (fun acc x => Memory.write acc (at_ x) (byte x)) m) = true := by
  induction l generalizing m with
  | nil => exact h
  | cons x l ih => exact ih (Memory.wf_write _ _ h)

/-- Writing a line keeps it. -/
theorem Memory.wf_writeLine {m : Memory} (a : Nat) (d : Line) (h : Memory.wf m = true) : Memory.wf (Memory.writeLine m a d) = true :=
  Memory.wf_foldl_write (List.range 64) (fun i => a + i) (fun i => lineByte d i) h

/-- The copy of a resilver keeps it. -/
theorem Memory.wf_copyCells {m : Memory} (src dst n : Nat) (h : Memory.wf m = true) : Memory.wf (copyCells m src dst n) = true :=
  Memory.wf_foldl_write _ (fun (c : Nat × Byte) => c.1 - src * 2 ^ 41 + dst * 2 ^ 41) (fun (c : Nat × Byte) => c.2) (Table.wf_filter _ h)

/-- Memory at reset has the form. -/
theorem Memory.wf_reset : Memory.wf State.reset.dram = true := rfl

/-- Bytes outside a run of writes read as before. -/
theorem Memory.read_foldl_other {β : Type} (l : List β) (at_ : β → Nat) (byte : β → Byte) (m : Memory) {a : Nat} (h : ∀ x ∈ l, a ≠ at_ x) :
    Memory.read (l.foldl (fun acc x => Memory.write acc (at_ x) (byte x)) m) a = Memory.read m a := by
  induction l generalizing m with
  | nil => rfl
  | cons x l ih =>
    rw [List.foldl_cons, ih _ (fun y hy => h y (List.mem_cons_of_mem _ hy)),
      Memory.read_write_other m _ (h x (List.mem_cons_self ..))]

/-- Bytes outside a written line read as before. -/
theorem Memory.read_writeLine_other (m : Memory) (a : Nat) (d : Line) {b : Nat} (h : b < a ∨ a + 64 ≤ b) :
    Memory.read (Memory.writeLine m a d) b = Memory.read m b := by
  refine Memory.read_foldl_other (List.range 64) (fun i => a + i) (fun i => lineByte d i) m (fun x hx => ?_)
  have := List.mem_range.mp hx
  omega

/-- Byte i of a written line is read. -/
theorem Memory.read_writeLine_same (m : Memory) (a : Nat) (d : Line) {i : Nat} (h : i < 64) :
    Memory.read (Memory.writeLine m a d) (a + i) = lineByte d i := by
  have key : ∀ n, i < n → ∀ m : Memory,
      Memory.read ((List.range n).foldl (fun acc j => Memory.write acc (a + j) (lineByte d j)) m) (a + i) = lineByte d i := by
    intro n
    induction n with
    | zero => intro hn; omega
    | succ n ih =>
      intro hn m
      rw [List.range_succ, List.foldl_append, List.foldl_cons, List.foldl_nil]
      by_cases hi : i = n
      · subst hi; simp
      · rw [Memory.read_write_other _ _ (by omega), ih (by omega)]
  exact key 64 h m

/-- The store of a line keeps the form of DRAM. -/
theorem State.dram_wf_storeLine (s : State) (k l : Nat) (d : Line) (c : BitVec 128) (h : Memory.wf s.dram = true) :
    Memory.wf (s.storeLine k l d c).dram = true := by
  unfold State.storeLine
  exact Memory.wf_writeLine _ _ h

/-- The store of data or of poison keeps it. -/
theorem State.dram_wf_storeData (s : State) (k l : Nat) (d : Line) (p : Bool) (h : Memory.wf s.dram = true) :
    Memory.wf (s.storeData k l d p).dram = true := by
  unfold State.storeData
  split <;> exact State.dram_wf_storeLine s k l _ _ h

end Sys2Proof.Machine
end

