-- ==== Sys2Proof/Laws/State.lean ====
section
/-! SUPPORT. What each update of State leaves as it was: one lemma for each field and update. -/

namespace Sys2Proof.Machine

open Sys2Proof

variable (s : State)

/-! ### setReg -/

@[simp] theorem State.setReg_pending (k : Nat) (v : Word) : (s.setReg k v).pending = s.pending := rfl
@[simp] theorem State.setReg_sent (k : Nat) (v : Word) : (s.setReg k v).sent = s.sent := rfl
@[simp] theorem State.setReg_free (k : Nat) (v : Word) : (s.setReg k v).free = s.free := rfl
@[simp] theorem State.setReg_posted (k : Nat) (v : Word) : (s.setReg k v).posted = s.posted := rfl
@[simp] theorem State.setReg_lateRow (k : Nat) (v : Word) : (s.setReg k v).lateRow = s.lateRow := rfl
@[simp] theorem State.setReg_tb (k : Nat) (v : Word) : (s.setReg k v).tb = s.tb := rfl
@[simp] theorem State.setReg_slots (k : Nat) (v : Word) : (s.setReg k v).slots = s.slots := rfl
@[simp] theorem State.setReg_waiting (k : Nat) (v : Word) : (s.setReg k v).waiting = s.waiting := rfl
@[simp] theorem State.setReg_dirty (k : Nat) (v : Word) : (s.setReg k v).dirty = s.dirty := rfl
@[simp] theorem State.setReg_released (k : Nat) (v : Word) : (s.setReg k v).released = s.released := rfl
@[simp] theorem State.setReg_logQueue (k : Nat) (v : Word) : (s.setReg k v).logQueue = s.logQueue := rfl
@[simp] theorem State.setReg_lockFrom (k : Nat) (v : Word) : (s.setReg k v).lockFrom = s.lockFrom := rfl
@[simp] theorem State.setReg_stopped (k : Nat) (v : Word) : (s.setReg k v).stopped = s.stopped := rfl
@[simp] theorem State.setReg_deadDies (k : Nat) (v : Word) : (s.setReg k v).deadDies = s.deadDies := rfl
@[simp] theorem State.setReg_off (k : Nat) (v : Word) : (s.setReg k v).off = s.off := rfl
@[simp] theorem State.setReg_mainEn (k : Nat) (v : Word) : (s.setReg k v).mainEn = s.mainEn := rfl
@[simp] theorem State.setReg_mainPg (k : Nat) (v : Word) : (s.setReg k v).mainPg = s.mainPg := rfl
@[simp] theorem State.setReg_bootAt (k : Nat) (v : Word) : (s.setReg k v).bootAt = s.bootAt := rfl
@[simp] theorem State.setReg_heldReqs (k : Nat) (v : Word) : (s.setReg k v).heldReqs = s.heldReqs := rfl
@[simp] theorem State.setReg_harts (k : Nat) (v : Word) : (s.setReg k v).harts = s.harts := rfl
@[simp] theorem State.setReg_cores (k : Nat) (v : Word) : (s.setReg k v).cores = s.cores := rfl
@[simp] theorem State.setReg_hb (k : Nat) (v : Word) : (s.setReg k v).hb = s.hb := rfl
@[simp] theorem State.setReg_thermtrip (k : Nat) (v : Word) : (s.setReg k v).thermtrip = s.thermtrip := rfl
@[simp] theorem State.setReg_tiles (k : Nat) (v : Word) : (s.setReg k v).tiles = s.tiles := rfl
@[simp] theorem State.setReg_slices (k : Nat) (v : Word) : (s.setReg k v).slices = s.slices := rfl
@[simp] theorem State.setReg_curCopies (k : Nat) (v : Word) : (s.setReg k v).curCopies = s.curCopies := rfl
@[simp] theorem State.setReg_stuck (k : Nat) (v : Word) : (s.setReg k v).stuck = s.stuck := rfl
@[simp] theorem State.setReg_mesh (k : Nat) (v : Word) : (s.setReg k v).mesh = s.mesh := rfl
@[simp] theorem State.setReg_raw (k : Nat) (v : Word) : (s.setReg k v).raw = s.raw := rfl
@[simp] theorem State.setReg_dram (k : Nat) (v : Word) : (s.setReg k v).dram = s.dram := rfl
@[simp] theorem State.setReg_checks (k : Nat) (v : Word) : (s.setReg k v).checks = s.checks := rfl
@[simp] theorem State.setReg_channels (k : Nat) (v : Word) : (s.setReg k v).channels = s.channels := rfl
@[simp] theorem State.setReg_weights (k : Nat) (v : Word) : (s.setReg k v).weights = s.weights := rfl
@[simp] theorem State.setReg_fillStart (k : Nat) (v : Word) : (s.setReg k v).fillStart = s.fillStart := rfl
@[simp] theorem State.setReg_life (k : Nat) (v : Word) : (s.setReg k v).life = s.life := rfl
@[simp] theorem State.setReg_journal (k : Nat) (v : Word) : (s.setReg k v).journal = s.journal := rfl
@[simp] theorem State.setReg_seqNext (k : Nat) (v : Word) : (s.setReg k v).seqNext = s.seqNext := rfl
@[simp] theorem State.setReg_queues (k : Nat) (v : Word) : (s.setReg k v).queues = s.queues := rfl
@[simp] theorem State.setReg_reqs (k : Nat) (v : Word) : (s.setReg k v).reqs = s.reqs := rfl
@[simp] theorem State.setReg_reqNext (k : Nat) (v : Word) : (s.setReg k v).reqNext = s.reqNext := rfl
@[simp] theorem State.setReg_kept (k : Nat) (v : Word) : (s.setReg k v).kept = s.kept := rfl
@[simp] theorem State.setReg_reports (k : Nat) (v : Word) : (s.setReg k v).reports = s.reports := rfl
@[simp] theorem State.setReg_afterDone (k : Nat) (v : Word) : (s.setReg k v).afterDone = s.afterDone := rfl
@[simp] theorem State.setReg_pathBad (k : Nat) (v : Word) : (s.setReg k v).pathBad = s.pathBad := rfl
@[simp] theorem State.setReg_cto (k : Nat) (v : Word) : (s.setReg k v).cto = s.cto := rfl
@[simp] theorem State.setReg_frames (k : Nat) (v : Word) : (s.setReg k v).frames = s.frames := rfl
@[simp] theorem State.setReg_insts (k : Nat) (v : Word) : (s.setReg k v).insts = s.insts := rfl
@[simp] theorem State.setReg_buckets (k : Nat) (v : Word) : (s.setReg k v).buckets = s.buckets := rfl
@[simp] theorem State.setReg_bucketAt (k : Nat) (v : Word) : (s.setReg k v).bucketAt = s.bucketAt := rfl
@[simp] theorem State.setReg_lfsr (k : Nat) (v : Word) : (s.setReg k v).lfsr = s.lfsr := rfl
@[simp] theorem State.setReg_losses (k : Nat) (v : Word) : (s.setReg k v).losses = s.losses := rfl
@[simp] theorem State.setReg_lastQueue (k : Nat) (v : Word) : (s.setReg k v).lastQueue = s.lastQueue := rfl
@[simp] theorem State.setReg_grants (k : Nat) (v : Word) : (s.setReg k v).grants = s.grants := rfl
@[simp] theorem State.setReg_engines (k : Nat) (v : Word) : (s.setReg k v).engines = s.engines := rfl
@[simp] theorem State.setReg_rxSel (k : Nat) (v : Word) : (s.setReg k v).rxSel = s.rxSel := rfl
@[simp] theorem State.setReg_extCredit (k : Nat) (v : Word) : (s.setReg k v).extCredit = s.extCredit := rfl
@[simp] theorem State.setReg_selfTests (k : Nat) (v : Word) : (s.setReg k v).selfTests = s.selfTests := rfl
@[simp] theorem State.setReg_jobs (k : Nat) (v : Word) : (s.setReg k v).jobs = s.jobs := rfl
@[simp] theorem State.setReg_jobNext (k : Nat) (v : Word) : (s.setReg k v).jobNext = s.jobNext := rfl
@[simp] theorem State.setReg_keys (k : Nat) (v : Word) : (s.setReg k v).keys = s.keys := rfl
@[simp] theorem State.setReg_handleKey (k : Nat) (v : Word) : (s.setReg k v).handleKey = s.handleKey := rfl
@[simp] theorem State.setReg_boot (k : Nat) (v : Word) : (s.setReg k v).boot = s.boot := rfl
@[simp] theorem State.setReg_ports (k : Nat) (v : Word) : (s.setReg k v).ports = s.ports := rfl
@[simp] theorem State.setReg_laneSwap (k : Nat) (v : Word) : (s.setReg k v).laneSwap = s.laneSwap := rfl
@[simp] theorem State.setReg_blinks (k : Nat) (v : Word) : (s.setReg k v).blinks = s.blinks := rfl
@[simp] theorem State.setReg_blWaiting (k : Nat) (v : Word) : (s.setReg k v).blWaiting = s.blWaiting := rfl
@[simp] theorem State.setReg_peerSince (k : Nat) (v : Word) : (s.setReg k v).peerSince = s.peerSince := rfl
@[simp] theorem State.setReg_decoders (k : Nat) (v : Word) : (s.setReg k v).decoders = s.decoders := rfl
@[simp] theorem State.setReg_ep (k : Nat) (v : Word) : (s.setReg k v).ep = s.ep := rfl
@[simp] theorem State.setReg_vfs (k : Nat) (v : Word) : (s.setReg k v).vfs = s.vfs := rfl
@[simp] theorem State.setReg_intxPend (k : Nat) (v : Word) : (s.setReg k v).intxPend = s.intxPend := rfl
@[simp] theorem State.setReg_intxOn (k : Nat) (v : Word) : (s.setReg k v).intxOn = s.intxOn := rfl
@[simp] theorem State.setReg_standby (k : Nat) (v : Word) : (s.setReg k v).standby = s.standby := rfl
@[simp] theorem State.setReg_hostTries (k : Nat) (v : Word) : (s.setReg k v).hostTries = s.hostTries := rfl
@[simp] theorem State.setReg_col (k : Nat) (v : Word) : (s.setReg k v).col = s.col := rfl
@[simp] theorem State.setReg_svc (k : Nat) (v : Word) : (s.setReg k v).svc = s.svc := rfl
@[simp] theorem State.setReg_spareFuse (k : Nat) (v : Word) : (s.setReg k v).spareFuse = s.spareFuse := rfl
@[simp] theorem State.setReg_replicas (k : Nat) (v : Word) : (s.setReg k v).replicas = s.replicas := rfl
@[simp] theorem State.setReg_recoveries (k : Nat) (v : Word) : (s.setReg k v).recoveries = s.recoveries := rfl
@[simp] theorem State.setReg_writes (k : Nat) (v : Word) : (s.setReg k v).writes = s.writes := rfl
@[simp] theorem State.setReg_floorsDue (k : Nat) (v : Word) : (s.setReg k v).floorsDue = s.floorsDue := rfl
@[simp] theorem State.setReg_held (k : Nat) (v : Word) : (s.setReg k v).held = s.held := rfl

/-! ### setF -/

@[simp] theorem State.setF_pending (a : Fld) (v : Nat) : (s.setF a v).pending = s.pending := rfl
@[simp] theorem State.setF_sent (a : Fld) (v : Nat) : (s.setF a v).sent = s.sent := rfl
@[simp] theorem State.setF_free (a : Fld) (v : Nat) : (s.setF a v).free = s.free := rfl
@[simp] theorem State.setF_posted (a : Fld) (v : Nat) : (s.setF a v).posted = s.posted := rfl
@[simp] theorem State.setF_lateRow (a : Fld) (v : Nat) : (s.setF a v).lateRow = s.lateRow := rfl
@[simp] theorem State.setF_tb (a : Fld) (v : Nat) : (s.setF a v).tb = s.tb := rfl
@[simp] theorem State.setF_slots (a : Fld) (v : Nat) : (s.setF a v).slots = s.slots := rfl
@[simp] theorem State.setF_waiting (a : Fld) (v : Nat) : (s.setF a v).waiting = s.waiting := rfl
@[simp] theorem State.setF_dirty (a : Fld) (v : Nat) : (s.setF a v).dirty = s.dirty := rfl
@[simp] theorem State.setF_released (a : Fld) (v : Nat) : (s.setF a v).released = s.released := rfl
@[simp] theorem State.setF_logQueue (a : Fld) (v : Nat) : (s.setF a v).logQueue = s.logQueue := rfl
@[simp] theorem State.setF_lockFrom (a : Fld) (v : Nat) : (s.setF a v).lockFrom = s.lockFrom := rfl
@[simp] theorem State.setF_stopped (a : Fld) (v : Nat) : (s.setF a v).stopped = s.stopped := rfl
@[simp] theorem State.setF_deadDies (a : Fld) (v : Nat) : (s.setF a v).deadDies = s.deadDies := rfl
@[simp] theorem State.setF_off (a : Fld) (v : Nat) : (s.setF a v).off = s.off := rfl
@[simp] theorem State.setF_mainEn (a : Fld) (v : Nat) : (s.setF a v).mainEn = s.mainEn := rfl
@[simp] theorem State.setF_mainPg (a : Fld) (v : Nat) : (s.setF a v).mainPg = s.mainPg := rfl
@[simp] theorem State.setF_bootAt (a : Fld) (v : Nat) : (s.setF a v).bootAt = s.bootAt := rfl
@[simp] theorem State.setF_heldReqs (a : Fld) (v : Nat) : (s.setF a v).heldReqs = s.heldReqs := rfl
@[simp] theorem State.setF_harts (a : Fld) (v : Nat) : (s.setF a v).harts = s.harts := rfl
@[simp] theorem State.setF_cores (a : Fld) (v : Nat) : (s.setF a v).cores = s.cores := rfl
@[simp] theorem State.setF_hb (a : Fld) (v : Nat) : (s.setF a v).hb = s.hb := rfl
@[simp] theorem State.setF_thermtrip (a : Fld) (v : Nat) : (s.setF a v).thermtrip = s.thermtrip := rfl
@[simp] theorem State.setF_tiles (a : Fld) (v : Nat) : (s.setF a v).tiles = s.tiles := rfl
@[simp] theorem State.setF_slices (a : Fld) (v : Nat) : (s.setF a v).slices = s.slices := rfl
@[simp] theorem State.setF_curCopies (a : Fld) (v : Nat) : (s.setF a v).curCopies = s.curCopies := rfl
@[simp] theorem State.setF_stuck (a : Fld) (v : Nat) : (s.setF a v).stuck = s.stuck := rfl
@[simp] theorem State.setF_mesh (a : Fld) (v : Nat) : (s.setF a v).mesh = s.mesh := rfl
@[simp] theorem State.setF_raw (a : Fld) (v : Nat) : (s.setF a v).raw = s.raw := rfl
@[simp] theorem State.setF_dram (a : Fld) (v : Nat) : (s.setF a v).dram = s.dram := rfl
@[simp] theorem State.setF_checks (a : Fld) (v : Nat) : (s.setF a v).checks = s.checks := rfl
@[simp] theorem State.setF_channels (a : Fld) (v : Nat) : (s.setF a v).channels = s.channels := rfl
@[simp] theorem State.setF_weights (a : Fld) (v : Nat) : (s.setF a v).weights = s.weights := rfl
@[simp] theorem State.setF_fillStart (a : Fld) (v : Nat) : (s.setF a v).fillStart = s.fillStart := rfl
@[simp] theorem State.setF_life (a : Fld) (v : Nat) : (s.setF a v).life = s.life := rfl
@[simp] theorem State.setF_journal (a : Fld) (v : Nat) : (s.setF a v).journal = s.journal := rfl
@[simp] theorem State.setF_seqNext (a : Fld) (v : Nat) : (s.setF a v).seqNext = s.seqNext := rfl
@[simp] theorem State.setF_queues (a : Fld) (v : Nat) : (s.setF a v).queues = s.queues := rfl
@[simp] theorem State.setF_reqs (a : Fld) (v : Nat) : (s.setF a v).reqs = s.reqs := rfl
@[simp] theorem State.setF_reqNext (a : Fld) (v : Nat) : (s.setF a v).reqNext = s.reqNext := rfl
@[simp] theorem State.setF_kept (a : Fld) (v : Nat) : (s.setF a v).kept = s.kept := rfl
@[simp] theorem State.setF_reports (a : Fld) (v : Nat) : (s.setF a v).reports = s.reports := rfl
@[simp] theorem State.setF_afterDone (a : Fld) (v : Nat) : (s.setF a v).afterDone = s.afterDone := rfl
@[simp] theorem State.setF_pathBad (a : Fld) (v : Nat) : (s.setF a v).pathBad = s.pathBad := rfl
@[simp] theorem State.setF_cto (a : Fld) (v : Nat) : (s.setF a v).cto = s.cto := rfl
@[simp] theorem State.setF_frames (a : Fld) (v : Nat) : (s.setF a v).frames = s.frames := rfl
@[simp] theorem State.setF_insts (a : Fld) (v : Nat) : (s.setF a v).insts = s.insts := rfl
@[simp] theorem State.setF_buckets (a : Fld) (v : Nat) : (s.setF a v).buckets = s.buckets := rfl
@[simp] theorem State.setF_bucketAt (a : Fld) (v : Nat) : (s.setF a v).bucketAt = s.bucketAt := rfl
@[simp] theorem State.setF_lfsr (a : Fld) (v : Nat) : (s.setF a v).lfsr = s.lfsr := rfl
@[simp] theorem State.setF_losses (a : Fld) (v : Nat) : (s.setF a v).losses = s.losses := rfl
@[simp] theorem State.setF_lastQueue (a : Fld) (v : Nat) : (s.setF a v).lastQueue = s.lastQueue := rfl
@[simp] theorem State.setF_grants (a : Fld) (v : Nat) : (s.setF a v).grants = s.grants := rfl
@[simp] theorem State.setF_engines (a : Fld) (v : Nat) : (s.setF a v).engines = s.engines := rfl
@[simp] theorem State.setF_rxSel (a : Fld) (v : Nat) : (s.setF a v).rxSel = s.rxSel := rfl
@[simp] theorem State.setF_extCredit (a : Fld) (v : Nat) : (s.setF a v).extCredit = s.extCredit := rfl
@[simp] theorem State.setF_selfTests (a : Fld) (v : Nat) : (s.setF a v).selfTests = s.selfTests := rfl
@[simp] theorem State.setF_jobs (a : Fld) (v : Nat) : (s.setF a v).jobs = s.jobs := rfl
@[simp] theorem State.setF_jobNext (a : Fld) (v : Nat) : (s.setF a v).jobNext = s.jobNext := rfl
@[simp] theorem State.setF_keys (a : Fld) (v : Nat) : (s.setF a v).keys = s.keys := rfl
@[simp] theorem State.setF_handleKey (a : Fld) (v : Nat) : (s.setF a v).handleKey = s.handleKey := rfl
@[simp] theorem State.setF_boot (a : Fld) (v : Nat) : (s.setF a v).boot = s.boot := rfl
@[simp] theorem State.setF_ports (a : Fld) (v : Nat) : (s.setF a v).ports = s.ports := rfl
@[simp] theorem State.setF_laneSwap (a : Fld) (v : Nat) : (s.setF a v).laneSwap = s.laneSwap := rfl
@[simp] theorem State.setF_blinks (a : Fld) (v : Nat) : (s.setF a v).blinks = s.blinks := rfl
@[simp] theorem State.setF_blWaiting (a : Fld) (v : Nat) : (s.setF a v).blWaiting = s.blWaiting := rfl
@[simp] theorem State.setF_peerSince (a : Fld) (v : Nat) : (s.setF a v).peerSince = s.peerSince := rfl
@[simp] theorem State.setF_decoders (a : Fld) (v : Nat) : (s.setF a v).decoders = s.decoders := rfl
@[simp] theorem State.setF_ep (a : Fld) (v : Nat) : (s.setF a v).ep = s.ep := rfl
@[simp] theorem State.setF_vfs (a : Fld) (v : Nat) : (s.setF a v).vfs = s.vfs := rfl
@[simp] theorem State.setF_intxPend (a : Fld) (v : Nat) : (s.setF a v).intxPend = s.intxPend := rfl
@[simp] theorem State.setF_intxOn (a : Fld) (v : Nat) : (s.setF a v).intxOn = s.intxOn := rfl
@[simp] theorem State.setF_standby (a : Fld) (v : Nat) : (s.setF a v).standby = s.standby := rfl
@[simp] theorem State.setF_hostTries (a : Fld) (v : Nat) : (s.setF a v).hostTries = s.hostTries := rfl
@[simp] theorem State.setF_col (a : Fld) (v : Nat) : (s.setF a v).col = s.col := rfl
@[simp] theorem State.setF_svc (a : Fld) (v : Nat) : (s.setF a v).svc = s.svc := rfl
@[simp] theorem State.setF_spareFuse (a : Fld) (v : Nat) : (s.setF a v).spareFuse = s.spareFuse := rfl
@[simp] theorem State.setF_replicas (a : Fld) (v : Nat) : (s.setF a v).replicas = s.replicas := rfl
@[simp] theorem State.setF_recoveries (a : Fld) (v : Nat) : (s.setF a v).recoveries = s.recoveries := rfl
@[simp] theorem State.setF_writes (a : Fld) (v : Nat) : (s.setF a v).writes = s.writes := rfl
@[simp] theorem State.setF_floorsDue (a : Fld) (v : Nat) : (s.setF a v).floorsDue = s.floorsDue := rfl
@[simp] theorem State.setF_held (a : Fld) (v : Nat) : (s.setF a v).held = s.held := rfl

/-! ### raise -/

@[simp] theorem State.raise_pending (a : Fld) : (s.raise a).pending = s.pending := rfl
@[simp] theorem State.raise_sent (a : Fld) : (s.raise a).sent = s.sent := rfl
@[simp] theorem State.raise_free (a : Fld) : (s.raise a).free = s.free := rfl
@[simp] theorem State.raise_posted (a : Fld) : (s.raise a).posted = s.posted := rfl
@[simp] theorem State.raise_lateRow (a : Fld) : (s.raise a).lateRow = s.lateRow := rfl
@[simp] theorem State.raise_tb (a : Fld) : (s.raise a).tb = s.tb := rfl
@[simp] theorem State.raise_slots (a : Fld) : (s.raise a).slots = s.slots := rfl
@[simp] theorem State.raise_waiting (a : Fld) : (s.raise a).waiting = s.waiting := rfl
@[simp] theorem State.raise_dirty (a : Fld) : (s.raise a).dirty = s.dirty := rfl
@[simp] theorem State.raise_released (a : Fld) : (s.raise a).released = s.released := rfl
@[simp] theorem State.raise_logQueue (a : Fld) : (s.raise a).logQueue = s.logQueue := rfl
@[simp] theorem State.raise_lockFrom (a : Fld) : (s.raise a).lockFrom = s.lockFrom := rfl
@[simp] theorem State.raise_stopped (a : Fld) : (s.raise a).stopped = s.stopped := rfl
@[simp] theorem State.raise_deadDies (a : Fld) : (s.raise a).deadDies = s.deadDies := rfl
@[simp] theorem State.raise_off (a : Fld) : (s.raise a).off = s.off := rfl
@[simp] theorem State.raise_mainEn (a : Fld) : (s.raise a).mainEn = s.mainEn := rfl
@[simp] theorem State.raise_mainPg (a : Fld) : (s.raise a).mainPg = s.mainPg := rfl
@[simp] theorem State.raise_bootAt (a : Fld) : (s.raise a).bootAt = s.bootAt := rfl
@[simp] theorem State.raise_heldReqs (a : Fld) : (s.raise a).heldReqs = s.heldReqs := rfl
@[simp] theorem State.raise_harts (a : Fld) : (s.raise a).harts = s.harts := rfl
@[simp] theorem State.raise_cores (a : Fld) : (s.raise a).cores = s.cores := rfl
@[simp] theorem State.raise_hb (a : Fld) : (s.raise a).hb = s.hb := rfl
@[simp] theorem State.raise_thermtrip (a : Fld) : (s.raise a).thermtrip = s.thermtrip := rfl
@[simp] theorem State.raise_tiles (a : Fld) : (s.raise a).tiles = s.tiles := rfl
@[simp] theorem State.raise_slices (a : Fld) : (s.raise a).slices = s.slices := rfl
@[simp] theorem State.raise_curCopies (a : Fld) : (s.raise a).curCopies = s.curCopies := rfl
@[simp] theorem State.raise_stuck (a : Fld) : (s.raise a).stuck = s.stuck := rfl
@[simp] theorem State.raise_mesh (a : Fld) : (s.raise a).mesh = s.mesh := rfl
@[simp] theorem State.raise_raw (a : Fld) : (s.raise a).raw = s.raw := rfl
@[simp] theorem State.raise_dram (a : Fld) : (s.raise a).dram = s.dram := rfl
@[simp] theorem State.raise_checks (a : Fld) : (s.raise a).checks = s.checks := rfl
@[simp] theorem State.raise_channels (a : Fld) : (s.raise a).channels = s.channels := rfl
@[simp] theorem State.raise_weights (a : Fld) : (s.raise a).weights = s.weights := rfl
@[simp] theorem State.raise_fillStart (a : Fld) : (s.raise a).fillStart = s.fillStart := rfl
@[simp] theorem State.raise_life (a : Fld) : (s.raise a).life = s.life := rfl
@[simp] theorem State.raise_journal (a : Fld) : (s.raise a).journal = s.journal := rfl
@[simp] theorem State.raise_seqNext (a : Fld) : (s.raise a).seqNext = s.seqNext := rfl
@[simp] theorem State.raise_queues (a : Fld) : (s.raise a).queues = s.queues := rfl
@[simp] theorem State.raise_reqs (a : Fld) : (s.raise a).reqs = s.reqs := rfl
@[simp] theorem State.raise_reqNext (a : Fld) : (s.raise a).reqNext = s.reqNext := rfl
@[simp] theorem State.raise_kept (a : Fld) : (s.raise a).kept = s.kept := rfl
@[simp] theorem State.raise_reports (a : Fld) : (s.raise a).reports = s.reports := rfl
@[simp] theorem State.raise_afterDone (a : Fld) : (s.raise a).afterDone = s.afterDone := rfl
@[simp] theorem State.raise_pathBad (a : Fld) : (s.raise a).pathBad = s.pathBad := rfl
@[simp] theorem State.raise_cto (a : Fld) : (s.raise a).cto = s.cto := rfl
@[simp] theorem State.raise_frames (a : Fld) : (s.raise a).frames = s.frames := rfl
@[simp] theorem State.raise_insts (a : Fld) : (s.raise a).insts = s.insts := rfl
@[simp] theorem State.raise_buckets (a : Fld) : (s.raise a).buckets = s.buckets := rfl
@[simp] theorem State.raise_bucketAt (a : Fld) : (s.raise a).bucketAt = s.bucketAt := rfl
@[simp] theorem State.raise_lfsr (a : Fld) : (s.raise a).lfsr = s.lfsr := rfl
@[simp] theorem State.raise_losses (a : Fld) : (s.raise a).losses = s.losses := rfl
@[simp] theorem State.raise_lastQueue (a : Fld) : (s.raise a).lastQueue = s.lastQueue := rfl
@[simp] theorem State.raise_grants (a : Fld) : (s.raise a).grants = s.grants := rfl
@[simp] theorem State.raise_engines (a : Fld) : (s.raise a).engines = s.engines := rfl
@[simp] theorem State.raise_rxSel (a : Fld) : (s.raise a).rxSel = s.rxSel := rfl
@[simp] theorem State.raise_extCredit (a : Fld) : (s.raise a).extCredit = s.extCredit := rfl
@[simp] theorem State.raise_selfTests (a : Fld) : (s.raise a).selfTests = s.selfTests := rfl
@[simp] theorem State.raise_jobs (a : Fld) : (s.raise a).jobs = s.jobs := rfl
@[simp] theorem State.raise_jobNext (a : Fld) : (s.raise a).jobNext = s.jobNext := rfl
@[simp] theorem State.raise_keys (a : Fld) : (s.raise a).keys = s.keys := rfl
@[simp] theorem State.raise_handleKey (a : Fld) : (s.raise a).handleKey = s.handleKey := rfl
@[simp] theorem State.raise_boot (a : Fld) : (s.raise a).boot = s.boot := rfl
@[simp] theorem State.raise_ports (a : Fld) : (s.raise a).ports = s.ports := rfl
@[simp] theorem State.raise_laneSwap (a : Fld) : (s.raise a).laneSwap = s.laneSwap := rfl
@[simp] theorem State.raise_blinks (a : Fld) : (s.raise a).blinks = s.blinks := rfl
@[simp] theorem State.raise_blWaiting (a : Fld) : (s.raise a).blWaiting = s.blWaiting := rfl
@[simp] theorem State.raise_peerSince (a : Fld) : (s.raise a).peerSince = s.peerSince := rfl
@[simp] theorem State.raise_decoders (a : Fld) : (s.raise a).decoders = s.decoders := rfl
@[simp] theorem State.raise_ep (a : Fld) : (s.raise a).ep = s.ep := rfl
@[simp] theorem State.raise_vfs (a : Fld) : (s.raise a).vfs = s.vfs := rfl
@[simp] theorem State.raise_intxPend (a : Fld) : (s.raise a).intxPend = s.intxPend := rfl
@[simp] theorem State.raise_intxOn (a : Fld) : (s.raise a).intxOn = s.intxOn := rfl
@[simp] theorem State.raise_standby (a : Fld) : (s.raise a).standby = s.standby := rfl
@[simp] theorem State.raise_hostTries (a : Fld) : (s.raise a).hostTries = s.hostTries := rfl
@[simp] theorem State.raise_col (a : Fld) : (s.raise a).col = s.col := rfl
@[simp] theorem State.raise_svc (a : Fld) : (s.raise a).svc = s.svc := rfl
@[simp] theorem State.raise_spareFuse (a : Fld) : (s.raise a).spareFuse = s.spareFuse := rfl
@[simp] theorem State.raise_replicas (a : Fld) : (s.raise a).replicas = s.replicas := rfl
@[simp] theorem State.raise_recoveries (a : Fld) : (s.raise a).recoveries = s.recoveries := rfl
@[simp] theorem State.raise_writes (a : Fld) : (s.raise a).writes = s.writes := rfl
@[simp] theorem State.raise_floorsDue (a : Fld) : (s.raise a).floorsDue = s.floorsDue := rfl
@[simp] theorem State.raise_held (a : Fld) : (s.raise a).held = s.held := rfl

/-! ### addF -/

@[simp] theorem State.addF_pending (a : Fld) (n : Nat) : (s.addF a n).pending = s.pending := rfl
@[simp] theorem State.addF_sent (a : Fld) (n : Nat) : (s.addF a n).sent = s.sent := rfl
@[simp] theorem State.addF_free (a : Fld) (n : Nat) : (s.addF a n).free = s.free := rfl
@[simp] theorem State.addF_posted (a : Fld) (n : Nat) : (s.addF a n).posted = s.posted := rfl
@[simp] theorem State.addF_lateRow (a : Fld) (n : Nat) : (s.addF a n).lateRow = s.lateRow := rfl
@[simp] theorem State.addF_tb (a : Fld) (n : Nat) : (s.addF a n).tb = s.tb := rfl
@[simp] theorem State.addF_slots (a : Fld) (n : Nat) : (s.addF a n).slots = s.slots := rfl
@[simp] theorem State.addF_waiting (a : Fld) (n : Nat) : (s.addF a n).waiting = s.waiting := rfl
@[simp] theorem State.addF_dirty (a : Fld) (n : Nat) : (s.addF a n).dirty = s.dirty := rfl
@[simp] theorem State.addF_released (a : Fld) (n : Nat) : (s.addF a n).released = s.released := rfl
@[simp] theorem State.addF_logQueue (a : Fld) (n : Nat) : (s.addF a n).logQueue = s.logQueue := rfl
@[simp] theorem State.addF_lockFrom (a : Fld) (n : Nat) : (s.addF a n).lockFrom = s.lockFrom := rfl
@[simp] theorem State.addF_stopped (a : Fld) (n : Nat) : (s.addF a n).stopped = s.stopped := rfl
@[simp] theorem State.addF_deadDies (a : Fld) (n : Nat) : (s.addF a n).deadDies = s.deadDies := rfl
@[simp] theorem State.addF_off (a : Fld) (n : Nat) : (s.addF a n).off = s.off := rfl
@[simp] theorem State.addF_mainEn (a : Fld) (n : Nat) : (s.addF a n).mainEn = s.mainEn := rfl
@[simp] theorem State.addF_mainPg (a : Fld) (n : Nat) : (s.addF a n).mainPg = s.mainPg := rfl
@[simp] theorem State.addF_bootAt (a : Fld) (n : Nat) : (s.addF a n).bootAt = s.bootAt := rfl
@[simp] theorem State.addF_heldReqs (a : Fld) (n : Nat) : (s.addF a n).heldReqs = s.heldReqs := rfl
@[simp] theorem State.addF_harts (a : Fld) (n : Nat) : (s.addF a n).harts = s.harts := rfl
@[simp] theorem State.addF_cores (a : Fld) (n : Nat) : (s.addF a n).cores = s.cores := rfl
@[simp] theorem State.addF_hb (a : Fld) (n : Nat) : (s.addF a n).hb = s.hb := rfl
@[simp] theorem State.addF_thermtrip (a : Fld) (n : Nat) : (s.addF a n).thermtrip = s.thermtrip := rfl
@[simp] theorem State.addF_tiles (a : Fld) (n : Nat) : (s.addF a n).tiles = s.tiles := rfl
@[simp] theorem State.addF_slices (a : Fld) (n : Nat) : (s.addF a n).slices = s.slices := rfl
@[simp] theorem State.addF_curCopies (a : Fld) (n : Nat) : (s.addF a n).curCopies = s.curCopies := rfl
@[simp] theorem State.addF_stuck (a : Fld) (n : Nat) : (s.addF a n).stuck = s.stuck := rfl
@[simp] theorem State.addF_mesh (a : Fld) (n : Nat) : (s.addF a n).mesh = s.mesh := rfl
@[simp] theorem State.addF_raw (a : Fld) (n : Nat) : (s.addF a n).raw = s.raw := rfl
@[simp] theorem State.addF_dram (a : Fld) (n : Nat) : (s.addF a n).dram = s.dram := rfl
@[simp] theorem State.addF_checks (a : Fld) (n : Nat) : (s.addF a n).checks = s.checks := rfl
@[simp] theorem State.addF_channels (a : Fld) (n : Nat) : (s.addF a n).channels = s.channels := rfl
@[simp] theorem State.addF_weights (a : Fld) (n : Nat) : (s.addF a n).weights = s.weights := rfl
@[simp] theorem State.addF_fillStart (a : Fld) (n : Nat) : (s.addF a n).fillStart = s.fillStart := rfl
@[simp] theorem State.addF_life (a : Fld) (n : Nat) : (s.addF a n).life = s.life := rfl
@[simp] theorem State.addF_journal (a : Fld) (n : Nat) : (s.addF a n).journal = s.journal := rfl
@[simp] theorem State.addF_seqNext (a : Fld) (n : Nat) : (s.addF a n).seqNext = s.seqNext := rfl
@[simp] theorem State.addF_queues (a : Fld) (n : Nat) : (s.addF a n).queues = s.queues := rfl
@[simp] theorem State.addF_reqs (a : Fld) (n : Nat) : (s.addF a n).reqs = s.reqs := rfl
@[simp] theorem State.addF_reqNext (a : Fld) (n : Nat) : (s.addF a n).reqNext = s.reqNext := rfl
@[simp] theorem State.addF_kept (a : Fld) (n : Nat) : (s.addF a n).kept = s.kept := rfl
@[simp] theorem State.addF_reports (a : Fld) (n : Nat) : (s.addF a n).reports = s.reports := rfl
@[simp] theorem State.addF_afterDone (a : Fld) (n : Nat) : (s.addF a n).afterDone = s.afterDone := rfl
@[simp] theorem State.addF_pathBad (a : Fld) (n : Nat) : (s.addF a n).pathBad = s.pathBad := rfl
@[simp] theorem State.addF_cto (a : Fld) (n : Nat) : (s.addF a n).cto = s.cto := rfl
@[simp] theorem State.addF_frames (a : Fld) (n : Nat) : (s.addF a n).frames = s.frames := rfl
@[simp] theorem State.addF_insts (a : Fld) (n : Nat) : (s.addF a n).insts = s.insts := rfl
@[simp] theorem State.addF_buckets (a : Fld) (n : Nat) : (s.addF a n).buckets = s.buckets := rfl
@[simp] theorem State.addF_bucketAt (a : Fld) (n : Nat) : (s.addF a n).bucketAt = s.bucketAt := rfl
@[simp] theorem State.addF_lfsr (a : Fld) (n : Nat) : (s.addF a n).lfsr = s.lfsr := rfl
@[simp] theorem State.addF_losses (a : Fld) (n : Nat) : (s.addF a n).losses = s.losses := rfl
@[simp] theorem State.addF_lastQueue (a : Fld) (n : Nat) : (s.addF a n).lastQueue = s.lastQueue := rfl
@[simp] theorem State.addF_grants (a : Fld) (n : Nat) : (s.addF a n).grants = s.grants := rfl
@[simp] theorem State.addF_engines (a : Fld) (n : Nat) : (s.addF a n).engines = s.engines := rfl
@[simp] theorem State.addF_rxSel (a : Fld) (n : Nat) : (s.addF a n).rxSel = s.rxSel := rfl
@[simp] theorem State.addF_extCredit (a : Fld) (n : Nat) : (s.addF a n).extCredit = s.extCredit := rfl
@[simp] theorem State.addF_selfTests (a : Fld) (n : Nat) : (s.addF a n).selfTests = s.selfTests := rfl
@[simp] theorem State.addF_jobs (a : Fld) (n : Nat) : (s.addF a n).jobs = s.jobs := rfl
@[simp] theorem State.addF_jobNext (a : Fld) (n : Nat) : (s.addF a n).jobNext = s.jobNext := rfl
@[simp] theorem State.addF_keys (a : Fld) (n : Nat) : (s.addF a n).keys = s.keys := rfl
@[simp] theorem State.addF_handleKey (a : Fld) (n : Nat) : (s.addF a n).handleKey = s.handleKey := rfl
@[simp] theorem State.addF_boot (a : Fld) (n : Nat) : (s.addF a n).boot = s.boot := rfl
@[simp] theorem State.addF_ports (a : Fld) (n : Nat) : (s.addF a n).ports = s.ports := rfl
@[simp] theorem State.addF_laneSwap (a : Fld) (n : Nat) : (s.addF a n).laneSwap = s.laneSwap := rfl
@[simp] theorem State.addF_blinks (a : Fld) (n : Nat) : (s.addF a n).blinks = s.blinks := rfl
@[simp] theorem State.addF_blWaiting (a : Fld) (n : Nat) : (s.addF a n).blWaiting = s.blWaiting := rfl
@[simp] theorem State.addF_peerSince (a : Fld) (n : Nat) : (s.addF a n).peerSince = s.peerSince := rfl
@[simp] theorem State.addF_decoders (a : Fld) (n : Nat) : (s.addF a n).decoders = s.decoders := rfl
@[simp] theorem State.addF_ep (a : Fld) (n : Nat) : (s.addF a n).ep = s.ep := rfl
@[simp] theorem State.addF_vfs (a : Fld) (n : Nat) : (s.addF a n).vfs = s.vfs := rfl
@[simp] theorem State.addF_intxPend (a : Fld) (n : Nat) : (s.addF a n).intxPend = s.intxPend := rfl
@[simp] theorem State.addF_intxOn (a : Fld) (n : Nat) : (s.addF a n).intxOn = s.intxOn := rfl
@[simp] theorem State.addF_standby (a : Fld) (n : Nat) : (s.addF a n).standby = s.standby := rfl
@[simp] theorem State.addF_hostTries (a : Fld) (n : Nat) : (s.addF a n).hostTries = s.hostTries := rfl
@[simp] theorem State.addF_col (a : Fld) (n : Nat) : (s.addF a n).col = s.col := rfl
@[simp] theorem State.addF_svc (a : Fld) (n : Nat) : (s.addF a n).svc = s.svc := rfl
@[simp] theorem State.addF_spareFuse (a : Fld) (n : Nat) : (s.addF a n).spareFuse = s.spareFuse := rfl
@[simp] theorem State.addF_replicas (a : Fld) (n : Nat) : (s.addF a n).replicas = s.replicas := rfl
@[simp] theorem State.addF_recoveries (a : Fld) (n : Nat) : (s.addF a n).recoveries = s.recoveries := rfl
@[simp] theorem State.addF_writes (a : Fld) (n : Nat) : (s.addF a n).writes = s.writes := rfl
@[simp] theorem State.addF_floorsDue (a : Fld) (n : Nat) : (s.addF a n).floorsDue = s.floorsDue := rfl
@[simp] theorem State.addF_held (a : Fld) (n : Nat) : (s.addF a n).held = s.held := rfl

/-! ### record -/

@[simp] theorem State.record_pending (e : Emission) : (s.record e).pending = s.pending := rfl
@[simp] theorem State.record_regs (e : Emission) : (s.record e).regs = s.regs := rfl
@[simp] theorem State.record_free (e : Emission) : (s.record e).free = s.free := rfl
@[simp] theorem State.record_posted (e : Emission) : (s.record e).posted = s.posted := rfl
@[simp] theorem State.record_lateRow (e : Emission) : (s.record e).lateRow = s.lateRow := rfl
@[simp] theorem State.record_tb (e : Emission) : (s.record e).tb = s.tb := rfl
@[simp] theorem State.record_slots (e : Emission) : (s.record e).slots = s.slots := rfl
@[simp] theorem State.record_waiting (e : Emission) : (s.record e).waiting = s.waiting := rfl
@[simp] theorem State.record_dirty (e : Emission) : (s.record e).dirty = s.dirty := rfl
@[simp] theorem State.record_released (e : Emission) : (s.record e).released = s.released := rfl
@[simp] theorem State.record_logQueue (e : Emission) : (s.record e).logQueue = s.logQueue := rfl
@[simp] theorem State.record_lockFrom (e : Emission) : (s.record e).lockFrom = s.lockFrom := rfl
@[simp] theorem State.record_stopped (e : Emission) : (s.record e).stopped = s.stopped := rfl
@[simp] theorem State.record_deadDies (e : Emission) : (s.record e).deadDies = s.deadDies := rfl
@[simp] theorem State.record_off (e : Emission) : (s.record e).off = s.off := rfl
@[simp] theorem State.record_mainEn (e : Emission) : (s.record e).mainEn = s.mainEn := rfl
@[simp] theorem State.record_mainPg (e : Emission) : (s.record e).mainPg = s.mainPg := rfl
@[simp] theorem State.record_bootAt (e : Emission) : (s.record e).bootAt = s.bootAt := rfl
@[simp] theorem State.record_heldReqs (e : Emission) : (s.record e).heldReqs = s.heldReqs := rfl
@[simp] theorem State.record_harts (e : Emission) : (s.record e).harts = s.harts := rfl
@[simp] theorem State.record_cores (e : Emission) : (s.record e).cores = s.cores := rfl
@[simp] theorem State.record_hb (e : Emission) : (s.record e).hb = s.hb := rfl
@[simp] theorem State.record_thermtrip (e : Emission) : (s.record e).thermtrip = s.thermtrip := rfl
@[simp] theorem State.record_tiles (e : Emission) : (s.record e).tiles = s.tiles := rfl
@[simp] theorem State.record_slices (e : Emission) : (s.record e).slices = s.slices := rfl
@[simp] theorem State.record_curCopies (e : Emission) : (s.record e).curCopies = s.curCopies := rfl
@[simp] theorem State.record_stuck (e : Emission) : (s.record e).stuck = s.stuck := rfl
@[simp] theorem State.record_mesh (e : Emission) : (s.record e).mesh = s.mesh := rfl
@[simp] theorem State.record_raw (e : Emission) : (s.record e).raw = s.raw := rfl
@[simp] theorem State.record_dram (e : Emission) : (s.record e).dram = s.dram := rfl
@[simp] theorem State.record_checks (e : Emission) : (s.record e).checks = s.checks := rfl
@[simp] theorem State.record_channels (e : Emission) : (s.record e).channels = s.channels := rfl
@[simp] theorem State.record_weights (e : Emission) : (s.record e).weights = s.weights := rfl
@[simp] theorem State.record_fillStart (e : Emission) : (s.record e).fillStart = s.fillStart := rfl
@[simp] theorem State.record_life (e : Emission) : (s.record e).life = s.life := rfl
@[simp] theorem State.record_journal (e : Emission) : (s.record e).journal = s.journal := rfl
@[simp] theorem State.record_seqNext (e : Emission) : (s.record e).seqNext = s.seqNext := rfl
@[simp] theorem State.record_queues (e : Emission) : (s.record e).queues = s.queues := rfl
@[simp] theorem State.record_reqs (e : Emission) : (s.record e).reqs = s.reqs := rfl
@[simp] theorem State.record_reqNext (e : Emission) : (s.record e).reqNext = s.reqNext := rfl
@[simp] theorem State.record_kept (e : Emission) : (s.record e).kept = s.kept := rfl
@[simp] theorem State.record_reports (e : Emission) : (s.record e).reports = s.reports := rfl
@[simp] theorem State.record_afterDone (e : Emission) : (s.record e).afterDone = s.afterDone := rfl
@[simp] theorem State.record_pathBad (e : Emission) : (s.record e).pathBad = s.pathBad := rfl
@[simp] theorem State.record_cto (e : Emission) : (s.record e).cto = s.cto := rfl
@[simp] theorem State.record_frames (e : Emission) : (s.record e).frames = s.frames := rfl
@[simp] theorem State.record_insts (e : Emission) : (s.record e).insts = s.insts := rfl
@[simp] theorem State.record_buckets (e : Emission) : (s.record e).buckets = s.buckets := rfl
@[simp] theorem State.record_bucketAt (e : Emission) : (s.record e).bucketAt = s.bucketAt := rfl
@[simp] theorem State.record_lfsr (e : Emission) : (s.record e).lfsr = s.lfsr := rfl
@[simp] theorem State.record_losses (e : Emission) : (s.record e).losses = s.losses := rfl
@[simp] theorem State.record_lastQueue (e : Emission) : (s.record e).lastQueue = s.lastQueue := rfl
@[simp] theorem State.record_grants (e : Emission) : (s.record e).grants = s.grants := rfl
@[simp] theorem State.record_engines (e : Emission) : (s.record e).engines = s.engines := rfl
@[simp] theorem State.record_rxSel (e : Emission) : (s.record e).rxSel = s.rxSel := rfl
@[simp] theorem State.record_extCredit (e : Emission) : (s.record e).extCredit = s.extCredit := rfl
@[simp] theorem State.record_selfTests (e : Emission) : (s.record e).selfTests = s.selfTests := rfl
@[simp] theorem State.record_jobs (e : Emission) : (s.record e).jobs = s.jobs := rfl
@[simp] theorem State.record_jobNext (e : Emission) : (s.record e).jobNext = s.jobNext := rfl
@[simp] theorem State.record_keys (e : Emission) : (s.record e).keys = s.keys := rfl
@[simp] theorem State.record_handleKey (e : Emission) : (s.record e).handleKey = s.handleKey := rfl
@[simp] theorem State.record_boot (e : Emission) : (s.record e).boot = s.boot := rfl
@[simp] theorem State.record_ports (e : Emission) : (s.record e).ports = s.ports := rfl
@[simp] theorem State.record_laneSwap (e : Emission) : (s.record e).laneSwap = s.laneSwap := rfl
@[simp] theorem State.record_blinks (e : Emission) : (s.record e).blinks = s.blinks := rfl
@[simp] theorem State.record_blWaiting (e : Emission) : (s.record e).blWaiting = s.blWaiting := rfl
@[simp] theorem State.record_peerSince (e : Emission) : (s.record e).peerSince = s.peerSince := rfl
@[simp] theorem State.record_decoders (e : Emission) : (s.record e).decoders = s.decoders := rfl
@[simp] theorem State.record_ep (e : Emission) : (s.record e).ep = s.ep := rfl
@[simp] theorem State.record_vfs (e : Emission) : (s.record e).vfs = s.vfs := rfl
@[simp] theorem State.record_intxPend (e : Emission) : (s.record e).intxPend = s.intxPend := rfl
@[simp] theorem State.record_intxOn (e : Emission) : (s.record e).intxOn = s.intxOn := rfl
@[simp] theorem State.record_standby (e : Emission) : (s.record e).standby = s.standby := rfl
@[simp] theorem State.record_hostTries (e : Emission) : (s.record e).hostTries = s.hostTries := rfl
@[simp] theorem State.record_col (e : Emission) : (s.record e).col = s.col := rfl
@[simp] theorem State.record_svc (e : Emission) : (s.record e).svc = s.svc := rfl
@[simp] theorem State.record_reg (e : Emission) (r : Nat) : (s.record e).reg r = s.reg r := rfl
@[simp] theorem State.record_f (e : Emission) (r : Fld) : (s.record e).f r = s.f r := rfl
@[simp] theorem State.record_spareFuse (e : Emission) : (s.record e).spareFuse = s.spareFuse := rfl
@[simp] theorem State.record_replicas (e : Emission) : (s.record e).replicas = s.replicas := rfl
@[simp] theorem State.record_recoveries (e : Emission) : (s.record e).recoveries = s.recoveries := rfl
@[simp] theorem State.record_writes (e : Emission) : (s.record e).writes = s.writes := rfl
@[simp] theorem State.record_floorsDue (e : Emission) : (s.record e).floorsDue = s.floorsDue := rfl
@[simp] theorem State.record_held (e : Emission) : (s.record e).held = s.held := rfl

/-! ### post -/

@[simp] theorem State.post_pending (n : Nat) (k : LeafKind) : (s.post n k).pending = s.pending := rfl
@[simp] theorem State.post_regs (n : Nat) (k : LeafKind) : (s.post n k).regs = s.regs := rfl
@[simp] theorem State.post_sent (n : Nat) (k : LeafKind) : (s.post n k).sent = s.sent := rfl
@[simp] theorem State.post_free (n : Nat) (k : LeafKind) : (s.post n k).free = s.free := rfl
@[simp] theorem State.post_tb (n : Nat) (k : LeafKind) : (s.post n k).tb = s.tb := rfl
@[simp] theorem State.post_slots (n : Nat) (k : LeafKind) : (s.post n k).slots = s.slots := rfl
@[simp] theorem State.post_waiting (n : Nat) (k : LeafKind) : (s.post n k).waiting = s.waiting := rfl
@[simp] theorem State.post_lateRow (n : Nat) (k : LeafKind) : (s.post n k).lateRow = s.lateRow := rfl
@[simp] theorem State.post_dirty (n : Nat) (k : LeafKind) : (s.post n k).dirty = s.dirty := rfl
@[simp] theorem State.post_released (n : Nat) (k : LeafKind) : (s.post n k).released = s.released := rfl
@[simp] theorem State.post_logQueue (n : Nat) (k : LeafKind) : (s.post n k).logQueue = s.logQueue := rfl
@[simp] theorem State.post_lockFrom (n : Nat) (k : LeafKind) : (s.post n k).lockFrom = s.lockFrom := rfl
@[simp] theorem State.post_stopped (n : Nat) (k : LeafKind) : (s.post n k).stopped = s.stopped := rfl
@[simp] theorem State.post_deadDies (n : Nat) (k : LeafKind) : (s.post n k).deadDies = s.deadDies := rfl
@[simp] theorem State.post_off (n : Nat) (k : LeafKind) : (s.post n k).off = s.off := rfl
@[simp] theorem State.post_mainEn (n : Nat) (k : LeafKind) : (s.post n k).mainEn = s.mainEn := rfl
@[simp] theorem State.post_mainPg (n : Nat) (k : LeafKind) : (s.post n k).mainPg = s.mainPg := rfl
@[simp] theorem State.post_bootAt (n : Nat) (k : LeafKind) : (s.post n k).bootAt = s.bootAt := rfl
@[simp] theorem State.post_heldReqs (n : Nat) (k : LeafKind) : (s.post n k).heldReqs = s.heldReqs := rfl
@[simp] theorem State.post_harts (n : Nat) (k : LeafKind) : (s.post n k).harts = s.harts := rfl
@[simp] theorem State.post_cores (n : Nat) (k : LeafKind) : (s.post n k).cores = s.cores := rfl
@[simp] theorem State.post_hb (n : Nat) (k : LeafKind) : (s.post n k).hb = s.hb := rfl
@[simp] theorem State.post_thermtrip (n : Nat) (k : LeafKind) : (s.post n k).thermtrip = s.thermtrip := rfl
@[simp] theorem State.post_tiles (n : Nat) (k : LeafKind) : (s.post n k).tiles = s.tiles := rfl
@[simp] theorem State.post_slices (n : Nat) (k : LeafKind) : (s.post n k).slices = s.slices := rfl
@[simp] theorem State.post_curCopies (n : Nat) (k : LeafKind) : (s.post n k).curCopies = s.curCopies := rfl
@[simp] theorem State.post_stuck (n : Nat) (k : LeafKind) : (s.post n k).stuck = s.stuck := rfl
@[simp] theorem State.post_mesh (n : Nat) (k : LeafKind) : (s.post n k).mesh = s.mesh := rfl
@[simp] theorem State.post_raw (n : Nat) (k : LeafKind) : (s.post n k).raw = s.raw := rfl
@[simp] theorem State.post_dram (n : Nat) (k : LeafKind) : (s.post n k).dram = s.dram := rfl
@[simp] theorem State.post_checks (n : Nat) (k : LeafKind) : (s.post n k).checks = s.checks := rfl
@[simp] theorem State.post_channels (n : Nat) (k : LeafKind) : (s.post n k).channels = s.channels := rfl
@[simp] theorem State.post_weights (n : Nat) (k : LeafKind) : (s.post n k).weights = s.weights := rfl
@[simp] theorem State.post_fillStart (n : Nat) (k : LeafKind) : (s.post n k).fillStart = s.fillStart := rfl
@[simp] theorem State.post_life (n : Nat) (k : LeafKind) : (s.post n k).life = s.life := rfl
@[simp] theorem State.post_journal (n : Nat) (k : LeafKind) : (s.post n k).journal = s.journal := rfl
@[simp] theorem State.post_seqNext (n : Nat) (k : LeafKind) : (s.post n k).seqNext = s.seqNext := rfl
@[simp] theorem State.post_queues (n : Nat) (k : LeafKind) : (s.post n k).queues = s.queues := rfl
@[simp] theorem State.post_reqs (n : Nat) (k : LeafKind) : (s.post n k).reqs = s.reqs := rfl
@[simp] theorem State.post_reqNext (n : Nat) (k : LeafKind) : (s.post n k).reqNext = s.reqNext := rfl
@[simp] theorem State.post_kept (n : Nat) (k : LeafKind) : (s.post n k).kept = s.kept := rfl
@[simp] theorem State.post_reports (n : Nat) (k : LeafKind) : (s.post n k).reports = s.reports := rfl
@[simp] theorem State.post_afterDone (n : Nat) (k : LeafKind) : (s.post n k).afterDone = s.afterDone := rfl
@[simp] theorem State.post_pathBad (n : Nat) (k : LeafKind) : (s.post n k).pathBad = s.pathBad := rfl
@[simp] theorem State.post_cto (n : Nat) (k : LeafKind) : (s.post n k).cto = s.cto := rfl
@[simp] theorem State.post_frames (n : Nat) (k : LeafKind) : (s.post n k).frames = s.frames := rfl
@[simp] theorem State.post_insts (n : Nat) (k : LeafKind) : (s.post n k).insts = s.insts := rfl
@[simp] theorem State.post_buckets (n : Nat) (k : LeafKind) : (s.post n k).buckets = s.buckets := rfl
@[simp] theorem State.post_bucketAt (n : Nat) (k : LeafKind) : (s.post n k).bucketAt = s.bucketAt := rfl
@[simp] theorem State.post_lfsr (n : Nat) (k : LeafKind) : (s.post n k).lfsr = s.lfsr := rfl
@[simp] theorem State.post_losses (n : Nat) (k : LeafKind) : (s.post n k).losses = s.losses := rfl
@[simp] theorem State.post_lastQueue (n : Nat) (k : LeafKind) : (s.post n k).lastQueue = s.lastQueue := rfl
@[simp] theorem State.post_grants (n : Nat) (k : LeafKind) : (s.post n k).grants = s.grants := rfl
@[simp] theorem State.post_engines (n : Nat) (k : LeafKind) : (s.post n k).engines = s.engines := rfl
@[simp] theorem State.post_rxSel (n : Nat) (k : LeafKind) : (s.post n k).rxSel = s.rxSel := rfl
@[simp] theorem State.post_extCredit (n : Nat) (k : LeafKind) : (s.post n k).extCredit = s.extCredit := rfl
@[simp] theorem State.post_selfTests (n : Nat) (k : LeafKind) : (s.post n k).selfTests = s.selfTests := rfl
@[simp] theorem State.post_jobs (n : Nat) (k : LeafKind) : (s.post n k).jobs = s.jobs := rfl
@[simp] theorem State.post_jobNext (n : Nat) (k : LeafKind) : (s.post n k).jobNext = s.jobNext := rfl
@[simp] theorem State.post_keys (n : Nat) (k : LeafKind) : (s.post n k).keys = s.keys := rfl
@[simp] theorem State.post_handleKey (n : Nat) (k : LeafKind) : (s.post n k).handleKey = s.handleKey := rfl
@[simp] theorem State.post_boot (n : Nat) (k : LeafKind) : (s.post n k).boot = s.boot := rfl
@[simp] theorem State.post_ports (n : Nat) (k : LeafKind) : (s.post n k).ports = s.ports := rfl
@[simp] theorem State.post_laneSwap (n : Nat) (k : LeafKind) : (s.post n k).laneSwap = s.laneSwap := rfl
@[simp] theorem State.post_blinks (n : Nat) (k : LeafKind) : (s.post n k).blinks = s.blinks := rfl
@[simp] theorem State.post_blWaiting (n : Nat) (k : LeafKind) : (s.post n k).blWaiting = s.blWaiting := rfl
@[simp] theorem State.post_peerSince (n : Nat) (k : LeafKind) : (s.post n k).peerSince = s.peerSince := rfl
@[simp] theorem State.post_decoders (n : Nat) (k : LeafKind) : (s.post n k).decoders = s.decoders := rfl
@[simp] theorem State.post_ep (n : Nat) (k : LeafKind) : (s.post n k).ep = s.ep := rfl
@[simp] theorem State.post_vfs (n : Nat) (k : LeafKind) : (s.post n k).vfs = s.vfs := rfl
@[simp] theorem State.post_intxPend (n : Nat) (k : LeafKind) : (s.post n k).intxPend = s.intxPend := rfl
@[simp] theorem State.post_intxOn (n : Nat) (k : LeafKind) : (s.post n k).intxOn = s.intxOn := rfl
@[simp] theorem State.post_standby (n : Nat) (k : LeafKind) : (s.post n k).standby = s.standby := rfl
@[simp] theorem State.post_hostTries (n : Nat) (k : LeafKind) : (s.post n k).hostTries = s.hostTries := rfl
@[simp] theorem State.post_col (n : Nat) (k : LeafKind) : (s.post n k).col = s.col := rfl
@[simp] theorem State.post_svc (n : Nat) (k : LeafKind) : (s.post n k).svc = s.svc := rfl
@[simp] theorem State.post_reg (n : Nat) (k : LeafKind) (r : Nat) : (s.post n k).reg r = s.reg r := rfl
@[simp] theorem State.post_f (n : Nat) (k : LeafKind) (r : Fld) : (s.post n k).f r = s.f r := rfl
@[simp] theorem State.post_spareFuse (n : Nat) (k : LeafKind) : (s.post n k).spareFuse = s.spareFuse := rfl
@[simp] theorem State.post_replicas (n : Nat) (k : LeafKind) : (s.post n k).replicas = s.replicas := rfl
@[simp] theorem State.post_recoveries (n : Nat) (k : LeafKind) : (s.post n k).recoveries = s.recoveries := rfl
@[simp] theorem State.post_writes (n : Nat) (k : LeafKind) : (s.post n k).writes = s.writes := rfl
@[simp] theorem State.post_floorsDue (n : Nat) (k : LeafKind) : (s.post n k).floorsDue = s.floorsDue := rfl
@[simp] theorem State.post_held (n : Nat) (k : LeafKind) : (s.post n k).held = s.held := rfl

/-! ### unpost -/

@[simp] theorem State.unpost_pending (k : LeafKind) : (s.unpost k).pending = s.pending := rfl
@[simp] theorem State.unpost_regs (k : LeafKind) : (s.unpost k).regs = s.regs := rfl
@[simp] theorem State.unpost_sent (k : LeafKind) : (s.unpost k).sent = s.sent := rfl
@[simp] theorem State.unpost_free (k : LeafKind) : (s.unpost k).free = s.free := rfl
@[simp] theorem State.unpost_tb (k : LeafKind) : (s.unpost k).tb = s.tb := rfl
@[simp] theorem State.unpost_slots (k : LeafKind) : (s.unpost k).slots = s.slots := rfl
@[simp] theorem State.unpost_waiting (k : LeafKind) : (s.unpost k).waiting = s.waiting := rfl
@[simp] theorem State.unpost_lateRow (k : LeafKind) : (s.unpost k).lateRow = s.lateRow := rfl
@[simp] theorem State.unpost_dirty (k : LeafKind) : (s.unpost k).dirty = s.dirty := rfl
@[simp] theorem State.unpost_released (k : LeafKind) : (s.unpost k).released = s.released := rfl
@[simp] theorem State.unpost_logQueue (k : LeafKind) : (s.unpost k).logQueue = s.logQueue := rfl
@[simp] theorem State.unpost_lockFrom (k : LeafKind) : (s.unpost k).lockFrom = s.lockFrom := rfl
@[simp] theorem State.unpost_stopped (k : LeafKind) : (s.unpost k).stopped = s.stopped := rfl
@[simp] theorem State.unpost_deadDies (k : LeafKind) : (s.unpost k).deadDies = s.deadDies := rfl
@[simp] theorem State.unpost_off (k : LeafKind) : (s.unpost k).off = s.off := rfl
@[simp] theorem State.unpost_mainEn (k : LeafKind) : (s.unpost k).mainEn = s.mainEn := rfl
@[simp] theorem State.unpost_mainPg (k : LeafKind) : (s.unpost k).mainPg = s.mainPg := rfl
@[simp] theorem State.unpost_bootAt (k : LeafKind) : (s.unpost k).bootAt = s.bootAt := rfl
@[simp] theorem State.unpost_heldReqs (k : LeafKind) : (s.unpost k).heldReqs = s.heldReqs := rfl
@[simp] theorem State.unpost_harts (k : LeafKind) : (s.unpost k).harts = s.harts := rfl
@[simp] theorem State.unpost_cores (k : LeafKind) : (s.unpost k).cores = s.cores := rfl
@[simp] theorem State.unpost_hb (k : LeafKind) : (s.unpost k).hb = s.hb := rfl
@[simp] theorem State.unpost_thermtrip (k : LeafKind) : (s.unpost k).thermtrip = s.thermtrip := rfl
@[simp] theorem State.unpost_tiles (k : LeafKind) : (s.unpost k).tiles = s.tiles := rfl
@[simp] theorem State.unpost_slices (k : LeafKind) : (s.unpost k).slices = s.slices := rfl
@[simp] theorem State.unpost_curCopies (k : LeafKind) : (s.unpost k).curCopies = s.curCopies := rfl
@[simp] theorem State.unpost_stuck (k : LeafKind) : (s.unpost k).stuck = s.stuck := rfl
@[simp] theorem State.unpost_mesh (k : LeafKind) : (s.unpost k).mesh = s.mesh := rfl
@[simp] theorem State.unpost_raw (k : LeafKind) : (s.unpost k).raw = s.raw := rfl
@[simp] theorem State.unpost_dram (k : LeafKind) : (s.unpost k).dram = s.dram := rfl
@[simp] theorem State.unpost_checks (k : LeafKind) : (s.unpost k).checks = s.checks := rfl
@[simp] theorem State.unpost_channels (k : LeafKind) : (s.unpost k).channels = s.channels := rfl
@[simp] theorem State.unpost_weights (k : LeafKind) : (s.unpost k).weights = s.weights := rfl
@[simp] theorem State.unpost_fillStart (k : LeafKind) : (s.unpost k).fillStart = s.fillStart := rfl
@[simp] theorem State.unpost_life (k : LeafKind) : (s.unpost k).life = s.life := rfl
@[simp] theorem State.unpost_journal (k : LeafKind) : (s.unpost k).journal = s.journal := rfl
@[simp] theorem State.unpost_seqNext (k : LeafKind) : (s.unpost k).seqNext = s.seqNext := rfl
@[simp] theorem State.unpost_queues (k : LeafKind) : (s.unpost k).queues = s.queues := rfl
@[simp] theorem State.unpost_reqs (k : LeafKind) : (s.unpost k).reqs = s.reqs := rfl
@[simp] theorem State.unpost_reqNext (k : LeafKind) : (s.unpost k).reqNext = s.reqNext := rfl
@[simp] theorem State.unpost_kept (k : LeafKind) : (s.unpost k).kept = s.kept := rfl
@[simp] theorem State.unpost_reports (k : LeafKind) : (s.unpost k).reports = s.reports := rfl
@[simp] theorem State.unpost_afterDone (k : LeafKind) : (s.unpost k).afterDone = s.afterDone := rfl
@[simp] theorem State.unpost_pathBad (k : LeafKind) : (s.unpost k).pathBad = s.pathBad := rfl
@[simp] theorem State.unpost_cto (k : LeafKind) : (s.unpost k).cto = s.cto := rfl
@[simp] theorem State.unpost_frames (k : LeafKind) : (s.unpost k).frames = s.frames := rfl
@[simp] theorem State.unpost_insts (k : LeafKind) : (s.unpost k).insts = s.insts := rfl
@[simp] theorem State.unpost_buckets (k : LeafKind) : (s.unpost k).buckets = s.buckets := rfl
@[simp] theorem State.unpost_bucketAt (k : LeafKind) : (s.unpost k).bucketAt = s.bucketAt := rfl
@[simp] theorem State.unpost_lfsr (k : LeafKind) : (s.unpost k).lfsr = s.lfsr := rfl
@[simp] theorem State.unpost_losses (k : LeafKind) : (s.unpost k).losses = s.losses := rfl
@[simp] theorem State.unpost_lastQueue (k : LeafKind) : (s.unpost k).lastQueue = s.lastQueue := rfl
@[simp] theorem State.unpost_grants (k : LeafKind) : (s.unpost k).grants = s.grants := rfl
@[simp] theorem State.unpost_engines (k : LeafKind) : (s.unpost k).engines = s.engines := rfl
@[simp] theorem State.unpost_rxSel (k : LeafKind) : (s.unpost k).rxSel = s.rxSel := rfl
@[simp] theorem State.unpost_extCredit (k : LeafKind) : (s.unpost k).extCredit = s.extCredit := rfl
@[simp] theorem State.unpost_selfTests (k : LeafKind) : (s.unpost k).selfTests = s.selfTests := rfl
@[simp] theorem State.unpost_jobs (k : LeafKind) : (s.unpost k).jobs = s.jobs := rfl
@[simp] theorem State.unpost_jobNext (k : LeafKind) : (s.unpost k).jobNext = s.jobNext := rfl
@[simp] theorem State.unpost_keys (k : LeafKind) : (s.unpost k).keys = s.keys := rfl
@[simp] theorem State.unpost_handleKey (k : LeafKind) : (s.unpost k).handleKey = s.handleKey := rfl
@[simp] theorem State.unpost_boot (k : LeafKind) : (s.unpost k).boot = s.boot := rfl
@[simp] theorem State.unpost_ports (k : LeafKind) : (s.unpost k).ports = s.ports := rfl
@[simp] theorem State.unpost_laneSwap (k : LeafKind) : (s.unpost k).laneSwap = s.laneSwap := rfl
@[simp] theorem State.unpost_blinks (k : LeafKind) : (s.unpost k).blinks = s.blinks := rfl
@[simp] theorem State.unpost_blWaiting (k : LeafKind) : (s.unpost k).blWaiting = s.blWaiting := rfl
@[simp] theorem State.unpost_peerSince (k : LeafKind) : (s.unpost k).peerSince = s.peerSince := rfl
@[simp] theorem State.unpost_decoders (k : LeafKind) : (s.unpost k).decoders = s.decoders := rfl
@[simp] theorem State.unpost_ep (k : LeafKind) : (s.unpost k).ep = s.ep := rfl
@[simp] theorem State.unpost_vfs (k : LeafKind) : (s.unpost k).vfs = s.vfs := rfl
@[simp] theorem State.unpost_intxPend (k : LeafKind) : (s.unpost k).intxPend = s.intxPend := rfl
@[simp] theorem State.unpost_intxOn (k : LeafKind) : (s.unpost k).intxOn = s.intxOn := rfl
@[simp] theorem State.unpost_standby (k : LeafKind) : (s.unpost k).standby = s.standby := rfl
@[simp] theorem State.unpost_hostTries (k : LeafKind) : (s.unpost k).hostTries = s.hostTries := rfl
@[simp] theorem State.unpost_col (k : LeafKind) : (s.unpost k).col = s.col := rfl
@[simp] theorem State.unpost_svc (k : LeafKind) : (s.unpost k).svc = s.svc := rfl
@[simp] theorem State.unpost_reg (k : LeafKind) (r : Nat) : (s.unpost k).reg r = s.reg r := rfl
@[simp] theorem State.unpost_f (k : LeafKind) (r : Fld) : (s.unpost k).f r = s.f r := rfl
@[simp] theorem State.unpost_spareFuse (k : LeafKind) : (s.unpost k).spareFuse = s.spareFuse := rfl
@[simp] theorem State.unpost_replicas (k : LeafKind) : (s.unpost k).replicas = s.replicas := rfl
@[simp] theorem State.unpost_recoveries (k : LeafKind) : (s.unpost k).recoveries = s.recoveries := rfl
@[simp] theorem State.unpost_writes (k : LeafKind) : (s.unpost k).writes = s.writes := rfl
@[simp] theorem State.unpost_floorsDue (k : LeafKind) : (s.unpost k).floorsDue = s.floorsDue := rfl
@[simp] theorem State.unpost_held (k : LeafKind) : (s.unpost k).held = s.held := rfl

/-! ### modHart -/

@[simp] theorem State.modHart_pending (h : Nat) (g : Hart → Hart) : (s.modHart h g).pending = s.pending := rfl
@[simp] theorem State.modHart_regs (h : Nat) (g : Hart → Hart) : (s.modHart h g).regs = s.regs := rfl
@[simp] theorem State.modHart_sent (h : Nat) (g : Hart → Hart) : (s.modHart h g).sent = s.sent := rfl
@[simp] theorem State.modHart_free (h : Nat) (g : Hart → Hart) : (s.modHart h g).free = s.free := rfl
@[simp] theorem State.modHart_posted (h : Nat) (g : Hart → Hart) : (s.modHart h g).posted = s.posted := rfl
@[simp] theorem State.modHart_lateRow (h : Nat) (g : Hart → Hart) : (s.modHart h g).lateRow = s.lateRow := rfl
@[simp] theorem State.modHart_tb (h : Nat) (g : Hart → Hart) : (s.modHart h g).tb = s.tb := rfl
@[simp] theorem State.modHart_slots (h : Nat) (g : Hart → Hart) : (s.modHart h g).slots = s.slots := rfl
@[simp] theorem State.modHart_waiting (h : Nat) (g : Hart → Hart) : (s.modHart h g).waiting = s.waiting := rfl
@[simp] theorem State.modHart_dirty (h : Nat) (g : Hart → Hart) : (s.modHart h g).dirty = s.dirty := rfl
@[simp] theorem State.modHart_released (h : Nat) (g : Hart → Hart) : (s.modHart h g).released = s.released := rfl
@[simp] theorem State.modHart_logQueue (h : Nat) (g : Hart → Hart) : (s.modHart h g).logQueue = s.logQueue := rfl
@[simp] theorem State.modHart_lockFrom (h : Nat) (g : Hart → Hart) : (s.modHart h g).lockFrom = s.lockFrom := rfl
@[simp] theorem State.modHart_stopped (h : Nat) (g : Hart → Hart) : (s.modHart h g).stopped = s.stopped := rfl
@[simp] theorem State.modHart_deadDies (h : Nat) (g : Hart → Hart) : (s.modHart h g).deadDies = s.deadDies := rfl
@[simp] theorem State.modHart_off (h : Nat) (g : Hart → Hart) : (s.modHart h g).off = s.off := rfl
@[simp] theorem State.modHart_mainEn (h : Nat) (g : Hart → Hart) : (s.modHart h g).mainEn = s.mainEn := rfl
@[simp] theorem State.modHart_mainPg (h : Nat) (g : Hart → Hart) : (s.modHart h g).mainPg = s.mainPg := rfl
@[simp] theorem State.modHart_bootAt (h : Nat) (g : Hart → Hart) : (s.modHart h g).bootAt = s.bootAt := rfl
@[simp] theorem State.modHart_heldReqs (h : Nat) (g : Hart → Hart) : (s.modHart h g).heldReqs = s.heldReqs := rfl
@[simp] theorem State.modHart_cores (h : Nat) (g : Hart → Hart) : (s.modHart h g).cores = s.cores := rfl
@[simp] theorem State.modHart_hb (h : Nat) (g : Hart → Hart) : (s.modHart h g).hb = s.hb := rfl
@[simp] theorem State.modHart_thermtrip (h : Nat) (g : Hart → Hart) : (s.modHart h g).thermtrip = s.thermtrip := rfl
@[simp] theorem State.modHart_tiles (h : Nat) (g : Hart → Hart) : (s.modHart h g).tiles = s.tiles := rfl
@[simp] theorem State.modHart_slices (h : Nat) (g : Hart → Hart) : (s.modHart h g).slices = s.slices := rfl
@[simp] theorem State.modHart_curCopies (h : Nat) (g : Hart → Hart) : (s.modHart h g).curCopies = s.curCopies := rfl
@[simp] theorem State.modHart_stuck (h : Nat) (g : Hart → Hart) : (s.modHart h g).stuck = s.stuck := rfl
@[simp] theorem State.modHart_mesh (h : Nat) (g : Hart → Hart) : (s.modHart h g).mesh = s.mesh := rfl
@[simp] theorem State.modHart_raw (h : Nat) (g : Hart → Hart) : (s.modHart h g).raw = s.raw := rfl
@[simp] theorem State.modHart_dram (h : Nat) (g : Hart → Hart) : (s.modHart h g).dram = s.dram := rfl
@[simp] theorem State.modHart_checks (h : Nat) (g : Hart → Hart) : (s.modHart h g).checks = s.checks := rfl
@[simp] theorem State.modHart_channels (h : Nat) (g : Hart → Hart) : (s.modHart h g).channels = s.channels := rfl
@[simp] theorem State.modHart_weights (h : Nat) (g : Hart → Hart) : (s.modHart h g).weights = s.weights := rfl
@[simp] theorem State.modHart_fillStart (h : Nat) (g : Hart → Hart) : (s.modHart h g).fillStart = s.fillStart := rfl
@[simp] theorem State.modHart_life (h : Nat) (g : Hart → Hart) : (s.modHart h g).life = s.life := rfl
@[simp] theorem State.modHart_journal (h : Nat) (g : Hart → Hart) : (s.modHart h g).journal = s.journal := rfl
@[simp] theorem State.modHart_seqNext (h : Nat) (g : Hart → Hart) : (s.modHart h g).seqNext = s.seqNext := rfl
@[simp] theorem State.modHart_queues (h : Nat) (g : Hart → Hart) : (s.modHart h g).queues = s.queues := rfl
@[simp] theorem State.modHart_reqs (h : Nat) (g : Hart → Hart) : (s.modHart h g).reqs = s.reqs := rfl
@[simp] theorem State.modHart_reqNext (h : Nat) (g : Hart → Hart) : (s.modHart h g).reqNext = s.reqNext := rfl
@[simp] theorem State.modHart_kept (h : Nat) (g : Hart → Hart) : (s.modHart h g).kept = s.kept := rfl
@[simp] theorem State.modHart_reports (h : Nat) (g : Hart → Hart) : (s.modHart h g).reports = s.reports := rfl
@[simp] theorem State.modHart_afterDone (h : Nat) (g : Hart → Hart) : (s.modHart h g).afterDone = s.afterDone := rfl
@[simp] theorem State.modHart_pathBad (h : Nat) (g : Hart → Hart) : (s.modHart h g).pathBad = s.pathBad := rfl
@[simp] theorem State.modHart_cto (h : Nat) (g : Hart → Hart) : (s.modHart h g).cto = s.cto := rfl
@[simp] theorem State.modHart_frames (h : Nat) (g : Hart → Hart) : (s.modHart h g).frames = s.frames := rfl
@[simp] theorem State.modHart_insts (h : Nat) (g : Hart → Hart) : (s.modHart h g).insts = s.insts := rfl
@[simp] theorem State.modHart_buckets (h : Nat) (g : Hart → Hart) : (s.modHart h g).buckets = s.buckets := rfl
@[simp] theorem State.modHart_bucketAt (h : Nat) (g : Hart → Hart) : (s.modHart h g).bucketAt = s.bucketAt := rfl
@[simp] theorem State.modHart_lfsr (h : Nat) (g : Hart → Hart) : (s.modHart h g).lfsr = s.lfsr := rfl
@[simp] theorem State.modHart_losses (h : Nat) (g : Hart → Hart) : (s.modHart h g).losses = s.losses := rfl
@[simp] theorem State.modHart_lastQueue (h : Nat) (g : Hart → Hart) : (s.modHart h g).lastQueue = s.lastQueue := rfl
@[simp] theorem State.modHart_grants (h : Nat) (g : Hart → Hart) : (s.modHart h g).grants = s.grants := rfl
@[simp] theorem State.modHart_engines (h : Nat) (g : Hart → Hart) : (s.modHart h g).engines = s.engines := rfl
@[simp] theorem State.modHart_rxSel (h : Nat) (g : Hart → Hart) : (s.modHart h g).rxSel = s.rxSel := rfl
@[simp] theorem State.modHart_extCredit (h : Nat) (g : Hart → Hart) : (s.modHart h g).extCredit = s.extCredit := rfl
@[simp] theorem State.modHart_selfTests (h : Nat) (g : Hart → Hart) : (s.modHart h g).selfTests = s.selfTests := rfl
@[simp] theorem State.modHart_jobs (h : Nat) (g : Hart → Hart) : (s.modHart h g).jobs = s.jobs := rfl
@[simp] theorem State.modHart_jobNext (h : Nat) (g : Hart → Hart) : (s.modHart h g).jobNext = s.jobNext := rfl
@[simp] theorem State.modHart_keys (h : Nat) (g : Hart → Hart) : (s.modHart h g).keys = s.keys := rfl
@[simp] theorem State.modHart_handleKey (h : Nat) (g : Hart → Hart) : (s.modHart h g).handleKey = s.handleKey := rfl
@[simp] theorem State.modHart_boot (h : Nat) (g : Hart → Hart) : (s.modHart h g).boot = s.boot := rfl
@[simp] theorem State.modHart_ports (h : Nat) (g : Hart → Hart) : (s.modHart h g).ports = s.ports := rfl
@[simp] theorem State.modHart_laneSwap (h : Nat) (g : Hart → Hart) : (s.modHart h g).laneSwap = s.laneSwap := rfl
@[simp] theorem State.modHart_blinks (h : Nat) (g : Hart → Hart) : (s.modHart h g).blinks = s.blinks := rfl
@[simp] theorem State.modHart_blWaiting (h : Nat) (g : Hart → Hart) : (s.modHart h g).blWaiting = s.blWaiting := rfl
@[simp] theorem State.modHart_peerSince (h : Nat) (g : Hart → Hart) : (s.modHart h g).peerSince = s.peerSince := rfl
@[simp] theorem State.modHart_decoders (h : Nat) (g : Hart → Hart) : (s.modHart h g).decoders = s.decoders := rfl
@[simp] theorem State.modHart_ep (h : Nat) (g : Hart → Hart) : (s.modHart h g).ep = s.ep := rfl
@[simp] theorem State.modHart_vfs (h : Nat) (g : Hart → Hart) : (s.modHart h g).vfs = s.vfs := rfl
@[simp] theorem State.modHart_intxPend (h : Nat) (g : Hart → Hart) : (s.modHart h g).intxPend = s.intxPend := rfl
@[simp] theorem State.modHart_intxOn (h : Nat) (g : Hart → Hart) : (s.modHart h g).intxOn = s.intxOn := rfl
@[simp] theorem State.modHart_standby (h : Nat) (g : Hart → Hart) : (s.modHart h g).standby = s.standby := rfl
@[simp] theorem State.modHart_hostTries (h : Nat) (g : Hart → Hart) : (s.modHart h g).hostTries = s.hostTries := rfl
@[simp] theorem State.modHart_col (h : Nat) (g : Hart → Hart) : (s.modHart h g).col = s.col := rfl
@[simp] theorem State.modHart_svc (h : Nat) (g : Hart → Hart) : (s.modHart h g).svc = s.svc := rfl
@[simp] theorem State.modHart_reg (h : Nat) (g : Hart → Hart) (r : Nat) : (s.modHart h g).reg r = s.reg r := rfl
@[simp] theorem State.modHart_f (h : Nat) (g : Hart → Hart) (r : Fld) : (s.modHart h g).f r = s.f r := rfl
@[simp] theorem State.modHart_spareFuse (h : Nat) (g : Hart → Hart) : (s.modHart h g).spareFuse = s.spareFuse := rfl
@[simp] theorem State.modHart_replicas (h : Nat) (g : Hart → Hart) : (s.modHart h g).replicas = s.replicas := rfl
@[simp] theorem State.modHart_recoveries (h : Nat) (g : Hart → Hart) : (s.modHart h g).recoveries = s.recoveries := rfl
@[simp] theorem State.modHart_writes (h : Nat) (g : Hart → Hart) : (s.modHart h g).writes = s.writes := rfl
@[simp] theorem State.modHart_floorsDue (h : Nat) (g : Hart → Hart) : (s.modHart h g).floorsDue = s.floorsDue := rfl
@[simp] theorem State.modHart_held (h : Nat) (g : Hart → Hart) : (s.modHart h g).held = s.held := rfl

/-! ### modCore -/

@[simp] theorem State.modCore_pending (c : Nat) (g : Core → Core) : (s.modCore c g).pending = s.pending := rfl
@[simp] theorem State.modCore_regs (c : Nat) (g : Core → Core) : (s.modCore c g).regs = s.regs := rfl
@[simp] theorem State.modCore_sent (c : Nat) (g : Core → Core) : (s.modCore c g).sent = s.sent := rfl
@[simp] theorem State.modCore_free (c : Nat) (g : Core → Core) : (s.modCore c g).free = s.free := rfl
@[simp] theorem State.modCore_posted (c : Nat) (g : Core → Core) : (s.modCore c g).posted = s.posted := rfl
@[simp] theorem State.modCore_lateRow (c : Nat) (g : Core → Core) : (s.modCore c g).lateRow = s.lateRow := rfl
@[simp] theorem State.modCore_tb (c : Nat) (g : Core → Core) : (s.modCore c g).tb = s.tb := rfl
@[simp] theorem State.modCore_slots (c : Nat) (g : Core → Core) : (s.modCore c g).slots = s.slots := rfl
@[simp] theorem State.modCore_waiting (c : Nat) (g : Core → Core) : (s.modCore c g).waiting = s.waiting := rfl
@[simp] theorem State.modCore_dirty (c : Nat) (g : Core → Core) : (s.modCore c g).dirty = s.dirty := rfl
@[simp] theorem State.modCore_released (c : Nat) (g : Core → Core) : (s.modCore c g).released = s.released := rfl
@[simp] theorem State.modCore_logQueue (c : Nat) (g : Core → Core) : (s.modCore c g).logQueue = s.logQueue := rfl
@[simp] theorem State.modCore_lockFrom (c : Nat) (g : Core → Core) : (s.modCore c g).lockFrom = s.lockFrom := rfl
@[simp] theorem State.modCore_stopped (c : Nat) (g : Core → Core) : (s.modCore c g).stopped = s.stopped := rfl
@[simp] theorem State.modCore_deadDies (c : Nat) (g : Core → Core) : (s.modCore c g).deadDies = s.deadDies := rfl
@[simp] theorem State.modCore_off (c : Nat) (g : Core → Core) : (s.modCore c g).off = s.off := rfl
@[simp] theorem State.modCore_mainEn (c : Nat) (g : Core → Core) : (s.modCore c g).mainEn = s.mainEn := rfl
@[simp] theorem State.modCore_mainPg (c : Nat) (g : Core → Core) : (s.modCore c g).mainPg = s.mainPg := rfl
@[simp] theorem State.modCore_bootAt (c : Nat) (g : Core → Core) : (s.modCore c g).bootAt = s.bootAt := rfl
@[simp] theorem State.modCore_heldReqs (c : Nat) (g : Core → Core) : (s.modCore c g).heldReqs = s.heldReqs := rfl
@[simp] theorem State.modCore_harts (c : Nat) (g : Core → Core) : (s.modCore c g).harts = s.harts := rfl
@[simp] theorem State.modCore_hb (c : Nat) (g : Core → Core) : (s.modCore c g).hb = s.hb := rfl
@[simp] theorem State.modCore_thermtrip (c : Nat) (g : Core → Core) : (s.modCore c g).thermtrip = s.thermtrip := rfl
@[simp] theorem State.modCore_tiles (c : Nat) (g : Core → Core) : (s.modCore c g).tiles = s.tiles := rfl
@[simp] theorem State.modCore_slices (c : Nat) (g : Core → Core) : (s.modCore c g).slices = s.slices := rfl
@[simp] theorem State.modCore_curCopies (c : Nat) (g : Core → Core) : (s.modCore c g).curCopies = s.curCopies := rfl
@[simp] theorem State.modCore_stuck (c : Nat) (g : Core → Core) : (s.modCore c g).stuck = s.stuck := rfl
@[simp] theorem State.modCore_mesh (c : Nat) (g : Core → Core) : (s.modCore c g).mesh = s.mesh := rfl
@[simp] theorem State.modCore_raw (c : Nat) (g : Core → Core) : (s.modCore c g).raw = s.raw := rfl
@[simp] theorem State.modCore_dram (c : Nat) (g : Core → Core) : (s.modCore c g).dram = s.dram := rfl
@[simp] theorem State.modCore_checks (c : Nat) (g : Core → Core) : (s.modCore c g).checks = s.checks := rfl
@[simp] theorem State.modCore_channels (c : Nat) (g : Core → Core) : (s.modCore c g).channels = s.channels := rfl
@[simp] theorem State.modCore_weights (c : Nat) (g : Core → Core) : (s.modCore c g).weights = s.weights := rfl
@[simp] theorem State.modCore_fillStart (c : Nat) (g : Core → Core) : (s.modCore c g).fillStart = s.fillStart := rfl
@[simp] theorem State.modCore_life (c : Nat) (g : Core → Core) : (s.modCore c g).life = s.life := rfl
@[simp] theorem State.modCore_journal (c : Nat) (g : Core → Core) : (s.modCore c g).journal = s.journal := rfl
@[simp] theorem State.modCore_seqNext (c : Nat) (g : Core → Core) : (s.modCore c g).seqNext = s.seqNext := rfl
@[simp] theorem State.modCore_queues (c : Nat) (g : Core → Core) : (s.modCore c g).queues = s.queues := rfl
@[simp] theorem State.modCore_reqs (c : Nat) (g : Core → Core) : (s.modCore c g).reqs = s.reqs := rfl
@[simp] theorem State.modCore_reqNext (c : Nat) (g : Core → Core) : (s.modCore c g).reqNext = s.reqNext := rfl
@[simp] theorem State.modCore_kept (c : Nat) (g : Core → Core) : (s.modCore c g).kept = s.kept := rfl
@[simp] theorem State.modCore_reports (c : Nat) (g : Core → Core) : (s.modCore c g).reports = s.reports := rfl
@[simp] theorem State.modCore_afterDone (c : Nat) (g : Core → Core) : (s.modCore c g).afterDone = s.afterDone := rfl
@[simp] theorem State.modCore_pathBad (c : Nat) (g : Core → Core) : (s.modCore c g).pathBad = s.pathBad := rfl
@[simp] theorem State.modCore_cto (c : Nat) (g : Core → Core) : (s.modCore c g).cto = s.cto := rfl
@[simp] theorem State.modCore_frames (c : Nat) (g : Core → Core) : (s.modCore c g).frames = s.frames := rfl
@[simp] theorem State.modCore_insts (c : Nat) (g : Core → Core) : (s.modCore c g).insts = s.insts := rfl
@[simp] theorem State.modCore_buckets (c : Nat) (g : Core → Core) : (s.modCore c g).buckets = s.buckets := rfl
@[simp] theorem State.modCore_bucketAt (c : Nat) (g : Core → Core) : (s.modCore c g).bucketAt = s.bucketAt := rfl
@[simp] theorem State.modCore_lfsr (c : Nat) (g : Core → Core) : (s.modCore c g).lfsr = s.lfsr := rfl
@[simp] theorem State.modCore_losses (c : Nat) (g : Core → Core) : (s.modCore c g).losses = s.losses := rfl
@[simp] theorem State.modCore_lastQueue (c : Nat) (g : Core → Core) : (s.modCore c g).lastQueue = s.lastQueue := rfl
@[simp] theorem State.modCore_grants (c : Nat) (g : Core → Core) : (s.modCore c g).grants = s.grants := rfl
@[simp] theorem State.modCore_engines (c : Nat) (g : Core → Core) : (s.modCore c g).engines = s.engines := rfl
@[simp] theorem State.modCore_rxSel (c : Nat) (g : Core → Core) : (s.modCore c g).rxSel = s.rxSel := rfl
@[simp] theorem State.modCore_extCredit (c : Nat) (g : Core → Core) : (s.modCore c g).extCredit = s.extCredit := rfl
@[simp] theorem State.modCore_selfTests (c : Nat) (g : Core → Core) : (s.modCore c g).selfTests = s.selfTests := rfl
@[simp] theorem State.modCore_jobs (c : Nat) (g : Core → Core) : (s.modCore c g).jobs = s.jobs := rfl
@[simp] theorem State.modCore_jobNext (c : Nat) (g : Core → Core) : (s.modCore c g).jobNext = s.jobNext := rfl
@[simp] theorem State.modCore_keys (c : Nat) (g : Core → Core) : (s.modCore c g).keys = s.keys := rfl
@[simp] theorem State.modCore_handleKey (c : Nat) (g : Core → Core) : (s.modCore c g).handleKey = s.handleKey := rfl
@[simp] theorem State.modCore_boot (c : Nat) (g : Core → Core) : (s.modCore c g).boot = s.boot := rfl
@[simp] theorem State.modCore_ports (c : Nat) (g : Core → Core) : (s.modCore c g).ports = s.ports := rfl
@[simp] theorem State.modCore_laneSwap (c : Nat) (g : Core → Core) : (s.modCore c g).laneSwap = s.laneSwap := rfl
@[simp] theorem State.modCore_blinks (c : Nat) (g : Core → Core) : (s.modCore c g).blinks = s.blinks := rfl
@[simp] theorem State.modCore_blWaiting (c : Nat) (g : Core → Core) : (s.modCore c g).blWaiting = s.blWaiting := rfl
@[simp] theorem State.modCore_peerSince (c : Nat) (g : Core → Core) : (s.modCore c g).peerSince = s.peerSince := rfl
@[simp] theorem State.modCore_decoders (c : Nat) (g : Core → Core) : (s.modCore c g).decoders = s.decoders := rfl
@[simp] theorem State.modCore_ep (c : Nat) (g : Core → Core) : (s.modCore c g).ep = s.ep := rfl
@[simp] theorem State.modCore_vfs (c : Nat) (g : Core → Core) : (s.modCore c g).vfs = s.vfs := rfl
@[simp] theorem State.modCore_intxPend (c : Nat) (g : Core → Core) : (s.modCore c g).intxPend = s.intxPend := rfl
@[simp] theorem State.modCore_intxOn (c : Nat) (g : Core → Core) : (s.modCore c g).intxOn = s.intxOn := rfl
@[simp] theorem State.modCore_standby (c : Nat) (g : Core → Core) : (s.modCore c g).standby = s.standby := rfl
@[simp] theorem State.modCore_hostTries (c : Nat) (g : Core → Core) : (s.modCore c g).hostTries = s.hostTries := rfl
@[simp] theorem State.modCore_col (c : Nat) (g : Core → Core) : (s.modCore c g).col = s.col := rfl
@[simp] theorem State.modCore_svc (c : Nat) (g : Core → Core) : (s.modCore c g).svc = s.svc := rfl
@[simp] theorem State.modCore_reg (c : Nat) (g : Core → Core) (r : Nat) : (s.modCore c g).reg r = s.reg r := rfl
@[simp] theorem State.modCore_f (c : Nat) (g : Core → Core) (r : Fld) : (s.modCore c g).f r = s.f r := rfl
@[simp] theorem State.modCore_spareFuse (c : Nat) (g : Core → Core) : (s.modCore c g).spareFuse = s.spareFuse := rfl
@[simp] theorem State.modCore_replicas (c : Nat) (g : Core → Core) : (s.modCore c g).replicas = s.replicas := rfl
@[simp] theorem State.modCore_recoveries (c : Nat) (g : Core → Core) : (s.modCore c g).recoveries = s.recoveries := rfl
@[simp] theorem State.modCore_writes (c : Nat) (g : Core → Core) : (s.modCore c g).writes = s.writes := rfl
@[simp] theorem State.modCore_floorsDue (c : Nat) (g : Core → Core) : (s.modCore c g).floorsDue = s.floorsDue := rfl
@[simp] theorem State.modCore_held (c : Nat) (g : Core → Core) : (s.modCore c g).held = s.held := rfl

/-! ### modTile -/

@[simp] theorem State.modTile_pending (n : Nat) (g : Tile → Tile) : (s.modTile n g).pending = s.pending := rfl
@[simp] theorem State.modTile_regs (n : Nat) (g : Tile → Tile) : (s.modTile n g).regs = s.regs := rfl
@[simp] theorem State.modTile_sent (n : Nat) (g : Tile → Tile) : (s.modTile n g).sent = s.sent := rfl
@[simp] theorem State.modTile_free (n : Nat) (g : Tile → Tile) : (s.modTile n g).free = s.free := rfl
@[simp] theorem State.modTile_posted (n : Nat) (g : Tile → Tile) : (s.modTile n g).posted = s.posted := rfl
@[simp] theorem State.modTile_lateRow (n : Nat) (g : Tile → Tile) : (s.modTile n g).lateRow = s.lateRow := rfl
@[simp] theorem State.modTile_tb (n : Nat) (g : Tile → Tile) : (s.modTile n g).tb = s.tb := rfl
@[simp] theorem State.modTile_slots (n : Nat) (g : Tile → Tile) : (s.modTile n g).slots = s.slots := rfl
@[simp] theorem State.modTile_waiting (n : Nat) (g : Tile → Tile) : (s.modTile n g).waiting = s.waiting := rfl
@[simp] theorem State.modTile_dirty (n : Nat) (g : Tile → Tile) : (s.modTile n g).dirty = s.dirty := rfl
@[simp] theorem State.modTile_released (n : Nat) (g : Tile → Tile) : (s.modTile n g).released = s.released := rfl
@[simp] theorem State.modTile_logQueue (n : Nat) (g : Tile → Tile) : (s.modTile n g).logQueue = s.logQueue := rfl
@[simp] theorem State.modTile_lockFrom (n : Nat) (g : Tile → Tile) : (s.modTile n g).lockFrom = s.lockFrom := rfl
@[simp] theorem State.modTile_stopped (n : Nat) (g : Tile → Tile) : (s.modTile n g).stopped = s.stopped := rfl
@[simp] theorem State.modTile_deadDies (n : Nat) (g : Tile → Tile) : (s.modTile n g).deadDies = s.deadDies := rfl
@[simp] theorem State.modTile_off (n : Nat) (g : Tile → Tile) : (s.modTile n g).off = s.off := rfl
@[simp] theorem State.modTile_mainEn (n : Nat) (g : Tile → Tile) : (s.modTile n g).mainEn = s.mainEn := rfl
@[simp] theorem State.modTile_mainPg (n : Nat) (g : Tile → Tile) : (s.modTile n g).mainPg = s.mainPg := rfl
@[simp] theorem State.modTile_bootAt (n : Nat) (g : Tile → Tile) : (s.modTile n g).bootAt = s.bootAt := rfl
@[simp] theorem State.modTile_heldReqs (n : Nat) (g : Tile → Tile) : (s.modTile n g).heldReqs = s.heldReqs := rfl
@[simp] theorem State.modTile_harts (n : Nat) (g : Tile → Tile) : (s.modTile n g).harts = s.harts := rfl
@[simp] theorem State.modTile_cores (n : Nat) (g : Tile → Tile) : (s.modTile n g).cores = s.cores := rfl
@[simp] theorem State.modTile_hb (n : Nat) (g : Tile → Tile) : (s.modTile n g).hb = s.hb := rfl
@[simp] theorem State.modTile_thermtrip (n : Nat) (g : Tile → Tile) : (s.modTile n g).thermtrip = s.thermtrip := rfl
@[simp] theorem State.modTile_slices (n : Nat) (g : Tile → Tile) : (s.modTile n g).slices = s.slices := rfl
@[simp] theorem State.modTile_curCopies (n : Nat) (g : Tile → Tile) : (s.modTile n g).curCopies = s.curCopies := rfl
@[simp] theorem State.modTile_stuck (n : Nat) (g : Tile → Tile) : (s.modTile n g).stuck = s.stuck := rfl
@[simp] theorem State.modTile_mesh (n : Nat) (g : Tile → Tile) : (s.modTile n g).mesh = s.mesh := rfl
@[simp] theorem State.modTile_raw (n : Nat) (g : Tile → Tile) : (s.modTile n g).raw = s.raw := rfl
@[simp] theorem State.modTile_dram (n : Nat) (g : Tile → Tile) : (s.modTile n g).dram = s.dram := rfl
@[simp] theorem State.modTile_checks (n : Nat) (g : Tile → Tile) : (s.modTile n g).checks = s.checks := rfl
@[simp] theorem State.modTile_channels (n : Nat) (g : Tile → Tile) : (s.modTile n g).channels = s.channels := rfl
@[simp] theorem State.modTile_weights (n : Nat) (g : Tile → Tile) : (s.modTile n g).weights = s.weights := rfl
@[simp] theorem State.modTile_fillStart (n : Nat) (g : Tile → Tile) : (s.modTile n g).fillStart = s.fillStart := rfl
@[simp] theorem State.modTile_life (n : Nat) (g : Tile → Tile) : (s.modTile n g).life = s.life := rfl
@[simp] theorem State.modTile_journal (n : Nat) (g : Tile → Tile) : (s.modTile n g).journal = s.journal := rfl
@[simp] theorem State.modTile_seqNext (n : Nat) (g : Tile → Tile) : (s.modTile n g).seqNext = s.seqNext := rfl
@[simp] theorem State.modTile_queues (n : Nat) (g : Tile → Tile) : (s.modTile n g).queues = s.queues := rfl
@[simp] theorem State.modTile_reqs (n : Nat) (g : Tile → Tile) : (s.modTile n g).reqs = s.reqs := rfl
@[simp] theorem State.modTile_reqNext (n : Nat) (g : Tile → Tile) : (s.modTile n g).reqNext = s.reqNext := rfl
@[simp] theorem State.modTile_kept (n : Nat) (g : Tile → Tile) : (s.modTile n g).kept = s.kept := rfl
@[simp] theorem State.modTile_reports (n : Nat) (g : Tile → Tile) : (s.modTile n g).reports = s.reports := rfl
@[simp] theorem State.modTile_afterDone (n : Nat) (g : Tile → Tile) : (s.modTile n g).afterDone = s.afterDone := rfl
@[simp] theorem State.modTile_pathBad (n : Nat) (g : Tile → Tile) : (s.modTile n g).pathBad = s.pathBad := rfl
@[simp] theorem State.modTile_cto (n : Nat) (g : Tile → Tile) : (s.modTile n g).cto = s.cto := rfl
@[simp] theorem State.modTile_frames (n : Nat) (g : Tile → Tile) : (s.modTile n g).frames = s.frames := rfl
@[simp] theorem State.modTile_insts (n : Nat) (g : Tile → Tile) : (s.modTile n g).insts = s.insts := rfl
@[simp] theorem State.modTile_buckets (n : Nat) (g : Tile → Tile) : (s.modTile n g).buckets = s.buckets := rfl
@[simp] theorem State.modTile_bucketAt (n : Nat) (g : Tile → Tile) : (s.modTile n g).bucketAt = s.bucketAt := rfl
@[simp] theorem State.modTile_lfsr (n : Nat) (g : Tile → Tile) : (s.modTile n g).lfsr = s.lfsr := rfl
@[simp] theorem State.modTile_losses (n : Nat) (g : Tile → Tile) : (s.modTile n g).losses = s.losses := rfl
@[simp] theorem State.modTile_lastQueue (n : Nat) (g : Tile → Tile) : (s.modTile n g).lastQueue = s.lastQueue := rfl
@[simp] theorem State.modTile_grants (n : Nat) (g : Tile → Tile) : (s.modTile n g).grants = s.grants := rfl
@[simp] theorem State.modTile_engines (n : Nat) (g : Tile → Tile) : (s.modTile n g).engines = s.engines := rfl
@[simp] theorem State.modTile_rxSel (n : Nat) (g : Tile → Tile) : (s.modTile n g).rxSel = s.rxSel := rfl
@[simp] theorem State.modTile_extCredit (n : Nat) (g : Tile → Tile) : (s.modTile n g).extCredit = s.extCredit := rfl
@[simp] theorem State.modTile_selfTests (n : Nat) (g : Tile → Tile) : (s.modTile n g).selfTests = s.selfTests := rfl
@[simp] theorem State.modTile_jobs (n : Nat) (g : Tile → Tile) : (s.modTile n g).jobs = s.jobs := rfl
@[simp] theorem State.modTile_jobNext (n : Nat) (g : Tile → Tile) : (s.modTile n g).jobNext = s.jobNext := rfl
@[simp] theorem State.modTile_keys (n : Nat) (g : Tile → Tile) : (s.modTile n g).keys = s.keys := rfl
@[simp] theorem State.modTile_handleKey (n : Nat) (g : Tile → Tile) : (s.modTile n g).handleKey = s.handleKey := rfl
@[simp] theorem State.modTile_boot (n : Nat) (g : Tile → Tile) : (s.modTile n g).boot = s.boot := rfl
@[simp] theorem State.modTile_ports (n : Nat) (g : Tile → Tile) : (s.modTile n g).ports = s.ports := rfl
@[simp] theorem State.modTile_laneSwap (n : Nat) (g : Tile → Tile) : (s.modTile n g).laneSwap = s.laneSwap := rfl
@[simp] theorem State.modTile_blinks (n : Nat) (g : Tile → Tile) : (s.modTile n g).blinks = s.blinks := rfl
@[simp] theorem State.modTile_blWaiting (n : Nat) (g : Tile → Tile) : (s.modTile n g).blWaiting = s.blWaiting := rfl
@[simp] theorem State.modTile_peerSince (n : Nat) (g : Tile → Tile) : (s.modTile n g).peerSince = s.peerSince := rfl
@[simp] theorem State.modTile_decoders (n : Nat) (g : Tile → Tile) : (s.modTile n g).decoders = s.decoders := rfl
@[simp] theorem State.modTile_ep (n : Nat) (g : Tile → Tile) : (s.modTile n g).ep = s.ep := rfl
@[simp] theorem State.modTile_vfs (n : Nat) (g : Tile → Tile) : (s.modTile n g).vfs = s.vfs := rfl
@[simp] theorem State.modTile_intxPend (n : Nat) (g : Tile → Tile) : (s.modTile n g).intxPend = s.intxPend := rfl
@[simp] theorem State.modTile_intxOn (n : Nat) (g : Tile → Tile) : (s.modTile n g).intxOn = s.intxOn := rfl
@[simp] theorem State.modTile_standby (n : Nat) (g : Tile → Tile) : (s.modTile n g).standby = s.standby := rfl
@[simp] theorem State.modTile_hostTries (n : Nat) (g : Tile → Tile) : (s.modTile n g).hostTries = s.hostTries := rfl
@[simp] theorem State.modTile_col (n : Nat) (g : Tile → Tile) : (s.modTile n g).col = s.col := rfl
@[simp] theorem State.modTile_svc (n : Nat) (g : Tile → Tile) : (s.modTile n g).svc = s.svc := rfl
@[simp] theorem State.modTile_reg (n : Nat) (g : Tile → Tile) (r : Nat) : (s.modTile n g).reg r = s.reg r := rfl
@[simp] theorem State.modTile_f (n : Nat) (g : Tile → Tile) (r : Fld) : (s.modTile n g).f r = s.f r := rfl
@[simp] theorem State.modTile_spareFuse (n : Nat) (g : Tile → Tile) : (s.modTile n g).spareFuse = s.spareFuse := rfl
@[simp] theorem State.modTile_replicas (n : Nat) (g : Tile → Tile) : (s.modTile n g).replicas = s.replicas := rfl
@[simp] theorem State.modTile_recoveries (n : Nat) (g : Tile → Tile) : (s.modTile n g).recoveries = s.recoveries := rfl
@[simp] theorem State.modTile_writes (n : Nat) (g : Tile → Tile) : (s.modTile n g).writes = s.writes := rfl
@[simp] theorem State.modTile_floorsDue (n : Nat) (g : Tile → Tile) : (s.modTile n g).floorsDue = s.floorsDue := rfl
@[simp] theorem State.modTile_held (n : Nat) (g : Tile → Tile) : (s.modTile n g).held = s.held := rfl

/-! ### modSlice -/

@[simp] theorem State.modSlice_pending (n : Nat) (g : Slice → Slice) : (s.modSlice n g).pending = s.pending := rfl
@[simp] theorem State.modSlice_regs (n : Nat) (g : Slice → Slice) : (s.modSlice n g).regs = s.regs := rfl
@[simp] theorem State.modSlice_sent (n : Nat) (g : Slice → Slice) : (s.modSlice n g).sent = s.sent := rfl
@[simp] theorem State.modSlice_free (n : Nat) (g : Slice → Slice) : (s.modSlice n g).free = s.free := rfl
@[simp] theorem State.modSlice_posted (n : Nat) (g : Slice → Slice) : (s.modSlice n g).posted = s.posted := rfl
@[simp] theorem State.modSlice_lateRow (n : Nat) (g : Slice → Slice) : (s.modSlice n g).lateRow = s.lateRow := rfl
@[simp] theorem State.modSlice_tb (n : Nat) (g : Slice → Slice) : (s.modSlice n g).tb = s.tb := rfl
@[simp] theorem State.modSlice_slots (n : Nat) (g : Slice → Slice) : (s.modSlice n g).slots = s.slots := rfl
@[simp] theorem State.modSlice_waiting (n : Nat) (g : Slice → Slice) : (s.modSlice n g).waiting = s.waiting := rfl
@[simp] theorem State.modSlice_dirty (n : Nat) (g : Slice → Slice) : (s.modSlice n g).dirty = s.dirty := rfl
@[simp] theorem State.modSlice_released (n : Nat) (g : Slice → Slice) : (s.modSlice n g).released = s.released := rfl
@[simp] theorem State.modSlice_logQueue (n : Nat) (g : Slice → Slice) : (s.modSlice n g).logQueue = s.logQueue := rfl
@[simp] theorem State.modSlice_lockFrom (n : Nat) (g : Slice → Slice) : (s.modSlice n g).lockFrom = s.lockFrom := rfl
@[simp] theorem State.modSlice_stopped (n : Nat) (g : Slice → Slice) : (s.modSlice n g).stopped = s.stopped := rfl
@[simp] theorem State.modSlice_deadDies (n : Nat) (g : Slice → Slice) : (s.modSlice n g).deadDies = s.deadDies := rfl
@[simp] theorem State.modSlice_off (n : Nat) (g : Slice → Slice) : (s.modSlice n g).off = s.off := rfl
@[simp] theorem State.modSlice_mainEn (n : Nat) (g : Slice → Slice) : (s.modSlice n g).mainEn = s.mainEn := rfl
@[simp] theorem State.modSlice_mainPg (n : Nat) (g : Slice → Slice) : (s.modSlice n g).mainPg = s.mainPg := rfl
@[simp] theorem State.modSlice_bootAt (n : Nat) (g : Slice → Slice) : (s.modSlice n g).bootAt = s.bootAt := rfl
@[simp] theorem State.modSlice_heldReqs (n : Nat) (g : Slice → Slice) : (s.modSlice n g).heldReqs = s.heldReqs := rfl
@[simp] theorem State.modSlice_harts (n : Nat) (g : Slice → Slice) : (s.modSlice n g).harts = s.harts := rfl
@[simp] theorem State.modSlice_cores (n : Nat) (g : Slice → Slice) : (s.modSlice n g).cores = s.cores := rfl
@[simp] theorem State.modSlice_hb (n : Nat) (g : Slice → Slice) : (s.modSlice n g).hb = s.hb := rfl
@[simp] theorem State.modSlice_thermtrip (n : Nat) (g : Slice → Slice) : (s.modSlice n g).thermtrip = s.thermtrip := rfl
@[simp] theorem State.modSlice_tiles (n : Nat) (g : Slice → Slice) : (s.modSlice n g).tiles = s.tiles := rfl
@[simp] theorem State.modSlice_curCopies (n : Nat) (g : Slice → Slice) : (s.modSlice n g).curCopies = s.curCopies := rfl
@[simp] theorem State.modSlice_stuck (n : Nat) (g : Slice → Slice) : (s.modSlice n g).stuck = s.stuck := rfl
@[simp] theorem State.modSlice_mesh (n : Nat) (g : Slice → Slice) : (s.modSlice n g).mesh = s.mesh := rfl
@[simp] theorem State.modSlice_raw (n : Nat) (g : Slice → Slice) : (s.modSlice n g).raw = s.raw := rfl
@[simp] theorem State.modSlice_dram (n : Nat) (g : Slice → Slice) : (s.modSlice n g).dram = s.dram := rfl
@[simp] theorem State.modSlice_checks (n : Nat) (g : Slice → Slice) : (s.modSlice n g).checks = s.checks := rfl
@[simp] theorem State.modSlice_channels (n : Nat) (g : Slice → Slice) : (s.modSlice n g).channels = s.channels := rfl
@[simp] theorem State.modSlice_weights (n : Nat) (g : Slice → Slice) : (s.modSlice n g).weights = s.weights := rfl
@[simp] theorem State.modSlice_fillStart (n : Nat) (g : Slice → Slice) : (s.modSlice n g).fillStart = s.fillStart := rfl
@[simp] theorem State.modSlice_life (n : Nat) (g : Slice → Slice) : (s.modSlice n g).life = s.life := rfl
@[simp] theorem State.modSlice_journal (n : Nat) (g : Slice → Slice) : (s.modSlice n g).journal = s.journal := rfl
@[simp] theorem State.modSlice_seqNext (n : Nat) (g : Slice → Slice) : (s.modSlice n g).seqNext = s.seqNext := rfl
@[simp] theorem State.modSlice_queues (n : Nat) (g : Slice → Slice) : (s.modSlice n g).queues = s.queues := rfl
@[simp] theorem State.modSlice_reqs (n : Nat) (g : Slice → Slice) : (s.modSlice n g).reqs = s.reqs := rfl
@[simp] theorem State.modSlice_reqNext (n : Nat) (g : Slice → Slice) : (s.modSlice n g).reqNext = s.reqNext := rfl
@[simp] theorem State.modSlice_kept (n : Nat) (g : Slice → Slice) : (s.modSlice n g).kept = s.kept := rfl
@[simp] theorem State.modSlice_reports (n : Nat) (g : Slice → Slice) : (s.modSlice n g).reports = s.reports := rfl
@[simp] theorem State.modSlice_afterDone (n : Nat) (g : Slice → Slice) : (s.modSlice n g).afterDone = s.afterDone := rfl
@[simp] theorem State.modSlice_pathBad (n : Nat) (g : Slice → Slice) : (s.modSlice n g).pathBad = s.pathBad := rfl
@[simp] theorem State.modSlice_cto (n : Nat) (g : Slice → Slice) : (s.modSlice n g).cto = s.cto := rfl
@[simp] theorem State.modSlice_frames (n : Nat) (g : Slice → Slice) : (s.modSlice n g).frames = s.frames := rfl
@[simp] theorem State.modSlice_insts (n : Nat) (g : Slice → Slice) : (s.modSlice n g).insts = s.insts := rfl
@[simp] theorem State.modSlice_buckets (n : Nat) (g : Slice → Slice) : (s.modSlice n g).buckets = s.buckets := rfl
@[simp] theorem State.modSlice_bucketAt (n : Nat) (g : Slice → Slice) : (s.modSlice n g).bucketAt = s.bucketAt := rfl
@[simp] theorem State.modSlice_lfsr (n : Nat) (g : Slice → Slice) : (s.modSlice n g).lfsr = s.lfsr := rfl
@[simp] theorem State.modSlice_losses (n : Nat) (g : Slice → Slice) : (s.modSlice n g).losses = s.losses := rfl
@[simp] theorem State.modSlice_lastQueue (n : Nat) (g : Slice → Slice) : (s.modSlice n g).lastQueue = s.lastQueue := rfl
@[simp] theorem State.modSlice_grants (n : Nat) (g : Slice → Slice) : (s.modSlice n g).grants = s.grants := rfl
@[simp] theorem State.modSlice_engines (n : Nat) (g : Slice → Slice) : (s.modSlice n g).engines = s.engines := rfl
@[simp] theorem State.modSlice_rxSel (n : Nat) (g : Slice → Slice) : (s.modSlice n g).rxSel = s.rxSel := rfl
@[simp] theorem State.modSlice_extCredit (n : Nat) (g : Slice → Slice) : (s.modSlice n g).extCredit = s.extCredit := rfl
@[simp] theorem State.modSlice_selfTests (n : Nat) (g : Slice → Slice) : (s.modSlice n g).selfTests = s.selfTests := rfl
@[simp] theorem State.modSlice_jobs (n : Nat) (g : Slice → Slice) : (s.modSlice n g).jobs = s.jobs := rfl
@[simp] theorem State.modSlice_jobNext (n : Nat) (g : Slice → Slice) : (s.modSlice n g).jobNext = s.jobNext := rfl
@[simp] theorem State.modSlice_keys (n : Nat) (g : Slice → Slice) : (s.modSlice n g).keys = s.keys := rfl
@[simp] theorem State.modSlice_handleKey (n : Nat) (g : Slice → Slice) : (s.modSlice n g).handleKey = s.handleKey := rfl
@[simp] theorem State.modSlice_boot (n : Nat) (g : Slice → Slice) : (s.modSlice n g).boot = s.boot := rfl
@[simp] theorem State.modSlice_ports (n : Nat) (g : Slice → Slice) : (s.modSlice n g).ports = s.ports := rfl
@[simp] theorem State.modSlice_laneSwap (n : Nat) (g : Slice → Slice) : (s.modSlice n g).laneSwap = s.laneSwap := rfl
@[simp] theorem State.modSlice_blinks (n : Nat) (g : Slice → Slice) : (s.modSlice n g).blinks = s.blinks := rfl
@[simp] theorem State.modSlice_blWaiting (n : Nat) (g : Slice → Slice) : (s.modSlice n g).blWaiting = s.blWaiting := rfl
@[simp] theorem State.modSlice_peerSince (n : Nat) (g : Slice → Slice) : (s.modSlice n g).peerSince = s.peerSince := rfl
@[simp] theorem State.modSlice_decoders (n : Nat) (g : Slice → Slice) : (s.modSlice n g).decoders = s.decoders := rfl
@[simp] theorem State.modSlice_ep (n : Nat) (g : Slice → Slice) : (s.modSlice n g).ep = s.ep := rfl
@[simp] theorem State.modSlice_vfs (n : Nat) (g : Slice → Slice) : (s.modSlice n g).vfs = s.vfs := rfl
@[simp] theorem State.modSlice_intxPend (n : Nat) (g : Slice → Slice) : (s.modSlice n g).intxPend = s.intxPend := rfl
@[simp] theorem State.modSlice_intxOn (n : Nat) (g : Slice → Slice) : (s.modSlice n g).intxOn = s.intxOn := rfl
@[simp] theorem State.modSlice_standby (n : Nat) (g : Slice → Slice) : (s.modSlice n g).standby = s.standby := rfl
@[simp] theorem State.modSlice_hostTries (n : Nat) (g : Slice → Slice) : (s.modSlice n g).hostTries = s.hostTries := rfl
@[simp] theorem State.modSlice_col (n : Nat) (g : Slice → Slice) : (s.modSlice n g).col = s.col := rfl
@[simp] theorem State.modSlice_svc (n : Nat) (g : Slice → Slice) : (s.modSlice n g).svc = s.svc := rfl
@[simp] theorem State.modSlice_reg (n : Nat) (g : Slice → Slice) (r : Nat) : (s.modSlice n g).reg r = s.reg r := rfl
@[simp] theorem State.modSlice_f (n : Nat) (g : Slice → Slice) (r : Fld) : (s.modSlice n g).f r = s.f r := rfl
@[simp] theorem State.modSlice_spareFuse (n : Nat) (g : Slice → Slice) : (s.modSlice n g).spareFuse = s.spareFuse := rfl
@[simp] theorem State.modSlice_replicas (n : Nat) (g : Slice → Slice) : (s.modSlice n g).replicas = s.replicas := rfl
@[simp] theorem State.modSlice_recoveries (n : Nat) (g : Slice → Slice) : (s.modSlice n g).recoveries = s.recoveries := rfl
@[simp] theorem State.modSlice_writes (n : Nat) (g : Slice → Slice) : (s.modSlice n g).writes = s.writes := rfl
@[simp] theorem State.modSlice_floorsDue (n : Nat) (g : Slice → Slice) : (s.modSlice n g).floorsDue = s.floorsDue := rfl
@[simp] theorem State.modSlice_held (n : Nat) (g : Slice → Slice) : (s.modSlice n g).held = s.held := rfl

/-! ### modSvc -/

@[simp] theorem State.modSvc_pending (g : Service → Service) : (s.modSvc g).pending = s.pending := rfl
@[simp] theorem State.modSvc_regs (g : Service → Service) : (s.modSvc g).regs = s.regs := rfl
@[simp] theorem State.modSvc_sent (g : Service → Service) : (s.modSvc g).sent = s.sent := rfl
@[simp] theorem State.modSvc_free (g : Service → Service) : (s.modSvc g).free = s.free := rfl
@[simp] theorem State.modSvc_posted (g : Service → Service) : (s.modSvc g).posted = s.posted := rfl
@[simp] theorem State.modSvc_lateRow (g : Service → Service) : (s.modSvc g).lateRow = s.lateRow := rfl
@[simp] theorem State.modSvc_tb (g : Service → Service) : (s.modSvc g).tb = s.tb := rfl
@[simp] theorem State.modSvc_slots (g : Service → Service) : (s.modSvc g).slots = s.slots := rfl
@[simp] theorem State.modSvc_waiting (g : Service → Service) : (s.modSvc g).waiting = s.waiting := rfl
@[simp] theorem State.modSvc_dirty (g : Service → Service) : (s.modSvc g).dirty = s.dirty := rfl
@[simp] theorem State.modSvc_released (g : Service → Service) : (s.modSvc g).released = s.released := rfl
@[simp] theorem State.modSvc_logQueue (g : Service → Service) : (s.modSvc g).logQueue = s.logQueue := rfl
@[simp] theorem State.modSvc_lockFrom (g : Service → Service) : (s.modSvc g).lockFrom = s.lockFrom := rfl
@[simp] theorem State.modSvc_stopped (g : Service → Service) : (s.modSvc g).stopped = s.stopped := rfl
@[simp] theorem State.modSvc_deadDies (g : Service → Service) : (s.modSvc g).deadDies = s.deadDies := rfl
@[simp] theorem State.modSvc_off (g : Service → Service) : (s.modSvc g).off = s.off := rfl
@[simp] theorem State.modSvc_mainEn (g : Service → Service) : (s.modSvc g).mainEn = s.mainEn := rfl
@[simp] theorem State.modSvc_mainPg (g : Service → Service) : (s.modSvc g).mainPg = s.mainPg := rfl
@[simp] theorem State.modSvc_bootAt (g : Service → Service) : (s.modSvc g).bootAt = s.bootAt := rfl
@[simp] theorem State.modSvc_heldReqs (g : Service → Service) : (s.modSvc g).heldReqs = s.heldReqs := rfl
@[simp] theorem State.modSvc_harts (g : Service → Service) : (s.modSvc g).harts = s.harts := rfl
@[simp] theorem State.modSvc_cores (g : Service → Service) : (s.modSvc g).cores = s.cores := rfl
@[simp] theorem State.modSvc_hb (g : Service → Service) : (s.modSvc g).hb = s.hb := rfl
@[simp] theorem State.modSvc_thermtrip (g : Service → Service) : (s.modSvc g).thermtrip = s.thermtrip := rfl
@[simp] theorem State.modSvc_tiles (g : Service → Service) : (s.modSvc g).tiles = s.tiles := rfl
@[simp] theorem State.modSvc_slices (g : Service → Service) : (s.modSvc g).slices = s.slices := rfl
@[simp] theorem State.modSvc_curCopies (g : Service → Service) : (s.modSvc g).curCopies = s.curCopies := rfl
@[simp] theorem State.modSvc_stuck (g : Service → Service) : (s.modSvc g).stuck = s.stuck := rfl
@[simp] theorem State.modSvc_mesh (g : Service → Service) : (s.modSvc g).mesh = s.mesh := rfl
@[simp] theorem State.modSvc_raw (g : Service → Service) : (s.modSvc g).raw = s.raw := rfl
@[simp] theorem State.modSvc_dram (g : Service → Service) : (s.modSvc g).dram = s.dram := rfl
@[simp] theorem State.modSvc_checks (g : Service → Service) : (s.modSvc g).checks = s.checks := rfl
@[simp] theorem State.modSvc_channels (g : Service → Service) : (s.modSvc g).channels = s.channels := rfl
@[simp] theorem State.modSvc_weights (g : Service → Service) : (s.modSvc g).weights = s.weights := rfl
@[simp] theorem State.modSvc_fillStart (g : Service → Service) : (s.modSvc g).fillStart = s.fillStart := rfl
@[simp] theorem State.modSvc_life (g : Service → Service) : (s.modSvc g).life = s.life := rfl
@[simp] theorem State.modSvc_journal (g : Service → Service) : (s.modSvc g).journal = s.journal := rfl
@[simp] theorem State.modSvc_seqNext (g : Service → Service) : (s.modSvc g).seqNext = s.seqNext := rfl
@[simp] theorem State.modSvc_queues (g : Service → Service) : (s.modSvc g).queues = s.queues := rfl
@[simp] theorem State.modSvc_reqs (g : Service → Service) : (s.modSvc g).reqs = s.reqs := rfl
@[simp] theorem State.modSvc_reqNext (g : Service → Service) : (s.modSvc g).reqNext = s.reqNext := rfl
@[simp] theorem State.modSvc_kept (g : Service → Service) : (s.modSvc g).kept = s.kept := rfl
@[simp] theorem State.modSvc_reports (g : Service → Service) : (s.modSvc g).reports = s.reports := rfl
@[simp] theorem State.modSvc_afterDone (g : Service → Service) : (s.modSvc g).afterDone = s.afterDone := rfl
@[simp] theorem State.modSvc_pathBad (g : Service → Service) : (s.modSvc g).pathBad = s.pathBad := rfl
@[simp] theorem State.modSvc_cto (g : Service → Service) : (s.modSvc g).cto = s.cto := rfl
@[simp] theorem State.modSvc_frames (g : Service → Service) : (s.modSvc g).frames = s.frames := rfl
@[simp] theorem State.modSvc_insts (g : Service → Service) : (s.modSvc g).insts = s.insts := rfl
@[simp] theorem State.modSvc_buckets (g : Service → Service) : (s.modSvc g).buckets = s.buckets := rfl
@[simp] theorem State.modSvc_bucketAt (g : Service → Service) : (s.modSvc g).bucketAt = s.bucketAt := rfl
@[simp] theorem State.modSvc_lfsr (g : Service → Service) : (s.modSvc g).lfsr = s.lfsr := rfl
@[simp] theorem State.modSvc_losses (g : Service → Service) : (s.modSvc g).losses = s.losses := rfl
@[simp] theorem State.modSvc_lastQueue (g : Service → Service) : (s.modSvc g).lastQueue = s.lastQueue := rfl
@[simp] theorem State.modSvc_grants (g : Service → Service) : (s.modSvc g).grants = s.grants := rfl
@[simp] theorem State.modSvc_engines (g : Service → Service) : (s.modSvc g).engines = s.engines := rfl
@[simp] theorem State.modSvc_rxSel (g : Service → Service) : (s.modSvc g).rxSel = s.rxSel := rfl
@[simp] theorem State.modSvc_extCredit (g : Service → Service) : (s.modSvc g).extCredit = s.extCredit := rfl
@[simp] theorem State.modSvc_selfTests (g : Service → Service) : (s.modSvc g).selfTests = s.selfTests := rfl
@[simp] theorem State.modSvc_jobs (g : Service → Service) : (s.modSvc g).jobs = s.jobs := rfl
@[simp] theorem State.modSvc_jobNext (g : Service → Service) : (s.modSvc g).jobNext = s.jobNext := rfl
@[simp] theorem State.modSvc_keys (g : Service → Service) : (s.modSvc g).keys = s.keys := rfl
@[simp] theorem State.modSvc_handleKey (g : Service → Service) : (s.modSvc g).handleKey = s.handleKey := rfl
@[simp] theorem State.modSvc_boot (g : Service → Service) : (s.modSvc g).boot = s.boot := rfl
@[simp] theorem State.modSvc_ports (g : Service → Service) : (s.modSvc g).ports = s.ports := rfl
@[simp] theorem State.modSvc_laneSwap (g : Service → Service) : (s.modSvc g).laneSwap = s.laneSwap := rfl
@[simp] theorem State.modSvc_blinks (g : Service → Service) : (s.modSvc g).blinks = s.blinks := rfl
@[simp] theorem State.modSvc_blWaiting (g : Service → Service) : (s.modSvc g).blWaiting = s.blWaiting := rfl
@[simp] theorem State.modSvc_peerSince (g : Service → Service) : (s.modSvc g).peerSince = s.peerSince := rfl
@[simp] theorem State.modSvc_decoders (g : Service → Service) : (s.modSvc g).decoders = s.decoders := rfl
@[simp] theorem State.modSvc_ep (g : Service → Service) : (s.modSvc g).ep = s.ep := rfl
@[simp] theorem State.modSvc_vfs (g : Service → Service) : (s.modSvc g).vfs = s.vfs := rfl
@[simp] theorem State.modSvc_intxPend (g : Service → Service) : (s.modSvc g).intxPend = s.intxPend := rfl
@[simp] theorem State.modSvc_intxOn (g : Service → Service) : (s.modSvc g).intxOn = s.intxOn := rfl
@[simp] theorem State.modSvc_standby (g : Service → Service) : (s.modSvc g).standby = s.standby := rfl
@[simp] theorem State.modSvc_hostTries (g : Service → Service) : (s.modSvc g).hostTries = s.hostTries := rfl
@[simp] theorem State.modSvc_col (g : Service → Service) : (s.modSvc g).col = s.col := rfl
@[simp] theorem State.modSvc_reg (g : Service → Service) (r : Nat) : (s.modSvc g).reg r = s.reg r := rfl
@[simp] theorem State.modSvc_f (g : Service → Service) (r : Fld) : (s.modSvc g).f r = s.f r := rfl
@[simp] theorem State.modSvc_spareFuse (g : Service → Service) : (s.modSvc g).spareFuse = s.spareFuse := rfl
@[simp] theorem State.modSvc_replicas (g : Service → Service) : (s.modSvc g).replicas = s.replicas := rfl
@[simp] theorem State.modSvc_recoveries (g : Service → Service) : (s.modSvc g).recoveries = s.recoveries := rfl
@[simp] theorem State.modSvc_writes (g : Service → Service) : (s.modSvc g).writes = s.writes := rfl
@[simp] theorem State.modSvc_floorsDue (g : Service → Service) : (s.modSvc g).floorsDue = s.floorsDue := rfl
@[simp] theorem State.modSvc_held (g : Service → Service) : (s.modSvc g).held = s.held := rfl

/-! ### modCol -/

@[simp] theorem State.modCol_pending (g : Colophon → Colophon) : (s.modCol g).pending = s.pending := rfl
@[simp] theorem State.modCol_regs (g : Colophon → Colophon) : (s.modCol g).regs = s.regs := rfl
@[simp] theorem State.modCol_sent (g : Colophon → Colophon) : (s.modCol g).sent = s.sent := rfl
@[simp] theorem State.modCol_free (g : Colophon → Colophon) : (s.modCol g).free = s.free := rfl
@[simp] theorem State.modCol_posted (g : Colophon → Colophon) : (s.modCol g).posted = s.posted := rfl
@[simp] theorem State.modCol_lateRow (g : Colophon → Colophon) : (s.modCol g).lateRow = s.lateRow := rfl
@[simp] theorem State.modCol_tb (g : Colophon → Colophon) : (s.modCol g).tb = s.tb := rfl
@[simp] theorem State.modCol_slots (g : Colophon → Colophon) : (s.modCol g).slots = s.slots := rfl
@[simp] theorem State.modCol_waiting (g : Colophon → Colophon) : (s.modCol g).waiting = s.waiting := rfl
@[simp] theorem State.modCol_dirty (g : Colophon → Colophon) : (s.modCol g).dirty = s.dirty := rfl
@[simp] theorem State.modCol_released (g : Colophon → Colophon) : (s.modCol g).released = s.released := rfl
@[simp] theorem State.modCol_logQueue (g : Colophon → Colophon) : (s.modCol g).logQueue = s.logQueue := rfl
@[simp] theorem State.modCol_lockFrom (g : Colophon → Colophon) : (s.modCol g).lockFrom = s.lockFrom := rfl
@[simp] theorem State.modCol_stopped (g : Colophon → Colophon) : (s.modCol g).stopped = s.stopped := rfl
@[simp] theorem State.modCol_deadDies (g : Colophon → Colophon) : (s.modCol g).deadDies = s.deadDies := rfl
@[simp] theorem State.modCol_off (g : Colophon → Colophon) : (s.modCol g).off = s.off := rfl
@[simp] theorem State.modCol_mainEn (g : Colophon → Colophon) : (s.modCol g).mainEn = s.mainEn := rfl
@[simp] theorem State.modCol_mainPg (g : Colophon → Colophon) : (s.modCol g).mainPg = s.mainPg := rfl
@[simp] theorem State.modCol_bootAt (g : Colophon → Colophon) : (s.modCol g).bootAt = s.bootAt := rfl
@[simp] theorem State.modCol_heldReqs (g : Colophon → Colophon) : (s.modCol g).heldReqs = s.heldReqs := rfl
@[simp] theorem State.modCol_harts (g : Colophon → Colophon) : (s.modCol g).harts = s.harts := rfl
@[simp] theorem State.modCol_cores (g : Colophon → Colophon) : (s.modCol g).cores = s.cores := rfl
@[simp] theorem State.modCol_hb (g : Colophon → Colophon) : (s.modCol g).hb = s.hb := rfl
@[simp] theorem State.modCol_thermtrip (g : Colophon → Colophon) : (s.modCol g).thermtrip = s.thermtrip := rfl
@[simp] theorem State.modCol_tiles (g : Colophon → Colophon) : (s.modCol g).tiles = s.tiles := rfl
@[simp] theorem State.modCol_slices (g : Colophon → Colophon) : (s.modCol g).slices = s.slices := rfl
@[simp] theorem State.modCol_curCopies (g : Colophon → Colophon) : (s.modCol g).curCopies = s.curCopies := rfl
@[simp] theorem State.modCol_stuck (g : Colophon → Colophon) : (s.modCol g).stuck = s.stuck := rfl
@[simp] theorem State.modCol_mesh (g : Colophon → Colophon) : (s.modCol g).mesh = s.mesh := rfl
@[simp] theorem State.modCol_raw (g : Colophon → Colophon) : (s.modCol g).raw = s.raw := rfl
@[simp] theorem State.modCol_dram (g : Colophon → Colophon) : (s.modCol g).dram = s.dram := rfl
@[simp] theorem State.modCol_checks (g : Colophon → Colophon) : (s.modCol g).checks = s.checks := rfl
@[simp] theorem State.modCol_channels (g : Colophon → Colophon) : (s.modCol g).channels = s.channels := rfl
@[simp] theorem State.modCol_weights (g : Colophon → Colophon) : (s.modCol g).weights = s.weights := rfl
@[simp] theorem State.modCol_fillStart (g : Colophon → Colophon) : (s.modCol g).fillStart = s.fillStart := rfl
@[simp] theorem State.modCol_life (g : Colophon → Colophon) : (s.modCol g).life = s.life := rfl
@[simp] theorem State.modCol_journal (g : Colophon → Colophon) : (s.modCol g).journal = s.journal := rfl
@[simp] theorem State.modCol_seqNext (g : Colophon → Colophon) : (s.modCol g).seqNext = s.seqNext := rfl
@[simp] theorem State.modCol_queues (g : Colophon → Colophon) : (s.modCol g).queues = s.queues := rfl
@[simp] theorem State.modCol_reqs (g : Colophon → Colophon) : (s.modCol g).reqs = s.reqs := rfl
@[simp] theorem State.modCol_reqNext (g : Colophon → Colophon) : (s.modCol g).reqNext = s.reqNext := rfl
@[simp] theorem State.modCol_kept (g : Colophon → Colophon) : (s.modCol g).kept = s.kept := rfl
@[simp] theorem State.modCol_reports (g : Colophon → Colophon) : (s.modCol g).reports = s.reports := rfl
@[simp] theorem State.modCol_afterDone (g : Colophon → Colophon) : (s.modCol g).afterDone = s.afterDone := rfl
@[simp] theorem State.modCol_pathBad (g : Colophon → Colophon) : (s.modCol g).pathBad = s.pathBad := rfl
@[simp] theorem State.modCol_cto (g : Colophon → Colophon) : (s.modCol g).cto = s.cto := rfl
@[simp] theorem State.modCol_frames (g : Colophon → Colophon) : (s.modCol g).frames = s.frames := rfl
@[simp] theorem State.modCol_insts (g : Colophon → Colophon) : (s.modCol g).insts = s.insts := rfl
@[simp] theorem State.modCol_buckets (g : Colophon → Colophon) : (s.modCol g).buckets = s.buckets := rfl
@[simp] theorem State.modCol_bucketAt (g : Colophon → Colophon) : (s.modCol g).bucketAt = s.bucketAt := rfl
@[simp] theorem State.modCol_lfsr (g : Colophon → Colophon) : (s.modCol g).lfsr = s.lfsr := rfl
@[simp] theorem State.modCol_losses (g : Colophon → Colophon) : (s.modCol g).losses = s.losses := rfl
@[simp] theorem State.modCol_lastQueue (g : Colophon → Colophon) : (s.modCol g).lastQueue = s.lastQueue := rfl
@[simp] theorem State.modCol_grants (g : Colophon → Colophon) : (s.modCol g).grants = s.grants := rfl
@[simp] theorem State.modCol_engines (g : Colophon → Colophon) : (s.modCol g).engines = s.engines := rfl
@[simp] theorem State.modCol_rxSel (g : Colophon → Colophon) : (s.modCol g).rxSel = s.rxSel := rfl
@[simp] theorem State.modCol_extCredit (g : Colophon → Colophon) : (s.modCol g).extCredit = s.extCredit := rfl
@[simp] theorem State.modCol_selfTests (g : Colophon → Colophon) : (s.modCol g).selfTests = s.selfTests := rfl
@[simp] theorem State.modCol_jobs (g : Colophon → Colophon) : (s.modCol g).jobs = s.jobs := rfl
@[simp] theorem State.modCol_jobNext (g : Colophon → Colophon) : (s.modCol g).jobNext = s.jobNext := rfl
@[simp] theorem State.modCol_keys (g : Colophon → Colophon) : (s.modCol g).keys = s.keys := rfl
@[simp] theorem State.modCol_handleKey (g : Colophon → Colophon) : (s.modCol g).handleKey = s.handleKey := rfl
@[simp] theorem State.modCol_boot (g : Colophon → Colophon) : (s.modCol g).boot = s.boot := rfl
@[simp] theorem State.modCol_ports (g : Colophon → Colophon) : (s.modCol g).ports = s.ports := rfl
@[simp] theorem State.modCol_laneSwap (g : Colophon → Colophon) : (s.modCol g).laneSwap = s.laneSwap := rfl
@[simp] theorem State.modCol_blinks (g : Colophon → Colophon) : (s.modCol g).blinks = s.blinks := rfl
@[simp] theorem State.modCol_blWaiting (g : Colophon → Colophon) : (s.modCol g).blWaiting = s.blWaiting := rfl
@[simp] theorem State.modCol_peerSince (g : Colophon → Colophon) : (s.modCol g).peerSince = s.peerSince := rfl
@[simp] theorem State.modCol_decoders (g : Colophon → Colophon) : (s.modCol g).decoders = s.decoders := rfl
@[simp] theorem State.modCol_ep (g : Colophon → Colophon) : (s.modCol g).ep = s.ep := rfl
@[simp] theorem State.modCol_vfs (g : Colophon → Colophon) : (s.modCol g).vfs = s.vfs := rfl
@[simp] theorem State.modCol_intxPend (g : Colophon → Colophon) : (s.modCol g).intxPend = s.intxPend := rfl
@[simp] theorem State.modCol_intxOn (g : Colophon → Colophon) : (s.modCol g).intxOn = s.intxOn := rfl
@[simp] theorem State.modCol_standby (g : Colophon → Colophon) : (s.modCol g).standby = s.standby := rfl
@[simp] theorem State.modCol_hostTries (g : Colophon → Colophon) : (s.modCol g).hostTries = s.hostTries := rfl
@[simp] theorem State.modCol_svc (g : Colophon → Colophon) : (s.modCol g).svc = s.svc := rfl
@[simp] theorem State.modCol_reg (g : Colophon → Colophon) (r : Nat) : (s.modCol g).reg r = s.reg r := rfl
@[simp] theorem State.modCol_f (g : Colophon → Colophon) (r : Fld) : (s.modCol g).f r = s.f r := rfl
@[simp] theorem State.modCol_spareFuse (g : Colophon → Colophon) : (s.modCol g).spareFuse = s.spareFuse := rfl
@[simp] theorem State.modCol_replicas (g : Colophon → Colophon) : (s.modCol g).replicas = s.replicas := rfl
@[simp] theorem State.modCol_recoveries (g : Colophon → Colophon) : (s.modCol g).recoveries = s.recoveries := rfl
@[simp] theorem State.modCol_writes (g : Colophon → Colophon) : (s.modCol g).writes = s.writes := rfl
@[simp] theorem State.modCol_floorsDue (g : Colophon → Colophon) : (s.modCol g).floorsDue = s.floorsDue := rfl
@[simp] theorem State.modCol_held (g : Colophon → Colophon) : (s.modCol g).held = s.held := rfl

/-! ### modHb -/

@[simp] theorem State.modHb_pending (g : Headband → Headband) : (s.modHb g).pending = s.pending := rfl
@[simp] theorem State.modHb_regs (g : Headband → Headband) : (s.modHb g).regs = s.regs := rfl
@[simp] theorem State.modHb_sent (g : Headband → Headband) : (s.modHb g).sent = s.sent := rfl
@[simp] theorem State.modHb_free (g : Headband → Headband) : (s.modHb g).free = s.free := rfl
@[simp] theorem State.modHb_posted (g : Headband → Headband) : (s.modHb g).posted = s.posted := rfl
@[simp] theorem State.modHb_lateRow (g : Headband → Headband) : (s.modHb g).lateRow = s.lateRow := rfl
@[simp] theorem State.modHb_tb (g : Headband → Headband) : (s.modHb g).tb = s.tb := rfl
@[simp] theorem State.modHb_slots (g : Headband → Headband) : (s.modHb g).slots = s.slots := rfl
@[simp] theorem State.modHb_waiting (g : Headband → Headband) : (s.modHb g).waiting = s.waiting := rfl
@[simp] theorem State.modHb_dirty (g : Headband → Headband) : (s.modHb g).dirty = s.dirty := rfl
@[simp] theorem State.modHb_released (g : Headband → Headband) : (s.modHb g).released = s.released := rfl
@[simp] theorem State.modHb_logQueue (g : Headband → Headband) : (s.modHb g).logQueue = s.logQueue := rfl
@[simp] theorem State.modHb_lockFrom (g : Headband → Headband) : (s.modHb g).lockFrom = s.lockFrom := rfl
@[simp] theorem State.modHb_stopped (g : Headband → Headband) : (s.modHb g).stopped = s.stopped := rfl
@[simp] theorem State.modHb_deadDies (g : Headband → Headband) : (s.modHb g).deadDies = s.deadDies := rfl
@[simp] theorem State.modHb_off (g : Headband → Headband) : (s.modHb g).off = s.off := rfl
@[simp] theorem State.modHb_mainEn (g : Headband → Headband) : (s.modHb g).mainEn = s.mainEn := rfl
@[simp] theorem State.modHb_mainPg (g : Headband → Headband) : (s.modHb g).mainPg = s.mainPg := rfl
@[simp] theorem State.modHb_bootAt (g : Headband → Headband) : (s.modHb g).bootAt = s.bootAt := rfl
@[simp] theorem State.modHb_heldReqs (g : Headband → Headband) : (s.modHb g).heldReqs = s.heldReqs := rfl
@[simp] theorem State.modHb_harts (g : Headband → Headband) : (s.modHb g).harts = s.harts := rfl
@[simp] theorem State.modHb_cores (g : Headband → Headband) : (s.modHb g).cores = s.cores := rfl
@[simp] theorem State.modHb_thermtrip (g : Headband → Headband) : (s.modHb g).thermtrip = s.thermtrip := rfl
@[simp] theorem State.modHb_tiles (g : Headband → Headband) : (s.modHb g).tiles = s.tiles := rfl
@[simp] theorem State.modHb_slices (g : Headband → Headband) : (s.modHb g).slices = s.slices := rfl
@[simp] theorem State.modHb_curCopies (g : Headband → Headband) : (s.modHb g).curCopies = s.curCopies := rfl
@[simp] theorem State.modHb_stuck (g : Headband → Headband) : (s.modHb g).stuck = s.stuck := rfl
@[simp] theorem State.modHb_mesh (g : Headband → Headband) : (s.modHb g).mesh = s.mesh := rfl
@[simp] theorem State.modHb_raw (g : Headband → Headband) : (s.modHb g).raw = s.raw := rfl
@[simp] theorem State.modHb_dram (g : Headband → Headband) : (s.modHb g).dram = s.dram := rfl
@[simp] theorem State.modHb_checks (g : Headband → Headband) : (s.modHb g).checks = s.checks := rfl
@[simp] theorem State.modHb_channels (g : Headband → Headband) : (s.modHb g).channels = s.channels := rfl
@[simp] theorem State.modHb_weights (g : Headband → Headband) : (s.modHb g).weights = s.weights := rfl
@[simp] theorem State.modHb_fillStart (g : Headband → Headband) : (s.modHb g).fillStart = s.fillStart := rfl
@[simp] theorem State.modHb_life (g : Headband → Headband) : (s.modHb g).life = s.life := rfl
@[simp] theorem State.modHb_journal (g : Headband → Headband) : (s.modHb g).journal = s.journal := rfl
@[simp] theorem State.modHb_seqNext (g : Headband → Headband) : (s.modHb g).seqNext = s.seqNext := rfl
@[simp] theorem State.modHb_queues (g : Headband → Headband) : (s.modHb g).queues = s.queues := rfl
@[simp] theorem State.modHb_reqs (g : Headband → Headband) : (s.modHb g).reqs = s.reqs := rfl
@[simp] theorem State.modHb_reqNext (g : Headband → Headband) : (s.modHb g).reqNext = s.reqNext := rfl
@[simp] theorem State.modHb_kept (g : Headband → Headband) : (s.modHb g).kept = s.kept := rfl
@[simp] theorem State.modHb_reports (g : Headband → Headband) : (s.modHb g).reports = s.reports := rfl
@[simp] theorem State.modHb_afterDone (g : Headband → Headband) : (s.modHb g).afterDone = s.afterDone := rfl
@[simp] theorem State.modHb_pathBad (g : Headband → Headband) : (s.modHb g).pathBad = s.pathBad := rfl
@[simp] theorem State.modHb_cto (g : Headband → Headband) : (s.modHb g).cto = s.cto := rfl
@[simp] theorem State.modHb_frames (g : Headband → Headband) : (s.modHb g).frames = s.frames := rfl
@[simp] theorem State.modHb_insts (g : Headband → Headband) : (s.modHb g).insts = s.insts := rfl
@[simp] theorem State.modHb_buckets (g : Headband → Headband) : (s.modHb g).buckets = s.buckets := rfl
@[simp] theorem State.modHb_bucketAt (g : Headband → Headband) : (s.modHb g).bucketAt = s.bucketAt := rfl
@[simp] theorem State.modHb_lfsr (g : Headband → Headband) : (s.modHb g).lfsr = s.lfsr := rfl
@[simp] theorem State.modHb_losses (g : Headband → Headband) : (s.modHb g).losses = s.losses := rfl
@[simp] theorem State.modHb_lastQueue (g : Headband → Headband) : (s.modHb g).lastQueue = s.lastQueue := rfl
@[simp] theorem State.modHb_grants (g : Headband → Headband) : (s.modHb g).grants = s.grants := rfl
@[simp] theorem State.modHb_engines (g : Headband → Headband) : (s.modHb g).engines = s.engines := rfl
@[simp] theorem State.modHb_rxSel (g : Headband → Headband) : (s.modHb g).rxSel = s.rxSel := rfl
@[simp] theorem State.modHb_extCredit (g : Headband → Headband) : (s.modHb g).extCredit = s.extCredit := rfl
@[simp] theorem State.modHb_selfTests (g : Headband → Headband) : (s.modHb g).selfTests = s.selfTests := rfl
@[simp] theorem State.modHb_jobs (g : Headband → Headband) : (s.modHb g).jobs = s.jobs := rfl
@[simp] theorem State.modHb_jobNext (g : Headband → Headband) : (s.modHb g).jobNext = s.jobNext := rfl
@[simp] theorem State.modHb_keys (g : Headband → Headband) : (s.modHb g).keys = s.keys := rfl
@[simp] theorem State.modHb_handleKey (g : Headband → Headband) : (s.modHb g).handleKey = s.handleKey := rfl
@[simp] theorem State.modHb_boot (g : Headband → Headband) : (s.modHb g).boot = s.boot := rfl
@[simp] theorem State.modHb_ports (g : Headband → Headband) : (s.modHb g).ports = s.ports := rfl
@[simp] theorem State.modHb_laneSwap (g : Headband → Headband) : (s.modHb g).laneSwap = s.laneSwap := rfl
@[simp] theorem State.modHb_blinks (g : Headband → Headband) : (s.modHb g).blinks = s.blinks := rfl
@[simp] theorem State.modHb_blWaiting (g : Headband → Headband) : (s.modHb g).blWaiting = s.blWaiting := rfl
@[simp] theorem State.modHb_peerSince (g : Headband → Headband) : (s.modHb g).peerSince = s.peerSince := rfl
@[simp] theorem State.modHb_decoders (g : Headband → Headband) : (s.modHb g).decoders = s.decoders := rfl
@[simp] theorem State.modHb_ep (g : Headband → Headband) : (s.modHb g).ep = s.ep := rfl
@[simp] theorem State.modHb_vfs (g : Headband → Headband) : (s.modHb g).vfs = s.vfs := rfl
@[simp] theorem State.modHb_intxPend (g : Headband → Headband) : (s.modHb g).intxPend = s.intxPend := rfl
@[simp] theorem State.modHb_intxOn (g : Headband → Headband) : (s.modHb g).intxOn = s.intxOn := rfl
@[simp] theorem State.modHb_standby (g : Headband → Headband) : (s.modHb g).standby = s.standby := rfl
@[simp] theorem State.modHb_hostTries (g : Headband → Headband) : (s.modHb g).hostTries = s.hostTries := rfl
@[simp] theorem State.modHb_col (g : Headband → Headband) : (s.modHb g).col = s.col := rfl
@[simp] theorem State.modHb_svc (g : Headband → Headband) : (s.modHb g).svc = s.svc := rfl
@[simp] theorem State.modHb_reg (g : Headband → Headband) (r : Nat) : (s.modHb g).reg r = s.reg r := rfl
@[simp] theorem State.modHb_f (g : Headband → Headband) (r : Fld) : (s.modHb g).f r = s.f r := rfl
@[simp] theorem State.modHb_spareFuse (g : Headband → Headband) : (s.modHb g).spareFuse = s.spareFuse := rfl
@[simp] theorem State.modHb_replicas (g : Headband → Headband) : (s.modHb g).replicas = s.replicas := rfl
@[simp] theorem State.modHb_recoveries (g : Headband → Headband) : (s.modHb g).recoveries = s.recoveries := rfl
@[simp] theorem State.modHb_writes (g : Headband → Headband) : (s.modHb g).writes = s.writes := rfl
@[simp] theorem State.modHb_floorsDue (g : Headband → Headband) : (s.modHb g).floorsDue = s.floorsDue := rfl
@[simp] theorem State.modHb_held (g : Headband → Headband) : (s.modHb g).held = s.held := rfl

/-! ### modMesh -/

@[simp] theorem State.modMesh_pending (g : Mesh → Mesh) : (s.modMesh g).pending = s.pending := rfl
@[simp] theorem State.modMesh_regs (g : Mesh → Mesh) : (s.modMesh g).regs = s.regs := rfl
@[simp] theorem State.modMesh_sent (g : Mesh → Mesh) : (s.modMesh g).sent = s.sent := rfl
@[simp] theorem State.modMesh_free (g : Mesh → Mesh) : (s.modMesh g).free = s.free := rfl
@[simp] theorem State.modMesh_posted (g : Mesh → Mesh) : (s.modMesh g).posted = s.posted := rfl
@[simp] theorem State.modMesh_lateRow (g : Mesh → Mesh) : (s.modMesh g).lateRow = s.lateRow := rfl
@[simp] theorem State.modMesh_tb (g : Mesh → Mesh) : (s.modMesh g).tb = s.tb := rfl
@[simp] theorem State.modMesh_slots (g : Mesh → Mesh) : (s.modMesh g).slots = s.slots := rfl
@[simp] theorem State.modMesh_waiting (g : Mesh → Mesh) : (s.modMesh g).waiting = s.waiting := rfl
@[simp] theorem State.modMesh_dirty (g : Mesh → Mesh) : (s.modMesh g).dirty = s.dirty := rfl
@[simp] theorem State.modMesh_released (g : Mesh → Mesh) : (s.modMesh g).released = s.released := rfl
@[simp] theorem State.modMesh_logQueue (g : Mesh → Mesh) : (s.modMesh g).logQueue = s.logQueue := rfl
@[simp] theorem State.modMesh_lockFrom (g : Mesh → Mesh) : (s.modMesh g).lockFrom = s.lockFrom := rfl
@[simp] theorem State.modMesh_stopped (g : Mesh → Mesh) : (s.modMesh g).stopped = s.stopped := rfl
@[simp] theorem State.modMesh_deadDies (g : Mesh → Mesh) : (s.modMesh g).deadDies = s.deadDies := rfl
@[simp] theorem State.modMesh_off (g : Mesh → Mesh) : (s.modMesh g).off = s.off := rfl
@[simp] theorem State.modMesh_mainEn (g : Mesh → Mesh) : (s.modMesh g).mainEn = s.mainEn := rfl
@[simp] theorem State.modMesh_mainPg (g : Mesh → Mesh) : (s.modMesh g).mainPg = s.mainPg := rfl
@[simp] theorem State.modMesh_bootAt (g : Mesh → Mesh) : (s.modMesh g).bootAt = s.bootAt := rfl
@[simp] theorem State.modMesh_heldReqs (g : Mesh → Mesh) : (s.modMesh g).heldReqs = s.heldReqs := rfl
@[simp] theorem State.modMesh_harts (g : Mesh → Mesh) : (s.modMesh g).harts = s.harts := rfl
@[simp] theorem State.modMesh_cores (g : Mesh → Mesh) : (s.modMesh g).cores = s.cores := rfl
@[simp] theorem State.modMesh_hb (g : Mesh → Mesh) : (s.modMesh g).hb = s.hb := rfl
@[simp] theorem State.modMesh_thermtrip (g : Mesh → Mesh) : (s.modMesh g).thermtrip = s.thermtrip := rfl
@[simp] theorem State.modMesh_tiles (g : Mesh → Mesh) : (s.modMesh g).tiles = s.tiles := rfl
@[simp] theorem State.modMesh_slices (g : Mesh → Mesh) : (s.modMesh g).slices = s.slices := rfl
@[simp] theorem State.modMesh_curCopies (g : Mesh → Mesh) : (s.modMesh g).curCopies = s.curCopies := rfl
@[simp] theorem State.modMesh_stuck (g : Mesh → Mesh) : (s.modMesh g).stuck = s.stuck := rfl
@[simp] theorem State.modMesh_raw (g : Mesh → Mesh) : (s.modMesh g).raw = s.raw := rfl
@[simp] theorem State.modMesh_dram (g : Mesh → Mesh) : (s.modMesh g).dram = s.dram := rfl
@[simp] theorem State.modMesh_checks (g : Mesh → Mesh) : (s.modMesh g).checks = s.checks := rfl
@[simp] theorem State.modMesh_channels (g : Mesh → Mesh) : (s.modMesh g).channels = s.channels := rfl
@[simp] theorem State.modMesh_weights (g : Mesh → Mesh) : (s.modMesh g).weights = s.weights := rfl
@[simp] theorem State.modMesh_fillStart (g : Mesh → Mesh) : (s.modMesh g).fillStart = s.fillStart := rfl
@[simp] theorem State.modMesh_life (g : Mesh → Mesh) : (s.modMesh g).life = s.life := rfl
@[simp] theorem State.modMesh_journal (g : Mesh → Mesh) : (s.modMesh g).journal = s.journal := rfl
@[simp] theorem State.modMesh_seqNext (g : Mesh → Mesh) : (s.modMesh g).seqNext = s.seqNext := rfl
@[simp] theorem State.modMesh_queues (g : Mesh → Mesh) : (s.modMesh g).queues = s.queues := rfl
@[simp] theorem State.modMesh_reqs (g : Mesh → Mesh) : (s.modMesh g).reqs = s.reqs := rfl
@[simp] theorem State.modMesh_reqNext (g : Mesh → Mesh) : (s.modMesh g).reqNext = s.reqNext := rfl
@[simp] theorem State.modMesh_kept (g : Mesh → Mesh) : (s.modMesh g).kept = s.kept := rfl
@[simp] theorem State.modMesh_reports (g : Mesh → Mesh) : (s.modMesh g).reports = s.reports := rfl
@[simp] theorem State.modMesh_afterDone (g : Mesh → Mesh) : (s.modMesh g).afterDone = s.afterDone := rfl
@[simp] theorem State.modMesh_pathBad (g : Mesh → Mesh) : (s.modMesh g).pathBad = s.pathBad := rfl
@[simp] theorem State.modMesh_cto (g : Mesh → Mesh) : (s.modMesh g).cto = s.cto := rfl
@[simp] theorem State.modMesh_frames (g : Mesh → Mesh) : (s.modMesh g).frames = s.frames := rfl
@[simp] theorem State.modMesh_insts (g : Mesh → Mesh) : (s.modMesh g).insts = s.insts := rfl
@[simp] theorem State.modMesh_buckets (g : Mesh → Mesh) : (s.modMesh g).buckets = s.buckets := rfl
@[simp] theorem State.modMesh_bucketAt (g : Mesh → Mesh) : (s.modMesh g).bucketAt = s.bucketAt := rfl
@[simp] theorem State.modMesh_lfsr (g : Mesh → Mesh) : (s.modMesh g).lfsr = s.lfsr := rfl
@[simp] theorem State.modMesh_losses (g : Mesh → Mesh) : (s.modMesh g).losses = s.losses := rfl
@[simp] theorem State.modMesh_lastQueue (g : Mesh → Mesh) : (s.modMesh g).lastQueue = s.lastQueue := rfl
@[simp] theorem State.modMesh_grants (g : Mesh → Mesh) : (s.modMesh g).grants = s.grants := rfl
@[simp] theorem State.modMesh_engines (g : Mesh → Mesh) : (s.modMesh g).engines = s.engines := rfl
@[simp] theorem State.modMesh_rxSel (g : Mesh → Mesh) : (s.modMesh g).rxSel = s.rxSel := rfl
@[simp] theorem State.modMesh_extCredit (g : Mesh → Mesh) : (s.modMesh g).extCredit = s.extCredit := rfl
@[simp] theorem State.modMesh_selfTests (g : Mesh → Mesh) : (s.modMesh g).selfTests = s.selfTests := rfl
@[simp] theorem State.modMesh_jobs (g : Mesh → Mesh) : (s.modMesh g).jobs = s.jobs := rfl
@[simp] theorem State.modMesh_jobNext (g : Mesh → Mesh) : (s.modMesh g).jobNext = s.jobNext := rfl
@[simp] theorem State.modMesh_keys (g : Mesh → Mesh) : (s.modMesh g).keys = s.keys := rfl
@[simp] theorem State.modMesh_handleKey (g : Mesh → Mesh) : (s.modMesh g).handleKey = s.handleKey := rfl
@[simp] theorem State.modMesh_boot (g : Mesh → Mesh) : (s.modMesh g).boot = s.boot := rfl
@[simp] theorem State.modMesh_ports (g : Mesh → Mesh) : (s.modMesh g).ports = s.ports := rfl
@[simp] theorem State.modMesh_laneSwap (g : Mesh → Mesh) : (s.modMesh g).laneSwap = s.laneSwap := rfl
@[simp] theorem State.modMesh_blinks (g : Mesh → Mesh) : (s.modMesh g).blinks = s.blinks := rfl
@[simp] theorem State.modMesh_blWaiting (g : Mesh → Mesh) : (s.modMesh g).blWaiting = s.blWaiting := rfl
@[simp] theorem State.modMesh_peerSince (g : Mesh → Mesh) : (s.modMesh g).peerSince = s.peerSince := rfl
@[simp] theorem State.modMesh_decoders (g : Mesh → Mesh) : (s.modMesh g).decoders = s.decoders := rfl
@[simp] theorem State.modMesh_ep (g : Mesh → Mesh) : (s.modMesh g).ep = s.ep := rfl
@[simp] theorem State.modMesh_vfs (g : Mesh → Mesh) : (s.modMesh g).vfs = s.vfs := rfl
@[simp] theorem State.modMesh_intxPend (g : Mesh → Mesh) : (s.modMesh g).intxPend = s.intxPend := rfl
@[simp] theorem State.modMesh_intxOn (g : Mesh → Mesh) : (s.modMesh g).intxOn = s.intxOn := rfl
@[simp] theorem State.modMesh_standby (g : Mesh → Mesh) : (s.modMesh g).standby = s.standby := rfl
@[simp] theorem State.modMesh_hostTries (g : Mesh → Mesh) : (s.modMesh g).hostTries = s.hostTries := rfl
@[simp] theorem State.modMesh_col (g : Mesh → Mesh) : (s.modMesh g).col = s.col := rfl
@[simp] theorem State.modMesh_svc (g : Mesh → Mesh) : (s.modMesh g).svc = s.svc := rfl
@[simp] theorem State.modMesh_reg (g : Mesh → Mesh) (r : Nat) : (s.modMesh g).reg r = s.reg r := rfl
@[simp] theorem State.modMesh_f (g : Mesh → Mesh) (r : Fld) : (s.modMesh g).f r = s.f r := rfl
@[simp] theorem State.modMesh_spareFuse (g : Mesh → Mesh) : (s.modMesh g).spareFuse = s.spareFuse := rfl
@[simp] theorem State.modMesh_replicas (g : Mesh → Mesh) : (s.modMesh g).replicas = s.replicas := rfl
@[simp] theorem State.modMesh_recoveries (g : Mesh → Mesh) : (s.modMesh g).recoveries = s.recoveries := rfl
@[simp] theorem State.modMesh_writes (g : Mesh → Mesh) : (s.modMesh g).writes = s.writes := rfl
@[simp] theorem State.modMesh_floorsDue (g : Mesh → Mesh) : (s.modMesh g).floorsDue = s.floorsDue := rfl
@[simp] theorem State.modMesh_held (g : Mesh → Mesh) : (s.modMesh g).held = s.held := rfl

/-! ### modChan -/

@[simp] theorem State.modChan_pending (k : Nat) (g : Channel → Channel) : (s.modChan k g).pending = s.pending := rfl
@[simp] theorem State.modChan_regs (k : Nat) (g : Channel → Channel) : (s.modChan k g).regs = s.regs := rfl
@[simp] theorem State.modChan_sent (k : Nat) (g : Channel → Channel) : (s.modChan k g).sent = s.sent := rfl
@[simp] theorem State.modChan_free (k : Nat) (g : Channel → Channel) : (s.modChan k g).free = s.free := rfl
@[simp] theorem State.modChan_posted (k : Nat) (g : Channel → Channel) : (s.modChan k g).posted = s.posted := rfl
@[simp] theorem State.modChan_lateRow (k : Nat) (g : Channel → Channel) : (s.modChan k g).lateRow = s.lateRow := rfl
@[simp] theorem State.modChan_tb (k : Nat) (g : Channel → Channel) : (s.modChan k g).tb = s.tb := rfl
@[simp] theorem State.modChan_slots (k : Nat) (g : Channel → Channel) : (s.modChan k g).slots = s.slots := rfl
@[simp] theorem State.modChan_waiting (k : Nat) (g : Channel → Channel) : (s.modChan k g).waiting = s.waiting := rfl
@[simp] theorem State.modChan_dirty (k : Nat) (g : Channel → Channel) : (s.modChan k g).dirty = s.dirty := rfl
@[simp] theorem State.modChan_released (k : Nat) (g : Channel → Channel) : (s.modChan k g).released = s.released := rfl
@[simp] theorem State.modChan_logQueue (k : Nat) (g : Channel → Channel) : (s.modChan k g).logQueue = s.logQueue := rfl
@[simp] theorem State.modChan_lockFrom (k : Nat) (g : Channel → Channel) : (s.modChan k g).lockFrom = s.lockFrom := rfl
@[simp] theorem State.modChan_stopped (k : Nat) (g : Channel → Channel) : (s.modChan k g).stopped = s.stopped := rfl
@[simp] theorem State.modChan_deadDies (k : Nat) (g : Channel → Channel) : (s.modChan k g).deadDies = s.deadDies := rfl
@[simp] theorem State.modChan_off (k : Nat) (g : Channel → Channel) : (s.modChan k g).off = s.off := rfl
@[simp] theorem State.modChan_mainEn (k : Nat) (g : Channel → Channel) : (s.modChan k g).mainEn = s.mainEn := rfl
@[simp] theorem State.modChan_mainPg (k : Nat) (g : Channel → Channel) : (s.modChan k g).mainPg = s.mainPg := rfl
@[simp] theorem State.modChan_bootAt (k : Nat) (g : Channel → Channel) : (s.modChan k g).bootAt = s.bootAt := rfl
@[simp] theorem State.modChan_heldReqs (k : Nat) (g : Channel → Channel) : (s.modChan k g).heldReqs = s.heldReqs := rfl
@[simp] theorem State.modChan_harts (k : Nat) (g : Channel → Channel) : (s.modChan k g).harts = s.harts := rfl
@[simp] theorem State.modChan_cores (k : Nat) (g : Channel → Channel) : (s.modChan k g).cores = s.cores := rfl
@[simp] theorem State.modChan_hb (k : Nat) (g : Channel → Channel) : (s.modChan k g).hb = s.hb := rfl
@[simp] theorem State.modChan_thermtrip (k : Nat) (g : Channel → Channel) : (s.modChan k g).thermtrip = s.thermtrip := rfl
@[simp] theorem State.modChan_tiles (k : Nat) (g : Channel → Channel) : (s.modChan k g).tiles = s.tiles := rfl
@[simp] theorem State.modChan_slices (k : Nat) (g : Channel → Channel) : (s.modChan k g).slices = s.slices := rfl
@[simp] theorem State.modChan_curCopies (k : Nat) (g : Channel → Channel) : (s.modChan k g).curCopies = s.curCopies := rfl
@[simp] theorem State.modChan_stuck (k : Nat) (g : Channel → Channel) : (s.modChan k g).stuck = s.stuck := rfl
@[simp] theorem State.modChan_mesh (k : Nat) (g : Channel → Channel) : (s.modChan k g).mesh = s.mesh := rfl
@[simp] theorem State.modChan_raw (k : Nat) (g : Channel → Channel) : (s.modChan k g).raw = s.raw := rfl
@[simp] theorem State.modChan_dram (k : Nat) (g : Channel → Channel) : (s.modChan k g).dram = s.dram := rfl
@[simp] theorem State.modChan_checks (k : Nat) (g : Channel → Channel) : (s.modChan k g).checks = s.checks := rfl
@[simp] theorem State.modChan_weights (k : Nat) (g : Channel → Channel) : (s.modChan k g).weights = s.weights := rfl
@[simp] theorem State.modChan_fillStart (k : Nat) (g : Channel → Channel) : (s.modChan k g).fillStart = s.fillStart := rfl
@[simp] theorem State.modChan_life (k : Nat) (g : Channel → Channel) : (s.modChan k g).life = s.life := rfl
@[simp] theorem State.modChan_journal (k : Nat) (g : Channel → Channel) : (s.modChan k g).journal = s.journal := rfl
@[simp] theorem State.modChan_seqNext (k : Nat) (g : Channel → Channel) : (s.modChan k g).seqNext = s.seqNext := rfl
@[simp] theorem State.modChan_queues (k : Nat) (g : Channel → Channel) : (s.modChan k g).queues = s.queues := rfl
@[simp] theorem State.modChan_reqs (k : Nat) (g : Channel → Channel) : (s.modChan k g).reqs = s.reqs := rfl
@[simp] theorem State.modChan_reqNext (k : Nat) (g : Channel → Channel) : (s.modChan k g).reqNext = s.reqNext := rfl
@[simp] theorem State.modChan_kept (k : Nat) (g : Channel → Channel) : (s.modChan k g).kept = s.kept := rfl
@[simp] theorem State.modChan_reports (k : Nat) (g : Channel → Channel) : (s.modChan k g).reports = s.reports := rfl
@[simp] theorem State.modChan_afterDone (k : Nat) (g : Channel → Channel) : (s.modChan k g).afterDone = s.afterDone := rfl
@[simp] theorem State.modChan_pathBad (k : Nat) (g : Channel → Channel) : (s.modChan k g).pathBad = s.pathBad := rfl
@[simp] theorem State.modChan_cto (k : Nat) (g : Channel → Channel) : (s.modChan k g).cto = s.cto := rfl
@[simp] theorem State.modChan_frames (k : Nat) (g : Channel → Channel) : (s.modChan k g).frames = s.frames := rfl
@[simp] theorem State.modChan_insts (k : Nat) (g : Channel → Channel) : (s.modChan k g).insts = s.insts := rfl
@[simp] theorem State.modChan_buckets (k : Nat) (g : Channel → Channel) : (s.modChan k g).buckets = s.buckets := rfl
@[simp] theorem State.modChan_bucketAt (k : Nat) (g : Channel → Channel) : (s.modChan k g).bucketAt = s.bucketAt := rfl
@[simp] theorem State.modChan_lfsr (k : Nat) (g : Channel → Channel) : (s.modChan k g).lfsr = s.lfsr := rfl
@[simp] theorem State.modChan_losses (k : Nat) (g : Channel → Channel) : (s.modChan k g).losses = s.losses := rfl
@[simp] theorem State.modChan_lastQueue (k : Nat) (g : Channel → Channel) : (s.modChan k g).lastQueue = s.lastQueue := rfl
@[simp] theorem State.modChan_grants (k : Nat) (g : Channel → Channel) : (s.modChan k g).grants = s.grants := rfl
@[simp] theorem State.modChan_engines (k : Nat) (g : Channel → Channel) : (s.modChan k g).engines = s.engines := rfl
@[simp] theorem State.modChan_rxSel (k : Nat) (g : Channel → Channel) : (s.modChan k g).rxSel = s.rxSel := rfl
@[simp] theorem State.modChan_extCredit (k : Nat) (g : Channel → Channel) : (s.modChan k g).extCredit = s.extCredit := rfl
@[simp] theorem State.modChan_selfTests (k : Nat) (g : Channel → Channel) : (s.modChan k g).selfTests = s.selfTests := rfl
@[simp] theorem State.modChan_jobs (k : Nat) (g : Channel → Channel) : (s.modChan k g).jobs = s.jobs := rfl
@[simp] theorem State.modChan_jobNext (k : Nat) (g : Channel → Channel) : (s.modChan k g).jobNext = s.jobNext := rfl
@[simp] theorem State.modChan_keys (k : Nat) (g : Channel → Channel) : (s.modChan k g).keys = s.keys := rfl
@[simp] theorem State.modChan_handleKey (k : Nat) (g : Channel → Channel) : (s.modChan k g).handleKey = s.handleKey := rfl
@[simp] theorem State.modChan_boot (k : Nat) (g : Channel → Channel) : (s.modChan k g).boot = s.boot := rfl
@[simp] theorem State.modChan_ports (k : Nat) (g : Channel → Channel) : (s.modChan k g).ports = s.ports := rfl
@[simp] theorem State.modChan_laneSwap (k : Nat) (g : Channel → Channel) : (s.modChan k g).laneSwap = s.laneSwap := rfl
@[simp] theorem State.modChan_blinks (k : Nat) (g : Channel → Channel) : (s.modChan k g).blinks = s.blinks := rfl
@[simp] theorem State.modChan_blWaiting (k : Nat) (g : Channel → Channel) : (s.modChan k g).blWaiting = s.blWaiting := rfl
@[simp] theorem State.modChan_peerSince (k : Nat) (g : Channel → Channel) : (s.modChan k g).peerSince = s.peerSince := rfl
@[simp] theorem State.modChan_decoders (k : Nat) (g : Channel → Channel) : (s.modChan k g).decoders = s.decoders := rfl
@[simp] theorem State.modChan_ep (k : Nat) (g : Channel → Channel) : (s.modChan k g).ep = s.ep := rfl
@[simp] theorem State.modChan_vfs (k : Nat) (g : Channel → Channel) : (s.modChan k g).vfs = s.vfs := rfl
@[simp] theorem State.modChan_intxPend (k : Nat) (g : Channel → Channel) : (s.modChan k g).intxPend = s.intxPend := rfl
@[simp] theorem State.modChan_intxOn (k : Nat) (g : Channel → Channel) : (s.modChan k g).intxOn = s.intxOn := rfl
@[simp] theorem State.modChan_standby (k : Nat) (g : Channel → Channel) : (s.modChan k g).standby = s.standby := rfl
@[simp] theorem State.modChan_hostTries (k : Nat) (g : Channel → Channel) : (s.modChan k g).hostTries = s.hostTries := rfl
@[simp] theorem State.modChan_col (k : Nat) (g : Channel → Channel) : (s.modChan k g).col = s.col := rfl
@[simp] theorem State.modChan_svc (k : Nat) (g : Channel → Channel) : (s.modChan k g).svc = s.svc := rfl
@[simp] theorem State.modChan_reg (k : Nat) (g : Channel → Channel) (r : Nat) : (s.modChan k g).reg r = s.reg r := rfl
@[simp] theorem State.modChan_f (k : Nat) (g : Channel → Channel) (r : Fld) : (s.modChan k g).f r = s.f r := rfl
@[simp] theorem State.modChan_spareFuse (k : Nat) (g : Channel → Channel) : (s.modChan k g).spareFuse = s.spareFuse := rfl
@[simp] theorem State.modChan_replicas (k : Nat) (g : Channel → Channel) : (s.modChan k g).replicas = s.replicas := rfl
@[simp] theorem State.modChan_recoveries (k : Nat) (g : Channel → Channel) : (s.modChan k g).recoveries = s.recoveries := rfl
@[simp] theorem State.modChan_writes (k : Nat) (g : Channel → Channel) : (s.modChan k g).writes = s.writes := rfl
@[simp] theorem State.modChan_floorsDue (k : Nat) (g : Channel → Channel) : (s.modChan k g).floorsDue = s.floorsDue := rfl
@[simp] theorem State.modChan_held (k : Nat) (g : Channel → Channel) : (s.modChan k g).held = s.held := rfl

/-! ### modEngine -/

@[simp] theorem State.modEngine_pending (l : Nat) (g : Engine → Engine) : (s.modEngine l g).pending = s.pending := rfl
@[simp] theorem State.modEngine_regs (l : Nat) (g : Engine → Engine) : (s.modEngine l g).regs = s.regs := rfl
@[simp] theorem State.modEngine_sent (l : Nat) (g : Engine → Engine) : (s.modEngine l g).sent = s.sent := rfl
@[simp] theorem State.modEngine_free (l : Nat) (g : Engine → Engine) : (s.modEngine l g).free = s.free := rfl
@[simp] theorem State.modEngine_posted (l : Nat) (g : Engine → Engine) : (s.modEngine l g).posted = s.posted := rfl
@[simp] theorem State.modEngine_lateRow (l : Nat) (g : Engine → Engine) : (s.modEngine l g).lateRow = s.lateRow := rfl
@[simp] theorem State.modEngine_tb (l : Nat) (g : Engine → Engine) : (s.modEngine l g).tb = s.tb := rfl
@[simp] theorem State.modEngine_slots (l : Nat) (g : Engine → Engine) : (s.modEngine l g).slots = s.slots := rfl
@[simp] theorem State.modEngine_waiting (l : Nat) (g : Engine → Engine) : (s.modEngine l g).waiting = s.waiting := rfl
@[simp] theorem State.modEngine_dirty (l : Nat) (g : Engine → Engine) : (s.modEngine l g).dirty = s.dirty := rfl
@[simp] theorem State.modEngine_released (l : Nat) (g : Engine → Engine) : (s.modEngine l g).released = s.released := rfl
@[simp] theorem State.modEngine_logQueue (l : Nat) (g : Engine → Engine) : (s.modEngine l g).logQueue = s.logQueue := rfl
@[simp] theorem State.modEngine_lockFrom (l : Nat) (g : Engine → Engine) : (s.modEngine l g).lockFrom = s.lockFrom := rfl
@[simp] theorem State.modEngine_stopped (l : Nat) (g : Engine → Engine) : (s.modEngine l g).stopped = s.stopped := rfl
@[simp] theorem State.modEngine_deadDies (l : Nat) (g : Engine → Engine) : (s.modEngine l g).deadDies = s.deadDies := rfl
@[simp] theorem State.modEngine_off (l : Nat) (g : Engine → Engine) : (s.modEngine l g).off = s.off := rfl
@[simp] theorem State.modEngine_mainEn (l : Nat) (g : Engine → Engine) : (s.modEngine l g).mainEn = s.mainEn := rfl
@[simp] theorem State.modEngine_mainPg (l : Nat) (g : Engine → Engine) : (s.modEngine l g).mainPg = s.mainPg := rfl
@[simp] theorem State.modEngine_bootAt (l : Nat) (g : Engine → Engine) : (s.modEngine l g).bootAt = s.bootAt := rfl
@[simp] theorem State.modEngine_heldReqs (l : Nat) (g : Engine → Engine) : (s.modEngine l g).heldReqs = s.heldReqs := rfl
@[simp] theorem State.modEngine_harts (l : Nat) (g : Engine → Engine) : (s.modEngine l g).harts = s.harts := rfl
@[simp] theorem State.modEngine_cores (l : Nat) (g : Engine → Engine) : (s.modEngine l g).cores = s.cores := rfl
@[simp] theorem State.modEngine_hb (l : Nat) (g : Engine → Engine) : (s.modEngine l g).hb = s.hb := rfl
@[simp] theorem State.modEngine_thermtrip (l : Nat) (g : Engine → Engine) : (s.modEngine l g).thermtrip = s.thermtrip := rfl
@[simp] theorem State.modEngine_tiles (l : Nat) (g : Engine → Engine) : (s.modEngine l g).tiles = s.tiles := rfl
@[simp] theorem State.modEngine_slices (l : Nat) (g : Engine → Engine) : (s.modEngine l g).slices = s.slices := rfl
@[simp] theorem State.modEngine_curCopies (l : Nat) (g : Engine → Engine) : (s.modEngine l g).curCopies = s.curCopies := rfl
@[simp] theorem State.modEngine_stuck (l : Nat) (g : Engine → Engine) : (s.modEngine l g).stuck = s.stuck := rfl
@[simp] theorem State.modEngine_mesh (l : Nat) (g : Engine → Engine) : (s.modEngine l g).mesh = s.mesh := rfl
@[simp] theorem State.modEngine_raw (l : Nat) (g : Engine → Engine) : (s.modEngine l g).raw = s.raw := rfl
@[simp] theorem State.modEngine_dram (l : Nat) (g : Engine → Engine) : (s.modEngine l g).dram = s.dram := rfl
@[simp] theorem State.modEngine_checks (l : Nat) (g : Engine → Engine) : (s.modEngine l g).checks = s.checks := rfl
@[simp] theorem State.modEngine_channels (l : Nat) (g : Engine → Engine) : (s.modEngine l g).channels = s.channels := rfl
@[simp] theorem State.modEngine_weights (l : Nat) (g : Engine → Engine) : (s.modEngine l g).weights = s.weights := rfl
@[simp] theorem State.modEngine_fillStart (l : Nat) (g : Engine → Engine) : (s.modEngine l g).fillStart = s.fillStart := rfl
@[simp] theorem State.modEngine_life (l : Nat) (g : Engine → Engine) : (s.modEngine l g).life = s.life := rfl
@[simp] theorem State.modEngine_journal (l : Nat) (g : Engine → Engine) : (s.modEngine l g).journal = s.journal := rfl
@[simp] theorem State.modEngine_seqNext (l : Nat) (g : Engine → Engine) : (s.modEngine l g).seqNext = s.seqNext := rfl
@[simp] theorem State.modEngine_queues (l : Nat) (g : Engine → Engine) : (s.modEngine l g).queues = s.queues := rfl
@[simp] theorem State.modEngine_reqs (l : Nat) (g : Engine → Engine) : (s.modEngine l g).reqs = s.reqs := rfl
@[simp] theorem State.modEngine_reqNext (l : Nat) (g : Engine → Engine) : (s.modEngine l g).reqNext = s.reqNext := rfl
@[simp] theorem State.modEngine_kept (l : Nat) (g : Engine → Engine) : (s.modEngine l g).kept = s.kept := rfl
@[simp] theorem State.modEngine_reports (l : Nat) (g : Engine → Engine) : (s.modEngine l g).reports = s.reports := rfl
@[simp] theorem State.modEngine_afterDone (l : Nat) (g : Engine → Engine) : (s.modEngine l g).afterDone = s.afterDone := rfl
@[simp] theorem State.modEngine_pathBad (l : Nat) (g : Engine → Engine) : (s.modEngine l g).pathBad = s.pathBad := rfl
@[simp] theorem State.modEngine_cto (l : Nat) (g : Engine → Engine) : (s.modEngine l g).cto = s.cto := rfl
@[simp] theorem State.modEngine_frames (l : Nat) (g : Engine → Engine) : (s.modEngine l g).frames = s.frames := rfl
@[simp] theorem State.modEngine_insts (l : Nat) (g : Engine → Engine) : (s.modEngine l g).insts = s.insts := rfl
@[simp] theorem State.modEngine_buckets (l : Nat) (g : Engine → Engine) : (s.modEngine l g).buckets = s.buckets := rfl
@[simp] theorem State.modEngine_bucketAt (l : Nat) (g : Engine → Engine) : (s.modEngine l g).bucketAt = s.bucketAt := rfl
@[simp] theorem State.modEngine_lfsr (l : Nat) (g : Engine → Engine) : (s.modEngine l g).lfsr = s.lfsr := rfl
@[simp] theorem State.modEngine_losses (l : Nat) (g : Engine → Engine) : (s.modEngine l g).losses = s.losses := rfl
@[simp] theorem State.modEngine_lastQueue (l : Nat) (g : Engine → Engine) : (s.modEngine l g).lastQueue = s.lastQueue := rfl
@[simp] theorem State.modEngine_grants (l : Nat) (g : Engine → Engine) : (s.modEngine l g).grants = s.grants := rfl
@[simp] theorem State.modEngine_rxSel (l : Nat) (g : Engine → Engine) : (s.modEngine l g).rxSel = s.rxSel := rfl
@[simp] theorem State.modEngine_extCredit (l : Nat) (g : Engine → Engine) : (s.modEngine l g).extCredit = s.extCredit := rfl
@[simp] theorem State.modEngine_selfTests (l : Nat) (g : Engine → Engine) : (s.modEngine l g).selfTests = s.selfTests := rfl
@[simp] theorem State.modEngine_jobs (l : Nat) (g : Engine → Engine) : (s.modEngine l g).jobs = s.jobs := rfl
@[simp] theorem State.modEngine_jobNext (l : Nat) (g : Engine → Engine) : (s.modEngine l g).jobNext = s.jobNext := rfl
@[simp] theorem State.modEngine_keys (l : Nat) (g : Engine → Engine) : (s.modEngine l g).keys = s.keys := rfl
@[simp] theorem State.modEngine_handleKey (l : Nat) (g : Engine → Engine) : (s.modEngine l g).handleKey = s.handleKey := rfl
@[simp] theorem State.modEngine_boot (l : Nat) (g : Engine → Engine) : (s.modEngine l g).boot = s.boot := rfl
@[simp] theorem State.modEngine_ports (l : Nat) (g : Engine → Engine) : (s.modEngine l g).ports = s.ports := rfl
@[simp] theorem State.modEngine_laneSwap (l : Nat) (g : Engine → Engine) : (s.modEngine l g).laneSwap = s.laneSwap := rfl
@[simp] theorem State.modEngine_blinks (l : Nat) (g : Engine → Engine) : (s.modEngine l g).blinks = s.blinks := rfl
@[simp] theorem State.modEngine_blWaiting (l : Nat) (g : Engine → Engine) : (s.modEngine l g).blWaiting = s.blWaiting := rfl
@[simp] theorem State.modEngine_peerSince (l : Nat) (g : Engine → Engine) : (s.modEngine l g).peerSince = s.peerSince := rfl
@[simp] theorem State.modEngine_decoders (l : Nat) (g : Engine → Engine) : (s.modEngine l g).decoders = s.decoders := rfl
@[simp] theorem State.modEngine_ep (l : Nat) (g : Engine → Engine) : (s.modEngine l g).ep = s.ep := rfl
@[simp] theorem State.modEngine_vfs (l : Nat) (g : Engine → Engine) : (s.modEngine l g).vfs = s.vfs := rfl
@[simp] theorem State.modEngine_intxPend (l : Nat) (g : Engine → Engine) : (s.modEngine l g).intxPend = s.intxPend := rfl
@[simp] theorem State.modEngine_intxOn (l : Nat) (g : Engine → Engine) : (s.modEngine l g).intxOn = s.intxOn := rfl
@[simp] theorem State.modEngine_standby (l : Nat) (g : Engine → Engine) : (s.modEngine l g).standby = s.standby := rfl
@[simp] theorem State.modEngine_hostTries (l : Nat) (g : Engine → Engine) : (s.modEngine l g).hostTries = s.hostTries := rfl
@[simp] theorem State.modEngine_col (l : Nat) (g : Engine → Engine) : (s.modEngine l g).col = s.col := rfl
@[simp] theorem State.modEngine_svc (l : Nat) (g : Engine → Engine) : (s.modEngine l g).svc = s.svc := rfl
@[simp] theorem State.modEngine_reg (l : Nat) (g : Engine → Engine) (r : Nat) : (s.modEngine l g).reg r = s.reg r := rfl
@[simp] theorem State.modEngine_f (l : Nat) (g : Engine → Engine) (r : Fld) : (s.modEngine l g).f r = s.f r := rfl
@[simp] theorem State.modEngine_spareFuse (l : Nat) (g : Engine → Engine) : (s.modEngine l g).spareFuse = s.spareFuse := rfl
@[simp] theorem State.modEngine_replicas (l : Nat) (g : Engine → Engine) : (s.modEngine l g).replicas = s.replicas := rfl
@[simp] theorem State.modEngine_recoveries (l : Nat) (g : Engine → Engine) : (s.modEngine l g).recoveries = s.recoveries := rfl
@[simp] theorem State.modEngine_writes (l : Nat) (g : Engine → Engine) : (s.modEngine l g).writes = s.writes := rfl
@[simp] theorem State.modEngine_floorsDue (l : Nat) (g : Engine → Engine) : (s.modEngine l g).floorsDue = s.floorsDue := rfl
@[simp] theorem State.modEngine_held (l : Nat) (g : Engine → Engine) : (s.modEngine l g).held = s.held := rfl

/-! ### modQueue -/

@[simp] theorem State.modQueue_pending (q : Nat) (g : Queue → Queue) : (s.modQueue q g).pending = s.pending := rfl
@[simp] theorem State.modQueue_regs (q : Nat) (g : Queue → Queue) : (s.modQueue q g).regs = s.regs := rfl
@[simp] theorem State.modQueue_sent (q : Nat) (g : Queue → Queue) : (s.modQueue q g).sent = s.sent := rfl
@[simp] theorem State.modQueue_free (q : Nat) (g : Queue → Queue) : (s.modQueue q g).free = s.free := rfl
@[simp] theorem State.modQueue_posted (q : Nat) (g : Queue → Queue) : (s.modQueue q g).posted = s.posted := rfl
@[simp] theorem State.modQueue_lateRow (q : Nat) (g : Queue → Queue) : (s.modQueue q g).lateRow = s.lateRow := rfl
@[simp] theorem State.modQueue_tb (q : Nat) (g : Queue → Queue) : (s.modQueue q g).tb = s.tb := rfl
@[simp] theorem State.modQueue_slots (q : Nat) (g : Queue → Queue) : (s.modQueue q g).slots = s.slots := rfl
@[simp] theorem State.modQueue_waiting (q : Nat) (g : Queue → Queue) : (s.modQueue q g).waiting = s.waiting := rfl
@[simp] theorem State.modQueue_dirty (q : Nat) (g : Queue → Queue) : (s.modQueue q g).dirty = s.dirty := rfl
@[simp] theorem State.modQueue_released (q : Nat) (g : Queue → Queue) : (s.modQueue q g).released = s.released := rfl
@[simp] theorem State.modQueue_logQueue (q : Nat) (g : Queue → Queue) : (s.modQueue q g).logQueue = s.logQueue := rfl
@[simp] theorem State.modQueue_lockFrom (q : Nat) (g : Queue → Queue) : (s.modQueue q g).lockFrom = s.lockFrom := rfl
@[simp] theorem State.modQueue_stopped (q : Nat) (g : Queue → Queue) : (s.modQueue q g).stopped = s.stopped := rfl
@[simp] theorem State.modQueue_deadDies (q : Nat) (g : Queue → Queue) : (s.modQueue q g).deadDies = s.deadDies := rfl
@[simp] theorem State.modQueue_off (q : Nat) (g : Queue → Queue) : (s.modQueue q g).off = s.off := rfl
@[simp] theorem State.modQueue_mainEn (q : Nat) (g : Queue → Queue) : (s.modQueue q g).mainEn = s.mainEn := rfl
@[simp] theorem State.modQueue_mainPg (q : Nat) (g : Queue → Queue) : (s.modQueue q g).mainPg = s.mainPg := rfl
@[simp] theorem State.modQueue_bootAt (q : Nat) (g : Queue → Queue) : (s.modQueue q g).bootAt = s.bootAt := rfl
@[simp] theorem State.modQueue_heldReqs (q : Nat) (g : Queue → Queue) : (s.modQueue q g).heldReqs = s.heldReqs := rfl
@[simp] theorem State.modQueue_harts (q : Nat) (g : Queue → Queue) : (s.modQueue q g).harts = s.harts := rfl
@[simp] theorem State.modQueue_cores (q : Nat) (g : Queue → Queue) : (s.modQueue q g).cores = s.cores := rfl
@[simp] theorem State.modQueue_hb (q : Nat) (g : Queue → Queue) : (s.modQueue q g).hb = s.hb := rfl
@[simp] theorem State.modQueue_thermtrip (q : Nat) (g : Queue → Queue) : (s.modQueue q g).thermtrip = s.thermtrip := rfl
@[simp] theorem State.modQueue_tiles (q : Nat) (g : Queue → Queue) : (s.modQueue q g).tiles = s.tiles := rfl
@[simp] theorem State.modQueue_slices (q : Nat) (g : Queue → Queue) : (s.modQueue q g).slices = s.slices := rfl
@[simp] theorem State.modQueue_curCopies (q : Nat) (g : Queue → Queue) : (s.modQueue q g).curCopies = s.curCopies := rfl
@[simp] theorem State.modQueue_stuck (q : Nat) (g : Queue → Queue) : (s.modQueue q g).stuck = s.stuck := rfl
@[simp] theorem State.modQueue_mesh (q : Nat) (g : Queue → Queue) : (s.modQueue q g).mesh = s.mesh := rfl
@[simp] theorem State.modQueue_raw (q : Nat) (g : Queue → Queue) : (s.modQueue q g).raw = s.raw := rfl
@[simp] theorem State.modQueue_dram (q : Nat) (g : Queue → Queue) : (s.modQueue q g).dram = s.dram := rfl
@[simp] theorem State.modQueue_checks (q : Nat) (g : Queue → Queue) : (s.modQueue q g).checks = s.checks := rfl
@[simp] theorem State.modQueue_channels (q : Nat) (g : Queue → Queue) : (s.modQueue q g).channels = s.channels := rfl
@[simp] theorem State.modQueue_weights (q : Nat) (g : Queue → Queue) : (s.modQueue q g).weights = s.weights := rfl
@[simp] theorem State.modQueue_fillStart (q : Nat) (g : Queue → Queue) : (s.modQueue q g).fillStart = s.fillStart := rfl
@[simp] theorem State.modQueue_life (q : Nat) (g : Queue → Queue) : (s.modQueue q g).life = s.life := rfl
@[simp] theorem State.modQueue_journal (q : Nat) (g : Queue → Queue) : (s.modQueue q g).journal = s.journal := rfl
@[simp] theorem State.modQueue_seqNext (q : Nat) (g : Queue → Queue) : (s.modQueue q g).seqNext = s.seqNext := rfl
@[simp] theorem State.modQueue_reqs (q : Nat) (g : Queue → Queue) : (s.modQueue q g).reqs = s.reqs := rfl
@[simp] theorem State.modQueue_reqNext (q : Nat) (g : Queue → Queue) : (s.modQueue q g).reqNext = s.reqNext := rfl
@[simp] theorem State.modQueue_kept (q : Nat) (g : Queue → Queue) : (s.modQueue q g).kept = s.kept := rfl
@[simp] theorem State.modQueue_reports (q : Nat) (g : Queue → Queue) : (s.modQueue q g).reports = s.reports := rfl
@[simp] theorem State.modQueue_afterDone (q : Nat) (g : Queue → Queue) : (s.modQueue q g).afterDone = s.afterDone := rfl
@[simp] theorem State.modQueue_pathBad (q : Nat) (g : Queue → Queue) : (s.modQueue q g).pathBad = s.pathBad := rfl
@[simp] theorem State.modQueue_cto (q : Nat) (g : Queue → Queue) : (s.modQueue q g).cto = s.cto := rfl
@[simp] theorem State.modQueue_frames (q : Nat) (g : Queue → Queue) : (s.modQueue q g).frames = s.frames := rfl
@[simp] theorem State.modQueue_insts (q : Nat) (g : Queue → Queue) : (s.modQueue q g).insts = s.insts := rfl
@[simp] theorem State.modQueue_buckets (q : Nat) (g : Queue → Queue) : (s.modQueue q g).buckets = s.buckets := rfl
@[simp] theorem State.modQueue_bucketAt (q : Nat) (g : Queue → Queue) : (s.modQueue q g).bucketAt = s.bucketAt := rfl
@[simp] theorem State.modQueue_lfsr (q : Nat) (g : Queue → Queue) : (s.modQueue q g).lfsr = s.lfsr := rfl
@[simp] theorem State.modQueue_losses (q : Nat) (g : Queue → Queue) : (s.modQueue q g).losses = s.losses := rfl
@[simp] theorem State.modQueue_lastQueue (q : Nat) (g : Queue → Queue) : (s.modQueue q g).lastQueue = s.lastQueue := rfl
@[simp] theorem State.modQueue_grants (q : Nat) (g : Queue → Queue) : (s.modQueue q g).grants = s.grants := rfl
@[simp] theorem State.modQueue_engines (q : Nat) (g : Queue → Queue) : (s.modQueue q g).engines = s.engines := rfl
@[simp] theorem State.modQueue_rxSel (q : Nat) (g : Queue → Queue) : (s.modQueue q g).rxSel = s.rxSel := rfl
@[simp] theorem State.modQueue_extCredit (q : Nat) (g : Queue → Queue) : (s.modQueue q g).extCredit = s.extCredit := rfl
@[simp] theorem State.modQueue_selfTests (q : Nat) (g : Queue → Queue) : (s.modQueue q g).selfTests = s.selfTests := rfl
@[simp] theorem State.modQueue_jobs (q : Nat) (g : Queue → Queue) : (s.modQueue q g).jobs = s.jobs := rfl
@[simp] theorem State.modQueue_jobNext (q : Nat) (g : Queue → Queue) : (s.modQueue q g).jobNext = s.jobNext := rfl
@[simp] theorem State.modQueue_keys (q : Nat) (g : Queue → Queue) : (s.modQueue q g).keys = s.keys := rfl
@[simp] theorem State.modQueue_handleKey (q : Nat) (g : Queue → Queue) : (s.modQueue q g).handleKey = s.handleKey := rfl
@[simp] theorem State.modQueue_boot (q : Nat) (g : Queue → Queue) : (s.modQueue q g).boot = s.boot := rfl
@[simp] theorem State.modQueue_ports (q : Nat) (g : Queue → Queue) : (s.modQueue q g).ports = s.ports := rfl
@[simp] theorem State.modQueue_laneSwap (q : Nat) (g : Queue → Queue) : (s.modQueue q g).laneSwap = s.laneSwap := rfl
@[simp] theorem State.modQueue_blinks (q : Nat) (g : Queue → Queue) : (s.modQueue q g).blinks = s.blinks := rfl
@[simp] theorem State.modQueue_blWaiting (q : Nat) (g : Queue → Queue) : (s.modQueue q g).blWaiting = s.blWaiting := rfl
@[simp] theorem State.modQueue_peerSince (q : Nat) (g : Queue → Queue) : (s.modQueue q g).peerSince = s.peerSince := rfl
@[simp] theorem State.modQueue_decoders (q : Nat) (g : Queue → Queue) : (s.modQueue q g).decoders = s.decoders := rfl
@[simp] theorem State.modQueue_ep (q : Nat) (g : Queue → Queue) : (s.modQueue q g).ep = s.ep := rfl
@[simp] theorem State.modQueue_vfs (q : Nat) (g : Queue → Queue) : (s.modQueue q g).vfs = s.vfs := rfl
@[simp] theorem State.modQueue_intxPend (q : Nat) (g : Queue → Queue) : (s.modQueue q g).intxPend = s.intxPend := rfl
@[simp] theorem State.modQueue_intxOn (q : Nat) (g : Queue → Queue) : (s.modQueue q g).intxOn = s.intxOn := rfl
@[simp] theorem State.modQueue_standby (q : Nat) (g : Queue → Queue) : (s.modQueue q g).standby = s.standby := rfl
@[simp] theorem State.modQueue_hostTries (q : Nat) (g : Queue → Queue) : (s.modQueue q g).hostTries = s.hostTries := rfl
@[simp] theorem State.modQueue_col (q : Nat) (g : Queue → Queue) : (s.modQueue q g).col = s.col := rfl
@[simp] theorem State.modQueue_svc (q : Nat) (g : Queue → Queue) : (s.modQueue q g).svc = s.svc := rfl
@[simp] theorem State.modQueue_reg (q : Nat) (g : Queue → Queue) (r : Nat) : (s.modQueue q g).reg r = s.reg r := rfl
@[simp] theorem State.modQueue_f (q : Nat) (g : Queue → Queue) (r : Fld) : (s.modQueue q g).f r = s.f r := rfl
@[simp] theorem State.modQueue_spareFuse (q : Nat) (g : Queue → Queue) : (s.modQueue q g).spareFuse = s.spareFuse := rfl
@[simp] theorem State.modQueue_replicas (q : Nat) (g : Queue → Queue) : (s.modQueue q g).replicas = s.replicas := rfl
@[simp] theorem State.modQueue_recoveries (q : Nat) (g : Queue → Queue) : (s.modQueue q g).recoveries = s.recoveries := rfl
@[simp] theorem State.modQueue_writes (q : Nat) (g : Queue → Queue) : (s.modQueue q g).writes = s.writes := rfl
@[simp] theorem State.modQueue_floorsDue (q : Nat) (g : Queue → Queue) : (s.modQueue q g).floorsDue = s.floorsDue := rfl
@[simp] theorem State.modQueue_held (q : Nat) (g : Queue → Queue) : (s.modQueue q g).held = s.held := rfl

/-! ### modLink -/

@[simp] theorem State.modLink_pending (j : Nat) (g : BLink → BLink) : (s.modLink j g).pending = s.pending := rfl
@[simp] theorem State.modLink_regs (j : Nat) (g : BLink → BLink) : (s.modLink j g).regs = s.regs := rfl
@[simp] theorem State.modLink_sent (j : Nat) (g : BLink → BLink) : (s.modLink j g).sent = s.sent := rfl
@[simp] theorem State.modLink_free (j : Nat) (g : BLink → BLink) : (s.modLink j g).free = s.free := rfl
@[simp] theorem State.modLink_posted (j : Nat) (g : BLink → BLink) : (s.modLink j g).posted = s.posted := rfl
@[simp] theorem State.modLink_lateRow (j : Nat) (g : BLink → BLink) : (s.modLink j g).lateRow = s.lateRow := rfl
@[simp] theorem State.modLink_tb (j : Nat) (g : BLink → BLink) : (s.modLink j g).tb = s.tb := rfl
@[simp] theorem State.modLink_slots (j : Nat) (g : BLink → BLink) : (s.modLink j g).slots = s.slots := rfl
@[simp] theorem State.modLink_waiting (j : Nat) (g : BLink → BLink) : (s.modLink j g).waiting = s.waiting := rfl
@[simp] theorem State.modLink_dirty (j : Nat) (g : BLink → BLink) : (s.modLink j g).dirty = s.dirty := rfl
@[simp] theorem State.modLink_released (j : Nat) (g : BLink → BLink) : (s.modLink j g).released = s.released := rfl
@[simp] theorem State.modLink_logQueue (j : Nat) (g : BLink → BLink) : (s.modLink j g).logQueue = s.logQueue := rfl
@[simp] theorem State.modLink_lockFrom (j : Nat) (g : BLink → BLink) : (s.modLink j g).lockFrom = s.lockFrom := rfl
@[simp] theorem State.modLink_stopped (j : Nat) (g : BLink → BLink) : (s.modLink j g).stopped = s.stopped := rfl
@[simp] theorem State.modLink_deadDies (j : Nat) (g : BLink → BLink) : (s.modLink j g).deadDies = s.deadDies := rfl
@[simp] theorem State.modLink_off (j : Nat) (g : BLink → BLink) : (s.modLink j g).off = s.off := rfl
@[simp] theorem State.modLink_mainEn (j : Nat) (g : BLink → BLink) : (s.modLink j g).mainEn = s.mainEn := rfl
@[simp] theorem State.modLink_mainPg (j : Nat) (g : BLink → BLink) : (s.modLink j g).mainPg = s.mainPg := rfl
@[simp] theorem State.modLink_bootAt (j : Nat) (g : BLink → BLink) : (s.modLink j g).bootAt = s.bootAt := rfl
@[simp] theorem State.modLink_heldReqs (j : Nat) (g : BLink → BLink) : (s.modLink j g).heldReqs = s.heldReqs := rfl
@[simp] theorem State.modLink_harts (j : Nat) (g : BLink → BLink) : (s.modLink j g).harts = s.harts := rfl
@[simp] theorem State.modLink_cores (j : Nat) (g : BLink → BLink) : (s.modLink j g).cores = s.cores := rfl
@[simp] theorem State.modLink_hb (j : Nat) (g : BLink → BLink) : (s.modLink j g).hb = s.hb := rfl
@[simp] theorem State.modLink_thermtrip (j : Nat) (g : BLink → BLink) : (s.modLink j g).thermtrip = s.thermtrip := rfl
@[simp] theorem State.modLink_tiles (j : Nat) (g : BLink → BLink) : (s.modLink j g).tiles = s.tiles := rfl
@[simp] theorem State.modLink_slices (j : Nat) (g : BLink → BLink) : (s.modLink j g).slices = s.slices := rfl
@[simp] theorem State.modLink_curCopies (j : Nat) (g : BLink → BLink) : (s.modLink j g).curCopies = s.curCopies := rfl
@[simp] theorem State.modLink_stuck (j : Nat) (g : BLink → BLink) : (s.modLink j g).stuck = s.stuck := rfl
@[simp] theorem State.modLink_mesh (j : Nat) (g : BLink → BLink) : (s.modLink j g).mesh = s.mesh := rfl
@[simp] theorem State.modLink_raw (j : Nat) (g : BLink → BLink) : (s.modLink j g).raw = s.raw := rfl
@[simp] theorem State.modLink_dram (j : Nat) (g : BLink → BLink) : (s.modLink j g).dram = s.dram := rfl
@[simp] theorem State.modLink_checks (j : Nat) (g : BLink → BLink) : (s.modLink j g).checks = s.checks := rfl
@[simp] theorem State.modLink_channels (j : Nat) (g : BLink → BLink) : (s.modLink j g).channels = s.channels := rfl
@[simp] theorem State.modLink_weights (j : Nat) (g : BLink → BLink) : (s.modLink j g).weights = s.weights := rfl
@[simp] theorem State.modLink_fillStart (j : Nat) (g : BLink → BLink) : (s.modLink j g).fillStart = s.fillStart := rfl
@[simp] theorem State.modLink_life (j : Nat) (g : BLink → BLink) : (s.modLink j g).life = s.life := rfl
@[simp] theorem State.modLink_journal (j : Nat) (g : BLink → BLink) : (s.modLink j g).journal = s.journal := rfl
@[simp] theorem State.modLink_seqNext (j : Nat) (g : BLink → BLink) : (s.modLink j g).seqNext = s.seqNext := rfl
@[simp] theorem State.modLink_queues (j : Nat) (g : BLink → BLink) : (s.modLink j g).queues = s.queues := rfl
@[simp] theorem State.modLink_reqs (j : Nat) (g : BLink → BLink) : (s.modLink j g).reqs = s.reqs := rfl
@[simp] theorem State.modLink_reqNext (j : Nat) (g : BLink → BLink) : (s.modLink j g).reqNext = s.reqNext := rfl
@[simp] theorem State.modLink_kept (j : Nat) (g : BLink → BLink) : (s.modLink j g).kept = s.kept := rfl
@[simp] theorem State.modLink_reports (j : Nat) (g : BLink → BLink) : (s.modLink j g).reports = s.reports := rfl
@[simp] theorem State.modLink_afterDone (j : Nat) (g : BLink → BLink) : (s.modLink j g).afterDone = s.afterDone := rfl
@[simp] theorem State.modLink_pathBad (j : Nat) (g : BLink → BLink) : (s.modLink j g).pathBad = s.pathBad := rfl
@[simp] theorem State.modLink_cto (j : Nat) (g : BLink → BLink) : (s.modLink j g).cto = s.cto := rfl
@[simp] theorem State.modLink_frames (j : Nat) (g : BLink → BLink) : (s.modLink j g).frames = s.frames := rfl
@[simp] theorem State.modLink_insts (j : Nat) (g : BLink → BLink) : (s.modLink j g).insts = s.insts := rfl
@[simp] theorem State.modLink_buckets (j : Nat) (g : BLink → BLink) : (s.modLink j g).buckets = s.buckets := rfl
@[simp] theorem State.modLink_bucketAt (j : Nat) (g : BLink → BLink) : (s.modLink j g).bucketAt = s.bucketAt := rfl
@[simp] theorem State.modLink_lfsr (j : Nat) (g : BLink → BLink) : (s.modLink j g).lfsr = s.lfsr := rfl
@[simp] theorem State.modLink_losses (j : Nat) (g : BLink → BLink) : (s.modLink j g).losses = s.losses := rfl
@[simp] theorem State.modLink_lastQueue (j : Nat) (g : BLink → BLink) : (s.modLink j g).lastQueue = s.lastQueue := rfl
@[simp] theorem State.modLink_grants (j : Nat) (g : BLink → BLink) : (s.modLink j g).grants = s.grants := rfl
@[simp] theorem State.modLink_engines (j : Nat) (g : BLink → BLink) : (s.modLink j g).engines = s.engines := rfl
@[simp] theorem State.modLink_rxSel (j : Nat) (g : BLink → BLink) : (s.modLink j g).rxSel = s.rxSel := rfl
@[simp] theorem State.modLink_extCredit (j : Nat) (g : BLink → BLink) : (s.modLink j g).extCredit = s.extCredit := rfl
@[simp] theorem State.modLink_selfTests (j : Nat) (g : BLink → BLink) : (s.modLink j g).selfTests = s.selfTests := rfl
@[simp] theorem State.modLink_jobs (j : Nat) (g : BLink → BLink) : (s.modLink j g).jobs = s.jobs := rfl
@[simp] theorem State.modLink_jobNext (j : Nat) (g : BLink → BLink) : (s.modLink j g).jobNext = s.jobNext := rfl
@[simp] theorem State.modLink_keys (j : Nat) (g : BLink → BLink) : (s.modLink j g).keys = s.keys := rfl
@[simp] theorem State.modLink_handleKey (j : Nat) (g : BLink → BLink) : (s.modLink j g).handleKey = s.handleKey := rfl
@[simp] theorem State.modLink_boot (j : Nat) (g : BLink → BLink) : (s.modLink j g).boot = s.boot := rfl
@[simp] theorem State.modLink_ports (j : Nat) (g : BLink → BLink) : (s.modLink j g).ports = s.ports := rfl
@[simp] theorem State.modLink_laneSwap (j : Nat) (g : BLink → BLink) : (s.modLink j g).laneSwap = s.laneSwap := rfl
@[simp] theorem State.modLink_blWaiting (j : Nat) (g : BLink → BLink) : (s.modLink j g).blWaiting = s.blWaiting := rfl
@[simp] theorem State.modLink_peerSince (j : Nat) (g : BLink → BLink) : (s.modLink j g).peerSince = s.peerSince := rfl
@[simp] theorem State.modLink_decoders (j : Nat) (g : BLink → BLink) : (s.modLink j g).decoders = s.decoders := rfl
@[simp] theorem State.modLink_ep (j : Nat) (g : BLink → BLink) : (s.modLink j g).ep = s.ep := rfl
@[simp] theorem State.modLink_vfs (j : Nat) (g : BLink → BLink) : (s.modLink j g).vfs = s.vfs := rfl
@[simp] theorem State.modLink_intxPend (j : Nat) (g : BLink → BLink) : (s.modLink j g).intxPend = s.intxPend := rfl
@[simp] theorem State.modLink_intxOn (j : Nat) (g : BLink → BLink) : (s.modLink j g).intxOn = s.intxOn := rfl
@[simp] theorem State.modLink_standby (j : Nat) (g : BLink → BLink) : (s.modLink j g).standby = s.standby := rfl
@[simp] theorem State.modLink_hostTries (j : Nat) (g : BLink → BLink) : (s.modLink j g).hostTries = s.hostTries := rfl
@[simp] theorem State.modLink_col (j : Nat) (g : BLink → BLink) : (s.modLink j g).col = s.col := rfl
@[simp] theorem State.modLink_svc (j : Nat) (g : BLink → BLink) : (s.modLink j g).svc = s.svc := rfl
@[simp] theorem State.modLink_reg (j : Nat) (g : BLink → BLink) (r : Nat) : (s.modLink j g).reg r = s.reg r := rfl
@[simp] theorem State.modLink_f (j : Nat) (g : BLink → BLink) (r : Fld) : (s.modLink j g).f r = s.f r := rfl
@[simp] theorem State.modLink_spareFuse (j : Nat) (g : BLink → BLink) : (s.modLink j g).spareFuse = s.spareFuse := rfl
@[simp] theorem State.modLink_replicas (j : Nat) (g : BLink → BLink) : (s.modLink j g).replicas = s.replicas := rfl
@[simp] theorem State.modLink_recoveries (j : Nat) (g : BLink → BLink) : (s.modLink j g).recoveries = s.recoveries := rfl
@[simp] theorem State.modLink_writes (j : Nat) (g : BLink → BLink) : (s.modLink j g).writes = s.writes := rfl
@[simp] theorem State.modLink_floorsDue (j : Nat) (g : BLink → BLink) : (s.modLink j g).floorsDue = s.floorsDue := rfl
@[simp] theorem State.modLink_held (j : Nat) (g : BLink → BLink) : (s.modLink j g).held = s.held := rfl

/-! ### modPort -/

@[simp] theorem State.modPort_pending (p : Nat) (g : Port → Port) : (s.modPort p g).pending = s.pending := rfl
@[simp] theorem State.modPort_regs (p : Nat) (g : Port → Port) : (s.modPort p g).regs = s.regs := rfl
@[simp] theorem State.modPort_sent (p : Nat) (g : Port → Port) : (s.modPort p g).sent = s.sent := rfl
@[simp] theorem State.modPort_free (p : Nat) (g : Port → Port) : (s.modPort p g).free = s.free := rfl
@[simp] theorem State.modPort_posted (p : Nat) (g : Port → Port) : (s.modPort p g).posted = s.posted := rfl
@[simp] theorem State.modPort_lateRow (p : Nat) (g : Port → Port) : (s.modPort p g).lateRow = s.lateRow := rfl
@[simp] theorem State.modPort_tb (p : Nat) (g : Port → Port) : (s.modPort p g).tb = s.tb := rfl
@[simp] theorem State.modPort_slots (p : Nat) (g : Port → Port) : (s.modPort p g).slots = s.slots := rfl
@[simp] theorem State.modPort_waiting (p : Nat) (g : Port → Port) : (s.modPort p g).waiting = s.waiting := rfl
@[simp] theorem State.modPort_dirty (p : Nat) (g : Port → Port) : (s.modPort p g).dirty = s.dirty := rfl
@[simp] theorem State.modPort_released (p : Nat) (g : Port → Port) : (s.modPort p g).released = s.released := rfl
@[simp] theorem State.modPort_logQueue (p : Nat) (g : Port → Port) : (s.modPort p g).logQueue = s.logQueue := rfl
@[simp] theorem State.modPort_lockFrom (p : Nat) (g : Port → Port) : (s.modPort p g).lockFrom = s.lockFrom := rfl
@[simp] theorem State.modPort_stopped (p : Nat) (g : Port → Port) : (s.modPort p g).stopped = s.stopped := rfl
@[simp] theorem State.modPort_deadDies (p : Nat) (g : Port → Port) : (s.modPort p g).deadDies = s.deadDies := rfl
@[simp] theorem State.modPort_off (p : Nat) (g : Port → Port) : (s.modPort p g).off = s.off := rfl
@[simp] theorem State.modPort_mainEn (p : Nat) (g : Port → Port) : (s.modPort p g).mainEn = s.mainEn := rfl
@[simp] theorem State.modPort_mainPg (p : Nat) (g : Port → Port) : (s.modPort p g).mainPg = s.mainPg := rfl
@[simp] theorem State.modPort_bootAt (p : Nat) (g : Port → Port) : (s.modPort p g).bootAt = s.bootAt := rfl
@[simp] theorem State.modPort_heldReqs (p : Nat) (g : Port → Port) : (s.modPort p g).heldReqs = s.heldReqs := rfl
@[simp] theorem State.modPort_harts (p : Nat) (g : Port → Port) : (s.modPort p g).harts = s.harts := rfl
@[simp] theorem State.modPort_cores (p : Nat) (g : Port → Port) : (s.modPort p g).cores = s.cores := rfl
@[simp] theorem State.modPort_hb (p : Nat) (g : Port → Port) : (s.modPort p g).hb = s.hb := rfl
@[simp] theorem State.modPort_thermtrip (p : Nat) (g : Port → Port) : (s.modPort p g).thermtrip = s.thermtrip := rfl
@[simp] theorem State.modPort_tiles (p : Nat) (g : Port → Port) : (s.modPort p g).tiles = s.tiles := rfl
@[simp] theorem State.modPort_slices (p : Nat) (g : Port → Port) : (s.modPort p g).slices = s.slices := rfl
@[simp] theorem State.modPort_curCopies (p : Nat) (g : Port → Port) : (s.modPort p g).curCopies = s.curCopies := rfl
@[simp] theorem State.modPort_stuck (p : Nat) (g : Port → Port) : (s.modPort p g).stuck = s.stuck := rfl
@[simp] theorem State.modPort_mesh (p : Nat) (g : Port → Port) : (s.modPort p g).mesh = s.mesh := rfl
@[simp] theorem State.modPort_raw (p : Nat) (g : Port → Port) : (s.modPort p g).raw = s.raw := rfl
@[simp] theorem State.modPort_dram (p : Nat) (g : Port → Port) : (s.modPort p g).dram = s.dram := rfl
@[simp] theorem State.modPort_checks (p : Nat) (g : Port → Port) : (s.modPort p g).checks = s.checks := rfl
@[simp] theorem State.modPort_channels (p : Nat) (g : Port → Port) : (s.modPort p g).channels = s.channels := rfl
@[simp] theorem State.modPort_weights (p : Nat) (g : Port → Port) : (s.modPort p g).weights = s.weights := rfl
@[simp] theorem State.modPort_fillStart (p : Nat) (g : Port → Port) : (s.modPort p g).fillStart = s.fillStart := rfl
@[simp] theorem State.modPort_life (p : Nat) (g : Port → Port) : (s.modPort p g).life = s.life := rfl
@[simp] theorem State.modPort_journal (p : Nat) (g : Port → Port) : (s.modPort p g).journal = s.journal := rfl
@[simp] theorem State.modPort_seqNext (p : Nat) (g : Port → Port) : (s.modPort p g).seqNext = s.seqNext := rfl
@[simp] theorem State.modPort_queues (p : Nat) (g : Port → Port) : (s.modPort p g).queues = s.queues := rfl
@[simp] theorem State.modPort_reqs (p : Nat) (g : Port → Port) : (s.modPort p g).reqs = s.reqs := rfl
@[simp] theorem State.modPort_reqNext (p : Nat) (g : Port → Port) : (s.modPort p g).reqNext = s.reqNext := rfl
@[simp] theorem State.modPort_kept (p : Nat) (g : Port → Port) : (s.modPort p g).kept = s.kept := rfl
@[simp] theorem State.modPort_reports (p : Nat) (g : Port → Port) : (s.modPort p g).reports = s.reports := rfl
@[simp] theorem State.modPort_afterDone (p : Nat) (g : Port → Port) : (s.modPort p g).afterDone = s.afterDone := rfl
@[simp] theorem State.modPort_pathBad (p : Nat) (g : Port → Port) : (s.modPort p g).pathBad = s.pathBad := rfl
@[simp] theorem State.modPort_cto (p : Nat) (g : Port → Port) : (s.modPort p g).cto = s.cto := rfl
@[simp] theorem State.modPort_frames (p : Nat) (g : Port → Port) : (s.modPort p g).frames = s.frames := rfl
@[simp] theorem State.modPort_insts (p : Nat) (g : Port → Port) : (s.modPort p g).insts = s.insts := rfl
@[simp] theorem State.modPort_buckets (p : Nat) (g : Port → Port) : (s.modPort p g).buckets = s.buckets := rfl
@[simp] theorem State.modPort_bucketAt (p : Nat) (g : Port → Port) : (s.modPort p g).bucketAt = s.bucketAt := rfl
@[simp] theorem State.modPort_lfsr (p : Nat) (g : Port → Port) : (s.modPort p g).lfsr = s.lfsr := rfl
@[simp] theorem State.modPort_losses (p : Nat) (g : Port → Port) : (s.modPort p g).losses = s.losses := rfl
@[simp] theorem State.modPort_lastQueue (p : Nat) (g : Port → Port) : (s.modPort p g).lastQueue = s.lastQueue := rfl
@[simp] theorem State.modPort_grants (p : Nat) (g : Port → Port) : (s.modPort p g).grants = s.grants := rfl
@[simp] theorem State.modPort_engines (p : Nat) (g : Port → Port) : (s.modPort p g).engines = s.engines := rfl
@[simp] theorem State.modPort_rxSel (p : Nat) (g : Port → Port) : (s.modPort p g).rxSel = s.rxSel := rfl
@[simp] theorem State.modPort_extCredit (p : Nat) (g : Port → Port) : (s.modPort p g).extCredit = s.extCredit := rfl
@[simp] theorem State.modPort_selfTests (p : Nat) (g : Port → Port) : (s.modPort p g).selfTests = s.selfTests := rfl
@[simp] theorem State.modPort_jobs (p : Nat) (g : Port → Port) : (s.modPort p g).jobs = s.jobs := rfl
@[simp] theorem State.modPort_jobNext (p : Nat) (g : Port → Port) : (s.modPort p g).jobNext = s.jobNext := rfl
@[simp] theorem State.modPort_keys (p : Nat) (g : Port → Port) : (s.modPort p g).keys = s.keys := rfl
@[simp] theorem State.modPort_handleKey (p : Nat) (g : Port → Port) : (s.modPort p g).handleKey = s.handleKey := rfl
@[simp] theorem State.modPort_boot (p : Nat) (g : Port → Port) : (s.modPort p g).boot = s.boot := rfl
@[simp] theorem State.modPort_laneSwap (p : Nat) (g : Port → Port) : (s.modPort p g).laneSwap = s.laneSwap := rfl
@[simp] theorem State.modPort_blinks (p : Nat) (g : Port → Port) : (s.modPort p g).blinks = s.blinks := rfl
@[simp] theorem State.modPort_blWaiting (p : Nat) (g : Port → Port) : (s.modPort p g).blWaiting = s.blWaiting := rfl
@[simp] theorem State.modPort_peerSince (p : Nat) (g : Port → Port) : (s.modPort p g).peerSince = s.peerSince := rfl
@[simp] theorem State.modPort_decoders (p : Nat) (g : Port → Port) : (s.modPort p g).decoders = s.decoders := rfl
@[simp] theorem State.modPort_ep (p : Nat) (g : Port → Port) : (s.modPort p g).ep = s.ep := rfl
@[simp] theorem State.modPort_vfs (p : Nat) (g : Port → Port) : (s.modPort p g).vfs = s.vfs := rfl
@[simp] theorem State.modPort_intxPend (p : Nat) (g : Port → Port) : (s.modPort p g).intxPend = s.intxPend := rfl
@[simp] theorem State.modPort_intxOn (p : Nat) (g : Port → Port) : (s.modPort p g).intxOn = s.intxOn := rfl
@[simp] theorem State.modPort_standby (p : Nat) (g : Port → Port) : (s.modPort p g).standby = s.standby := rfl
@[simp] theorem State.modPort_hostTries (p : Nat) (g : Port → Port) : (s.modPort p g).hostTries = s.hostTries := rfl
@[simp] theorem State.modPort_col (p : Nat) (g : Port → Port) : (s.modPort p g).col = s.col := rfl
@[simp] theorem State.modPort_svc (p : Nat) (g : Port → Port) : (s.modPort p g).svc = s.svc := rfl
@[simp] theorem State.modPort_reg (p : Nat) (g : Port → Port) (r : Nat) : (s.modPort p g).reg r = s.reg r := rfl
@[simp] theorem State.modPort_f (p : Nat) (g : Port → Port) (r : Fld) : (s.modPort p g).f r = s.f r := rfl
@[simp] theorem State.modPort_spareFuse (p : Nat) (g : Port → Port) : (s.modPort p g).spareFuse = s.spareFuse := rfl
@[simp] theorem State.modPort_replicas (p : Nat) (g : Port → Port) : (s.modPort p g).replicas = s.replicas := rfl
@[simp] theorem State.modPort_recoveries (p : Nat) (g : Port → Port) : (s.modPort p g).recoveries = s.recoveries := rfl
@[simp] theorem State.modPort_writes (p : Nat) (g : Port → Port) : (s.modPort p g).writes = s.writes := rfl
@[simp] theorem State.modPort_floorsDue (p : Nat) (g : Port → Port) : (s.modPort p g).floorsDue = s.floorsDue := rfl
@[simp] theorem State.modPort_held (p : Nat) (g : Port → Port) : (s.modPort p g).held = s.held := rfl

/-! ### modSlot -/

@[simp] theorem State.modSlot_pending (n : Nat) (g : Slot → Slot) : (s.modSlot n g).pending = s.pending := rfl
@[simp] theorem State.modSlot_regs (n : Nat) (g : Slot → Slot) : (s.modSlot n g).regs = s.regs := rfl
@[simp] theorem State.modSlot_sent (n : Nat) (g : Slot → Slot) : (s.modSlot n g).sent = s.sent := rfl
@[simp] theorem State.modSlot_free (n : Nat) (g : Slot → Slot) : (s.modSlot n g).free = s.free := rfl
@[simp] theorem State.modSlot_posted (n : Nat) (g : Slot → Slot) : (s.modSlot n g).posted = s.posted := rfl
@[simp] theorem State.modSlot_lateRow (n : Nat) (g : Slot → Slot) : (s.modSlot n g).lateRow = s.lateRow := rfl
@[simp] theorem State.modSlot_tb (n : Nat) (g : Slot → Slot) : (s.modSlot n g).tb = s.tb := rfl
@[simp] theorem State.modSlot_waiting (n : Nat) (g : Slot → Slot) : (s.modSlot n g).waiting = s.waiting := rfl
@[simp] theorem State.modSlot_dirty (n : Nat) (g : Slot → Slot) : (s.modSlot n g).dirty = s.dirty := rfl
@[simp] theorem State.modSlot_released (n : Nat) (g : Slot → Slot) : (s.modSlot n g).released = s.released := rfl
@[simp] theorem State.modSlot_logQueue (n : Nat) (g : Slot → Slot) : (s.modSlot n g).logQueue = s.logQueue := rfl
@[simp] theorem State.modSlot_lockFrom (n : Nat) (g : Slot → Slot) : (s.modSlot n g).lockFrom = s.lockFrom := rfl
@[simp] theorem State.modSlot_stopped (n : Nat) (g : Slot → Slot) : (s.modSlot n g).stopped = s.stopped := rfl
@[simp] theorem State.modSlot_deadDies (n : Nat) (g : Slot → Slot) : (s.modSlot n g).deadDies = s.deadDies := rfl
@[simp] theorem State.modSlot_off (n : Nat) (g : Slot → Slot) : (s.modSlot n g).off = s.off := rfl
@[simp] theorem State.modSlot_mainEn (n : Nat) (g : Slot → Slot) : (s.modSlot n g).mainEn = s.mainEn := rfl
@[simp] theorem State.modSlot_mainPg (n : Nat) (g : Slot → Slot) : (s.modSlot n g).mainPg = s.mainPg := rfl
@[simp] theorem State.modSlot_bootAt (n : Nat) (g : Slot → Slot) : (s.modSlot n g).bootAt = s.bootAt := rfl
@[simp] theorem State.modSlot_heldReqs (n : Nat) (g : Slot → Slot) : (s.modSlot n g).heldReqs = s.heldReqs := rfl
@[simp] theorem State.modSlot_harts (n : Nat) (g : Slot → Slot) : (s.modSlot n g).harts = s.harts := rfl
@[simp] theorem State.modSlot_cores (n : Nat) (g : Slot → Slot) : (s.modSlot n g).cores = s.cores := rfl
@[simp] theorem State.modSlot_hb (n : Nat) (g : Slot → Slot) : (s.modSlot n g).hb = s.hb := rfl
@[simp] theorem State.modSlot_thermtrip (n : Nat) (g : Slot → Slot) : (s.modSlot n g).thermtrip = s.thermtrip := rfl
@[simp] theorem State.modSlot_tiles (n : Nat) (g : Slot → Slot) : (s.modSlot n g).tiles = s.tiles := rfl
@[simp] theorem State.modSlot_slices (n : Nat) (g : Slot → Slot) : (s.modSlot n g).slices = s.slices := rfl
@[simp] theorem State.modSlot_curCopies (n : Nat) (g : Slot → Slot) : (s.modSlot n g).curCopies = s.curCopies := rfl
@[simp] theorem State.modSlot_stuck (n : Nat) (g : Slot → Slot) : (s.modSlot n g).stuck = s.stuck := rfl
@[simp] theorem State.modSlot_mesh (n : Nat) (g : Slot → Slot) : (s.modSlot n g).mesh = s.mesh := rfl
@[simp] theorem State.modSlot_raw (n : Nat) (g : Slot → Slot) : (s.modSlot n g).raw = s.raw := rfl
@[simp] theorem State.modSlot_dram (n : Nat) (g : Slot → Slot) : (s.modSlot n g).dram = s.dram := rfl
@[simp] theorem State.modSlot_checks (n : Nat) (g : Slot → Slot) : (s.modSlot n g).checks = s.checks := rfl
@[simp] theorem State.modSlot_channels (n : Nat) (g : Slot → Slot) : (s.modSlot n g).channels = s.channels := rfl
@[simp] theorem State.modSlot_weights (n : Nat) (g : Slot → Slot) : (s.modSlot n g).weights = s.weights := rfl
@[simp] theorem State.modSlot_fillStart (n : Nat) (g : Slot → Slot) : (s.modSlot n g).fillStart = s.fillStart := rfl
@[simp] theorem State.modSlot_life (n : Nat) (g : Slot → Slot) : (s.modSlot n g).life = s.life := rfl
@[simp] theorem State.modSlot_journal (n : Nat) (g : Slot → Slot) : (s.modSlot n g).journal = s.journal := rfl
@[simp] theorem State.modSlot_seqNext (n : Nat) (g : Slot → Slot) : (s.modSlot n g).seqNext = s.seqNext := rfl
@[simp] theorem State.modSlot_queues (n : Nat) (g : Slot → Slot) : (s.modSlot n g).queues = s.queues := rfl
@[simp] theorem State.modSlot_reqs (n : Nat) (g : Slot → Slot) : (s.modSlot n g).reqs = s.reqs := rfl
@[simp] theorem State.modSlot_reqNext (n : Nat) (g : Slot → Slot) : (s.modSlot n g).reqNext = s.reqNext := rfl
@[simp] theorem State.modSlot_kept (n : Nat) (g : Slot → Slot) : (s.modSlot n g).kept = s.kept := rfl
@[simp] theorem State.modSlot_reports (n : Nat) (g : Slot → Slot) : (s.modSlot n g).reports = s.reports := rfl
@[simp] theorem State.modSlot_afterDone (n : Nat) (g : Slot → Slot) : (s.modSlot n g).afterDone = s.afterDone := rfl
@[simp] theorem State.modSlot_pathBad (n : Nat) (g : Slot → Slot) : (s.modSlot n g).pathBad = s.pathBad := rfl
@[simp] theorem State.modSlot_cto (n : Nat) (g : Slot → Slot) : (s.modSlot n g).cto = s.cto := rfl
@[simp] theorem State.modSlot_frames (n : Nat) (g : Slot → Slot) : (s.modSlot n g).frames = s.frames := rfl
@[simp] theorem State.modSlot_insts (n : Nat) (g : Slot → Slot) : (s.modSlot n g).insts = s.insts := rfl
@[simp] theorem State.modSlot_buckets (n : Nat) (g : Slot → Slot) : (s.modSlot n g).buckets = s.buckets := rfl
@[simp] theorem State.modSlot_bucketAt (n : Nat) (g : Slot → Slot) : (s.modSlot n g).bucketAt = s.bucketAt := rfl
@[simp] theorem State.modSlot_lfsr (n : Nat) (g : Slot → Slot) : (s.modSlot n g).lfsr = s.lfsr := rfl
@[simp] theorem State.modSlot_losses (n : Nat) (g : Slot → Slot) : (s.modSlot n g).losses = s.losses := rfl
@[simp] theorem State.modSlot_lastQueue (n : Nat) (g : Slot → Slot) : (s.modSlot n g).lastQueue = s.lastQueue := rfl
@[simp] theorem State.modSlot_grants (n : Nat) (g : Slot → Slot) : (s.modSlot n g).grants = s.grants := rfl
@[simp] theorem State.modSlot_engines (n : Nat) (g : Slot → Slot) : (s.modSlot n g).engines = s.engines := rfl
@[simp] theorem State.modSlot_rxSel (n : Nat) (g : Slot → Slot) : (s.modSlot n g).rxSel = s.rxSel := rfl
@[simp] theorem State.modSlot_extCredit (n : Nat) (g : Slot → Slot) : (s.modSlot n g).extCredit = s.extCredit := rfl
@[simp] theorem State.modSlot_selfTests (n : Nat) (g : Slot → Slot) : (s.modSlot n g).selfTests = s.selfTests := rfl
@[simp] theorem State.modSlot_jobs (n : Nat) (g : Slot → Slot) : (s.modSlot n g).jobs = s.jobs := rfl
@[simp] theorem State.modSlot_jobNext (n : Nat) (g : Slot → Slot) : (s.modSlot n g).jobNext = s.jobNext := rfl
@[simp] theorem State.modSlot_keys (n : Nat) (g : Slot → Slot) : (s.modSlot n g).keys = s.keys := rfl
@[simp] theorem State.modSlot_handleKey (n : Nat) (g : Slot → Slot) : (s.modSlot n g).handleKey = s.handleKey := rfl
@[simp] theorem State.modSlot_boot (n : Nat) (g : Slot → Slot) : (s.modSlot n g).boot = s.boot := rfl
@[simp] theorem State.modSlot_ports (n : Nat) (g : Slot → Slot) : (s.modSlot n g).ports = s.ports := rfl
@[simp] theorem State.modSlot_laneSwap (n : Nat) (g : Slot → Slot) : (s.modSlot n g).laneSwap = s.laneSwap := rfl
@[simp] theorem State.modSlot_blinks (n : Nat) (g : Slot → Slot) : (s.modSlot n g).blinks = s.blinks := rfl
@[simp] theorem State.modSlot_blWaiting (n : Nat) (g : Slot → Slot) : (s.modSlot n g).blWaiting = s.blWaiting := rfl
@[simp] theorem State.modSlot_peerSince (n : Nat) (g : Slot → Slot) : (s.modSlot n g).peerSince = s.peerSince := rfl
@[simp] theorem State.modSlot_decoders (n : Nat) (g : Slot → Slot) : (s.modSlot n g).decoders = s.decoders := rfl
@[simp] theorem State.modSlot_ep (n : Nat) (g : Slot → Slot) : (s.modSlot n g).ep = s.ep := rfl
@[simp] theorem State.modSlot_vfs (n : Nat) (g : Slot → Slot) : (s.modSlot n g).vfs = s.vfs := rfl
@[simp] theorem State.modSlot_intxPend (n : Nat) (g : Slot → Slot) : (s.modSlot n g).intxPend = s.intxPend := rfl
@[simp] theorem State.modSlot_intxOn (n : Nat) (g : Slot → Slot) : (s.modSlot n g).intxOn = s.intxOn := rfl
@[simp] theorem State.modSlot_standby (n : Nat) (g : Slot → Slot) : (s.modSlot n g).standby = s.standby := rfl
@[simp] theorem State.modSlot_hostTries (n : Nat) (g : Slot → Slot) : (s.modSlot n g).hostTries = s.hostTries := rfl
@[simp] theorem State.modSlot_col (n : Nat) (g : Slot → Slot) : (s.modSlot n g).col = s.col := rfl
@[simp] theorem State.modSlot_svc (n : Nat) (g : Slot → Slot) : (s.modSlot n g).svc = s.svc := rfl
@[simp] theorem State.modSlot_reg (n : Nat) (g : Slot → Slot) (r : Nat) : (s.modSlot n g).reg r = s.reg r := rfl
@[simp] theorem State.modSlot_f (n : Nat) (g : Slot → Slot) (r : Fld) : (s.modSlot n g).f r = s.f r := rfl
@[simp] theorem State.modSlot_spareFuse (n : Nat) (g : Slot → Slot) : (s.modSlot n g).spareFuse = s.spareFuse := rfl
@[simp] theorem State.modSlot_replicas (n : Nat) (g : Slot → Slot) : (s.modSlot n g).replicas = s.replicas := rfl
@[simp] theorem State.modSlot_recoveries (n : Nat) (g : Slot → Slot) : (s.modSlot n g).recoveries = s.recoveries := rfl
@[simp] theorem State.modSlot_writes (n : Nat) (g : Slot → Slot) : (s.modSlot n g).writes = s.writes := rfl
@[simp] theorem State.modSlot_floorsDue (n : Nat) (g : Slot → Slot) : (s.modSlot n g).floorsDue = s.floorsDue := rfl
@[simp] theorem State.modSlot_held (n : Nat) (g : Slot → Slot) : (s.modSlot n g).held = s.held := rfl

end Sys2Proof.Machine
end

