-- ==== Sys2Proof/Laws/Safety.lean ====
section
/-! SUPPORT. The laws of the terms that claims are stated in. -/

namespace Sys2Proof.Machine

open Sys2Proof

/-- A write that passes every check does what the register does. -/
theorem State.written_of_admits {s : State} {who : Requester} {size k : Nat} {v : Word} (act : State → State)
    (h : s.admits who size k v = true) : s.written who size k v act = act s := by
  unfold State.admits at h
  unfold State.written
  split at h
  · cases h
  · rename_i d is hf
    simp only [Bool.and_eq_true, decide_eq_true_eq, Bool.not_eq_true', Bool.or_eq_false_iff] at h
    obtain ⟨⟨⟨⟨h0, h1⟩, h2⟩, h3⟩, ⟨h4, h5⟩, h6⟩ := h
    simp only [hf, h0, h1, ne_eq, not_true_eq_false, if_false, h2, h3, h4, h5, h6, Bool.or_self, Bool.false_eq_true]

/-- An instruction that acts does what `act` says, and ends or waits. -/
theorem State.hartInstr_of_acting {s u : State} {h raw : Nat} {k : InstrClass} (act : State → Nat → Nat → State × Bool)
    (ha : s.acting h raw k = some u) : s.stopped = false ∧ s.hartInstr h raw k act =
      if (act u (instrWord raw) (instrLen raw)).2 then
        (act u (instrWord raw) (instrLen raw)).1.ended h (instrWord raw) k ((s.modHart h (fun t => { t with run := .running })).hart h)
      else (act u (instrWord raw) (instrLen raw)).1.waitsOn h := by
  unfold State.acting at ha
  simp only at ha
  split at ha
  · rename_i hc
    obtain ⟨h0, h1, h2, h3, h4, h5⟩ := hc
    refine ⟨h0, ?_⟩
    unfold State.hartInstr
    simp only [h1, h2, h3, h4, h5, Bool.not_true, ne_eq, not_true_eq_false, decide_false, Bool.or_self, Bool.false_eq_true, if_false]
    unfold instrLen at ha
    split at ha
    · rename_i hf
      cases ha
      simp only [hf]
      unfold instrWord instrLen
      split <;> simp_all
    · cases ha
  · cases ha

end Sys2Proof.Machine
end

