-- ==== Sys2Proof/Tests/Slice0.lean ====
section
/-! SUPPORT. Tests: the spec's worked examples and the standards' own vectors; an ill-formed command for every check of WellFormed; and for
every statement with hypotheses a witness that meets them, clause by clause. -/

namespace Sys2Proof.Tests

open Sys2Proof Sys2Proof.Machine

set_option Elab.async false

/-! ### Worked examples -/

/-- The example under R168: slice 200 is the home. -/
theorem test_home_of_an_address : homeIndex 0x123456789AC0 = 3872 ∧ State.reset.homeSlice 0x123456789AC0 = 200 := by decide +kernel

/-- The examples under R29 and R45: router 38 stands at (4,5), router 13 at (1,2). -/
theorem test_router_places : routerStop 38 = 8 * 5 + 4 ∧ routerStop 13 = 8 * 2 + 1 := by decide +kernel

/-- The example under R44: root port P70's window begins at 0x1180_0000_0000 of the module's windows. -/
theorem test_window_of_a_port : (State.reset.setF (PRT_Pp_CFG.MODE 70) 1).windowPlace 0x118000000000 = some (70, 0) := by decide +kernel

/-- The example of the channel engine's instruction set: the word 0xD181_0200 is `if g1 false: JMP ← 0x0200` with its delay slots annulled. -/
theorem test_engine_word : (moveOf 0xD1810200).dest = 0x0C0 ∧ (moveOf 0xD1810200).imm = true ∧ (moveOf 0xD1810200).src = 0x0200 ∧
    (moveOf 0x016800E1).dest = 0x0B4 ∧ (moveOf 0x016800E1).imm = false ∧ (moveOf 0x016800E1).src = 0x0E1 := by decide +kernel

/-- The check value that the CRC-32C catalogue gives for the nine digits. -/
theorem test_crc32c : crc32c [0x31, 0x32, 0x33, 0x34, 0x35, 0x36, 0x37, 0x38, 0x39] = 0xE3069283 := by decide +kernel

/-- FIPS 180-4's example for "abc". -/
theorem test_sha256 : sha256 [0x61, 0x62, 0x63] = beBytes 32 0xBA7816BF8F01CFEA414140DE5DAE2223B00361A396177A9CB410FF61F20015AD := by
  decide +kernel

/-- The same for SHA-384. -/
theorem test_sha384 : sha384 [0x61, 0x62, 0x63] =
    beBytes 48 0xCB00753F45A35E8BB5A03D699AC65007272C32AB0EDED1631A8B605A43FF5BED8086072BA1E7CC2358BAECA134C825A7 := by decide +kernel

/-- NIST's example of SHA3-256 for the empty message. -/
theorem test_sha3 : sha3 [] = beBytes 32 0xA7FFC6F8BF1ED76651C14756A061D662F580FF4DE43B49FA82D80A4B80F8434A := by decide +kernel

/-- FIPS 197's examples for keys of 128 and 256 bits. -/
theorem test_aes : aesEncrypt (aesKeys (beBytes 16 0x000102030405060708090A0B0C0D0E0F)) (beBytes 16 0x00112233445566778899AABBCCDDEEFF) =
      beBytes 16 0x69C4E0D86A7B0430D8CDB78070B4C55A ∧
    aesEncrypt (aesKeys (beBytes 32 0x000102030405060708090A0B0C0D0E0F101112131415161718191A1B1C1D1E1F))
      (beBytes 16 0x00112233445566778899AABBCCDDEEFF) = beBytes 16 0x8EA2B7CA516745BFEAFC49904B496089 := by decide +kernel

/-- RFC 3394's example of a key of 128 bits under one of 256. -/
theorem test_key_wrap : keyWrap (beBytes 32 0x000102030405060708090A0B0C0D0E0F101112131415161718191A1B1C1D1E1F)
    (beBytes 16 0x00112233445566778899AABBCCDDEEFF) = beBytes 24 0x64E8C3F9CE0F5BA263E9777905818A2A93C8191E7D6E8AE7 := by decide +kernel
/-- No word spells a command: the table gives no row bits. -/
theorem test_no_word (n w : Nat) : decodeTableWord n w = none := rfl

/-! ### Small states -/

/-- The state after reset with some fields set. -/
def st (l : List (Fld × Nat)) : State := l.foldl (fun a e => a.setF e.1 e.2) State.reset

theorem some_getD {α : Type} {o : Option α} {d : α} (h : o.isSome = true) : o = some (o.getD d) := by
  cases o with
  | none => cases h
  | some a => rfl

/-- The state in which an instruction of hart `h` acts, and the move of engine `l` whose turn it is; where there is none, what was there. -/
def acted (s : State) (h raw : Nat) (k : InstrClass) : State := (s.acting h raw k).getD s

def issued (s : State) (l : Nat) (k : MoveClass) : State × Move × BitVec 32 := (s.issuing l k).getD (s, moveOf 0, 0)

theorem acting_acted {s : State} {h raw : Nat} {k : InstrClass} (e : (s.acting h raw k).isSome = true) :
    s.acting h raw k = some (acted s h raw k) := by
  rw [acted]
  cases hx : s.acting h raw k with
  | none => rw [hx] at e; cases e
  | some u => rfl

theorem issuing_issued {s : State} {l : Nat} {k : MoveClass} (e : (s.issuing l k).isSome = true) :
    s.issuing l k = some ((issued s l k).1, (issued s l k).2.1, (issued s l k).2.2) := by
  rw [issued]
  cases hx : s.issuing l k with
  | none => rw [hx] at e; cases e
  | some u => rfl

theorem pair_of {α β : Type} {p : α × β} {b : β} (h : p.2 = b) : p = (p.1, b) := by
  cases p
  cases h
  rfl

/-- A checked ETOD message for leaf `m` (R53). -/
def etodBytes (m : Nat) : List Byte :=
  let b := leBytes 1 0xC5 ++ leBytes 1 1 ++ leBytes 7 m ++ leBytes 2 37 ++ leBytes 1 7
  b ++ leBytes 4 (crc32c b).toNat

/-- A checked message, taken at count `a`, for leaf `m`. -/
def etodMsg (m a : Nat) : EtodMsg := { markLeaf := m, utc := 37, flags := 1, at_ := a }

/-- A line that a cache holds in E. -/
def cline (n : Nat) (d : Line) : CLine := { line := n, st := .exclusive, data := d }

/-- 16 GiB of DRAM in service, and fields besides. -/
def mem (l : List (Fld × Nat)) : State := st ([(MC_ILVr.VALID 0, 1), (MC_ILVr.SIZE 0, 16)] ++ l)

/-- Hart 0 runs at 0x1000, where its tile holds the instruction `raw`; the tile also holds the lines 0x2000 and 0x3000. -/
def hartAt (raw : Nat) (l : List (Fld × Nat)) (g : Hart → Hart) : State :=
  { mem l with
    harts := [(0, g { pc := 0x1000, run := .running })]
    tiles := [(0, { l2 := { lines := [(1024, some (cline 0x40 (BitVec.ofNat 512 raw))), (2048, some (cline 0x80 0x1234)),
      (3072, some (cline 0xC0 0))] } })] }

/-- Register x6 holds `v`, and x7 holds 7. -/
def x6 (v : Word) (t : Hart) : Hart := { t with x := [(6, v), (7, 7)] }

/-- PMP entry 0 gives every address to S-mode and U-mode. -/
def pmpAll (t : Hart) : Hart := (t.setCsrIn false 0x3A0 0x1F).setCsrIn false 0x3B0 0x3FFFFFFFFFFFFF

/-- `mem` with its channels in service and the text world let in. -/
def home (l : List (Fld × Nat)) : State := mem ([(MC_CHk_STATUS.STATE 0, 2), (MG_CTLg.DEF 0, 15)] ++ l)

/-- An accepted command of queue 0: its place, and its descriptor. -/
def entry0 (d : Option Line) : JEntry := { seq := 1, queue := 0, index := 0, gen := 0, desc := d }

/-- A descriptor, D0 first. -/
def dsc (l : List Nat) : Line := BitVec.ofNat 512 (l.zipIdx.foldl (fun a e => a + e.1 * 2 ^ (64 * e.2)) 0)

/-- Queue 0 runs, and path 0 of target 1 of instance 0 goes to port 0, which is in L0; memory lets everything in. -/
def css (l : List (Fld × Nat)) : State :=
  home ([(MG_CTLg.DEF 1, 15), (MG_CTLg.DEF 2, 15), (MG_CTLg.DEF 3, 15), (MG_CTLg.DEF 4, 15), (MG_CTLg.DEF 5, 15), (MG_CTLg.DEF 6, 15),
    (CSS_Qq_STATUS.STATE 0, 1), (CSS_SIi_BIND.WINEN 0, 0), (CSS_SIi_TGTt_PATHp.VALID 0 1 0, 1), (PRT_Pp_CFG.MODE 0, 1), (PRT_Pp_CFG.WIDTH 0, 1), (PRT_Pp_STATUS.STATE 0, 4)] ++ l)

/-- A request at port 0 of entry 0's command. -/
def req0 (len : Nat) : PortReq :=
  { id := 5, entry := 0, seq := 1, gen := 0, queue := 0, index := 0, tag := 0, port := 0, path := 0, write := true, addr := 0, off := 0, len := len }

/-- Engine 0 is about to issue the word `w`, with some of its sockets set. -/
def eng (w : Nat) (socks : List (Nat × Nat)) (g : Engine → Engine) : State :=
  { css [] with
    boot := 0xF0
    engines := [(0, g (socks.foldl (fun e x => e.setSock x.1 (BitVec.ofNat 32 x.2)) { imem := [(0, some (BitVec.ofNat 32 w))], cycle := 7 }))] }

/-- A flit of TYPE 3 and SEQ 4,095, with the bytes that bring its CRC to zero. -/
def flit3 : List Byte :=
  let b := leBytes 8 (3 * 2 ^ 37 + 4095 * 2 ^ 52)
  b ++ (leBytes 8 (b.foldl crc64Byte (BitVec.allOnes 64)).toNat).reverse ++ List.replicate 240 0

theorem crc_zeros (n : Nat) : (List.replicate n (0 : Byte)).foldl crc64Byte 0 = 0 := by
  induction n with
  | zero => rfl
  | succ n ih => rw [List.replicate_succ, List.foldl_cons, (by decide : crc64Byte 0 (0 : Byte) = 0)]; exact ih

theorem flit3_crc : crc64 (flit3.take 248) = 0 := by
  have h : flit3.take 248 = flit3.take 16 ++ List.replicate 232 0 := by decide +kernel
  rw [h, crc64, List.foldl_append, (by decide +kernel : (flit3.take 16).foldl crc64Byte (BitVec.allOnes 64) = 0)]
  exact crc_zeros 232

theorem flit3_good : flitGood flit3 = true := by
  unfold flitGood
  rw [flit3_crc]
  decide +kernel

theorem flit_low (b : List Byte) (h : leNat (b.take 8) % 16 ≠ 0) : flitGood b = false := by
  simp [flitGood, h]

/-- The 64 bytes of a line. -/
def lineBytes (b : List Byte) : Line := BitVec.ofNat 512 (leNat b)

/-- A storage key wraps 16 zero bytes. -/
def blob0 : List Byte := keyWrap (home []).kek (List.replicate 16 0)

theorem pair_eta {α β : Type} {p : α × β} : p = (p.1, p.2) := rfl

theorem triple_of {α β γ : Type} {p : α × β × γ} {b : β} (h : p.2.1 = b) : p = (p.1, b, p.2.2) := by
  obtain ⟨_, _, _⟩ := p; simp_all

theorem tail_of {α β γ : Type} {p : α × β × γ} {c : γ} (h : p.2.2 = c) : p = (p.1, p.2.1, c) := by
  obtain ⟨_, _, _⟩ := p; simp_all

/-- A guard with no region in force refuses nothing that DEF permits. -/
theorem guard_open {s : State} {g a : Nat} {world write : Bool} (hn : ∀ n < 32, s.on (MG_RBASEg_n.EN g n) = false)
    (hp : permits (s.f (MG_CTLg.DEF g)) world write = true) : s.guardRefuses g a world write = false := by
  have h : (List.range 32).find? (fun n =>
      s.on (MG_RBASEg_n.EN g n) && decide (s.f (MG_RBASEg_n.BASE g n) ≤ a / 4096) && decide (a / 4096 ≤ s.f (MG_RLIMg_n.LIMIT g n))) = none := by
    rw [List.find?_eq_none]; intro n m; simp [hn n (List.mem_range.1 m)]
  rw [State.guardRefuses, State.guardPerm, h, hp]; rfl

/-- Command `l` of queue 0, and the decision for it that its engine has taken. -/
def cmd0 (l : List Nat) : State := { css [] with journal := [(0, some (entry0 (some (dsc l))))], engines := [(0, { beat := some 0 })] }

def beat0 (l : List Nat) : State := ((cmd0 l).engineBeat 0).getD (cmd0 l)

/-- The tokens for its next `k` bytes are taken. -/
def paid0 (l : List Nat) (k : Nat) : State := ((beat0 l).takeTokens 0 (requestCost (dsc l) (entry0 (some (dsc l))).sent k) (!(entry0 (some (dsc l))).issued)).getD (beat0 l)

theorem takes0 {l : List Nat} {k : Nat}
    (h : ((beat0 l).takeTokens 0 (requestCost (dsc l) (entry0 (some (dsc l))).sent k) (!(entry0 (some (dsc l))).issued)).isSome = true) :
    (beat0 l).Takes 0 k (entry0 (some (dsc l))) (dsc l) (paid0 l k) := some_getD h

/-- A job of a transform unit: a digest of 64 bytes. -/
def job0 : TuJob :=
  { id := 4, die := 0, inst := 0, queue := 0, socket := some (0, 1), j0 := 0x20, j1 := 0, j2 := 0, j3 := 0, src := 0x10000, srcHost := none,
    dst := 0x2000, dstHost := none, len := 64, unit := some 15 }

def jobState : State := { css [] with jobs := [job0] }

def jobInput : State × List Byte × Nat × Bool := jobState.jobRead job0 [] (64 / 64 + 2) (job0.src + job0.used) 64

theorem job_input : jobState.jobRead job0 [] (64 / 64 + 2) (job0.src + job0.used) 64 = (jobInput.1, jobInput.2.1, 0, false) := by
  show jobInput = _
  exact tail_of (by decide +kernel)

def jobOutput : State × Nat :=
  (jobInput.1.incF (TU_STATUSu.BLOCKS 15)).sysWrite job0.die job0.inst false (cellsAt job0.dst (sha256 (job0.input ++ jobInput.2.1))) []

theorem job_output : (jobInput.1.incF (TU_STATUSu.BLOCKS 15)).sysWrite job0.die job0.inst false
    (cellsAt job0.dst (sha256 (job0.input ++ jobInput.2.1))) [] = (jobOutput.1, 0) := by
  show jobOutput = _
  exact pair_of (by decide +kernel)

/-- A move of 64 bytes from 0x2000 to 0x3000 through two windows. -/
def windows0 : Table IoWindow := [(0, { valid := true, base := 0x2000 }), (1, { valid := true, base := 0x3000 })]

def moveState (l : List (Fld × Nat)) : State :=
  { css l with boot := 0xF0, engines := [(0, { async := [(1, some (.move 0x80000000 0x90000000 64 0 0 windows0 0 false))] })] }

def move0 : MoveJob := { l := 0, n := 1, ws := windows0, q := 0, src := 0x80000000, dst := 0x90000000, mode := 0, len := 64 }

/-- The wrapped key lies at 0x2000. -/
def blobState : State := { home [] with curCopies := [(0x1014, some (lineBytes blob0, false))] }

/-- Entry 5 of the key table holds a key. -/
def keyState : State := { home [] with keys := [(5, { inst := 255, epoch := 9, valid := true, key := List.replicate 16 7 })] }

/-- A request in the mailbox of hart 383. -/
def asked (s : State) (arg0 : Word) (op : Nat) (a1 : Word) : State :=
  ((s.setF (ENDP_KSn_OP.OP 383) op).setReg (ENDP_KSn_ARG0 383) arg0).setReg (ENDP_KSn_ARG1 383) a1

/-- Memory in which the code section of Endpaper is 64 zeros, as it was measured. -/
def measured : State :=
  let d := sha384 (List.replicate 64 0)
  (List.range 6).foldl (fun a k => a.setReg (ENDP_MEAS_IMAGEk k) (digestWord d k))
    { home [(ENDP_REGION.BASE, 2), (ENDP_HARTn_STATUS.STATE 383, 4), (ENDP_CTL.RESTART_LIMIT, 3)] with
      col := { mram := [(0x60000, 0x4000000000)] } }

/-- A record that waits for the event log. -/
def rec0 : LogRecord := { type := 0x33, time := 77, hold := false, late := false, source := false, loc := (st []).droopLoc 0 |>.1, fields := 0, payload := [1, 2] }

/-- A slot of one-rank RDIMMs. -/
def slot0 : SlotReport :=
  { chan := 15, count := 2, type := 1, gib := 1024, ranks := 1, density := 64, stack := 1, rate := 64, x4 := true, alike := true, trained := true }

/-- The module runs, and DRAM may be read by a service engine. -/
def served (l : List (Fld × Nat)) : State := { home ([(ENDP_DEBUG.TEXT_INV, 1)] ++ l) with boot := 0xF0 }

/-- A location code of five fields. -/
def loc5 (die quire tile unit : Nat) : Nat := ({ die := die, quire := quire, tile := tile, unit := unit } : Loc).word 5

/-- A loop-back test of router 215. -/
def test0 : LoopTest := { loc := { die := 3, quire := 5, tile := 8, unit := 9 }, depth := 0, until_ := 99 }

/-- Rail 11 has room for one of two steps. -/
def railState : State :=
  { st [(HB_RAILr.STEP_MAX 11, 100), (HB_RAILr.IMAX 11, 500), (HB_RAILr.RESERVED 11, 100)] with
    hb := { started := true, closed := 8, queue := [{ rail := 11, up := true, amount := 400, cls := 5, leaf := 9, what := .wake 191 },
      { rail := 11, up := true, amount := 4, cls := 5, leaf := 9, what := .wake 190 }] } }

/-- Hart 0 of the text world runs an LR.D of x6. -/
def lrAt (g : Hart → Hart) : State := hartAt 0x100332AF [] (fun t => g (x6 0x2001 t))

/-! ### What WellFormed refuses -/

theorem test_ill_formed_1 : ([
    .etodMessage [], .emarkEdge (2 ^ 64) 0 0 false false, .emarkMissCheck (2 ^ 36), .holdLimit (2 ^ 64), .replicaCheck (2 ^ 46) [], .arm .text 8 0,
    .abort .text 8 0, .participantReady 8 0, .cutoff 8, .target 8, .agwWait 384 0, .agwWait 0 (2 ^ 32), .agwWaitr 384 0, .agwWaitr 0 (2 ^ 32),
    .agwWaitEnd 384 false, .agsSb 384 0, .agsSb 0 (2 ^ 32), .agsScrub 384 0, .agsScrub 0 (2 ^ 32), .ageCall 384 0 [], .ageCall 0 (2 ^ 32) [], .ageRet 384 0 [],
    .ageRet 0 (2 ^ 32) [], .illegalInstruction 384 0 [], .illegalInstruction 0 (2 ^ 32) [], .loadStore 384 0 false false [], .loadStore 0 4294967296 false false [],
    .lr 384 0 [], .lr 0 (2 ^ 32) [], .sc 384 0 [], .sc 0 (2 ^ 32) [], .lrHoldEnd 384, .floatingPointInstruction 384 0 [], .floatingPointInstruction 0 (2 ^ 32) [],
    .agfteWrite 384 0 [], .agfteWrite 0 (2 ^ 32) [], .mhpmeventWrite 384 0 [], .mhpmeventWrite 0 (2 ^ 32) [], .pauseHint 384 0, .pauseHint 0 (2 ^ 32),
    .prefetch 384 0, .prefetch 0 (2 ^ 32), .fence 384 0, .fence 0 (2 ^ 32), .fenceI 384 0, .fenceI 0 (2 ^ 32), .cboZero 384 0 [], .cboZero 0 (2 ^ 32) [],
    .cboClean 384 0 [], .cboClean 0 (2 ^ 32) [], .cboFlush 384 0 [], .cboFlush 0 (2 ^ 32) [], .cboInval 384 0 [], .cboInval 0 (2 ^ 32) [], .wfi 384 0 [], .wfi 0 (2 ^ 32) [],
    .interrupt 384, .msi 384 0 0, .msi 0 9 0, .msi 0 0 256] : List Instr).all (fun i => !i.wellFormed) = true := by
  decide +kernel

theorem test_ill_formed_2 : ([
    .detection 192 .logic 0 0 0, .detection 0 .logic 1024 0 0, .retrySuccess 192, .keepScrub 192 .clean, .hang 384, .clockFailure 192,
    .powerFailure 192 0, .powerFailure 0 (2 ^ 56), .performRetiredStores 192 false, .arrayError 216 false .l1i 0 0 .data,
    .arrayError 0 false .l1i 4096 0 .data, .arrayError 0 false .l1i 0 16 .data, .wayWalkEnd 216 .l1i, .handoffEnd 216,
    .rds 8 0 0 false false false [], .rds 0 216 0 false false false [], .rds 0 0 (2 ^ 46) false false false [], .rdown 8 0 0 false false [],
    .rdown 0 216 0 false false [], .rdown 0 0 (2 ^ 46) false false [], .upg 8 0 0 false, .upg 0 216 0 false, .upg 0 0 (2 ^ 46) false,
    .zero 8 0 0 false, .zero 0 216 0 false, .zero 0 0 (2 ^ 46) false, .rdcur 8 0 0 [], .rdcur 0 6 0 [], .rdcur 0 0 (2 ^ 46) [], .wrfull 8 0 0 0 false,
    .wrfull 0 6 0 0 false, .wrfull 0 0 (2 ^ 46) 0 false, .wrpart 8 0 0 0 0 false [], .wrpart 0 6 0 0 0 false [], .wrpart 0 0 (2 ^ 46) 0 0 false [],
    .wb 8 0 0 0 false false false, .wb 0 216 0 0 false false false, .wb 0 0 (2 ^ 46) 0 false false false, .evn 8 0 0, .evn 0 216 0, .evn 0 0 (2 ^ 46),
    .cmoClean 8 0 0 false, .cmoClean 0 216 0 false, .cmoClean 0 0 (2 ^ 46) false, .cmoFlush 8 0 0 false, .cmoFlush 0 216 0 false,
    .cmoFlush 0 0 (2 ^ 46) false, .cmoInvalidate 8 0 0 false, .cmoInvalidate 0 216 0 false, .cmoInvalidate 0 0 (2 ^ 46) false,
    .ioRead (.core 0 0) 0 3 false .fails [], .ioRead (.core 0 0) (2 ^ 52) 1 false .fails [], .ioWrite (.core 0 0) 0 3 0 false .fails false,
    .ioWrite (.core 0 0) (2 ^ 52) 1 0 false .fails false, .snpshr 216 0 0 0, .snpshr 0 (2 ^ 46) 0 0, .snpshr 0 0 8 0, .snpinv 216 0 none,
    .snpinv 0 (2 ^ 46) none, .snpkill 216 0 false] : List Instr).all (fun i => !i.wellFormed) = true := by
  decide +kernel

theorem test_ill_formed_3 : ([
    .snpkill 0 (2 ^ 46) false, .snpdrop 216 0 false, .snpdrop 0 (2 ^ 46) false, .snpclean 216 0, .snpclean 0 (2 ^ 46), .snpcur 216 0, .snpcur 0 (2 ^ 46),
    .snpset 216 0 0 0 [], .snpset 0 8 0 0 [], .snpset 0 0 216 0 [], .snpset 0 0 0 4096 [], .snpslice 216 0 0 [], .snpslice 0 8 0 [],
    .snpslice 0 0 216 [], .doneResponse 8 0 0 0 false, .doneResponse 0 0 218 0 false, .doneResponse 0 0 0 (2 ^ 46) false, .notHeld 8 0 0,
    .notHeld 0 0 (2 ^ 46), .wbInFlight 8 0 0, .wbInFlight 0 0 (2 ^ 46), .accessFault 218 0, .accessFault 0 (2 ^ 46), .guardRefusal 218 0,
    .guardRefusal 0 (2 ^ 46), .cleanData 8 0 0 0 0 false false, .cleanData 0 0 216 0 0 false false, .cleanData 0 0 0 (2 ^ 46) 0 false false,
    .modifiedDataPassedOn 8 0 0 0 0 false, .modifiedDataPassedOn 0 0 216 0 0 false, .modifiedDataPassedOn 0 0 0 (2 ^ 46) 0 false, .ioReadData 216 0 0,
    .ioReadData 0 (2 ^ 52) 0, .snoopTimeout (2 ^ 46) [], .packetUe 4 false 0 0 0 [], .packetUe 0 false 8 0 0 [], .packetUe 0 false 0 8 0 [], .packetUe 0 false 7 0 0 [],
    .dieLinkMeasure 21 0 0 0 0 false, .dieLinkMeasure 0 (2 ^ 56) 0 0 0 false, .dieLinkMeasure 0 0 0 0 (2 ^ 16) false, .channelFailure 16 0,
    .channelFailure 0 (2 ^ 35), .offline .text 16, .online .text 16, .channelSafe 16, .powerGood 16 0 0 0 0 0 1 0 true, .channelTrained 16, .resilverEnd 16,
    .selfRefreshEntry 16, .floorWrite .text 451 0, .floorWrite .text 0 (2 ^ 16), .weightEffect (2 ^ 46), .scrubBurst 16 0 0 false [],
    .scrubBurst 0 (2 ^ 56) 0 false [], .scrubBurst 0 0 65 false [], .scrubWake 16 0 0 false [], .scrubWake 0 (2 ^ 46) 0 false [], .scrubWake 0 0 65537 false [], .lapWarn 16] : List Instr).all (fun i => !i.wellFormed) = true := by
  decide +kernel

theorem test_ill_formed_4 : ([
    .softRepair 0 false 0 (List.replicate 129 (0, [])), .softRepair 16 false 0 [], .rawRead .text 2, .rawWrite .text 2, .mgLock .text 7 0,
    .queueEnable .text 16384, .queueDisable .text 16384, .resume .text 16384, .sqDoorbell 16384 0, .cqDoorbell 16384 0, .shortDoorbell (2 ^ 20),
    .commandAccepted 16384, .journalAlone 2, .journalRebuilt 2, .journalLost 262144 false [], .dieStopped 2,
    .requestAnswered 0 0 (List.replicate 4097 0), .requestAnswered 0 14 [], .pathFailed 0 0 0 0, .pathFailed 256 1 0 0, .pathFailed 0 16 0 0,
    .pathFailed 0 1 4 0, .pathFailed 0 1 0 14, .pathRecoveryRead 128 false, .pathWrite .text 0 0 0 0, .pathWrite .text 256 1 0 0,
    .pathWrite .text 0 16 0 0, .pathWrite .text 0 1 4 0, .channelTimeout 262144, .keptAddressExpiry 128, .readCommand 16384 0 [],
    .readCommand 0 65 [], .writeCommand 16384 0 [], .writeCommand 0 65 [], .controlCommand 16384, .senseCommand 16384, .indexedCommand 16384 0 [],
    .indexedCommand 0 65 [], .streamReceive 16384, .transformCommand 16384, .fenceCommand 16384, .fenceComplete 16384, .queuePause .text 16384,
    .quiet 16384, .queueUnpause .text 16384, .streamDataWrite 0 0 0 (List.replicate 257 0) false, .streamDataWrite 128 0 0 [] false,
    .streamDataWrite 0 256 0 [] false, .streamDataWrite 0 0 (2 ^ 20) [] false, .streamClosingWrite 128 0 0 0 false,
    .streamClosingWrite 0 256 0 0 false, .framePlacement 128 0, .framePlacement 0 256, .frameWaitTimeout 128 0, .frameWaitTimeout 0 256,
    .bindWrite .text 256 0, .instanceReset .text 256, .instanceRemove .text 256, .resetEnd 256 [], .draw 418 []] : List Instr).all (fun i => !i.wellFormed) = true := by
  decide +kernel

theorem test_ill_formed_5 : ([
    .bucketRefill (2 ^ 56), .rateWrite .text 256 0, .socketMove 256, .aluTrigger 256, .mulTrigger 256, .divTrigger 256, .divideEnd 256,
    .compareTrigger 256, .guardsWrite 256, .lih 256, .lil 256, .jmp 256, .jrel 256, .call 256, .callr 256, .evWait 256, .evRet 256, .haltEngine 256,
    .dsLoad 256, .dsStore 256, .ldwInc 256, .stwInc 256, .isRd 256, .ioRd 256 [], .ioRdEnd 0 0, .ioRdEnd 256 1, .ioRdEnd 0 4, .ioWr 256,
    .ioWriteError 0 0 0, .ioWriteError 256 0 1, .ioWriteError 0 4294967296 1, .ioWriteError 0 0 6, .ioWctl 256, .dmGo 256, .dmGoEnd 0 0 0 0 [],
    .dmGoEnd 256 1 0 0 [], .dmGoEnd 0 4 0 0 [], .rdTake 256, .rdFetch 256, .rdFetchEnd 0 0 0 [], .rdFetchEnd 256 1 0 [], .rdFetchEnd 0 1 16384 [],
    .rdFetchEnd 0 4 0 [], .rdJnl 256, .rdJnlEnd 0 0, .rdJnlEnd 256 1, .rdJnlEnd 0 4, .rdDone 256, .rdDoneEnd 262144 0, .rdDoneEnd 0 256, .tuGo 256,
    .extPost 256, .extRd 256, .extRdEnd 0 0 0 0, .extRdEnd 256 1 0 0, .extRdEnd 0 4 0 0, .popQueue 256, .rxSel 256, .rxBase 256, .rxPop 256] : List Instr).all (fun i => !i.wellFormed) = true := by
  decide +kernel

theorem test_ill_formed_6 : ([
    .eventEntry 256 0, .engineMemoryWrite .text 268435456 0 0, .engineMemoryWrite .text 0 9 0, .runHalt .text 256, .halted 256, .runStart .text 256,
    .haltHung 256, .watchdog 256, .engineHardwareFault 0 0, .engineHardwareFault 272 1, .engineHardwareFault 0 7, .selfTestEnd 272 false,
    .tuBlock 16 0 false [], .tuDetection 16 0, .linkUp 0 0 0, .linkUp 128 1 0, .linkUp 0 7 0, .linkUp 0 1 5, .linkDown 128 .absent, .recovery 128,
    .laneDue 256 0 false, .laneDue 0 (2 ^ 48) false, .laneSwap 256, .coreWindowStore 384 0 [], .coreWindowStore 0 4294967296 [],
    .coreWindowLoad 384 0 .fails [], .coreWindowLoad 0 4294967296 .fails [], .configurationLoad 384 0 .fails [], .configurationLoad 0 4294967296 .fails [],
    .configurationStore 384 0 .fails [], .configurationStore 0 4294967296 .fails [], .inboundUr 128 false, .errorMessage 128 0 none, .errorMessage 0 3 none,
    .dpcRelease 128, .trainingFailure 128 false 0, .trainingFailure 0 false (2 ^ 56), .backoffEnd 128, .backoffDetection 128, .retrain .text 128,
    .retrainEvent 128, .creditReturn 128 0, .extensionSignal 128, .flit 0 [], .flit 32 (List.replicate 256 0), .nak 32 0, .nak 0 4096,
    .replayTimeout 32, .train 32 0 0 0 0 0, .train 0 8 0 0 0 0, .train 0 0 0 32 0 0, .train 0 0 0 0 256 0, .train 0 0 0 0 0 4096,
    .broipTrainingTimeout 32, .broipBackoffEnd 32, .linkSilence 32, .retrainReq 32, .widthReq 32, .grant 32, .linkState 8 0 0] : List Instr).all (fun i => !i.wellFormed) = true := by
  decide +kernel

theorem test_ill_formed_7 : ([
    .linkState 0 32 0, .linkState 0 0 4096, .post 8 0 0 0 0 0 none, .post 0 8 0 0 0 0 none, .post 0 0 0 0 256 0 none, .post 0 0 0 0 0 8192 none,
    .verdict 8 0 0 0 0 0 0, .verdict 0 9 0 0 0 0 0, .verdict 0 0 8 0 0 0 0, .verdict 0 0 0 0 0 8192 0, .verdict 0 0 0 0 0 0 (2 ^ 24),
    .coordinatorDecision 8, .decision 9 0 false 0 0, .decision 0 8 false 0 0, .decision 0 0 false 8192 0, .decision 0 0 false 0 (2 ^ 24),
    .decisionTimeout 8, .peerLost 8, .clearLost .text 8, .evacuationCopyEnd (2 ^ 56), .depart 8, .functionLevelReset 0 0, .functionLevelReset 2 1,
    .functionLevelReset 0 256, .pf0Flr 2, .vfEnableCleared 2 false, .numvfsLowered 2 0, .numvfsLowered 0 256, .conventionalReset 2 false false,
    .busMasterEnableCleared 0 0, .busMasterEnableCleared 2 1, .busMasterEnableCleared 0 256, .busMasterEnableSet 0 0, .busMasterEnableSet 2 1,
    .busMasterEnableSet 0 256, .d3hotEntry 2 false, .d0Return 2 false false, .l0sEntry 2 0 false, .l0sEntry 0 (2 ^ 56) false, .l1Entry 2 0,
    .l1Entry 0 (2 ^ 56), .failover (2 ^ 56) false, .hostCompletionTimeout 16384 false, .endpaperHang 384, .restartMeasured 384 0,
    .generateKey .text 384 0, .importKey .text 384 0 0, .exportKey .text 384 0 0, .revokeKey .text 384 0, .keyServiceResult 384, .wake 192,
    .leafClose (2 ^ 56), .hold 4, .park 192, .gate 192, .levelAdjust (2 ^ 46) 0 0, .levelAdjust 0 24 0, .levelAdjust 0 0 256, .thermalEmergency 24,
    .droop 30 0 0] : List Instr).all (fun i => !i.wellFormed) = true := by
  decide +kernel

theorem test_ill_formed_8 : ([
    .droop 0 (2 ^ 64) 0, .droop 0 0 (2 ^ 16), .droopStretchEnd 30, .droopSummary (2 ^ 46), .colophonCopyFailure 2, .colophonRebuilt 2,
    .thermalCycle 256, .registerWrite .text 3 0 0 false, .registerWrite .text 8 1 0 false, .registerWrite .text 8 (17 * 2 ^ 28) 0 false,
    .coldReset 8 0 false 0, .coldReset 0 4 false 0, .coldReset 0 0 false 4, .info 2 0 [], .info 0 256 [], .bootStatus 2 0, .bootStatus 0 256,
    .sysRead 2 0 0 0, .sysRead 0 256 0 0, .sysRead 0 0 (2 ^ 52) 0, .sysRead 0 0 0 256, .sysWrite 2 0 0 0 0 false, .sysWrite 0 256 0 0 0 false,
    .sysWrite 0 0 (2 ^ 52) 0 0 false, .sysWrite 0 0 0 256 0 false, .logRead 2 0 0, .logRead 0 256 0, .logRead 0 0 (2 ^ 32), .journalRead 2 0 0,
    .journalRead 0 256 0, .journalRead 0 0 (2 ^ 32), .dmi 2 0 0 none, .dmi 0 256 0 none, .dmi 0 0 128 none, .resetCold 2 0, .resetCold 0 256,
    .resetWarm 2 0, .resetWarm 0 256, .moveCore 2 0 0, .moveCore 0 256 0, .moveCore 0 0 (2 ^ 32), .retire 2 0 0, .retire 0 256 0,
    .retire 0 0 (2 ^ 64), .requalify 2 0 0 false, .requalify 0 256 0 false, .requalify 0 0 (2 ^ 64) false, .loopback 2 0 0 0, .loopback 0 256 0 0,
    .loopback 0 0 (2 ^ 64) 0, .loopback 0 0 0 (2 ^ 32), .loopbackEnd (2 ^ 64) 0 0, .loopbackEnd 0 (2 ^ 64) 0, .loopbackEnd 0 0 (2 ^ 64),
    .loopResult 2 0 0, .loopResult 0 256 0, .loopResult 0 0 (2 ^ 64), .margin 0 0 0 (List.replicate 1025 0), .margin 2 0 0 [], .margin 0 256 0 []] : List Instr).all (fun i => !i.wellFormed) = true := by
  decide +kernel

theorem test_ill_formed_9 : ([
    .margin 0 0 (2 ^ 64) [], .debugChallenge 2 0, .debugChallenge 0 256, .debugUnlock 2 0 false, .debugUnlock 0 256 false, .gatheringEdge (2 ^ 46),
    .keepIslandSupply 192, .sliceControlCheck 216 false, .softRepairEnd 16, .tick 256 0, .tick 0 (2 ^ 56), .recoveryEnd 0 0 0, .recoveryEnd 128 1 0,
    .recoveryEnd 0 7 0, .recoveryEnd 0 1 5, .perstDeassertion 2, .interruptDisable 2 false, .wakeComplete 192, .integerInstruction 384 0 [],
    .integerInstruction 0 (2 ^ 32) [], .amo 384 0 [], .amo 0 (2 ^ 32) [], .csrAccess 384 0 [], .csrAccess 0 (2 ^ 32) [], .replicaCheck 0 [(6, 1)], .replicaCheck 0 [(5, 0)],
    .ioRead (.core 8 0) 0 1 false .fails [], .ioRead (.host 2 0) 0 1 false .fails [], .ioWrite (.core 0 216) 0 1 0 false .fails false,
    .ioWrite (.host 0 256) 0 1 0 false .fails false, .packetUe 0 true 0 7 0 [], .packetUe 0 false 0 0 0 [73], .packetUe 0 false 0 0 0 (List.replicate 11 0),
    .snoopTimeout 0 [(8, 0)], .snoopTimeout 0 [(0, 216)], .fillDone 0 [16], .packetUe 0 false 7 0 0 [], .dieLinkMeasure 0 0 32768 0 0 false,
    .dieLinkMeasure 0 0 0 128 0 false, .post 0 0 0 0 0 0 (some (8, 0, false)), .post 0 0 0 0 0 0 (some (0, 8, false)),
    .agingMeasure 0 [(216, 0, 0, 0)], .mainPgRise false [21], .ddrTrainingDone [{ slot0 with chan := 16 }],
    .ddrTrainingDone [{ slot0 with count := 3 }], .dmi 0 0 0 (some (2 ^ 32))] : List Instr).all (fun i => !i.wellFormed) = true := by
  decide +kernel

/-- The same commands with operands in their ranges. -/
theorem test_well_formed_1 : ([
    .etodMessage (List.replicate 16 0), .emarkEdge 0 0 0 false false, .inputQualified false 0 0, .inputLost (.drift 0 0), .emarkMissCheck 0, .holdLimit 0, .replicaCheck 0 [(5, -1)], .arm .text 0 0, .abort .text 0 0,
    .participantReady 0 0, .cutoff 0, .target 0, .agwWait 0 0, .agwWaitr 0 0, .agwWaitEnd 0 false, .agsSb 0 0, .agsScrub 0 0, .ageCall 0 0 [],
    .ageRet 0 0 [], .illegalInstruction 0 0 [], .loadStore 0 0 false false [], .lr 0 0 [], .sc 0 0 [], .lrHoldEnd 0, .floatingPointInstruction 0 0 [], .agfteWrite 0 0 [],
    .mhpmeventWrite 0 0 [], .pauseHint 0 0, .prefetch 0 0, .fence 0 0, .fenceI 0 0, .cboZero 0 0 [], .cboClean 0 0 [], .cboFlush 0 0 [], .cboInval 0 0 [], .wfi 0 0 [],
    .interrupt 0, .msi 0 0 0, .detection 0 .logic 0 0 0, .retrySuccess 0, .keepScrub 0 .clean, .hang 0, .clockFailure 0, .powerFailure 0 0,
    .performRetiredStores 0 false, .arrayError 0 false .l1i 0 0 .data, .wayWalkEnd 0 .l1i, .handoffEnd 0, .rds 0 0 0 false false false [],
    .rdown 0 0 0 false false [], .upg 0 0 0 false, .zero 0 0 0 false, .rdcur 0 0 0 [], .wrfull 0 0 0 0 false, .wrpart 0 0 0 0 0 false [],
    .wb 0 0 0 0 false false false, .evn 0 0 0, .cmoClean 0 0 0 false, .cmoFlush 0 0 0 false, .cmoInvalidate 0 0 0 false,
    .ioRead (.core 0 0) 0 1 false .fails [], .ioWrite (.core 0 0) 0 1 0 false .fails false, .snpshr 0 0 0 0, .snpinv 0 0 none, .snpkill 0 0 false,
    .snpdrop 0 0 false, .snpclean 0 0, .snpcur 0 0, .snpset 0 0 0 0 [], .snpslice 0 0 0 [], .doneResponse 0 0 0 0 false, .notHeld 0 0 0, .wbInFlight 0 0 0,
    .accessFault 0 0, .guardRefusal 0 0, .cleanData 0 0 0 0 0 false false, .modifiedDataPassedOn 0 0 0 0 0 false, .ioReadData 0 0 0, .snoopTimeout 0 [],
    .packetUe 0 false 0 0 0 [], .dieLinkMeasure 0 0 0 0 0 false, .channelFailure 0 0, .offline .text 0, .online .text 0, .channelSafe 0,
    .powerGood 0 0 0 0 0 0 1 0 true, .channelTrained 0, .resilverEnd 0, .selfRefreshEntry 0, .floorWrite .text 0 0, .weightEffect 0, .scrubBurst 0 0 0 false [],
    .scrubWake 0 0 0 false [], .lapWarn 0, .softRepair 0 false 0 [], .rawRead .text 0, .rawWrite .text 0, .mgLock .text 0 0, .queueEnable .text 0,
    .queueDisable .text 0, .resume .text 0, .sqDoorbell 0 0] : List Instr).all Instr.wellFormed = true := by
  decide +kernel

/-- The same commands with operands in their ranges. -/
theorem test_well_formed_2 : ([
    .cqDoorbell 0 0, .shortDoorbell 0, .commandAccepted 0, .journalAlone 0, .journalRebuilt 0, .journalLost 0 false [], .dieStopped 0,
    .requestAnswered 0 0 [], .pathFailed 0 1 0 0, .pathRecoveryRead 0 false, .pathWrite .text 0 1 0 0, .channelTimeout 0, .keptAddressExpiry 0,
    .readCommand 0 0 [], .writeCommand 0 0 [], .controlCommand 0, .senseCommand 0, .indexedCommand 0 0 [], .streamReceive 0, .transformCommand 0,
    .fenceCommand 0, .fenceComplete 0, .queuePause .text 0, .quiet 0, .queueUnpause .text 0, .streamDataWrite 0 0 0 [] false,
    .streamClosingWrite 0 0 0 0 false, .framePlacement 0 0, .frameWaitTimeout 0 0, .bindWrite .text 0 0, .instanceReset .text 0,
    .instanceRemove .text 0, .resetEnd 0 [], .draw 0 [], .bucketRefill 0, .rateWrite .text 0 0, .socketMove 0, .aluTrigger 0, .mulTrigger 0,
    .divTrigger 0, .divideEnd 0, .compareTrigger 0, .guardsWrite 0, .lih 0, .lil 0, .jmp 0, .jrel 0, .call 0, .callr 0, .evWait 0, .evRet 0,
    .haltEngine 0, .dsLoad 0, .dsStore 0, .ldwInc 0, .stwInc 0, .isRd 0, .ioRd 0 [], .ioRdEnd 0 1, .ioWr 0, .ioWriteError 0 0 1, .ioWctl 0, .dmGo 0,
    .dmGoEnd 0 1 0 0 [], .rdTake 0, .rdFetch 0, .rdFetchEnd 0 1 0 [], .rdJnl 0, .rdJnlEnd 0 1, .rdDone 0, .rdDoneEnd 0 0, .tuGo 0, .extPost 0,
    .extRd 0, .extRdEnd 0 1 0 0, .popQueue 0, .rxSel 0, .rxBase 0, .rxPop 0, .eventEntry 0 0, .engineMemoryWrite .text 0 0 0, .runHalt .text 0,
    .halted 0, .runStart .text 0, .haltHung 0, .watchdog 0, .engineHardwareFault 0 1, .selfTestEnd 0 false, .tuBlock 0 0 false [], .tuDetection 0 0,
    .linkUp 0 1 0, .linkDown 0 .absent, .recovery 0, .laneDue 0 0 false, .laneSwap 0, .coreWindowStore 0 0 [], .coreWindowLoad 0 0 .fails [],
    .configurationLoad 0 0 .fails [], .configurationStore 0 0 .fails [], .inboundUr 0 false] : List Instr).all Instr.wellFormed = true := by
  decide +kernel

/-- The same commands with operands in their ranges. -/
theorem test_well_formed_3 : ([
    .errorMessage 0 0 none, .dpcRelease 0, .trainingFailure 0 false 0, .backoffEnd 0, .backoffDetection 0, .retrain .text 0, .retrainEvent 0,
    .creditReturn 0 0, .extensionSignal 0, .flit 0 (List.replicate 256 0), .nak 0 0, .replayTimeout 0, .train 0 0 0 0 0 0, .broipTrainingTimeout 0,
    .broipBackoffEnd 0, .linkSilence 0, .retrainReq 0, .widthReq 0, .grant 0, .linkState 0 0 0, .post 0 0 0 0 0 0 none, .verdict 0 0 0 0 0 0 0,
    .coordinatorDecision 0, .decision 0 0 false 0 0, .decisionTimeout 0, .peerLost 0, .clearLost .text 0, .evacuationCopyEnd 0, .depart 0,
    .functionLevelReset 0 1, .pf0Flr 0, .vfEnableCleared 0 false, .numvfsLowered 0 0, .conventionalReset 0 false false, .busMasterEnableCleared 0 1,
    .busMasterEnableSet 0 1, .d3hotEntry 0 false, .d0Return 0 false false, .l0sEntry 0 0 false, .l1Entry 0 0, .failover 0 false,
    .hostCompletionTimeout 0 false, .endpaperHang 0, .restartMeasured 0 0, .generateKey .text 0 0, .importKey .text 0 0 0, .exportKey .text 0 0 0,
    .revokeKey .text 0 0, .keyServiceResult 0, .wake 0, .leafClose 0, .hold 0, .park 0, .gate 0, .levelAdjust 0 0 0, .thermalEmergency 0,
    .droop 0 0 0, .droopStretchEnd 0, .droopSummary 0, .colophonCopyFailure 0, .colophonRebuilt 0, .thermalCycle 0, .agingMeasure 0 [],
    .registerWrite .text 8 0 0 false, .coldReset 0 0 false 0, .mainPgRise false [], .ddrTrainingDone [], .fillDone 0 [15], .info 0 0 [], .bootStatus 0 0, .sysRead 0 0 0 0,
    .sysWrite 0 0 0 0 0 false, .logRead 0 0 0, .journalRead 0 0 0, .dmi 0 0 0 none, .resetCold 0 0, .resetWarm 0 0, .moveCore 0 0 0, .retire 0 0 0,
    .requalify 0 0 0 false, .loopback 0 0 0 0, .loopbackEnd 0 0 0, .loopResult 0 0 0, .margin 0 0 0 [], .debugChallenge 0 0, .debugUnlock 0 0 false,
    .gatheringEdge 0, .keepIslandSupply 0, .sliceControlCheck 0 false, .softRepairEnd 0, .tick 0 0, .recoveryEnd 0 1 0, .perstDeassertion 0,
    .interruptDisable 0 false, .wakeComplete 0, .integerInstruction 0 0 [], .amo 0 0 [], .csrAccess 0 0 []] : List Instr).all Instr.wellFormed = true := by
  decide +kernel

/-! ### Witnesses -/

theorem witness_TimeReferenceCommandsComplete :
    (∃ (s : State) (bytes : List Byte), s.off = false ∧ s.f TB_STATUS.STATE ≠ 4 ∧ bytes.length = 16 ∧ bytes.head? = some 0xC5 ∧ crc32c (bytes.take 12)
      = BitVec.ofNat 32 (leNat (bytes.drop 12)) ∧ leNat ((bytes.drop 1).take 1) = 1 ∧ leNat ((bytes.drop 11).take 1) < 8 ∧ leNat ((bytes.drop 2).take 7)
      % 1000000 = 0 ∧ Instr.wellFormed (.etodMessage bytes) = true) ∧
    (∃ s : State, s.off = false ∧ s.f TB_STATUS.STATE ≠ 4) ∧
    (∃ (s : State) (m : EtodMsg), s.off = false ∧ s.tb.pendingMsg = some m) ∧
    (∃ (s : State) (leaves ppb : Nat), s.off = false ∧ s.f TB_STATUS.STATE ≠ 4 ∧ s.tb.agreedA = true ∧ s.steady false leaves ppb = true) ∧
    (∃ (s : State) (leaves ppb : Nat), s.off = false ∧ s.f TB_STATUS.STATE ≠ 4 ∧ s.tb.agreedB = true ∧ s.steady true leaves ppb = true) ∧
    (∃ (s : State) (l : ClockLoss), s.off = false ∧ s.f TB_STATUS.STATE = 1 ∧ s.on TB_STATUS.A_QUAL = true ∧ s.on TB_STATUS.B_QUAL = true ∧ s.f
      TB_CTL.SRC = 0 ∧ (l = .edges false ∨ ∃ a b, l = .drift a b ∧ 20000 < (a - b).natAbs ∧ b.natAbs < a.natAbs)) ∧
    (∃ s : State, s.off = false ∧ s.f TB_STATUS.STATE = 2 ∧ s.on TB_STATUS.B_QUAL = true ∧ s.on TB_STATUS.A_QUAL = false) ∧
    (∃ (s : State) (n : Nat), s.off = false ∧ s.leaf ≤ n * 1000000 + 10000 ∧ n * 1000000 + 10000 < 2 ^ 56 ∧ s.tb.lastAgree = none ∧ s.f
      TB_STATUS.EMARK_MISS = 2 ∧ Instr.wellFormed (.emarkMissCheck n) = true) :=
  ⟨⟨st [(TB_STATUS.STATE, 1)], etodBytes 3000000, by decide +kernel⟩,
    ⟨st [(TB_STATUS.STATE, 3)], by decide +kernel⟩,
    ⟨{ State.reset with tb := { pendingMsg := some (etodMsg 1000000 0) } }, etodMsg 1000000 0, by decide +kernel⟩,
    ⟨{ st [(TB_STATUS.STATE, 1), (TB_COUNT.COUNT, 2000 * 256)] with tb := { agreedA := true, agreedB := true } }, 2000, 50000, by decide +kernel⟩,
    ⟨{ st [(TB_STATUS.STATE, 1), (TB_COUNT.COUNT, 2000 * 256)] with tb := { agreedA := true, agreedB := true } }, 1000, 0, by decide +kernel⟩,
    ⟨{ st [(TB_STATUS.STATE, 1), (TB_STATUS.A_QUAL, 1), (TB_STATUS.B_QUAL, 1)] with tb := { agreedA := true } }, .drift (-20001) 0,
      by refine ⟨?_, ?_, ?_, ?_, ?_, .inr ⟨-20001, 0, rfl, by decide, by decide⟩⟩ <;> decide +kernel⟩,
    ⟨st [(TB_STATUS.STATE, 2), (TB_STATUS.B_QUAL, 1)], by decide +kernel⟩,
    ⟨st [(TB_STATUS.EMARK_MISS, 2), (TB_COUNT.COUNT, 3010000 * 256)], 3, by decide +kernel⟩⟩

theorem witness_TimeHoldoverCommandsComplete :
    (∃ (s : State) (m : EtodMsg) (a b : Nat) (pa pb : Bool), s.off = false ∧ s.f TB_STATUS.STATE = 1 ∧ s.f TB_CTL.PREF = 0 ∧ s.f TB_CTL.SRC = 0 ∧ s.on
      TB_STATUS.A_QUAL = true ∧ s.tb.stuck = false ∧ s.tb.pendingMsg = some m ∧ a ≤ 25 ∧ 10000 * 256 ≤ s.count - m.at_ ∧ s.count - m.at_ ≤ 990000 * 256
      ∧ ((s.count : Int) - (m.markLeaf * 256 : Nat)).natAbs ≤ 1024 * 256 ∧ Instr.wellFormed (.emarkEdge s.count a b pa pb) = true) ∧
    (∃ (s : State) (c : Nat), s.off = false ∧ c ≤ s.count ∧ s.f TB_STATUS.STATE = 3 ∧ s.tb.noBound = false ∧ s.tb.overLimit = false ∧ s.f
      TB_CTL.HOLD_LIMIT * 256 < s.f TB_HOLD.BOUND ∧ Instr.wellFormed (.holdLimit c) = true) ∧
    (∃ s : State, s.off = false ∧ s.on TB_STATUS.SLEWING = true) ∧
    (∃ s : State, s.off = false ∧ s.f TB_STATUS.STATE = 0 ∧ s.on TB_STATUS.A_QUAL = false ∧ s.on TB_STATUS.B_QUAL = false ∧ s.bootAt + wbits
      (s.setting 2) 31 16 * 256000000 ≤ s.count) ∧
    (∃ (s : State) (who : Requester) (v : Word), s.off = false ∧ TB_CTL.SRC.of v = 3 ∧ s.f TB_STATUS.STATE ≠ 4 ∧ s.admits who 8 TB_CTL v = true) ∧
    (∃ (s : State) (who : Requester) (v : Word), s.off = false ∧ TB_CTL.SRC.of v ≠ 3 ∧ s.f TB_STATUS.STATE = 4 ∧ s.on TB_STATUS.EVER_LOCKED = true ∧
      s.admits who 8 TB_CTL v = true) ∧
    (∃ (s : State) (who : Requester) (v : Word), s.off = false ∧ s.f TB_STATUS.STATE = 3 ∧ TB_CTL.SRC.of v = 0 ∧ TB_CTL.ACCEPT_STEP.of v = 1 ∧
      s.admits who 8 TB_CTL v = true) ∧
    (∃ (s : State) (g : Nat) (dies : List (Nat × Int)), s.off = false ∧ dies ≠ [] ∧ Instr.wellFormed (.replicaCheck g dies) = true) :=
  ⟨⟨{ st [(TB_STATUS.STATE, 1), (TB_STATUS.A_QUAL, 1), (TB_COUNT.COUNT, 1000000 * 256)] with tb := { pendingMsg := some (etodMsg 1000000 (1000000 * 256 - 10000 * 256)) } },
      etodMsg 1000000 (1000000 * 256 - 10000 * 256), 25, 30, true, false, by decide +kernel⟩,
    ⟨st [(TB_STATUS.STATE, 3), (TB_COUNT.COUNT, 2560000), (TB_CTL.HOLD_LIMIT, 1), (TB_HOLD.BOUND, 257)], 2560000, by decide +kernel⟩,
    ⟨{ st [(TB_STATUS.SLEWING, 1), (TB_STATUS.STATE, 1)] with tb := { slewError := 5, slewFlag := true } }, by decide +kernel⟩,
    ⟨st [(TB_COUNT.COUNT, 77000000000)], by decide +kernel⟩,
    ⟨st [(TB_STATUS.STATE, 1), (TB_STATUS.A_QUAL, 1)], .text, TB_CTL.SRC.put 3 (TB_CTL.HOLD_LIMIT.put 1 0), by decide +kernel⟩,
    ⟨st [(TB_STATUS.STATE, 4), (TB_CTL.SRC, 3), (TB_STATUS.EVER_LOCKED, 1)], .text, TB_CTL.SRC.put 2 (TB_CTL.HOLD_LIMIT.put 1 0), by decide +kernel⟩,
    ⟨st [(TB_STATUS.STATE, 3)], .text, TB_CTL.ACCEPT_STEP.put 1 (TB_CTL.HOLD_LIMIT.put 1 0), by decide +kernel⟩,
    ⟨st [], 2, [(0, 1), (5, -3)], by decide +kernel⟩⟩

theorem witness_ModeChangeCommandsComplete :
    (∃ (s a : State) (who : Requester) (n : Nat) (v : Word), s.stopped = false ∧ n < 6 ∧ (TB_MCn_CTL.ARM n).of v = 1 ∧ (TB_MCn_CTL.ABORT n).of v = 0 ∧
      s.admits who 8 (TB_MCn_CTL n) v = true ∧ s.slotLive n = false ∧ a = s.setF (TB_MCn_CTL.SCOPE n) ((TB_MCn_CTL.SCOPE n).of v) ∧ a.refusal n
      (a.pendingShadows ((TB_MCn_CTL.SCOPE n).of v)) = none ∧ Instr.wellFormed (.arm who n v) = true) ∧
    (∃ (s : State) (who : Requester) (n : Nat) (v : Word), s.stopped = false ∧ n < 6 ∧ (TB_MCn_CTL.ABORT n).of v = 1 ∧ (TB_MCn_CTL.ARM n).of v = 0 ∧
      s.admits who 8 (TB_MCn_CTL n) v = true ∧ s.slotState n = 1 ∧ s.leaf < (s.slot n).cut ∧ (s.slot n).change = .none ∧ (∀ k ∈ (s.slot n).shadows, k /
      0x10000000 = 5 ∨ k / 0x10000000 = 6 ∨ k / 0x10000000 = 8) ∧ Instr.wellFormed (.abort who n v) = true) ∧
    (∃ (s : State) (n loc : Nat), s.stopped = false ∧ s.slotState n = 1 ∧ s.leaf < (s.slot n).cut ∧ s.mayReport n loc = true ∧ Instr.wellFormed
      (.participantReady n loc) = true) ∧
    (∃ (s : State) (n : Nat), s.stopped = false ∧ n < 8 ∧ s.slotState n = 1 ∧ (s.slot n).judged = false ∧ (s.slot n).modules = 0 ∧ (s.slot
      n).participants.all (·.ready) = true ∧ (s.slot n).cut < 2 ^ 56 ∧ Instr.wellFormed (.cutoff n) = true) ∧
    (∃ (s : State) (n : Nat), s.stopped = false ∧ n < 8 ∧ s.slotState n = 1 ∧ (s.slot n).judged = false ∧ (s.slot n).modules = 0 ∧ (s.slot n).change =
      .none ∧ (s.slot n).participants.all (·.ready) = false ∧ (s.slot n).participants.length < 8192 ∧ (∀ p ∈ (s.slot n).participants, p.loc < 2 ^ 24) ∧
      (∀ k ∈ (s.slot n).shadows, k / 0x10000000 = 5 ∨ k / 0x10000000 = 6 ∨ k / 0x10000000 = 8) ∧ Instr.wellFormed (.cutoff n) = true) ∧
    (∃ (s : State) (n k : Nat), s.stopped = false ∧ n < 8 ∧ s.slotState n = 2 ∧ (s.slot n).change = .none ∧ (s.slot n).shadows = [k] ∧ k / 0x10000000
      = 8 ∧ (s.slot n).target < 2 ^ 56 ∧ s.turnOf (s.slot n).target 2 = true ∧ Instr.wellFormed (.target n) = true) :=
  ⟨⟨{ st [(TB_MCn_CUTOFF.CUTOFF 0, 4), (TB_MCn_TARGET.TARGET 0, 6)] with dirty := [CSS_SIi_TICKETS_SHADOW 3] },
      ({ st [(TB_MCn_CUTOFF.CUTOFF 0, 4), (TB_MCn_TARGET.TARGET 0, 6)] with dirty := [CSS_SIi_TICKETS_SHADOW 3] } : State).setF (TB_MCn_CTL.SCOPE 0)
      ((TB_MCn_CTL.SCOPE 0).of ((TB_MCn_CTL.ARM 0).put 1 ((TB_MCn_CTL.SCOPE 0).put 128 0))), .text, 0, (TB_MCn_CTL.ARM 0).put 1 ((TB_MCn_CTL.SCOPE
      0).put 128 0), by decide +kernel⟩,
    ⟨{ st [(TB_MCn_STATUS.STATE 5, 1)] with slots := [(5, { cut := 9, shadows := [CSS_SIi_TICKETS_SHADOW 3] })] }, .text, 5, (TB_MCn_CTL.ABORT 5).put
      1 0, by decide +kernel⟩,
    ⟨{ st [(TB_MCn_STATUS.STATE 0, 1)] with slots := [(0, { cut := 1, participants := [{ loc := 77 }, { loc := 78 }] })] }, 0, 77, by decide +kernel⟩,
    ⟨{ st [(TB_MCn_STATUS.STATE 7, 1)] with slots := [(7, { cut := 9, participants := [{ loc := 77, ready := true }] })] }, 7, by decide +kernel⟩,
    ⟨{ st [(TB_MCn_STATUS.STATE 0, 1)] with slots := [(0, { cut := 9, participants := [{ loc := 77, ready := true }, { loc := 78 }, { loc := 5 }] })] },
      0, by decide +kernel⟩,
    ⟨{ st [(TB_MCn_STATUS.STATE 0, 2)] with slots := [(0, { target := 9, shadows := [CSS_SIi_TICKETS_SHADOW 3] })], dirty := [CSS_SIi_TICKETS_SHADOW 3] },
      0, CSS_SIi_TICKETS_SHADOW 3, by decide +kernel⟩⟩

theorem witness_HardwareAndSystemChangesComplete :
    (∃ (s : State) (sets : List (Nat × Nat)) (nb : Nat) (rest : List Waiting), s.stopped = false ∧ (∀ m < 8, s.slotLive m = false) ∧ s.waiting =
      { notBefore := nb, change := .channels sets } :: rest ∧ s.leaf < 2 ^ 55 ∧ nb < 2 ^ 55) ∧
    (∃ (s : State) (o k cut t mods scope : Nat) (evac : Option (Nat × Nat × Bool)), s.stopped = false ∧ mods.testBit s.moduleNo = true ∧
      Instr.wellFormed (.post o k cut t mods scope evac) = true) ∧
    (∃ (s : State) (m o k cut t count loc n : Nat), s.stopped = false ∧ s.slotNamed o k = some n ∧ (s.slot n).cut = cut ∧ (s.slot n).target = t ∧
      (modulesOf (s.slot n).modules).head? = some s.moduleNo ∧ Instr.wellFormed (.verdict m o k cut t count loc) = true) ∧
    (∃ (s : State) (n : Nat), s.stopped = false ∧ n < 8 ∧ s.slotState n = 1 ∧ (s.slot n).judged = true ∧ (modulesOf (s.slot n).modules).head? = some
      s.moduleNo ∧ (s.slot n).refusers = [] ∧ (s.slot n).cut + 1 < 2 ^ 56 ∧ Instr.wellFormed (.coordinatorDecision n) = true) ∧
    (∃ (s : State) (o k count loc n : Nat), s.stopped = false ∧ s.slotNamed o k = some n ∧ s.slotState n = 1 ∧ Instr.wellFormed (.decision o k true
      count loc) = true) ∧
    (∃ (s : State) (n : Nat), s.stopped = false ∧ n < 8 ∧ s.slotState n = 1 ∧ (s.slot n).judged = true ∧ (∀ k ∈ (s.slot n).shadows, k / 0x10000000 = 5
      ∨ k / 0x10000000 = 6 ∨ k / 0x10000000 = 8) ∧ Instr.wellFormed (.decisionTimeout n) = true) :=
  ⟨⟨{ State.reset with waiting := [{ notBefore := 8, change := .channels [(3, 2)] }] }, [(3, 2)], 8, [], by decide +kernel⟩,
    ⟨State.reset, 1, 2, 100, 110, 3, 1, none, by decide +kernel⟩,
    ⟨{ st [(TB_MCn_STATUS.STATE 0, 1)] with slots := [(0, { cut := 100, target := 110, modules := 3, judged := true })] }, 1, 8, 0, 100, 110, 1, 5, 0,
      by decide +kernel⟩,
    ⟨{ st [(TB_MCn_STATUS.STATE 0, 1)] with slots := [(0, { cut := 100, target := 110, modules := 3, judged := true, verdicts := [(0, 0, 0), (1, 0, 0)] })] },
      0, by decide +kernel⟩,
    ⟨{ st [(TB_MCn_STATUS.STATE 0, 1)] with slots := [(0, { cut := 100, target := 110, modules := 3 })] }, 8, 0, 0, 0, 0, by decide +kernel⟩,
    ⟨{ st [(TB_MCn_STATUS.STATE 0, 1), (SVC_IDENT1.MODULE, 1)] with slots := [(0, { cut := 100, target := 110, modules := 3, judged := true })] }, 0,
      by decide +kernel⟩⟩

theorem witness_IcmoraInstructionsComplete :
    (∃ (s u : State) (h raw rd : Nat), s.acting h raw .wait = some u ∧ u.settled h = true ∧ iRd (instrWord raw) = rd ∧ (u.hart h).resv.isSome = true ∧
      (u.hart h).takeable (u.hartCount h) = none ∧ u.hartCount h < ((u.hart h).getX (iRs1 (instrWord raw))).toNat ∧ Instr.wellFormed (.agwWait h raw) =
      true) ∧
    (∃ (s u : State) (h raw rd : Nat), s.acting h raw .waitr = some u ∧ u.settled h = true ∧ iRd (instrWord raw) = rd ∧ (u.hart h).resv.isSome = true
      ∧ (u.hart h).takeable (u.hartCount h) = none ∧ u.hartCount h < 2 ^ 64 - 1 ∧ (u.hart h).getX (iRs1 (instrWord raw)) ≠ 0 ∧ Instr.wellFormed
      (.agwWaitr h raw) = true) ∧
    (∃ (s u : State) (h raw : Nat), s.acting h raw .wait = some u ∧ u.settled h = true ∧ (u.hart h).resv = none ∧ Instr.wellFormed (.agwWait h raw) =
      true) ∧
    (∃ (s : State) (h d rd : Nat), s.stopped = false ∧ s.countFor h d < 2 ^ 64 ∧ (s.hart h).run = .agw d rd ∧ s.cs (coreOf h) ≤ 1 ∧ s.f
      (CPU_CORE_STATUSc.STATE (coreOf h)) ≤ 1 ∧ (s.hart h).takeable (s.hartCount h) = none ∧ s.settled h = true ∧ Instr.wellFormed (.agwWaitEnd h true)
      = true) ∧
    (∃ (s u : State) (h raw : Nat), s.acting h raw .sb = some u ∧ u.settled h = true ∧ Instr.wellFormed (.agsSb h raw) = true) ∧
    (∃ (s u : State) (h raw : Nat), s.acting h raw .scrub = some u ∧ u.settled h = true ∧ ((u.hart h).getX (iRs1 (instrWord raw))).toNat % 8 = 0 ∧
      Instr.wellFormed (.agsScrub h raw) = true) ∧
    (∃ (s : State) (h raw : Nat) (wrong : List WrongAcc), s.ActsEither h raw .call wrong (fun u => u.settled h = true ∧ (u.hart h).takeable
      (u.hartCount h) = none ∧ (u.hart h).world = false ∧ (u.hart h).priv ≠ 0 ∧ (u.hart h).virt = false ∧ (u.f (ENDP_HARTn_STATUS.STATE h) = 1 ∨ u.f
      (ENDP_HARTn_STATUS.STATE h) = 2)) ∧ Instr.wellFormed (.ageCall h raw wrong) = true) ∧
    (∃ (s : State) (h raw : Nat) (wrong : List WrongAcc), s.ActsEither h raw .ret wrong (fun u => u.settled h = true ∧ (u.hart h).world = true ∧
      (u.hart h).priv = 3 ∧ u.svc.othersHeld = false) ∧ Instr.wellFormed (.ageRet h raw wrong) = true) :=
  ⟨⟨hartAt 0x3028B [] (fun t => { x6 1000 t with resv := some 9 }), acted (hartAt 0x3028B [] (fun t => { x6 1000 t with resv := some 9 })) 0 0x3028B
      .wait, 0, 0x3028B, 5, acting_acted (by decide +kernel), by and_intros <;> decide +kernel⟩,
    ⟨hartAt 0x0203028B [(TB_COUNT.COUNT, 100)] (fun t => { x6 (-1) t with resv := some 9 }), acted (hartAt 0x0203028B [(TB_COUNT.COUNT, 100)] (fun t
      => { x6 (-1) t with resv := some 9 })) 0 0x0203028B .waitr, 0, 0x0203028B, 5, acting_acted (by decide +kernel), by and_intros <;> decide +kernel⟩,
    ⟨hartAt 0x3028B [] (x6 1000), acted (hartAt 0x3028B [] (x6 1000)) 0 0x3028B .wait, 0, 0x3028B, acting_acted (by decide +kernel),
      by and_intros <;> decide +kernel⟩,
    ⟨hartAt 0x3028B [] (fun t => { x6 1000 t with resv := some 9, run := .agw 1000 5 }), 0, 1000, 5, by decide +kernel⟩,
    ⟨hartAt 0x100B [] id, acted (hartAt 0x100B [] id) 0 0x100B .sb, 0, 0x100B, acting_acted (by decide +kernel), by and_intros <;> decide +kernel⟩,
    ⟨hartAt 0x0203100B [] (fun t => { x6 8 t with ras := [0x10] }), acted (hartAt 0x0203100B [] (fun t => { x6 8 t with ras := [0x10] })) 0 0x0203100B
      .scrub, 0, 0x0203100B, acting_acted (by decide +kernel), by and_intros <;> decide +kernel⟩,
    ⟨hartAt 0x2B [(ENDP_HARTn_STATUS.STATE 0, 1)] (fun t => { pmpAll t with priv := 1, x := [(9, 9), (10, 5), (17, 6), (18, 1)], f := [(1, 1)] }), 0,
      0x2B, [.load 0x2000], ⟨⟨acted (hartAt 0x2B [(ENDP_HARTn_STATUS.STATE 0, 1)] (fun t =>
      { pmpAll t with priv := 1, x := [(9, 9), (10, 5), (17, 6), (18, 1)], f := [(1, 1)] })) 0 0x2B .call, acting_acted (by decide +kernel),
      by decide +kernel⟩, ⟨acted ((hartAt 0x2B [(ENDP_HARTn_STATUS.STATE 0, 1)] (fun t =>
      { pmpAll t with priv := 1, x := [(9, 9), (10, 5), (17, 6), (18, 1)], f := [(1, 1)] })).strayed 0 .call [.load 0x2000]) 0 0x2B .call, acting_acted
      (by decide +kernel), by decide +kernel⟩⟩, by decide +kernel⟩,
    ⟨hartAt 0x0200002B [] (fun t => { t with world := true, retPriv := 1, retPc := 0x2000, x := [(9, 9), (10, 5), (13, 6), (14, 1)], f := [(1, 1)] }),
      0, 0x0200002B, [.load 0x2000], ⟨⟨acted (hartAt 0x0200002B [] (fun t =>
      { t with world := true, retPriv := 1, retPc := 0x2000, x := [(9, 9), (10, 5), (13, 6), (14, 1)], f := [(1, 1)] })) 0 0x0200002B .ret, acting_acted
      (by decide +kernel), by decide +kernel⟩, ⟨acted ((hartAt 0x0200002B [] (fun t =>
      { t with world := true, retPriv := 1, retPc := 0x2000, x := [(9, 9), (10, 5), (13, 6), (14, 1)], f := [(1, 1)] })).strayed 0 .ret [.load 0x2000])
      0 0x0200002B .ret, acting_acted (by decide +kernel), by decide +kernel⟩⟩, by decide +kernel⟩⟩

theorem witness_HartControlCommandsComplete :
    (∃ (s : State) (h raw : Nat) (wrong : List WrongAcc), s.ActsEither h raw .illegal wrong (fun u => u.settled h = true ∧ (u.hart h).world = false ∧
      (u.hart h).priv = 3) ∧ Instr.wellFormed (.illegalInstruction h raw wrong) = true) ∧
    (∃ (s u : State) (h raw : Nat) (wrong : List WrongAcc), s.acting h raw .wfi = some u ∧ u.settled h = true ∧ (u.hart h).pc = (s.hart h).pc ∧
      (u.hart h).world = false ∧ (u.hart h).priv = 3 ∧ (u.hart h).mip (u.hartCount h) &&& ((u.hart h).rd 0x304).toNat = 0 ∧ Instr.wellFormed (.wfi h raw
      wrong) = true) ∧
    (∃ (s u : State) (h raw : Nat), s.acting h raw .pause = some u ∧ u.settled h = true ∧ (u.hart h).world = true ∧ Instr.wellFormed (.pauseHint h
      raw) = true) ∧
    (∃ (s : State) (h n : Nat), s.stopped = false ∧ (s.hart h).run = .running ∧ s.f (CPU_CORE_STATUSc.STATE (coreOf h)) < 2 ∧ s.cs (coreOf h) < 2 ∧
      (s.hart h).io = none ∧ (s.hart h).atomic = none ∧ (s.hart h).takeable (s.hartCount h) = some (0, n) ∧ s.settled h = true ∧ Instr.wellFormed
      (.interrupt h) = true) ∧
    (∃ (s : State) (h file id : Nat), s.stopped = false ∧ 0 < id ∧ id < 256 ∧ file ≤ 8 ∧ Instr.wellFormed (.msi h file id) = true) ∧
    (∃ (s u : State) (h raw : Nat) (wrong : List WrongAcc), s.acting h raw .csr = some u ∧ u.settled h = true ∧ (u.hart h).pc = (s.hart h).pc ∧
      (u.hart h).world = false ∧ (u.hart h).priv = 3 ∧ iF12 (instrWord raw) = 0x340 ∧ iF3 (instrWord raw) = 1 ∧ (u.hart h).virt = false ∧
      Instr.wellFormed (.csrAccess h raw wrong) = true) ∧
    (∃ (s u : State) (h raw : Nat) (wrong : List WrongAcc), s.acting h raw .agfte = some u ∧ u.settled h = true ∧ (u.hart h).pc = (s.hart h).pc ∧ iF3
      (instrWord raw) = 1 ∧ (u.hart h).virt = false ∧ (u.hart h).csrCheck 0x8C0 true = .ok ∧ iF12 (instrWord raw) = 0x8C0 ∧ Instr.wellFormed
      (.agfteWrite h raw wrong) = true) ∧
    (∃ (s u : State) (h raw : Nat) (wrong : List WrongAcc), s.acting h raw .mhpm = some u ∧ u.settled h = true ∧ (u.hart h).pc = (s.hart h).pc ∧ iF3
      (instrWord raw) = 1 ∧ (u.hart h).world = false ∧ (u.hart h).priv = 3 ∧ (u.hart h).virt = false ∧ Instr.wellFormed (.mhpmeventWrite h raw wrong) =
      true) :=
  ⟨⟨hartAt 0xFFFFFFFF [] id, 0, 0xFFFFFFFF, [.load 0x2000], ⟨⟨acted (hartAt 0xFFFFFFFF [] id) 0 0xFFFFFFFF .illegal, acting_acted
      (by decide +kernel), by decide +kernel⟩, ⟨acted ((hartAt 0xFFFFFFFF [] id).strayed 0 .illegal [.load 0x2000]) 0 0xFFFFFFFF .illegal, acting_acted
      (by decide +kernel), by decide +kernel⟩⟩, by decide +kernel⟩,
    ⟨hartAt 0x10500073 [] id, acted (hartAt 0x10500073 [] id) 0 0x10500073 .wfi, 0, 0x10500073, [], acting_acted (by decide +kernel),
      by and_intros <;> decide +kernel⟩,
    ⟨hartAt 0x0100000F [] (fun t => { t with world := true }), acted (hartAt 0x0100000F [] (fun t => { t with world := true })) 0 0x0100000F .pause,
      0, 0x0100000F, acting_acted (by decide +kernel), by and_intros <;> decide +kernel⟩,
    ⟨hartAt 0 [] (fun t => ((t.setCsrIn false 0x304 32).setCsrIn false 0x344 32).setCsrIn false 0x300 8), 0, 5, by decide +kernel⟩,
    ⟨State.reset, 383, 8, 255, by decide +kernel⟩,
    ⟨hartAt 0x340312F3 [] (x6 99), acted (hartAt 0x340312F3 [] (x6 99)) 0 0x340312F3 .csr, 0, 0x340312F3, [], acting_acted (by decide +kernel),
      by and_intros <;> decide +kernel⟩,
    ⟨hartAt 0x8C031073 [] (fun t => (x6 99 t).setCsrIn false 0x300 0x2000), acted (hartAt 0x8C031073 [] (fun t => (x6 99 t).setCsrIn false 0x300
      0x2000)) 0 0x8C031073 .agfte, 0, 0x8C031073, [], acting_acted (by decide +kernel), by and_intros <;> decide +kernel⟩,
    ⟨hartAt 0x33F31073 [] (x6 99), acted (hartAt 0x33F31073 [] (x6 99)) 0 0x33F31073 .mhpm, 0, 0x33F31073, [], acting_acted (by decide +kernel),
      by and_intros <;> decide +kernel⟩⟩

theorem witness_MemoryInstructionsComplete :
    (∃ (s u u1 : State) (h raw v : Nat) (fits : Bool) (wrong : List WrongAcc), s.acting h raw .mem = some u ∧ iOp (instrWord raw) = 0x03 ∧ u.loadOne h
      (u.hart h).dataMode .load ((u.hart h).getX (iRs1 (instrWord raw)) + word (immI (instrWord raw))) (2 ^ (iF3 (instrWord raw) % 4)) none = (u1, none,
      .value v) ∧ u1.settled h = true ∧ (u1.hart h).pc = (s.hart h).pc ∧ Instr.wellFormed (.loadStore h raw false fits wrong) = true) ∧
    (∃ (s u u1 u2 : State) (h raw pa n : Nat) (va : Word) (fits : Bool) (wrong : List WrongAcc), s.acting h raw .mem = some u ∧ iOp (instrWord raw) =
      0x23 ∧ n = 2 ^ iF3 (instrWord raw) ∧ va = (u.hart h).maskAddr (u.hart h).dataMode .store ((u.hart h).getX (iRs1 (instrWord raw)) + word (immS
      (instrWord raw))) ∧ u.dataTrigger h [1] va = none ∧ u.locate h (u.hart h).dataMode .store va n = (u1, .at [(pa, n, va)]) ∧ u1.region pa = .dram ∧
      (u1.ownDram pa && u1.guardRefuses 0 pa (u1.hart h).world true) = false ∧ u1.farOwned h (lineParts [(pa, n, va)]) = (u2, .value 0) ∧ (u2.hart
      h).stores.length < 64 ∧ u2.settled h = true ∧ (u2.hart h).pc = (s.hart h).pc ∧ Instr.wellFormed (.loadStore h raw false fits wrong) = true) ∧
    (∃ (s u u0 u1 : State) (h raw pa n : Nat) (va : Word) (d : Line) (wrong : List WrongAcc), s.acting h raw .lr = some u ∧ n = 2 ^ iF3 (instrWord
      raw) ∧ (u1.hart h).pc = (s.hart h).pc ∧ va = (u.hart h).maskAddr (u.hart h).dataMode .load ((u.hart h).getX (iRs1 (instrWord raw))) ∧
      u.dataTrigger h [0] va = none ∧ va.toNat % n = 0 ∧ u.locateOne h (u.hart h).dataMode .load va n = (u0, .ok pa) ∧ u0.region pa = .dram ∧
      u0.ownLineFor h .reserve (pa, n, va) = (u1, some (some d)) ∧ u1.settled h = true ∧ Instr.wellFormed (.lr h raw wrong) = true) ∧
    (∃ (s u u1 : State) (h raw pa n : Nat) (va : Word) (wrong : List WrongAcc), s.acting h raw .sc = some u ∧ n = 2 ^ iF3 (instrWord raw) ∧ (u1.hart
      h).pc = (s.hart h).pc ∧ va = (u.hart h).maskAddr (u.hart h).dataMode .store ((u.hart h).getX (iRs1 (instrWord raw))) ∧ u.dataTrigger h [1] va =
      none ∧ va.toNat % n = 0 ∧ u.locateOne h (u.hart h).dataMode .store va n = (u1, .ok pa) ∧ u1.region pa = .dram ∧ (u1.hart h).resv ≠ some (pa / 64)
      ∧ u1.settled h = true ∧ Instr.wellFormed (.sc h raw wrong) = true) ∧
    (∃ (s u u0 u1 u2 : State) (h raw pa n : Nat) (va : Word) (d : Line) (wrong : List WrongAcc), s.acting h raw .sc = some u ∧ n = 2 ^ iF3 (instrWord
      raw) ∧ (u2.hart h).pc = (s.hart h).pc ∧ va = (u.hart h).maskAddr (u.hart h).dataMode .store ((u.hart h).getX (iRs1 (instrWord raw))) ∧
      u.dataTrigger h [1] va = none ∧ va.toNat % n = 0 ∧ u.locateOne h (u.hart h).dataMode .store va n = (u0, .ok pa) ∧ u0.region pa = .dram ∧ (u0.hart
      h).resv = some (pa / 64) ∧ (u0.hart h).stores = [] ∧ u0.ownLineFor h .write (pa, n, va) = (u1, some (some d)) ∧ (u1.hart h).resv = some (pa / 64)
      ∧ u2 = u1.writeOwned h (pa, n, va) ((u1.hart h).getX (iRs2 (instrWord raw))).toNat ∧ u2.settled h = true ∧ Instr.wellFormed (.sc h raw wrong) =
      true) ∧
    (∃ (s u u0 u1 u2 : State) (h raw pa n : Nat) (va : Word) (d : Line) (wrong : List WrongAcc), s.acting h raw .amo = some u ∧ n = 2 ^ iF3 (instrWord
      raw) ∧ n < 16 ∧ (u2.hart h).pc = (s.hart h).pc ∧ va = (u.hart h).maskAddr (u.hart h).dataMode .store ((u.hart h).getX (iRs1 (instrWord raw))) ∧
      u.dataTrigger h [0, 1] va = none ∧ va.toNat % n = 0 ∧ u.locateOne h (u.hart h).dataMode .store va n = (u0, .ok pa) ∧ u0.region pa = .dram ∧
      (u0.hart h).stores = [] ∧ u0.ownLineFor h .write (pa, n, va) = (u1, some (some d)) ∧ ((ib (instrWord raw) 31 27 ≠ 5 ∧ u2 = u1.writeOwned h (pa, n,
      va) (amoValue (ib (instrWord raw) 31 27) (8 * n) (lineBits d (pa % 64) n) (((u1.hart h).getX (iRs2 (instrWord raw))).toNat % 2 ^ (8 * n)))) ∨ (ib
      (instrWord raw) 31 27 = 5 ∧ lineBits d (pa % 64) n = ((u1.hart h).getX (iRd (instrWord raw))).toNat % 2 ^ (8 * n) ∧ u2 = u1.writeOwned h (pa, n,
      va) (((u1.hart h).getX (iRs2 (instrWord raw))).toNat % 2 ^ (8 * n))) ∨ (ib (instrWord raw) 31 27 = 5 ∧ lineBits d (pa % 64) n ≠ ((u1.hart h).getX
      (iRd (instrWord raw))).toNat % 2 ^ (8 * n) ∧ u2 = u1)) ∧ u2.settled h = true ∧ Instr.wellFormed (.amo h raw wrong) = true) ∧
    (∃ (s : State) (h : Nat), s.stopped = false ∧ (s.hart h).constrained = true ∧ s.settled h = true ∧ Instr.wellFormed (.lrHoldEnd h) = true) :=
  ⟨⟨hartAt 0x00033283 [] (x6 0x2000), acted (hartAt 0x00033283 [] (x6 0x2000)) 0 0x00033283 .mem, ((acted (hartAt 0x00033283 [] (x6 0x2000)) 0
      0x00033283 .mem).loadOne 0 ((acted (hartAt 0x00033283 [] (x6 0x2000)) 0 0x00033283 .mem).hart 0).dataMode .load (((acted (hartAt 0x00033283 [] (x6
      0x2000)) 0 0x00033283 .mem).hart 0).getX 6 + word 0) 8 none).1, 0, 0x00033283, 0x1234, true, [], acting_acted (by decide +kernel),
      by and_intros <;> decide +kernel⟩,
    ⟨hartAt 0x00733023 [] (x6 0x3038), acted (hartAt 0x00733023 [] (x6 0x3038)) 0 0x00733023 .mem, ((acted (hartAt 0x00733023 [] (x6 0x3038)) 0
      0x00733023 .mem).locate 0 ((acted (hartAt 0x00733023 [] (x6 0x3038)) 0 0x00733023 .mem).hart 0).dataMode .store 0x3038 8).1, ((((acted (hartAt
      0x00733023 [] (x6 0x3038)) 0 0x00733023 .mem).locate 0 ((acted (hartAt 0x00733023 [] (x6 0x3038)) 0 0x00733023 .mem).hart 0).dataMode .store
      0x3038 8).1).farOwned 0 (lineParts [(0x3038, 8, 0x3038)])).1, 0, 0x00733023, 0x3038, 8, 0x3038, true, [], acting_acted (by decide +kernel),
      by and_intros <;> decide +kernel⟩,
    ⟨hartAt 0x100322AF [] (x6 0x2000), acted (hartAt 0x100322AF [] (x6 0x2000)) 0 0x100322AF .lr, ((acted (hartAt 0x100322AF [] (x6 0x2000)) 0
      0x100322AF .lr).locateOne 0 ((acted (hartAt 0x100322AF [] (x6 0x2000)) 0 0x100322AF .lr).hart 0).dataMode .load 0x2000 4).1, ((((acted (hartAt
      0x100322AF [] (x6 0x2000)) 0 0x100322AF .lr).locateOne 0 ((acted (hartAt 0x100322AF [] (x6 0x2000)) 0 0x100322AF .lr).hart 0).dataMode .load
      0x2000 4).1).ownLineFor 0 .reserve (0x2000, 4, 0x2000)).1, 0, 0x100322AF, 0x2000, 4, 0x2000, 0x1234, [], acting_acted (by decide +kernel),
      by and_intros <;> decide +kernel⟩,
    ⟨hartAt 0x187322AF [] (fun t => { x6 0x2000 t with resv := some 0xC0 }), acted (hartAt 0x187322AF [] (fun t =>
      { x6 0x2000 t with resv := some 0xC0 })) 0 0x187322AF .sc, ((acted (hartAt 0x187322AF [] (fun t => { x6 0x2000 t with resv := some 0xC0 })) 0
      0x187322AF .sc).locateOne 0 ((acted (hartAt 0x187322AF [] (fun t => { x6 0x2000 t with resv := some 0xC0 })) 0 0x187322AF .sc).hart 0).dataMode
      .store 0x2000 4).1, 0, 0x187322AF, 0x2000, 4, 0x2000, [], acting_acted (by decide +kernel), by and_intros <;> decide +kernel⟩,
    ⟨hartAt 0x187322AF [] (fun t => { x6 0x2000 t with resv := some 0x80 }), acted (hartAt 0x187322AF [] (fun t =>
      { x6 0x2000 t with resv := some 0x80 })) 0 0x187322AF .sc, ((acted (hartAt 0x187322AF [] (fun t => { x6 0x2000 t with resv := some 0x80 })) 0
      0x187322AF .sc).locateOne 0 ((acted (hartAt 0x187322AF [] (fun t => { x6 0x2000 t with resv := some 0x80 })) 0 0x187322AF .sc).hart 0).dataMode
      .store 0x2000 4).1, ((((acted (hartAt 0x187322AF [] (fun t => { x6 0x2000 t with resv := some 0x80 })) 0 0x187322AF .sc).locateOne 0 ((acted
      (hartAt 0x187322AF [] (fun t => { x6 0x2000 t with resv := some 0x80 })) 0 0x187322AF .sc).hart 0).dataMode .store 0x2000 4).1).ownLineFor 0
      .write (0x2000, 4, 0x2000)).1, (((((acted (hartAt 0x187322AF [] (fun t => { x6 0x2000 t with resv := some 0x80 })) 0 0x187322AF .sc).locateOne 0
      ((acted (hartAt 0x187322AF [] (fun t => { x6 0x2000 t with resv := some 0x80 })) 0 0x187322AF .sc).hart 0).dataMode .store 0x2000 4).1).ownLineFor
      0 .write (0x2000, 4, 0x2000)).1).writeOwned 0 (0x2000, 4, 0x2000) 7, 0, 0x187322AF, 0x2000, 4, 0x2000, 0x1234, [], acting_acted
      (by decide +kernel), by and_intros <;> decide +kernel⟩,
    ⟨hartAt 0x007322AF [] (x6 0x2000), acted (hartAt 0x007322AF [] (x6 0x2000)) 0 0x007322AF .amo, ((acted (hartAt 0x007322AF [] (x6 0x2000)) 0
      0x007322AF .amo).locateOne 0 ((acted (hartAt 0x007322AF [] (x6 0x2000)) 0 0x007322AF .amo).hart 0).dataMode .store 0x2000 4).1, ((((acted (hartAt
      0x007322AF [] (x6 0x2000)) 0 0x007322AF .amo).locateOne 0 ((acted (hartAt 0x007322AF [] (x6 0x2000)) 0 0x007322AF .amo).hart 0).dataMode .store
      0x2000 4).1).ownLineFor 0 .write (0x2000, 4, 0x2000)).1, (((((acted (hartAt 0x007322AF [] (x6 0x2000)) 0 0x007322AF .amo).locateOne 0 ((acted
      (hartAt 0x007322AF [] (x6 0x2000)) 0 0x007322AF .amo).hart 0).dataMode .store 0x2000 4).1).ownLineFor 0 .write (0x2000, 4, 0x2000)).1).writeOwned
      0 (0x2000, 4, 0x2000) 0x123B, 0, 0x007322AF, 0x2000, 4, 0x2000, 0x1234, [], acting_acted (by decide +kernel), by and_intros <;> decide +kernel⟩,
    ⟨hartAt 0 [] (fun t => { t with constrained := true, resv := some 3 }), 0, by decide +kernel⟩⟩

theorem witness_ArithmeticAndCacheInstructionsComplete :
    (∃ (s u : State) (h raw : Nat) (v : Word) (wrong : List WrongAcc), s.acting h raw .int = some u ∧ u.settled h = true ∧ (u.hart h).pc = (s.hart
      h).pc ∧ iOp (instrWord raw) = 0x33 ∧ rvAluOp (iF7 (instrWord raw)) (iF3 (instrWord raw)) ((u.hart h).getX (iRs1 (instrWord raw))) ((u.hart h).getX
      (iRs2 (instrWord raw))) = some v ∧ Instr.wellFormed (.integerInstruction h raw wrong) = true) ∧
    (∃ (s u : State) (h raw : Nat) (v : Word) (wrong : List WrongAcc), s.acting h raw .int = some u ∧ u.settled h = true ∧ (u.hart h).pc = (s.hart
      h).pc ∧ iOp (instrWord raw) = 0x13 ∧ aluImm (instrWord raw) ((u.hart h).getX (iRs1 (instrWord raw))) = some v ∧ Instr.wellFormed
      (.integerInstruction h raw wrong) = true) ∧
    (∃ (s : State) (h raw : Nat) (wrong : List WrongAcc), s.ActsEither h raw .int wrong (fun u => u.settled h = true) ∧ iOp (instrWord raw) = 0x6F ∧
      Instr.wellFormed (.integerInstruction h raw wrong) = true) ∧
    (∃ (s : State) (h raw : Nat) (taken : Bool) (wrong : List WrongAcc), s.ActsEither h raw .int wrong (fun u => u.settled h = true ∧ branchTaken (iF3
      (instrWord raw)) ((u.hart h).getX (iRs1 (instrWord raw))) ((u.hart h).getX (iRs2 (instrWord raw))) = some taken) ∧ iOp (instrWord raw) = 0x63 ∧
      Instr.wellFormed (.integerInstruction h raw wrong) = true) ∧
    (∃ (s u : State) (h raw : Nat) (t' : Hart) (wrong : List WrongAcc), s.acting h raw .fp = some u ∧ u.settled h = true ∧ t'.pc = (s.hart h).pc ∧
      (u.hart h).execFp (fun k => (Config.freeWord (u.free + k)).toNat) (instrWord raw) = .done t' ∧ t'.csrIn false 0x7B0 = (u.hart h).csrIn false 0x7B0
      ∧ Instr.wellFormed (.floatingPointInstruction h raw wrong) = true) ∧
    (∃ (s u : State) (h raw : Nat), s.acting h raw .fence = some u ∧ u.settled h = true ∧ u.storesDone h = true ∧ Instr.wellFormed (.fence h raw) =
      true) ∧
    (∃ (s u : State) (h raw : Nat), s.acting h raw .fenceI = some u ∧ u.settled h = true ∧ (u.hart h).stores = [] ∧ Instr.wellFormed (.fenceI h raw) =
      true) ∧
    (∃ (s u u1 u2 : State) (h raw pa kind T : Nat) (va : Word) (m : AccMode) (a : MemAcc) (l1 : Bool) (r : HoldResult), s.acting h raw .prefetch =
      some u ∧ u.Prefetches h raw kind m a va ∧ u.locateOne h m a va 1 = (u1, .ok pa) ∧ u1.region pa = .dram ∧ (u1.ownDram pa && u1.guardRefuses 0 pa
      (u.hart h).world (decide (kind = 3))) = false ∧ T = u1.tileOfHart h ∧ l1 = u1.l1Hit T (decide (kind ≠ 0)) va.toNat (pa / 64) (u.hart h).world ∧
      (u1.l1Miss T h (pa / 64) (decide (kind ≠ 0)) l1).reach T h (pa / 64) (if kind = 3 then .write else .read true) (u.hart h).world (u.hart h).ntl l1
      = (u2, r) ∧ u2.settled h = true ∧ Instr.wellFormed (.prefetch h raw) = true) ∧
    (∃ (s u u1 : State) (h raw kind : Nat) (va : Word) (m : AccMode) (a : MemAcc) (r : Trans), s.acting h raw .prefetch = some u ∧ u.Prefetches h raw
      kind m a va ∧ u.locateOne h m a va 1 = (u1, r) ∧ (∀ pa, r = .ok pa → u1.region pa ≠ .dram) ∧ u1.settled h = true ∧ Instr.wellFormed (.prefetch h
      raw) = true) ∧
    (∃ (s u u0 u1 : State) (h raw pa T : Nat) (va : Word) (l1 : Bool) (wrong : List WrongAcc), s.acting h raw .zero = some u ∧ (u.hart h).priv = 3 ∧
      (u1.hart h).pc = (s.hart h).pc ∧ va = (u.hart h).maskAddr (u.hart h).dataMode .store ((u.hart h).getX (iRs1 (instrWord raw))) ∧ u.dataTrigger h
      [1] va = none ∧ u.locateOne h (u.hart h).dataMode .store va 1 = (u0, .ok pa) ∧ u0.region pa = .dram ∧ (u0.hart h).stores = [] ∧ T = u0.tileOfHart
      h ∧ l1 = u0.l1Hit T true va.toNat (pa / 64) (u.hart h).world ∧ ((((u0.tile T).holds (pa / 64)).any (fun e => decide (e.st = .modified ∨ e.st =
      .exclusive)) = true ∧ (u0.l1Miss T h (pa / 64) true l1).reach T h (pa / 64) .write (u.hart h).world (u.hart h).ntl l1 = (u1, .held)) ∨ (((u0.tile
      T).holds (pa / 64)).any (fun e => decide (e.st = .modified ∨ e.st = .exclusive)) = false ∧ ∃ u', ((u0.l1Miss T h (pa / 64) true l1).countReach T h
      (pa / 64) (u.hart h).world).tileRequest T h (pa / 64) .zero (u.hart h).world (u.hart h).ntl [] = (u', .held) ∧ u1 = u'.modTile T (fun x => x.took
      (pa / 64)))) ∧ u1.mayWrite T (pa / 64) = true ∧ u1.settled h = true ∧ Instr.wellFormed (.cboZero h raw wrong) = true) ∧
    (∃ (s u u0 u1 : State) (h raw pa : Nat) (va : Word) (k : ReqKind) (c : Instr) (r : HoldResult) (wrong : List WrongAcc), (u.hart h).priv = 3 ∧ ((c
      = .cboClean h raw wrong ∧ k = .cmoClean ∧ s.acting h raw .clean = some u) ∨ (c = .cboFlush h raw wrong ∧ k = .cmoFlush ∧ s.acting h raw .flush =
      some u) ∨ (c = .cboInval h raw wrong ∧ k = .cmoInval ∧ s.acting h raw .inval = some u)) ∧ (u1.hart h).pc = (s.hart h).pc ∧ va = (u.hart
      h).maskAddr (u.hart h).dataMode .store ((u.hart h).getX (iRs1 (instrWord raw))) ∧ u.dataTrigger h [1] va = none ∧ u.locateOne h (u.hart
      h).dataMode .store va 1 = (u0, .ok pa) ∧ u0.region pa = .dram ∧ (u0.ownDram pa && u0.guardRefuses 0 pa (u.hart h).world true) = false ∧ (u0.hart
      h).stores = [] ∧ u0.cmo h (pa / 64) k = (u1, r) ∧ (r = .held ∨ (r = .waits ∧ u1.ownDram pa = true)) ∧ u1.settled h = true ∧ c.wellFormed = true)
      :=
  ⟨⟨hartAt 0x407302B3 [] (x6 3), acted (hartAt 0x407302B3 [] (x6 3)) 0 0x407302B3 .int, 0, 0x407302B3, -4, [], acting_acted (by decide +kernel),
      by and_intros <;> decide +kernel⟩,
    ⟨hartAt 0xFFF30293 [] (x6 3), acted (hartAt 0xFFF30293 [] (x6 3)) 0 0xFFF30293 .int, 0, 0xFFF30293, 2, [], acting_acted (by decide +kernel),
      by and_intros <;> decide +kernel⟩,
    ⟨hartAt 0xFFDFF2EF [] id, 0, 0xFFDFF2EF, [], ⟨⟨acted (hartAt 0xFFDFF2EF [] id) 0 0xFFDFF2EF .int, acting_acted (by decide +kernel),
      by decide +kernel⟩, ⟨acted ((hartAt 0xFFDFF2EF [] id).strayed 0 .int []) 0 0xFFDFF2EF .int, acting_acted (by decide +kernel), by decide +kernel⟩⟩,
      by and_intros <;> decide +kernel⟩,
    ⟨hartAt 0xFE734EE3 [] (x6 3), 0, 0xFE734EE3, true, [.load 0x3000, .fetch 0x1040, .call], ⟨⟨acted (hartAt 0xFE734EE3 [] (x6 3)) 0 0xFE734EE3 .int,
      acting_acted (by decide +kernel), by decide +kernel⟩, ⟨acted ((hartAt 0xFE734EE3 [] (x6 3)).strayed 0 .int [.load 0x3000, .fetch 0x1040, .call]) 0
      0xFE734EE3 .int, acting_acted (by decide +kernel), by decide +kernel⟩⟩, by and_intros <;> decide +kernel⟩,
    ⟨hartAt 0x021071D3 [] (fun t => { t.setCsrIn false 0x300 0x2000 with f := [(1, 0x4000000000000000)] }), acted (hartAt 0x021071D3 [] (fun t =>
      { t.setCsrIn false 0x300 0x2000 with f := [(1, 0x4000000000000000)] })) 0 0x021071D3 .fp, 0, 0x021071D3, match ((acted (hartAt 0x021071D3 [] (fun
      t => { t.setCsrIn false 0x300 0x2000 with f := [(1, 0x4000000000000000)] })) 0 0x021071D3 .fp).hart 0).execFp (fun k => (Config.freeWord ((acted
      (hartAt 0x021071D3 [] (fun t => { t.setCsrIn false 0x300 0x2000 with f := [(1, 0x4000000000000000)] })) 0 0x021071D3 .fp).free + k)).toNat)
      (instrWord 0x021071D3) with | .done t => t | _ => ({} : Hart), [], acting_acted (by decide +kernel), by and_intros <;> decide +kernel⟩,
    ⟨hartAt 0x0FF0000F [] id, acted (hartAt 0x0FF0000F [] id) 0 0x0FF0000F .fence, 0, 0x0FF0000F, acting_acted (by decide +kernel),
      by and_intros <;> decide +kernel⟩,
    ⟨hartAt 0x0000100F [] id, acted (hartAt 0x0000100F [] id) 0 0x0000100F .fenceI, 0, 0x0000100F, acting_acted (by decide +kernel),
      by and_intros <;> decide +kernel⟩,
    ⟨hartAt 0xFE336013 [] (x6 0x2020), acted (hartAt 0xFE336013 [] (x6 0x2020)) 0 0xFE336013 .prefetch, ((acted (hartAt 0xFE336013 [] (x6 0x2020)) 0
      0xFE336013 .prefetch).locateOne 0 ((acted (hartAt 0xFE336013 [] (x6 0x2020)) 0 0xFE336013 .prefetch).hart 0).dataMode .store 0x2000 1).1,
      (((((acted (hartAt 0xFE336013 [] (x6 0x2020)) 0 0xFE336013 .prefetch).locateOne 0 ((acted (hartAt 0xFE336013 [] (x6 0x2020)) 0 0xFE336013
      .prefetch).hart 0).dataMode .store 0x2000 1).1).l1Miss 0 0 0x80 true false).reach 0 0 0x80 .write false 0 false).1, 0, 0xFE336013, 0x2000, 3, 0,
      0x2000, ((acted (hartAt 0xFE336013 [] (x6 0x2020)) 0 0xFE336013 .prefetch).hart 0).dataMode, .store, false, (((((acted (hartAt 0xFE336013 [] (x6
      0x2020)) 0 0xFE336013 .prefetch).locateOne 0 ((acted (hartAt 0xFE336013 [] (x6 0x2020)) 0 0xFE336013 .prefetch).hart 0).dataMode .store 0x2000
      1).1).l1Miss 0 0 0x80 true false).reach 0 0 0x80 .write false 0 false).2, acting_acted (by decide +kernel),
      by unfold State.Prefetches; decide +kernel, by and_intros <;> decide +kernel⟩,
    ⟨hartAt 0xFE136013 [] (x6 0x10000000000000), acted (hartAt 0xFE136013 [] (x6 0x10000000000000)) 0 0xFE136013 .prefetch, ((acted (hartAt 0xFE136013
      [] (x6 0x10000000000000)) 0 0xFE136013 .prefetch).locateOne 0 ((acted (hartAt 0xFE136013 [] (x6 0x10000000000000)) 0 0xFE136013 .prefetch).hart
      0).dataMode .load 0xFFFFFFFFFFFE0 1).1, 0, 0xFE136013, 1, 0xFFFFFFFFFFFE0, ((acted (hartAt 0xFE136013 [] (x6 0x10000000000000)) 0 0xFE136013
      .prefetch).hart 0).dataMode, .load, .ok 0xFFFFFFFFFFFE0, acting_acted (by decide +kernel), by unfold State.Prefetches; decide +kernel,
      by decide +kernel, by intro pa h; cases h; decide +kernel, by and_intros <;> decide +kernel⟩,
    ⟨hartAt 0x0043200F [] (x6 0x2008), acted (hartAt 0x0043200F [] (x6 0x2008)) 0 0x0043200F .zero, ((acted (hartAt 0x0043200F [] (x6 0x2008)) 0
      0x0043200F .zero).locateOne 0 ((acted (hartAt 0x0043200F [] (x6 0x2008)) 0 0x0043200F .zero).hart 0).dataMode .store 0x2008 1).1, (((((acted
      (hartAt 0x0043200F [] (x6 0x2008)) 0 0x0043200F .zero).locateOne 0 ((acted (hartAt 0x0043200F [] (x6 0x2008)) 0 0x0043200F .zero).hart 0).dataMode
      .store 0x2008 1).1).l1Miss 0 0 0x80 true false).reach 0 0 0x80 .write false 0 false).1, 0, 0x0043200F, 0x2008, 0, 0x2008, false, [], acting_acted
      (by decide +kernel), by refine ⟨?_, ?_, ?_, ?_, by and_intros <;> first | decide +kernel | exact .inl (by decide +kernel)⟩ <;> decide +kernel⟩,
    ⟨hartAt 0x0013200F [] (x6 0x2000), acted (hartAt 0x0013200F [] (x6 0x2000)) 0 0x0013200F .clean, ((acted (hartAt 0x0013200F [] (x6 0x2000)) 0
      0x0013200F .clean).locateOne 0 ((acted (hartAt 0x0013200F [] (x6 0x2000)) 0 0x0013200F .clean).hart 0).dataMode .store 0x2000 1).1, ((((acted
      (hartAt 0x0013200F [] (x6 0x2000)) 0 0x0013200F .clean).locateOne 0 ((acted (hartAt 0x0013200F [] (x6 0x2000)) 0 0x0013200F .clean).hart
      0).dataMode .store 0x2000 1).1).cmo 0 (0x2000 / 64) .cmoClean).1, 0, 0x0013200F, 0x2000, 0x2000, .cmoClean, .cboClean 0 0x0013200F [], ((((acted
      (hartAt 0x0013200F [] (x6 0x2000)) 0 0x0013200F .clean).locateOne 0 ((acted (hartAt 0x0013200F [] (x6 0x2000)) 0 0x0013200F .clean).hart
      0).dataMode .store 0x2000 1).1).cmo 0 (0x2000 / 64) .cmoClean).2, [], by decide +kernel, .inl ⟨rfl, rfl, acting_acted (by decide +kernel)⟩,
      by refine ⟨?_, ?_, ?_, pair_of (by decide +kernel), ?_, ?_, ?_, pair_eta, ?_, ?_, ?_⟩ <;> decide +kernel⟩⟩

theorem witness_RetryAndSparingCommandsComplete :
    (∃ (s : State) (c u a e : Nat) (d : Detection), s.stopped = false ∧ s.f (CPU_CORE_STATUSc.STATE c) = 0 ∧ (s.core c).retrying = false ∧ (s.core
      c).retryDue = false ∧ (d = .logic ∨ ((d = .registerFile ∨ d = .entry) ∧ (s.core c).hardOnce.contains (u, a, e) = false)) ∧ (s.tile (s.tileOfCore
      c)).held = [] ∧ Instr.wellFormed (.detection c d u a e) = true ∧ s.ioOut c = false) ∧
    (∃ (s : State) (c u a e : Nat) (d : Detection), s.stopped = false ∧ s.f (CPU_CORE_STATUSc.STATE c) = 0 ∧ (s.core c).retrying = false ∧ (s.core
      c).retryDue = false ∧ (d = .logic ∨ ((d = .registerFile ∨ d = .entry) ∧ (s.core c).hardOnce.contains (u, a, e) = false)) ∧ (s.tile (s.tileOfCore
      c)).held = [] ∧ Instr.wellFormed (.detection c d u a e) = true ∧ s.ioOut c = true) ∧
    (∃ (s : State) (c : Nat), s.stopped = false ∧ (s.core c).retrying = true ∧ (s.core c).retryDue = false ∧ s.attemptDone c = true ∧ (s.core
      c).warned = false ∧ s.f CPU_RAS_CTL.RETRY_WARN ≠ 0 ∧ s.f CPU_RAS_CTL.RETRY_WARN ≤ (s.core c).good + 1 ∧ Instr.wellFormed (.retrySuccess c) = true)
      ∧
    (∃ (s : State) (c : Nat), s.stopped = false ∧ Instr.wellFormed (.keepScrub c .clean) = true) ∧
    (∃ (s : State) (c : Nat), s.stopped = false ∧ s.f (CPU_CORE_STATUSc.STATE c) < 2 ∧ s.f (CPU_SPARE_MAPn.SPARE (c / 8)) = 15 ∧ Instr.wellFormed
      (.keepIslandSupply c) = true) ∧
    (∃ (s : State) (c l : Nat) (i : Instr) (r : Nat), s.stopped = false ∧ s.f (CPU_CORE_STATUSc.STATE c) < 2 ∧ s.hasSpare c = true ∧ s.on
      (CPU_CORE_STATUSc.UNPROT c) = false ∧ ((i = .clockFailure c ∧ r = 4) ∨ (i = .powerFailure c l ∧ r = 5) ∨ (∃ h, i = .hang h ∧ coreOf h = c ∧ r = 3
      ∧ s.runs h = true ∧ (s.hart h).waitsOut = false)) ∧ i.wellFormed = true) ∧
    (∃ (s : State) (c : Nat), s.stopped = false ∧ s.f (CPU_CORE_STATUSc.STATE c) < 2 ∧ s.f (CPU_SPARE_MAPn.SPARE (c / 8)) = 15 ∧ (s.core c).takeover =
      none ∧ Instr.wellFormed (.clockFailure c) = true) ∧
    (∃ (s u : State) (c : Nat) (k : Takeover), s.stopped = false ∧ (s.core c).takeover = some k ∧ k.ready = false ∧ k.routerOut = false ∧ (s.stepTaken
      (.spare c)).isSome = true ∧ s.ioOut c = false ∧ (s.core c).keepLost = false ∧ u = s.flushTile (9 * (c / 8) + k.src) ∧ (u.hart (2 * c)).stores = []
      ∧ (u.hart (2 * c + 1)).stores = [] ∧ Instr.wellFormed (.performRetiredStores c false) = true) ∧
    (∃ (s : State) (who : Requester) (v : Word), s.stopped = false ∧ s.admits who 8 CPU_SPARE_CMD v = true ∧ CPU_SPARE_CMD.GO.of v = 1 ∧ s.moveRefused
      (CPU_SPARE_CMD.LCORE.of v) = false) :=
  ⟨⟨State.reset, 191, 3, 1, 7, .logic, by decide +kernel⟩,
    ⟨{ State.reset with harts := [(383, { io := some { addr := 5, size := 1, write := false } })] }, 191, 3, 1, 7, .entry, by decide +kernel⟩,
    ⟨{ st [(CPU_RAS_CTL.RETRY_WARN, 1), (CPU_CORE_STATUSc.STATE 0, 1)] with cores := [(0, { retrying := true })] }, 0, by decide +kernel⟩,
    ⟨State.reset, 191, by decide +kernel⟩,
    ⟨st [(CPU_SPARE_MAPn.SPARE 23, 15)], 191, by decide +kernel⟩,
    ⟨st [(CPU_SPARE_MAPn.SPARE 23, 8)], 191, 0, .clockFailure 191, 4, by refine ⟨?_, ?_, ?_, ?_, .inl ⟨rfl, rfl⟩, ?_⟩ <;> decide +kernel⟩,
    ⟨st [(CPU_SPARE_MAPn.SPARE 23, 15)], 191, by decide +kernel⟩,
    ⟨{ mem [] with cores := [(0, { takeover := some { src := 0, dst := 8, reason := 4, leaf := 0 } })], hb := { taken := [(.spare 0, 0)] }, tiles := [(0, { l2 := { lines := [(2048, some (cline 0x80 0x1234))] } })] },
      ({ mem [] with cores := [(0, { takeover := some { src := 0, dst := 8, reason := 4, leaf := 0 } })], hb := { taken := [(.spare 0, 0)] }, tiles := [(0, { l2 := { lines := [(2048, some (cline 0x80 0x1234))] } })] }
      : State).flushTile 0, 0, { src := 0, dst := 8, reason := 4, leaf := 0 },
      by refine ⟨?_, ?_, ?_, ?_, ?_, ?_, ?_, rfl, ?_⟩ <;> (and_intros <;> decide +kernel)⟩,
    ⟨st [(CPU_SPARE_MAPn.SPARE 23, 8)], .text, CPU_SPARE_CMD.GO.put 1 (CPU_SPARE_CMD.LCORE.put 191 0), by decide +kernel⟩⟩

theorem witness_ArrayAndSliceCommandsComplete :
    (∃ (s : State) (t set w : Nat) (k : ArrayKind), s.stopped = false ∧ (s.wayState t k).corrected.get 0 (k.num * 16 + w) + 1 < s.wayThresh k ∧
      (s.tile t).held = [] ∧ Instr.wellFormed (.arrayError t false k set w .corrected) = true) ∧
    (∃ (s : State) (t w : Nat) (k : ArrayKind), s.stopped = false ∧ t < 216 ∧ w < 8 ∧ (k = .l1i ∨ k = .l1d) ∧ (s.wayState t k).walking.find? (fun x =>
      decide (x.1 = k)) = some (k, w) ∧ (s.tile t).held = [] ∧ Instr.wellFormed (.wayWalkEnd t k) = true) ∧
    (∃ (s : State) (who : Requester) (v : Word), s.stopped = false ∧ s.admits who 8 L3_SLICE_CMD v = true ∧ L3_SLICE_CMD.GO.of v = 1 ∧
      L3_SLICE_CMD.SLICE.of v < 216 ∧ (∀ m < 216, s.f (L3_SLICE_STATUSs.STATE m) = 0)) ∧
    (∃ (s : State) (who : Requester) (v : Word), s.stopped = false ∧ s.admits who 8 L3_SLICE_CMD v = true ∧ L3_SLICE_CMD.GO.of v = 1 ∧ s.f
      (L3_SLICE_STATUSs.STATE (L3_SLICE_CMD.SLICE.of v)) ≠ 0) ∧
    (∃ (s : State) (n : Nat), s.stopped = false ∧ n < 216 ∧ s.f (L3_SLICE_STATUSs.STATE n) = 2 ∧ Instr.wellFormed (.handoffEnd n) = true) ∧
    (∃ (s : State) (n : Nat) (dir : Bool), s.stopped = false ∧ n < 216 ∧ s.f (L3_SLICE_STATUSs.STATE n) = 0 ∧ Instr.wellFormed (.sliceControlCheck n
      dir) = true) :=
  ⟨⟨st [(L3_RAS_CTL.WAY_THRESH, 9)], 215, 4095, 11, .l3, by decide +kernel⟩,
    ⟨{ State.reset with tiles := [(215, { ways := { walking := [(.l1i, 7)] } })] }, 215, 7, .l1i, by and_intros <;> decide +kernel⟩,
    ⟨State.reset, .text, L3_SLICE_CMD.GO.put 1 (L3_SLICE_CMD.SLICE.put 215 0), by decide +kernel⟩,
    ⟨st [(L3_SLICE_STATUSs.STATE 215, 1)], .text, L3_SLICE_CMD.GO.put 1 (L3_SLICE_CMD.SLICE.put 215 0), by decide +kernel⟩,
    ⟨st [(L3_SLICE_STATUSs.STATE 215, 2)], 215, by decide +kernel⟩,
    ⟨State.reset, 215, true, by decide +kernel⟩⟩

theorem witness_HomeRequestsComplete :
    (∃ (s u : State) (m t line home : Nat) (w nl : Bool) (err : LineErr) (d : Line) (p : Bool), s.stopped = false ∧ s.svc.warmAt = none ∧ m ≠
      s.moduleNo ∧ s.populated (line * 64) = true ∧ s.guardRefuses 0 (line * 64) w false = false ∧ home = s.homeSlice (line * 64) ∧ s.slice home = {} ∧
      s.recoveries = [] ∧ s.leaving line = false ∧ s.readLine (line * 64) err = (u, d, p) ∧ u.slices = s.slices ∧ u.moduleNo = s.moduleNo ∧
      Instr.wellFormed (.rds m t line w true nl err) = true) ∧
    (∃ (s u : State) (m t line home : Nat) (w nl : Bool) (err : LineErr) (d : Line) (p : Bool), s.stopped = false ∧ s.svc.warmAt = none ∧ m ≠
      s.moduleNo ∧ s.populated (line * 64) = true ∧ s.guardRefuses 0 (line * 64) w false = false ∧ home = s.homeSlice (line * 64) ∧ s.slice home = {} ∧
      s.recoveries = [] ∧ s.leaving line = false ∧ s.readLine (line * 64) err = (u, d, p) ∧ u.slices = s.slices ∧ u.moduleNo = s.moduleNo ∧
      Instr.wellFormed (.rds m t line w false nl err) = true) ∧
    (∃ (s u : State) (m t line home : Nat) (w nl : Bool) (err : LineErr) (d : Line) (p : Bool), s.stopped = false ∧ s.svc.warmAt = none ∧ m ≠
      s.moduleNo ∧ s.populated (line * 64) = true ∧ s.guardRefuses 0 (line * 64) w true = false ∧ home = s.homeSlice (line * 64) ∧ s.slice home = {} ∧
      s.recoveries = [] ∧ s.leaving line = false ∧ s.readLine (line * 64) err = (u, d, p) ∧ u.slices = s.slices ∧ u.moduleNo = s.moduleNo ∧
      Instr.wellFormed (.rdown m t line w nl err) = true) ∧
    (∃ (s : State) (m t line home way : Nat) (w : Bool) (e : DirEntry), s.stopped = false ∧ s.svc.warmAt = none ∧ m ≠ s.moduleNo ∧ s.populated (line *
      64) = true ∧ s.guardRefuses 0 (line * 64) w true = false ∧ home = s.homeSlice (line * 64) ∧ (s.slice home).txns = [] ∧ (s.slice home).stalled = []
      ∧ s.recoveries = [] ∧ s.leaving line = false ∧ (s.slice home).dirWay line = some way ∧ (s.slice home).dirOf line = some e ∧ e.coarse = false ∧
      e.owned = false ∧ e.holders = [(m, t)] ∧ Instr.wellFormed (.upg m t line w) = true) ∧
    (∃ (s : State) (m t line home : Nat) (w : Bool), s.stopped = false ∧ s.svc.warmAt = none ∧ m ≠ s.moduleNo ∧ s.populated (line * 64) = true ∧
      s.guardRefuses 0 (line * 64) w true = false ∧ home = s.homeSlice (line * 64) ∧ s.slice home = {} ∧ s.recoveries = [] ∧ s.leaving line = false ∧
      Instr.wellFormed (.zero m t line w) = true) ∧
    (∃ (s u : State) (m die line home : Nat) (err : LineErr) (d : Line) (p : Bool), s.stopped = false ∧ s.svc.warmAt = none ∧ m ≠ s.moduleNo ∧
      s.populated (line * 64) = true ∧ s.guardRefuses 0 (line * 64) false false = false ∧ home = s.homeSlice (line * 64) ∧ s.slice home = {} ∧
      s.recoveries = [] ∧ s.leaving line = false ∧ s.readLine (line * 64) err = (u, d, p) ∧ u.slices = s.slices ∧ u.moduleNo = s.moduleNo ∧
      Instr.wellFormed (.rdcur m die line err) = true) ∧
    (∃ (s u : State) (die line home : Nat) (err : LineErr) (d : Line) (p : Bool), s.stopped = false ∧ s.populated (line * 64) = true ∧ s.guardRefuses
      0 (line * 64) false false = false ∧ home = s.homeSlice (line * 64) ∧ s.slice home = {} ∧ s.recoveries = [] ∧ s.leaving line = false ∧ s.readLine
      (line * 64) err = (u, d, p) ∧ u.slices = s.slices ∧ u.moduleNo = s.moduleNo ∧ Instr.wellFormed (.rdcur s.moduleNo die line err) = true) ∧
    (∃ (s : State) (m die line home k : Nat) (d : Line) (p : Place), s.stopped = false ∧ s.svc.warmAt = none ∧ m ≠ s.moduleNo ∧ s.populated (line *
      64) = true ∧ s.guardRefuses 0 (line * 64) false true = false ∧ home = s.homeSlice (line * 64) ∧ s.slice home = {} ∧ s.recoveries = [] ∧ s.leaving
      line = false ∧ s.halfScrubbed p.lower p.line = false ∧ s.place (line * 64) = some p ∧ s.writeOrder p = [k] ∧ s.movingTo (line * 64) = none ∧
      Instr.wellFormed (.wrfull m die line d false) = true) ∧
    (∃ (s : State) (m die line home k : Nat) (d : Line) (mask : BitVec 64) (err : LineErr) (p : Place) (e : CLine), s.stopped = false ∧ s.svc.warmAt =
      none ∧ m ≠ s.moduleNo ∧ s.populated (line * 64) = true ∧ s.guardRefuses 0 (line * 64) false true = false ∧ home = s.homeSlice (line * 64) ∧
      (s.slice home).txns = [] ∧ (s.slice home).stalled = [] ∧ s.recoveries = [] ∧ s.leaving line = false ∧ s.halfScrubbed p.lower p.line = false ∧
      (s.slice home).dir = [] ∧ s.l3Allocates home = true ∧ s.l3Find home line = some e ∧ e.poison = false ∧ s.place (line * 64) = some p ∧ s.writeOrder
      p = [k] ∧ s.movingTo (line * 64) = none ∧ Instr.wellFormed (.wrpart m die line d mask false err) = true) ∧
    (∃ (s : State) (m t line home k : Nat) (d : Line) (p : Place) (w : Bool), s.stopped = false ∧ s.ownLine line = true ∧ home = s.homeSlice (line *
      64) ∧ (s.slice home).txns = [] ∧ s.place (line * 64) = some p ∧ s.halfScrubbed p.lower p.line = false ∧ s.writeOrder p = [k] ∧ s.movingTo (line *
      64) = none ∧ Instr.wellFormed (.wb m t line d false true w) = true) ∧
    (∃ (s : State) (m t line home : Nat), s.stopped = false ∧ s.ownLine line = true ∧ home = s.homeSlice (line * 64) ∧ (s.slice home).txns = [] ∧
      Instr.wellFormed (.evn m t line) = true) ∧
    (∃ (s : State) (m t line home : Nat) (w : Bool) (c : Instr), s.stopped = false ∧ s.svc.warmAt = none ∧ m ≠ s.moduleNo ∧ s.populated (line * 64) =
      true ∧ s.guardRefuses 0 (line * 64) w true = false ∧ home = s.homeSlice (line * 64) ∧ s.slice home = {} ∧ s.recoveries = [] ∧ s.leaving line =
      false ∧ (c = .cmoClean m t line w ∨ c = .cmoFlush m t line w ∨ c = .cmoInvalidate m t line w) ∧ c.wellFormed = true) :=
  ⟨⟨home [], ((home []).readLine (0x80 * 64) []).1, 7, 215, 0x80, (home []).homeSlice (0x80 * 64), false, false, [], ((home []).readLine (0x80 * 64)
      []).2.1, ((home []).readLine (0x80 * 64) []).2.2, by decide +kernel⟩,
    ⟨home [], ((home []).readLine (0x80 * 64) []).1, 7, 0, 0x80, (home []).homeSlice (0x80 * 64), false, true, [], ((home []).readLine (0x80 * 64)
      []).2.1, ((home []).readLine (0x80 * 64) []).2.2, by decide +kernel⟩,
    ⟨home [], ((home []).readLine (0x80 * 64) []).1, 7, 215, 0x80, (home []).homeSlice (0x80 * 64), true, false, [], ((home []).readLine (0x80 * 64)
      []).2.1, ((home []).readLine (0x80 * 64) []).2.2, by decide +kernel⟩,
    ⟨{ home [] with slices := [(0x80, { dir := [(0x80 * 16 + 3, some { line := 0x80, owned := false, holders := [(7, 215)] })] })] }, 7, 215, 0x80,
      ({ home [] with slices := [(0x80, { dir := [(0x80 * 16 + 3, some { line := 0x80, owned := false, holders := [(7, 215)] })] })] } :
      State).homeSlice (0x80 * 64), 3, false, { line := 0x80, owned := false, holders := [(7, 215)] }, by decide +kernel⟩,
    ⟨home [], 7, 215, 0x80, (home []).homeSlice (0x80 * 64), false, by decide +kernel⟩,
    ⟨home [], ((home []).readLine (0x80 * 64) []).1, 7, 5, 0x80, (home []).homeSlice (0x80 * 64), [], ((home []).readLine (0x80 * 64) []).2.1, ((home
      []).readLine (0x80 * 64) []).2.2, by decide +kernel⟩,
    ⟨home [], ((home []).readLine (0x80 * 64) []).1, 5, 0x80, (home []).homeSlice (0x80 * 64), [], ((home []).readLine (0x80 * 64) []).2.1, ((home
      []).readLine (0x80 * 64) []).2.2, by decide +kernel⟩,
    ⟨home [], 7, 5, 0x80, (home []).homeSlice (0x80 * 64), 0, 0x77, { lower := 0, upper := none, line := 0x80 }, by decide +kernel⟩,
    ⟨{ home [] with slices := [(0x80, { l3 := { lines := [(0x80 * 16, some (cline 0x80 0x1200))] } })] }, 7, 5, 0x80,
      ({ home [] with slices := [(0x80, { l3 := { lines := [(0x80 * 16, some (cline 0x80 0x1200))] } })] } : State).homeSlice (0x80 * 64), 0, 0x77, 1,
      [], { lower := 0, upper := none, line := 0x80 }, cline 0x80 0x1200, by decide +kernel⟩,
    ⟨home [], 7, 215, 0x80, (home []).homeSlice (0x80 * 64), 0, 0x77, { lower := 0, upper := none, line := 0x80 }, true, by decide +kernel⟩,
    ⟨home [], 7, 215, 0x80, (home []).homeSlice (0x80 * 64), by decide +kernel⟩,
    ⟨home [], 7, 215, 0x80, (home []).homeSlice (0x80 * 64), false, .cmoClean 7 215 0x80 false, by decide +kernel⟩⟩

theorem witness_SnoopCommandsComplete :
    (∃ (s : State) (t line rm ru : Nat) (e : CLine), s.stopped = false ∧ s.ownLine line = false ∧ s.mesh.routersOut.contains t = false ∧ (s.tile
      t).held = [] ∧ (s.tile t).holds line = some e ∧ e.st ≠ .modified ∧ Instr.wellFormed (.snpshr t line rm ru) = true) ∧
    (∃ (s : State) (t line rm ru : Nat) (e : CLine), s.stopped = false ∧ s.ownLine line = false ∧ s.mesh.routersOut.contains t = false ∧ (s.tile
      t).held = [] ∧ s.holdsAnswer t line = false ∧ (s.tile t).holds line = some e ∧ e.st = .modified ∧ Instr.wellFormed (.snpinv t line (some (rm,
      ru))) = true) ∧
    (∃ (s : State) (t line : Nat) (e : CLine) (other : Bool), s.stopped = false ∧ s.ownLine line = false ∧ s.mesh.routersOut.contains t = false ∧
      (s.tile t).held = [] ∧ s.holdsAnswer t line = false ∧ (s.tile t).holds line = some e ∧ e.st ≠ .modified ∧ Instr.wellFormed (.snpkill t line other)
      = true) ∧
    (∃ (s : State) (t line : Nat) (e : CLine), s.stopped = false ∧ s.ownLine line = false ∧ s.mesh.routersOut.contains t = false ∧ (s.tile t).held =
      [] ∧ (s.tile t).holds line = some e ∧ e.st ≠ .modified ∧ Instr.wellFormed (.snpclean t line) = true) ∧
    (∃ (s : State) (t line : Nat) (e : CLine), s.stopped = false ∧ s.ownLine line = false ∧ s.mesh.routersOut.contains t = false ∧ (s.tile t).held =
      [] ∧ (s.tile t).holds line = some e ∧ e.st = .modified ∧ Instr.wellFormed (.snpcur t line) = true) ∧
    (∃ (s : State) (t line : Nat) (c : Instr), s.stopped = false ∧ s.ownLine line = false ∧ s.mesh.routersOut.contains t = false ∧ (s.tile t).held =
      [] ∧ s.holdsAnswer t line = false ∧ (s.tile t).holds line = none ∧ (s.tile t).wbs = [] ∧ ((∃ rm ru, c = .snpshr t line rm ru) ∨ (∃ q, c = .snpinv
      t line q) ∨ (∃ o, c = .snpkill t line o) ∨ (∃ o, c = .snpdrop t line o) ∨ c = .snpclean t line ∨ c = .snpcur t line) ∧ c.wellFormed = true) ∧
    (∃ (s : State) (t hm n set : Nat) (homed : List Nat), s.stopped = false ∧ hm ≠ s.moduleNo ∧ Instr.wellFormed (.snpset t hm n set homed) = true) ∧
    (∃ (s : State) (m v t line : Nat) (a : Ask) (e : CLine), s.stopped = false ∧ t < 216 ∧ line < 2 ^ 43 ∧ (s.tile t).wbs = [] ∧ (s.tile t).asks.find?
      (fun a => decide (a.line = line)) = some a ∧ a.kind = .upg ∧ (s.tile t).holds line = some e ∧ e.st ≠ .modified ∧ Instr.wellFormed (.doneResponse m
      v t line false) = true) ∧
    (∃ (s : State) (m v name : Nat) (r : Recovery), s.stopped = false ∧ s.ownLine name = false ∧ s.recoveries = [r] ∧ r.name = name ∧ r.await.filter
      (· ≠ (m, v)) ≠ [] ∧ Instr.wellFormed (.doneResponse m v 0 name true) = true) ∧
    (∃ (s : State) (m v line home : Nat) (x : HomeTxn), s.stopped = false ∧ s.ownLine line = true ∧ home = s.homeSlice (line * 64) ∧ (s.slice
      home).txns.find? (fun x => decide (x.line = line) && x.await.contains (m, v)) = some x ∧ x.await.filter (· ≠ (m, v)) ≠ [] ∧ Instr.wellFormed
      (.notHeld m v line) = true) ∧
    (∃ (s : State) (m v line : Nat), s.stopped = false ∧ s.ownLine line = true ∧ (s.slice (s.homeSlice (line * 64))).txns.any (fun x => decide (x.line
      = line) && x.landed.contains (m, v)) = false ∧ Instr.wellFormed (.wbInFlight m v line) = true) ∧
    (∃ (s : State) (t line : Nat), s.stopped = false ∧ t < 216 ∧ line < 2 ^ 43 ∧ Instr.wellFormed (.accessFault t line) = true) ∧
    (∃ (s u : State) (m v t line : Nat) (d : Line) (psn : Bool) (a : Ask), s.stopped = false ∧ (s.tile t).asks.find? (fun a => decide (a.line = line))
      = some a ∧ a.kind = .rdOwn ∧ (s.tile t).holds line = none ∧ s.tileIdle t = false ∧ u = (if s.draw.1.getLsbD 0 then s.draw.2.l3Missed a.hart else
      s.draw.2).modTile t (fun x =>
      { x with asks := x.asks.filter (fun a => decide (a.line ≠ line)), vb := x.vb.filter (fun e => decide (e.line ≠ line)), arrived := line :: x.arrived })
      ∧ Instr.wellFormed (.cleanData m v t line d psn true) = true) ∧
    (∃ (s u : State) (line home : Nat) (h : Nat × Nat) (x : HomeTxn) (k : SnoopKind) (out : List (Nat × Nat)), s.stopped = false ∧ s.ownLine line =
      true ∧ home = s.homeSlice (line * 64) ∧ (s.slice home).txns.find? (fun x => decide (x.line = line)) = some x ∧ x.await = [h] ∧ h.1 ≠ s.moduleNo ∧
      h.1 < 8 ∧ h ∉ out ∧ s.waitStands x.since = false ∧ snoopFor x.req.kind (((s.slice home).dirOf line).elim false (·.owned)) (((s.slice home).dirOf
      line).elim false (fun e => decide (e.fwd = some h))) = some k ∧ u = (s.untilLeaf (x.since + s.f L3_COH_CTL.SNOOP_TO)).raise L3_COH_ALARM.SNOOP_TO
      ∧ Instr.wellFormed (.snoopTimeout line out) = true) :=
  ⟨⟨{ home [] with tiles := [(215, { l2 := { lines := [(0, some (cline (2 ^ 40) 5))] } })] }, 215, 2 ^ 40, 2, 9, cline (2 ^ 40) 5,
      by and_intros <;> decide +kernel⟩,
    ⟨{ home [] with tiles := [(215, { l2 := { lines := [(0, some { cline (2 ^ 40) 5 with st := .modified })] } })] }, 215, 2 ^ 40, 2, 9,
      { cline (2 ^ 40) 5 with st := .modified }, by and_intros <;> decide +kernel⟩,
    ⟨{ home [] with tiles := [(215, { l2 := { lines := [(0, some (cline (2 ^ 40) 5))] } })] }, 215, 2 ^ 40, cline (2 ^ 40) 5, true,
      by decide +kernel⟩,
    ⟨{ home [] with tiles := [(215, { l2 := { lines := [(0, some (cline (2 ^ 40) 5))] } })] }, 215, 2 ^ 40, cline (2 ^ 40) 5,
      by and_intros <;> decide +kernel⟩,
    ⟨{ home [] with tiles := [(215, { l2 := { lines := [(0, some { cline (2 ^ 40) 5 with st := .modified })] } })] }, 215, 2 ^ 40,
      { cline (2 ^ 40) 5 with st := .modified }, by and_intros <;> decide +kernel⟩,
    ⟨home [], 215, 2 ^ 40, .snpkill 215 (2 ^ 40) true, by refine ⟨?_, ?_, ?_, ?_, ?_, ?_, ?_, .inr (.inr (.inl ⟨true, rfl⟩)), ?_⟩ <;> decide +kernel⟩,
    ⟨{ home [] with tiles := [(215, { l2 := { lines := [(0, some (cline (2 ^ 40) 5))] } })] }, 215, 1, 5, 0, [2 ^ 40], by decide +kernel⟩,
    ⟨{ home [] with tiles := [(215, { asks := [{ kind := .upg, line := 2 ^ 40, hart := 0 }], l2 := { lines := [(0, some (cline (2 ^ 40) 5))] } })] },
      1, 3, 215, 2 ^ 40, { kind := .upg, line := 2 ^ 40, hart := 0 }, cline (2 ^ 40) 5, by decide +kernel⟩,
    ⟨{ home [] with recoveries := [{ slice := 5, set := some 4095, await := [(1, 3), (2, 4)] }] }, 1, 3, recoveryName 5 (some 4095),
      { slice := 5, set := some 4095, await := [(1, 3), (2, 4)] }, by decide +kernel⟩,
    ⟨{ home [] with slices := [(0x80, { txns := [{ line := 0x80, req := { kind := .rdOwn, src := .tile 0 1, line := 0x80 }, await := [(1, 3), (2, 4)] }] })] },
      1, 3, 0x80,
      ({ home [] with slices := [(0x80, { txns := [{ line := 0x80, req := { kind := .rdOwn, src := .tile 0 1, line := 0x80 }, await := [(1, 3), (2, 4)] }] })] }
      : State).homeSlice (0x80 * 64), { line := 0x80, req := { kind := .rdOwn, src := .tile 0 1, line := 0x80 }, await := [(1, 3), (2, 4)] },
      by decide +kernel⟩,
    ⟨{ home [] with slices := [(0x80, { txns := [{ line := 0x80, req := { kind := .rdOwn, src := .tile 0 1, line := 0x80 }, await := [(1, 3), (2, 4)] }] })] },
      1, 3, 0x80, by decide +kernel⟩,
    ⟨{ home [] with tiles := [(0, { asks := [{ kind := .upg, line := 2 ^ 40, hart := 0 }] })] }, 215, 2 ^ 40, by decide +kernel⟩,
    ⟨{ home [] with tiles := [(0, { asks := [{ kind := .rdOwn, line := 2 ^ 40, hart := 0 }] })], harts := [(0, { run := .running })] }, _, 1, 3, 0, 2
      ^ 40, 9, false, { kind := .rdOwn, line := 2 ^ 40, hart := 0 }, by refine ⟨?_, ?_, ?_, ?_, ?_, rfl, ?_⟩ <;> decide +kernel⟩,
    ⟨{ home [] with slices := [(0x80, { txns := [{ line := 0x80, req := { kind := .rdOwn, src := .tile 0 1, line := 0x80 }, await := [(1, 3)] }] })] },
      (({ home [] with slices := [(0x80, { txns := [{ line := 0x80, req := { kind := .rdOwn, src := .tile 0 1, line := 0x80 }, await := [(1, 3)] }] })] }
      : State).untilLeaf (0 +
      ({ home [] with slices := [(0x80, { txns := [{ line := 0x80, req := { kind := .rdOwn, src := .tile 0 1, line := 0x80 }, await := [(1, 3)] }] })] }
      : State).f L3_COH_CTL.SNOOP_TO)).raise L3_COH_ALARM.SNOOP_TO, 0x80,
      ({ home [] with slices := [(0x80, { txns := [{ line := 0x80, req := { kind := .rdOwn, src := .tile 0 1, line := 0x80 }, await := [(1, 3)] }] })] }
      : State).homeSlice (0x80 * 64), (1, 3), { line := 0x80, req := { kind := .rdOwn, src := .tile 0 1, line := 0x80 }, await := [(1, 3)] }, .inv, [(1,
      4)], by decide +kernel⟩⟩

theorem witness_MeshCommandsComplete :
    (∃ (s u : State) (d x y : Nat) (v : Bool) (hdr : BitVec 128) (errs : List Nat), s.stopped = false ∧ u = s.addF (MESH_LINKSd.CE d) (errs.filter
      (fun e => decide (e = 1))).length ∧ Instr.wellFormed (.packetUe d v x y hdr errs) = true ∧ (∀ e ∈ errs, e ≤ 1) ∧ (Header.of hdr).reserved = false)
      ∧
    (∃ (s u : State) (d x y : Nat) (v : Bool) (hdr : BitVec 128) (errs : List Nat), s.stopped = false ∧ u = s.addF (MESH_LINKSd.CE d) (errs.filter
      (fun e => decide (e = 1))).length ∧ Instr.wellFormed (.packetUe d v x y hdr errs) = true ∧ ((∃ e ∈ errs, 2 ≤ e) ∨ (Header.of hdr).reserved = true)
      ∧ s.mesh.errors.get 0 (linkNo d v x y) + 1 < s.f MESH_CTL.UE_LIMIT) ∧
    (∃ (s : State) (k l : Nat) (mv deg : Int) (r : Nat), s.stopped = false ∧ s.f (MESH_DLINKk_STATUS.STATE k) ≠ 2 ∧ mv.natAbs ≤ 250 ∧ deg.natAbs ≤ 40
      ∧ s.mesh.beyond.get none k = none ∧ Instr.wellFormed (.dieLinkMeasure k l mv deg r false) = true) ∧
    (∃ (s : State) (k l : Nat) (mv deg : Int) (r : Nat), s.stopped = false ∧ s.f (MESH_DLINKk_STATUS.STATE k) ≠ 2 ∧ 250 < mv.natAbs ∧
      s.mesh.beyond.get none k = none ∧ Instr.wellFormed (.dieLinkMeasure k l mv deg r false) = true) :=
  ⟨⟨st [(MESH_CTL.UE_LIMIT, 2)], (st [(MESH_CTL.UE_LIMIT, 2)]).addF (MESH_LINKSd.CE 3) 2, 3, 7, 6, true, 0, [1, 0, 1], by decide +kernel⟩,
    ⟨st [(MESH_CTL.UE_LIMIT, 2)], (st [(MESH_CTL.UE_LIMIT, 2)]).addF (MESH_LINKSd.CE 3) 1, 3, 7, 6, true, 0, [1, 2],
      by refine ⟨?_, ?_, ?_, .inl ⟨2, by decide, by decide⟩, ?_⟩ <;> decide +kernel⟩,
    ⟨State.reset, 7, 0, -250, 40, 3, by decide +kernel⟩,
    ⟨State.reset, 7, 0, -251, 40, 3, by decide +kernel⟩⟩

theorem witness_ChannelCommandsComplete :
    (∃ (s : State) (k c : Nat), s.stopped = false ∧ k < 16 ∧ (s.chState k = 2 ∨ s.chState k = 6 ∨ s.chState k = 7) ∧ (s.chan k).half = none ∧
      Instr.wellFormed (.channelFailure k c) = true) ∧
    (∃ (s : State) (k c : Nat), s.stopped = false ∧ k < 16 ∧ s.chState k = 3 ∧ (s.chan k).failing = false ∧ (s.chan (pairOf k)).failing = false ∧
      Instr.wellFormed (.channelFailure k c) = true) ∧
    (∃ (s : State) (who : Requester) (k : Nat) (v : Word), s.stopped = false ∧ k < 16 ∧ v = MC_CHAN_CMD.GO.put 1 (MC_CHAN_CMD.OP.put 0
      (MC_CHAN_CMD.CHAN.put k 0)) ∧ s.admits who 8 MC_CHAN_CMD v = true ∧ s.chState k = 3 ∧ (s.chan k).failing = false ∧ (s.chan (pairOf k)).failing =
      false ∧ Instr.wellFormed (.offline who k) = true) ∧
    (∃ (s : State) (who : Requester) (k : Nat) (v : Word), s.stopped = false ∧ k < 16 ∧ v = MC_CHAN_CMD.GO.put 1 (MC_CHAN_CMD.OP.put 0
      (MC_CHAN_CMD.CHAN.put k 0)) ∧ s.admits who 8 MC_CHAN_CMD v = true ∧ s.chState k = 4 ∧ s.chState (pairOf k) = 8 ∧ Instr.wellFormed (.offline who k)
      = true) ∧
    (∃ (s : State) (who : Requester) (k : Nat) (v : Word), s.stopped = false ∧ k < 16 ∧ v = MC_CHAN_CMD.GO.put 1 (MC_CHAN_CMD.OP.put 1
      (MC_CHAN_CMD.CHAN.put k 0)) ∧ s.admits who 8 MC_CHAN_CMD v = true ∧ s.chState k = 5 ∧ s.chState (pairOf k) = 4 ∧ s.scopeLive 4 = false ∧ (s.chan
      k).mpwr = false ∧ Instr.wellFormed (.online who k) = true) ∧
    (∃ (s : State) (who : Requester) (k : Nat) (v : Word), s.stopped = false ∧ k < 16 ∧ v = MC_CHAN_CMD.GO.put 1 (MC_CHAN_CMD.OP.put 1
      (MC_CHAN_CMD.CHAN.put k 0)) ∧ s.admits who 8 MC_CHAN_CMD v = true ∧ s.chState k ≠ 5 ∧ Instr.wellFormed (.online who k) = true) ∧
    (∃ (s : State) (k : Nat), s.stopped = false ∧ k < 16 ∧ (s.chan k).leaving = true ∧ s.chState k = 8 ∧ s.channelStepped k false = true ∧
      Instr.wellFormed (.channelSafe k) = true) ∧
    (∃ (s : State) (k n ty g r d st x : Nat) (x4 : Bool), s.stopped = false ∧ k < 16 ∧ s.chState k = 5 ∧ (s.chan k).mpwr = true ∧ s.channelStepped k
      true = true ∧ s.dimmsMatch ⟨n, ty, g, r, d, st, x, x4⟩ (pairOf k) = true ∧ s.chState (pairOf k) = 4 ∧ Instr.wellFormed (.powerGood k n ty g r d st
      x x4) = true) ∧
    (∃ (s : State) (k : Nat), s.stopped = false ∧ k < 16 ∧ s.chState k = 6 ∧ s.chState (pairOf k) = 4 ∧ (s.chan k).half = none ∧ Instr.wellFormed
      (.channelTrained k) = true) ∧
    (∃ (s : State) (k : Nat), s.stopped = false ∧ s.chState k = 7 ∧ s.chState (pairOf k) = 4 ∧ s.hwUnderWay (fun c => decide (c = .channels [(k, 3),
      (pairOf k, 3)])) = false ∧ Instr.wellFormed (.resilverEnd k) = true) ∧
    (∃ (s : State) (k : Nat), s.stopped = false ∧ s.chState k = 2 ∧ s.f MC_CTL.SR_IDLE ≠ 0 ∧ Instr.wellFormed (.selfRefreshEntry k) = true) ∧
    (∃ (s a : State) (who : Requester) (e floor : Nat), s.stopped = false ∧ e < 448 ∧ floor < 2 ^ (MC_BWR_ENTRYe.FLOOR e).width ∧ s.admits who 8
      (MC_BWR_ENTRYe e) ((MC_BWR_ENTRYe.FLOOR e).put floor (s.reg (MC_BWR_ENTRYe e))) = true ∧ floor ≤ s.f (MC_BWR_ENTRYe.FLOOR e) ∧ a = ((s.setF
      (MC_BWR_ENTRYe.WEIGHT e) (s.f (MC_BWR_ENTRYe.WEIGHT e))).setF (MC_BWR_ENTRYe.FLOOR e) floor).showAdmitted ∧ Instr.wellFormed (.floorWrite who e
      floor) = true ∧ a.sheds = false) ∧
    (∃ (s a : State) (who : Requester) (e floor : Nat), s.stopped = false ∧ e < 448 ∧ floor < 2 ^ (MC_BWR_ENTRYe.FLOOR e).width ∧ s.admits who 8
      (MC_BWR_ENTRYe e) ((MC_BWR_ENTRYe.FLOOR e).put floor (s.reg (MC_BWR_ENTRYe e))) = true ∧ floor ≤ s.f (MC_BWR_ENTRYe.FLOOR e) ∧ a = ((s.setF
      (MC_BWR_ENTRYe.WEIGHT e) (s.f (MC_BWR_ENTRYe.WEIGHT e))).setF (MC_BWR_ENTRYe.FLOOR e) floor).showAdmitted ∧ Instr.wellFormed (.floorWrite who e
      floor) = true ∧ a.sheds = true) ∧
    (∃ (s : State) (g : Nat), s.stopped = false ∧ Instr.wellFormed (.weightEffect g) = true) :=
  ⟨⟨st [(MC_CHk_STATUS.STATE 15, 7)], 15, 0, by decide +kernel⟩,
    ⟨st [(MC_CHk_STATUS.STATE 0, 3), (MC_CHk_STATUS.STATE 4, 3)], 0, 0, by decide +kernel⟩,
    ⟨st [(MC_CHk_STATUS.STATE 0, 3), (MC_CHk_STATUS.STATE 4, 3)], .text, 0, MC_CHAN_CMD.GO.put 1 (MC_CHAN_CMD.OP.put 0 (MC_CHAN_CMD.CHAN.put 0 0)),
      by decide +kernel⟩,
    ⟨st [(MC_CHk_STATUS.STATE 0, 4), (MC_CHk_STATUS.STATE 4, 8)], .text, 0, MC_CHAN_CMD.GO.put 1 (MC_CHAN_CMD.OP.put 0 (MC_CHAN_CMD.CHAN.put 0 0)),
      by decide +kernel⟩,
    ⟨st [(MC_CHk_STATUS.STATE 15, 5), (MC_CHk_STATUS.STATE 11, 4)], .text, 15, MC_CHAN_CMD.GO.put 1 (MC_CHAN_CMD.OP.put 1 (MC_CHAN_CMD.CHAN.put 15
      0)), by decide +kernel⟩,
    ⟨st [(MC_CHk_STATUS.STATE 15, 2)], .text, 15, MC_CHAN_CMD.GO.put 1 (MC_CHAN_CMD.OP.put 1 (MC_CHAN_CMD.CHAN.put 15 0)), by decide +kernel⟩,
    ⟨{ st [(MC_CHk_STATUS.STATE 15, 8)] with channels := [(15, { leaving := true })], hb := { taken := [(.channel 15 0 false, 0), (.channel 15 1 false, 0)] } },
      15, by decide +kernel⟩,
    ⟨{ st [(MC_CHk_STATUS.STATE 15, 5), (MC_CHk_STATUS.STATE 11, 4), (MC_CHk_STATUS.DIMMS 11, 2), (MC_CHk_STATUS.TYPE 11, 1), (MC_CHk_STATUS.RATE 11, 60)] with channels := [(11, { dimmGib := 64, ranks := 2, density := 16 }), (15, { mpwr := true })], hb := { taken := [(.channel 15 0 true, 0), (.channel 15 1 true, 0)] } },
      15, 2, 1, 64, 2, 16, 1, 60, true, by decide +kernel⟩,
    ⟨st [(MC_CHk_STATUS.STATE 15, 6), (MC_CHk_STATUS.STATE 11, 4)], 15, by decide +kernel⟩,
    ⟨st [(MC_CHk_STATUS.STATE 15, 7), (MC_CHk_STATUS.STATE 11, 4)], 15, by decide +kernel⟩,
    ⟨st [(MC_CHk_STATUS.STATE 15, 2), (MC_CTL.SR_IDLE, 5)], 15, by decide +kernel⟩,
    ⟨st [], (((st []).setF (MC_BWR_ENTRYe.WEIGHT 447) ((st []).f (MC_BWR_ENTRYe.WEIGHT 447))).setF (MC_BWR_ENTRYe.FLOOR 447) 0).showAdmitted, .text,
      447, 0, by decide +kernel⟩,
    ⟨st [(MC_BWR_ENTRYe.FLOOR 3, 9)], (((st [(MC_BWR_ENTRYe.FLOOR 3, 9)]).setF (MC_BWR_ENTRYe.WEIGHT 447) ((st [(MC_BWR_ENTRYe.FLOOR 3, 9)]).f
      (MC_BWR_ENTRYe.WEIGHT 447))).setF (MC_BWR_ENTRYe.FLOOR 447) 0).showAdmitted, .text, 447, 0, by decide +kernel⟩,
    ⟨st [], 1, by decide +kernel⟩⟩

theorem witness_ProtectionCommandsComplete :
    (∃ (s : State) (k n lines : Nat) (half : Bool) (errs : List (Nat × LineErr)), s.stopped = false ∧ s.scrubs k = true ∧ s.on (MC_CHk_STATUS.SR k) =
      false ∧ n % s.f SCR_CTL.PERIOD = k % s.f SCR_CTL.PERIOD ∧ (s.chan k).burstAt ≤ n ∧ s.burstTurn n = true ∧ Instr.wellFormed (.scrubBurst k n lines
      half errs) = true) ∧
    (∃ (s : State) (k g lines most : Nat) (half : Bool) (errs : List (Nat × LineErr)), s.stopped = false ∧ s.scrubs k = true ∧ s.on (MC_CHk_STATUS.SR
      k) = true ∧ (s.chan k).wakeAt ≤ g ∧ s.burstTurn (1024 * g + 64 * (k % 16)) = true ∧ most = s.f SCR_CTL.BURST * (1024 / s.f SCR_CTL.PERIOD) ∧
      Instr.wellFormed (.scrubWake k g lines half errs) = true) ∧
    (∃ (s : State) (k : Nat), s.stopped = false ∧ s.laps k = true ∧ Instr.wellFormed (.lapWarn k) = true) ∧
    (∃ (s : State) (k row dev time : Nat) (rest : List (Nat × Nat)), s.stopped = false ∧ (s.chan k).due = (row, dev) :: rest ∧ (s.chan k).repair =
      none ∧ scrubbed (s.chState k) = true ∧ time ≤ 4 ∧ Instr.wellFormed (.softRepair k true time []) = true) ∧
    (∃ (s : State) (k row dev time : Nat) (rest : List (Nat × Nat)) (r : _), s.stopped = false ∧ (s.chan k).due = (row, dev) :: rest ∧ (s.chan
      k).repair = none ∧ scrubbed (s.chState k) = true ∧ (s.chan k).repairs.length < 64 ∧ (s.chan k).repairs.contains (row, dev) = false ∧ (r = false ∨
      4 < time) ∧ Instr.wellFormed (.softRepair k r time []) = true) ∧
    (∃ (s : State) (k : Nat) (r : SoftRepair), s.stopped = false ∧ (s.chan k).repair = some r ∧ r.lines = [] ∧ (s.chan k).repairs.length < 64 ∧
      (s.chan k).repairs.contains (r.row, r.device) = false ∧ Instr.wellFormed (.softRepairEnd k) = true) ∧
    (∃ (s : State) (who : Requester) (copy op : Nat) (v : Word) (p : Place) (c : Instr), s.stopped = false ∧ copy < 2 ∧ v = SCR_TEST_CTL.GO.put 1
      (SCR_TEST_CTL.OP.put op (SCR_TEST_CTL.COPY.put copy 0)) ∧ s.admits who 8 SCR_TEST_CTL v = true ∧ s.place (s.f SCR_TEST_ADDR.LINE * 64) = some p ∧
      s.rawRefused (s.f SCR_TEST_ADDR.LINE * 64) op copy (decide (who ≠ .text)) = false ∧ s.slice (s.homeSlice (s.f SCR_TEST_ADDR.LINE * 64)) = {} ∧ ((c
      = .rawRead who copy ∧ op = 0) ∨ (c = .rawWrite who copy ∧ op = 1)) ∧ c.wellFormed = true) ∧
    (∃ (s : State) (r : RawAccess) (x : HomeTxn), s.stopped = false ∧ s.raw = some r ∧ r.write = true ∧ (s.slice (s.homeSlice (r.line *
      64))).txns.find? (fun x => decide (x.line = r.line)) = some x ∧ x.await = [rawHolder] ∧ x.queue = [] ∧ (s.slice (s.homeSlice (r.line *
      64))).stalled = [] ∧ (s.place (r.line * 64)).all (fun p => !s.halfScrubbed p.lower p.line) = true ∧ x.req =
      { kind := .cmoFlush, src := .engine s.moduleNo 0, line := r.line }) ∧
    (∃ (s : State) (who : Requester) (g : Nat) (v : Word), s.stopped = false ∧ g < 7 ∧ (MG_CTLg.LOCK g).of v = 1 ∧ s.admits who 8 (MG_CTLg g) v = true
      ∧ s.on (MG_CTLg.LOCK g) = false ∧ s.mgBusy = false ∧ Instr.wellFormed (.mgLock who g v) = true) ∧
    (∃ (s : State) (who : Requester) (g : Nat) (v : Word), s.stopped = false ∧ g < 7 ∧ (MG_CTLg.LOCK g).of v = 1 ∧ s.admits who 8 (MG_CTLg g) v = true
      ∧ s.on (MG_CTLg.LOCK g) = true ∧ Instr.wellFormed (.mgLock who g v) = true) :=
  ⟨⟨st [(SCR_CTL.EN, 1), (SCR_CTL.PERIOD, 16), (SCR_CTL.BURST, 4), (MC_CHk_STATUS.STATE 15, 2), (MC_CHk_STATUS.CAP 15, 16)], 15, 15, 8, true, [],
      by decide +kernel⟩,
    ⟨st [(SCR_CTL.EN, 1), (SCR_CTL.PERIOD, 16), (SCR_CTL.BURST, 4), (MC_CHk_STATUS.STATE 15, 2), (MC_CHk_STATUS.CAP 15, 16), (MC_CHk_STATUS.SR 15,
      1)], 15, 1, 8, (st [(SCR_CTL.EN, 1), (SCR_CTL.PERIOD, 16), (SCR_CTL.BURST, 4), (MC_CHk_STATUS.STATE 15, 2), (MC_CHk_STATUS.CAP 15, 16),
      (MC_CHk_STATUS.SR 15, 1)]).f SCR_CTL.BURST * (1024 / (st [(SCR_CTL.EN, 1), (SCR_CTL.PERIOD, 16), (SCR_CTL.BURST, 4), (MC_CHk_STATUS.STATE 15, 2),
      (MC_CHk_STATUS.CAP 15, 16), (MC_CHk_STATUS.SR 15, 1)]).f SCR_CTL.PERIOD), true, [], by decide +kernel⟩,
    ⟨st [(SCR_CTL.EN, 1), (SCR_CTL.PERIOD, 16), (SCR_CTL.BURST, 4), (MC_CHk_STATUS.STATE 15, 2), (MC_CHk_STATUS.CAP 15, 16)], 15, by decide +kernel⟩,
    ⟨{ st [(MC_CHk_STATUS.STATE 15, 2)] with channels := [(15, { due := [(7, 3)] })] }, 15, 7, 3, 4, [], by decide +kernel⟩,
    ⟨{ st [(MC_CHk_STATUS.STATE 15, 2)] with channels := [(15, { due := [(7, 3)] })] }, 15, 7, 3, 5, [], true, by decide +kernel⟩,
    ⟨{ st [(MC_CHk_STATUS.STATE 15, 2), (SCR_CHk_STATUS.REPAIRING 15, 1)] with channels := [(15, { repair := some { row := 7, device := 3, lines := [] } })] },
      15, { row := 7, device := 3, lines := [] }, by decide +kernel⟩,
    ⟨home [(SCR_TEST_ADDR.LINE, 0x80)], .endpaper, 0, 1, SCR_TEST_CTL.GO.put 1 (SCR_TEST_CTL.OP.put 1 (SCR_TEST_CTL.COPY.put 0 0)),
      { lower := 0, upper := none, line := 0x80 }, .rawWrite .endpaper 0, by decide +kernel⟩,
    ⟨{ home [(SCR_TEST_CTL.BUSY, 1)] with raw := some { line := 0x80, chan := 0, place := 0x80, copy := 0, write := true, data := 0x55, checks := 1 }, slices := [(0x80, { txns := [{ line := 0x80, req := { kind := .cmoFlush, src := .engine 0 0, line := 0x80 }, await := [rawHolder] }] })] },
      { line := 0x80, chan := 0, place := 0x80, copy := 0, write := true, data := 0x55, checks := 1 },
      { line := 0x80, req := { kind := .cmoFlush, src := .engine 0 0, line := 0x80 }, await := [rawHolder] }, by decide +kernel⟩,
    ⟨st [], .endpaper, 6, (MG_CTLg.LOCK 6).put 1 ((MG_CTLg.DEF_SHADOW 6).put 5 0), by decide +kernel⟩,
    ⟨st [(MG_CTLg.LOCK 6, 1)], .endpaper, 6, (MG_CTLg.LOCK 6).put 1 ((MG_CTLg.DEF_SHADOW 6).put 5 0), by decide +kernel⟩⟩

theorem witness_QueueCommandsComplete :
    (∃ (s : State) (who : Requester) (q : Nat) (v : Word), s.stopped = false ∧ q < 16384 ∧ v = (CSS_Qq_CTL.ENABLE q).put 1 (s.reg (CSS_Qq_CTL q)) ∧
      s.admits who 8 (CSS_Qq_CTL q) v = true ∧ s.resetting (instOf q) = false ∧ s.qState q = 0 ∧ s.f (CSS_SIi_BIND.KIND (instOf q)) ≠ 0 ∧ s.on
      (CSS_Qq_SQBASE.HOST q) = false ∧ s.on (CSS_Qq_CQBASE.HOST q) = false ∧ Instr.wellFormed (.queueEnable who q) = true) ∧
    (∃ (s : State) (who : Requester) (q : Nat) (v : Word), s.stopped = false ∧ q < 16384 ∧ v = (CSS_Qq_CTL.ENABLE q).put 0 (s.reg (CSS_Qq_CTL q)) ∧
      s.admits who 8 (CSS_Qq_CTL q) v = true ∧ s.resetting (instOf q) = false ∧ (CSS_Qq_CTL.RESUME q).of v = 0 ∧ s.qState q = 1 ∧ s.frames = [] ∧
      (s.cmdsOf q = [] ∧ (s.queue q).out = []) ∧ Instr.wellFormed (.queueDisable who q) = true) ∧
    (∃ (s : State) (who : Requester) (q : Nat) (v : Word), s.stopped = false ∧ q < 16384 ∧ v = (CSS_Qq_CTL.ENABLE q).put 0 (s.reg (CSS_Qq_CTL q)) ∧
      s.admits who 8 (CSS_Qq_CTL q) v = true ∧ s.resetting (instOf q) = false ∧ (CSS_Qq_CTL.RESUME q).of v = 0 ∧ s.qState q = 1 ∧ s.frames = [] ∧
      s.cmdsOf q ≠ [] ∧ (∀ m ∈ s.cmdsOf q, m.2.opcode ≠ 6) ∧ ((s.queue q).out = [] ∨ s.queueWrites q = true) ∧ s.PortsRest ∧ Instr.wellFormed
      (.queueDisable who q) = true) ∧
    (∃ (s : State) (who : Requester) (q : Nat) (v : Word), s.stopped = false ∧ q < 16384 ∧ v = (CSS_Qq_CTL.RESUME q).put 1 (s.reg (CSS_Qq_CTL q)) ∧
      s.admits who 8 (CSS_Qq_CTL q) v = true ∧ s.resetting (instOf q) = false ∧ s.on (CSS_Qq_CTL.ENABLE q) = true ∧ s.qState q = 4 ∧ (s.queue q).out =
      [] ∧ Instr.wellFormed (.resume who q) = true) ∧
    (∃ (s : State) (q : Nat) (v : Word), s.stopped = false ∧ (s.qState q = 1 ∨ s.qState q = 2) ∧ bitsOf v 31 24 = s.gen (instOf q) ∧ bitsOf v 63 32 =
      0 ∧ bitsOf v 23 16 = 0 ∧ bitsOf v 15 0 < s.sqSize q ∧ Instr.wellFormed (.sqDoorbell q v) = true) ∧
    (∃ (s : State) (q : Nat) (v : Word), s.stopped = false ∧ (s.qState q = 1 ∨ s.qState q = 2) ∧ bitsOf v 31 24 = s.gen (instOf q) ∧ bitsOf v 63 32 =
      0 ∧ bitsOf v 23 16 = 0 ∧ bitsOf v 15 0 < s.cqSize q ∧ (s.queue q).out = [] ∧ inRing (s.cqSize q) (s.f (CSS_Qq_PTRS.CQ_HEAD q)) (s.f
      (CSS_Qq_STATUS.CQ_TAIL q)) (bitsOf v 15 0) = true ∧ Instr.wellFormed (.cqDoorbell q v) = true) ∧
    (∃ (s : State) (off : Nat), s.stopped = false ∧ off < 0x100000 ∧ off % 4096 < 0x400 ∧ Instr.wellFormed (.shortDoorbell off) = true) ∧
    (∃ (s : State) (q n : Nat), s.stopped = false ∧ (s.qState q = 1 ∨ s.qState q = 2 ∨ s.qState q = 4) ∧ (s.queue q).next ≠ s.f (CSS_Qq_PTRS.SQ_TAIL
      q) ∧ s.journalUp = true ∧ s.freeEntry (instOf q) = some n ∧ Instr.wellFormed (.commandAccepted q) = true) :=
  ⟨⟨st [(CSS_SIi_BIND.KIND 255, 1), (CSS_Qq_CTL.ENGINE 16383, 255)], .text, 16383, (CSS_Qq_CTL.ENABLE 16383).put 1 ((st [(CSS_SIi_BIND.KIND 255, 1),
      (CSS_Qq_CTL.ENGINE 16383, 255)]).reg (CSS_Qq_CTL 16383)), by decide +kernel⟩,
    ⟨st [(CSS_Qq_STATUS.STATE 16383, 1), (CSS_Qq_CTL.ENABLE 16383, 1)], .text, 16383, (CSS_Qq_CTL.ENABLE 16383).put 0 ((st [(CSS_Qq_STATUS.STATE
      16383, 1), (CSS_Qq_CTL.ENABLE 16383, 1)]).reg (CSS_Qq_CTL 16383)), by decide +kernel⟩,
    ⟨{ st [(CSS_Qq_STATUS.STATE 16383, 1), (CSS_Qq_CTL.ENABLE 16383, 1)] with journal := [(5, some { seq := 1, queue := 16383, index := 0, gen := 0 })] },
      .text, 16383, (CSS_Qq_CTL.ENABLE 16383).put 0
      (({ st [(CSS_Qq_STATUS.STATE 16383, 1), (CSS_Qq_CTL.ENABLE 16383, 1)] with journal := [(5, some { seq := 1, queue := 16383, index := 0, gen := 0 })] }
      : State).reg (CSS_Qq_CTL 16383)),
      by refine ⟨?_, ?_, ?_, ?_, ?_, ?_, ?_, ?_, ?_, ?_, ?_, by unfold State.PortsRest; decide +kernel, ?_⟩ <;> decide +kernel⟩,
    ⟨st [(CSS_Qq_STATUS.STATE 16383, 4), (CSS_Qq_CTL.ENABLE 16383, 1), (CSS_Qq_STATUS.CAUSES 16383, 3)], .text, 16383, (CSS_Qq_CTL.RESUME 16383).put 1
      ((st [(CSS_Qq_STATUS.STATE 16383, 4), (CSS_Qq_CTL.ENABLE 16383, 1), (CSS_Qq_STATUS.CAUSES 16383, 3)]).reg (CSS_Qq_CTL 16383)), by decide +kernel⟩,
    ⟨st [(CSS_Qq_STATUS.STATE 16383, 1), (CSS_Qq_CTL.SQ_LOG 16383, 4), (CSS_Qq_CTL.CQ_LOG 16383, 4)], 16383, 0, by decide +kernel⟩,
    ⟨st [(CSS_Qq_STATUS.STATE 16383, 1), (CSS_Qq_STATUS.CQ_TAIL 16383, 1), (CSS_Qq_CTL.SQ_LOG 16383, 4), (CSS_Qq_CTL.CQ_LOG 16383, 4)], 16383, 1,
      by decide +kernel⟩,
    ⟨st [], 0x3F8, by decide +kernel⟩,
    ⟨st [(CSS_Qq_STATUS.STATE 16383, 2), (CSS_Qq_CTL.SQ_LOG 16383, 4), (CSS_Qq_PTRS.SQ_TAIL 16383, 1)], 16383, 261120, by decide +kernel⟩⟩

theorem witness_JournalCommandsComplete :
    (∃ (s : State) (c : Nat), s.stopped = false ∧ Instr.wellFormed (.journalAlone c) = true) ∧
    (∃ (s : State) (c : Nat), s.stopped = false ∧ s.f (if c = 0 then CSS_JOURNAL.COPY0 else CSS_JOURNAL.COPY1) = 1 ∧ Instr.wellFormed (.journalRebuilt
      c) = true) ∧
    (∃ (s : State) (n : Nat) (far : FarData), s.stopped = false ∧ s.stuck = [] ∧ (s.entry n).isSome = true ∧ Instr.wellFormed (.journalLost n true
      far) = true) ∧
    (∃ (s : State) (d : Nat), s.stopped = false ∧ d < 2 ∧ s.journal = [] ∧ Instr.wellFormed (.dieStopped d) = true) :=
  ⟨⟨st [], 1, by decide +kernel⟩,
    ⟨st [(CSS_JOURNAL.COPY1, 1)], 1, by decide +kernel⟩,
    ⟨{ st [] with journal := [(262143, some { seq := 1, queue := 16383, index := 0, gen := 0 })] }, 262143, [], by and_intros <;> decide +kernel⟩,
    ⟨st [(CSS_Qq_CTL.ENGINE 7, 128), (CSS_Qq_STATUS.STATE 7, 1)], 1, by decide +kernel⟩⟩

theorem witness_PathAndAnswerCommandsComplete :
    (∃ (s : State) (id : Nat) (r : PortReq) (e : JEntry) (d : Line) (data : List Byte), s.stopped = false ∧ s.reqs.find? (fun x => decide (x.id = id))
      = some r ∧ r.freed = false ∧ r.gen = s.gen (instOf r.queue) ∧ r.fate = 0 ∧ r.back = false ∧ r.write = true ∧ s.entry r.entry = some e ∧ e.desc =
      some d ∧ dOpcode d ≠ 7 ∧ s.reqs.any (fun x => decide (x.id ≠ id ∧ x.seq = e.seq ∧ x.fate = 0)) = true ∧ Instr.wellFormed (.requestAnswered id 0
      data) = true) ∧
    (∃ (s : State) (i a p detail : Nat), s.stopped = false ∧ i < 256 ∧ a < 16 ∧ p < 4 ∧ s.pathFault i a p = none ∧ s.reqs = [] ∧ Instr.wellFormed
      (.pathFailed i a p detail) = true) ∧
    (∃ (s : State) (port i a p : Nat), s.stopped = false ∧ s.rootUp port = true ∧ s.pathsOf port = [(i, a, p)] ∧ (s.pathFault i a p).isSome = true ∧
      Instr.wellFormed (.pathRecoveryRead port true) = true) ∧
    (∃ (s : State) (who : Requester) (i a p : Nat) (v : Word), s.stopped = false ∧ i < 256 ∧ a < 16 ∧ p < 4 ∧ s.cmdsOfInst i = [] ∧ s.admits who 8
      (CSS_SIi_TGTt_PATHp i a p) v = true ∧ (CSS_SIi_TGTt_PATHp.VALID i a p).of v = 1 ∧ s.on (CSS_SIi_TGTt_PATHp.VALID i a p) = false ∧ s.rootUp
      ((CSS_SIi_TGTt_PATHp.PORT i a p).of v) = true ∧ Instr.wellFormed (.pathWrite who i a p v) = true) ∧
    (∃ (s : State) (n l : Nat) (e : JEntry) (r : PortReq), s.stopped = false ∧ s.entry n = some e ∧ e.timer = some l ∧ l < 2 ^ 56 ∧ s.takesEvents
      (s.engineOf e.queue) = true ∧ s.resetting (instOf e.queue) = false ∧ s.firingLeaf l = l ∧ s.liveReqs e.seq = [r] ∧ r.back = false ∧ e.out = none ∧
      e.idem = true ∧ s.jobs = [] ∧ e.attempts < s.f CSS_CTL.REISSUE ∧ s.turnOf l 6 = true ∧ s.cto.get 0 (CSS_SIi_TGTt_PATHp (instOf e.queue)
      (e.desc.elim 0 dTarget) e.path) + 1 < s.f CSS_CTL.CTO_LIMIT ∧ Instr.wellFormed (.channelTimeout n) = true) ∧
    (∃ (s : State) (port e : Nat), s.stopped = false ∧ s.windowEnd port = some e ∧ (s.ports.get {} port).msgs = [] ∧ e + s.f CSS_CTL.AFTER_WINDOW < 2
      ^ 56 ∧ Instr.wellFormed (.keptAddressExpiry port) = true) :=
  ⟨⟨{ css [] with journal := [(0, some (entry0 (some (dsc [2 + 1 * 256 + 128 * 2 ^ 32, 0, 0, 0x2000]))))], reqs := [req0 64, { req0 64 with id := 6, off := 64 }] },
      5, req0 64, entry0 (some (dsc [2 + 1 * 256 + 128 * 2 ^ 32, 0, 0, 0x2000])), dsc [2 + 1 * 256 + 128 * 2 ^ 32, 0, 0, 0x2000], [],
      by decide +kernel⟩,
    ⟨css [], 255, 15, 3, 13, by decide +kernel⟩,
    ⟨{ css [] with pathBad := [(CSS_SIi_TGTt_PATHp 0 1 0, some 4)] }, 0, 0, 1, 0, by decide +kernel⟩,
    ⟨css [], .text, 255, 15, 3, (CSS_SIi_TGTt_PATHp.VALID 255 15 3).put 1 0, by decide +kernel⟩,
    ⟨{ css [(CSS_CTL.REISSUE, 3), (CSS_CTL.CTO_LIMIT, 8)] with journal := [(0, some ({ entry0 (some (dsc [2 + 1 * 256 + 128 * 2 ^ 32, 0, 0, 0x2000])) with timer := some 40, idem := true } : JEntry))], reqs := [req0 64] },
      0, 40, { entry0 (some (dsc [2 + 1 * 256 + 128 * 2 ^ 32, 0, 0, 0x2000])) with timer := some 40, idem := true }, req0 64, by decide +kernel⟩,
    ⟨{ css [] with kept := [(127, [{ addr := 0, len := 4, seq := 1, gen := 0, queue := 0, index := 0, tag := 0, path := 0, ended := some (3, 0) }])] },
      127, 3, by decide +kernel⟩⟩

theorem witness_DescriptorCommandsComplete :
    (∃ (s s1 s2 : State) (q n p len : Nat) (e : JEntry) (d : Line) (far : FarData), s.Issues q 1 n e d p s1 ∧ e.sent < dLength d ∧ len = s.pieceAt q d
      p ((dWord d 2).toNat + e.sent) (dLength d - e.sent) ∧ s1.Takes q len e d s2 ∧ Instr.wellFormed (.readCommand q 1 far) = true) ∧
    (∃ (s s1 s2 s3 s4 : State) (q n p len : Nat) (e : JEntry) (d : Line) (far : FarData) (b : BytesRead), s.Issues q 2 n e d p s1 ∧ e.sent < dLength d
      ∧ len = s.pieceAt q d p ((dWord d 2).toNat + e.sent) (dLength d - e.sent) ∧ s1.Takes q len e d s2 ∧ s2.passStaging q e.seq e.sent len = (s3,
      false) ∧ s3.readBuffer q d e.sent len far = (s4, b) ∧ b.status = 0 ∧ s4.stuck = [] ∧ Instr.wellFormed (.writeCommand q 1 far) = true) ∧
    (∃ (s s1 s2 : State) (q n p : Nat) (e : JEntry) (d : Line), s.Issues q 3 n e d p s1 ∧ e.sent = 0 ∧ 0 < dLength d ∧ s1.Takes q (dLength d) e d s2 ∧
      Instr.wellFormed (.controlCommand q) = true) ∧
    (∃ (s s1 s2 : State) (q n p : Nat) (e : JEntry) (d : Line), s.Issues q 4 n e d p s1 ∧ e.sent = 0 ∧ 0 < dLength d ∧ s1.Takes q (dLength d) e d s2 ∧
      Instr.wellFormed (.senseCommand q) = true) ∧
    (∃ (s s1 s2 s3 : State) (q n p o a len : Nat) (e : JEntry) (d : Line) (far : FarData), s.Issues q 5 n e d p s1 ∧ e.sent < dLength d ∧ dScatter d =
      false ∧ s1.tableEntry q d (e.sent / dElem d) far = (s2, 0, o) ∧ a = ((dWord d 2).toNat + o) % 2 ^ 64 + e.sent % dElem d ∧ len = s.pieceAt q d p a
      (dElem d - e.sent % dElem d) ∧ s2.Takes q len e d s3 ∧ s3.stuck = [] ∧ Instr.wellFormed (.indexedCommand q 1 far) = true) :=
  ⟨⟨cmd0 [1 + 1 * 256 + 128 * 2 ^ 32, 0, 0x100, 0x2000], beat0 [1 + 1 * 256 + 128 * 2 ^ 32, 0, 0x100, 0x2000], paid0 [1 + 1 * 256 + 128 * 2 ^ 32, 0,
      0x100, 0x2000] 128, 0, 0, 0, 128, entry0 (some (dsc [1 + 1 * 256 + 128 * 2 ^ 32, 0, 0x100, 0x2000])), dsc [1 + 1 * 256 + 128 * 2 ^ 32, 0, 0x100,
      0x2000], [],
      by unfold State.Issues State.MoversRest; refine ⟨?_, ?_, ?_, ?_, ?_, ?_, ?_, ?_, ?_, ?_, ?_, ?_, some_getD (by decide +kernel)⟩ <;> decide +kernel,
      by decide +kernel, by decide +kernel, takes0 (by decide +kernel), by decide +kernel⟩,
    ⟨cmd0 [2 + 1 * 256 + 128 * 2 ^ 32, 0, 0x100, 0x2000], beat0 [2 + 1 * 256 + 128 * 2 ^ 32, 0, 0x100, 0x2000], paid0 [2 + 1 * 256 + 128 * 2 ^ 32, 0,
      0x100, 0x2000] 128, ((paid0 [2 + 1 * 256 + 128 * 2 ^ 32, 0, 0x100, 0x2000] 128).passStaging 0 1 0 128).1, ((((paid0 [2 + 1 * 256 + 128 * 2 ^ 32,
      0, 0x100, 0x2000] 128).passStaging 0 1 0 128).1).readBuffer 0 (dsc [2 + 1 * 256 + 128 * 2 ^ 32, 0, 0x100, 0x2000]) (entry0 (some (dsc [2 + 1 * 256
      + 128 * 2 ^ 32, 0, 0x100, 0x2000]))).sent 128 []).1, 0, 0, 0, 128, entry0 (some (dsc [2 + 1 * 256 + 128 * 2 ^ 32, 0, 0x100, 0x2000])), dsc [2 + 1
      * 256 + 128 * 2 ^ 32, 0, 0x100, 0x2000], [], ((((paid0 [2 + 1 * 256 + 128 * 2 ^ 32, 0, 0x100, 0x2000] 128).passStaging 0 1 0 128).1).readBuffer 0
      (dsc [2 + 1 * 256 + 128 * 2 ^ 32, 0, 0x100, 0x2000]) (entry0 (some (dsc [2 + 1 * 256 + 128 * 2 ^ 32, 0, 0x100, 0x2000]))).sent 128 []).2,
      by unfold State.Issues State.MoversRest; refine ⟨?_, ?_, ?_, ?_, ?_, ?_, ?_, ?_, ?_, ?_, ?_, ?_, some_getD (by decide +kernel)⟩ <;> decide +kernel,
      by decide +kernel, by decide +kernel, takes0 (by decide +kernel), pair_of (by decide +kernel), pair_eta, by decide +kernel, by decide +kernel,
      by decide +kernel⟩,
    ⟨cmd0 [3 + 1 * 256 + 8 * 2 ^ 32, 0, 0x100, 0x2000], beat0 [3 + 1 * 256 + 8 * 2 ^ 32, 0, 0x100, 0x2000], paid0 [3 + 1 * 256 + 8 * 2 ^ 32, 0, 0x100,
      0x2000] (dLength (dsc [3 + 1 * 256 + 8 * 2 ^ 32, 0, 0x100, 0x2000])), 0, 0, 0, entry0 (some (dsc [3 + 1 * 256 + 8 * 2 ^ 32, 0, 0x100, 0x2000])),
      dsc [3 + 1 * 256 + 8 * 2 ^ 32, 0, 0x100, 0x2000],
      by unfold State.Issues State.MoversRest; refine ⟨?_, ?_, ?_, ?_, ?_, ?_, ?_, ?_, ?_, ?_, ?_, ?_, some_getD (by decide +kernel)⟩ <;> decide +kernel,
      by decide +kernel, by decide +kernel, takes0 (by decide +kernel), by decide +kernel⟩,
    ⟨cmd0 [4 + 1 * 256 + 8 * 2 ^ 32, 0, 0x100, 0x2000], beat0 [4 + 1 * 256 + 8 * 2 ^ 32, 0, 0x100, 0x2000], paid0 [4 + 1 * 256 + 8 * 2 ^ 32, 0, 0x100,
      0x2000] (dLength (dsc [4 + 1 * 256 + 8 * 2 ^ 32, 0, 0x100, 0x2000])), 0, 0, 0, entry0 (some (dsc [4 + 1 * 256 + 8 * 2 ^ 32, 0, 0x100, 0x2000])),
      dsc [4 + 1 * 256 + 8 * 2 ^ 32, 0, 0x100, 0x2000],
      by unfold State.Issues State.MoversRest; refine ⟨?_, ?_, ?_, ?_, ?_, ?_, ?_, ?_, ?_, ?_, ?_, ?_, some_getD (by decide +kernel)⟩ <;> decide +kernel,
      by decide +kernel, by decide +kernel, takes0 (by decide +kernel), by decide +kernel⟩,
    ⟨cmd0 [5 + 1 * 256 + 128 * 2 ^ 32, 0, 0x100, 0x3000, 64 + 1 * 2 ^ 16, 0x2000], beat0 [5 + 1 * 256 + 128 * 2 ^ 32, 0, 0x100, 0x3000, 64 + 1 * 2 ^
      16, 0x2000], ((beat0 [5 + 1 * 256 + 128 * 2 ^ 32, 0, 0x100, 0x3000, 64 + 1 * 2 ^ 16, 0x2000]).tableEntry 0 (dsc [5 + 1 * 256 + 128 * 2 ^ 32, 0,
      0x100, 0x3000, 64 + 1 * 2 ^ 16, 0x2000]) ((entry0 (some (dsc [5 + 1 * 256 + 128 * 2 ^ 32, 0, 0x100, 0x3000, 64 + 1 * 2 ^ 16, 0x2000]))).sent /
      dElem (dsc [5 + 1 * 256 + 128 * 2 ^ 32, 0, 0x100, 0x3000, 64 + 1 * 2 ^ 16, 0x2000])) []).1, ((((beat0 [5 + 1 * 256 + 128 * 2 ^ 32, 0, 0x100,
      0x3000, 64 + 1 * 2 ^ 16, 0x2000]).tableEntry 0 (dsc [5 + 1 * 256 + 128 * 2 ^ 32, 0, 0x100, 0x3000, 64 + 1 * 2 ^ 16, 0x2000]) ((entry0 (some (dsc
      [5 + 1 * 256 + 128 * 2 ^ 32, 0, 0x100, 0x3000, 64 + 1 * 2 ^ 16, 0x2000]))).sent / dElem (dsc [5 + 1 * 256 + 128 * 2 ^ 32, 0, 0x100, 0x3000, 64 + 1
      * 2 ^ 16, 0x2000])) []).1).takeTokens 0 (requestCost (dsc [5 + 1 * 256 + 128 * 2 ^ 32, 0, 0x100, 0x3000, 64 + 1 * 2 ^ 16, 0x2000]) (entry0 (some
      (dsc [5 + 1 * 256 + 128 * 2 ^ 32, 0, 0x100, 0x3000, 64 + 1 * 2 ^ 16, 0x2000]))).sent 64) (!(entry0 (some (dsc [5 + 1 * 256 + 128 * 2 ^ 32, 0,
      0x100, 0x3000, 64 + 1 * 2 ^ 16, 0x2000]))).issued)).getD ((beat0 [5 + 1 * 256 + 128 * 2 ^ 32, 0, 0x100, 0x3000, 64 + 1 * 2 ^ 16,
      0x2000]).tableEntry 0 (dsc [5 + 1 * 256 + 128 * 2 ^ 32, 0, 0x100, 0x3000, 64 + 1 * 2 ^ 16, 0x2000]) ((entry0 (some (dsc [5 + 1 * 256 + 128 * 2 ^
      32, 0, 0x100, 0x3000, 64 + 1 * 2 ^ 16, 0x2000]))).sent / dElem (dsc [5 + 1 * 256 + 128 * 2 ^ 32, 0, 0x100, 0x3000, 64 + 1 * 2 ^ 16, 0x2000]))
      []).1, 0, 0, 0, 0, 0x100, 64, entry0 (some (dsc [5 + 1 * 256 + 128 * 2 ^ 32, 0, 0x100, 0x3000, 64 + 1 * 2 ^ 16, 0x2000])), dsc [5 + 1 * 256 + 128
      * 2 ^ 32, 0, 0x100, 0x3000, 64 + 1 * 2 ^ 16, 0x2000], [],
      by unfold State.Issues State.MoversRest; refine ⟨?_, ?_, ?_, ?_, ?_, ?_, ?_, ?_, ?_, ?_, ?_, ?_, some_getD (by decide +kernel)⟩ <;> decide +kernel,
      by decide +kernel, by decide +kernel, pair_of (by decide +kernel), by decide +kernel, by decide +kernel, some_getD (by decide +kernel),
      by and_intros <;> decide +kernel⟩⟩

theorem witness_FenceAndPauseCommandsComplete :
    (∃ (s : State) (q n : Nat) (e : JEntry), s.stopped = false ∧ s.turn q = some (n, e) ∧ e.opcode = 15 ∧ e.out = none ∧ s.standardFor q = true ∧
      Instr.wellFormed (.fenceCommand q) = true) ∧
    (∃ (s : State) (q n : Nat) (e : JEntry), s.stopped = false ∧ (s.cmdsOf q).find? (fun m => decide (m.2.opcode = 15) && m.2.out.isNone) = some (n,
      e) ∧ s.entry n = some e ∧ s.fenceWaits e = false ∧ e.pred = none ∧ s.standardFor q = true ∧ s.resetting (instOf q) = false ∧ s.jobs = [] ∧
      s.reports = [] ∧ Instr.wellFormed (.fenceComplete q) = true) ∧
    (∃ (s : State) (who : Requester) (q : Nat), s.stopped = false ∧ q < 16384 ∧ s.resetting (instOf q) = false ∧ s.admits who 8 (CSS_Qq_PAUSE q) 1 =
      true ∧ s.qState q = 1 ∧ Instr.wellFormed (.queuePause who q) = true) ∧
    (∃ (s : State) (who : Requester) (q : Nat), s.stopped = false ∧ q < 16384 ∧ s.resetting (instOf q) = false ∧ s.admits who 8 (CSS_Qq_PAUSE q) 0 =
      true ∧ s.qState q = 2 ∧ Instr.wellFormed (.queueUnpause who q) = true) ∧
    (∃ (s : State) (q : Nat), s.stopped = false ∧ s.qState q = 2 ∧ s.reqs = [] ∧ Instr.wellFormed (.quiet q) = true) ∧
    (∃ (s : State) (q n : Nat) (e : JEntry), s.stopped = false ∧ s.standardFor q = true ∧ (s.cmdsOf q).find? (fun m => decide (m.2.opcode = 6) &&
      m.2.out.isNone && m.2.pred.isNone && decide (m.2.state = 0 ∨ m.2.state = 3)) = some (n, e) ∧ Instr.wellFormed (.streamReceive q) = true) :=
  ⟨⟨{ css [] with journal := [(0, some (entry0 (some (dsc [15]))))] }, 0, 0, entry0 (some (dsc [15])), by decide +kernel⟩,
    ⟨{ css [] with journal := [(0, some ({ entry0 (some (dsc [15])) with state := 3 } : JEntry))] }, 0, 0,
      { entry0 (some (dsc [15])) with state := 3 }, by and_intros <;> decide +kernel⟩,
    ⟨css [(CSS_Qq_STATUS.STATE 16383, 1)], .text, 16383, by decide +kernel⟩,
    ⟨css [(CSS_Qq_STATUS.STATE 16383, 2), (CSS_Qq_PAUSE.PAUSE 16383, 1), (CSS_Qq_PAUSE.QUIET 16383, 1)], .text, 16383, by decide +kernel⟩,
    ⟨css [(CSS_Qq_STATUS.STATE 16383, 2), (CSS_Qq_PAUSE.PAUSE 16383, 1)], 16383, by decide +kernel⟩,
    ⟨{ css [] with journal := [(0, some (entry0 (some (dsc [6 + 64 * 2 ^ 32]))))] }, 0, 0, entry0 (some (dsc [6 + 64 * 2 ^ 32])), by decide +kernel⟩⟩

theorem witness_StreamCommandsComplete :
    (∃ (s : State) (p a off : Nat) (data : List Byte), s.stopped = false ∧ s.framesTaken p = true ∧ s.openFrame p a = none ∧ off + data.length ≤
      196608 ∧ s.PortsRest ∧ s.StagingOpen true ∧ (s.on (CSS_Pp_STRMs.VALID p a) = true → s.frameBytes (instOf (s.f (CSS_Pp_STRMs.QUEUE p a))) +
      data.length ≤ 196608) ∧ Instr.wellFormed (.streamDataWrite p a off data false) = true) ∧
    (∃ (s : State) (p a : Nat) (v : Word) (f : Frame), s.stopped = false ∧ s.framesTaken p = true ∧ s.openFrame p a = some f ∧ f.long = false ∧
      v.toNat ≤ 196608 ∧ s.PortsRest ∧ s.on (CSS_Pp_STRMs.VALID p a) = true ∧ exactBytes f.bytes v.toNat = true ∧ Instr.wellFormed (.streamClosingWrite
      p a v 8 false) = true) ∧
    (∃ (s : State) (p a n q l : Nat) (f : Frame) (b : Nat × JEntry × Line), s.stopped = false ∧ s.frames.find? (fun f => decide (f.port = p ∧ f.stream
      = a) && f.closed.isSome) = some f ∧ f.closed = some (n, q, l) ∧ s.qState q = 1 ∧ s.standardFor q = true ∧ s.resetting (instOf q) = false ∧
      s.pointOpen (272 + s.queueDie q) (instOf q) = true ∧ s.PortsRest ∧ s.StagingOpen false ∧ s.buffersOf q a = [b] ∧ s.entryOfSeq b.2.1.seq = some
      (b.1, b.2.1) ∧ s.entry b.1 = some b.2.1 ∧ b.2.1.out = none ∧ n ≤ dLength b.2.2 ∧ s.writes = [] ∧ (if dBhost b.2.2 then s.hostOpen (instOf q) =
      true ∧ (s.instFunc (instOf q)).isSome = true else n = 0) ∧ Instr.wellFormed (.framePlacement p a) = true) ∧
    (∃ (s : State) (p a n q l : Nat) (f : Frame), s.stopped = false ∧ s.PortsRest ∧ l + 2 ^ 32 < 2 ^ 56 ∧ s.frames.find? (fun f => decide (f.port = p
      ∧ f.stream = a) && f.closed.isSome) = some f ∧ f.closed = some (n, q, l) ∧ Instr.wellFormed (.frameWaitTimeout p a) = true) :=
  ⟨⟨css [(CSS_Pp_STRMs.VALID 0 255, 1)], 0, 255, 196600, [1, 2, 3, 4, 5, 6, 7, 8],
      by refine ⟨?_, ?_, ?_, ?_, by unfold State.PortsRest; decide +kernel, by intro g hg o; rcases hg with rfl | rfl <;> exact guard_open (by decide +kernel) (by decide +kernel), ?_⟩ <;> (and_intros <;> decide +kernel)⟩,
    ⟨{ css [(CSS_Pp_STRMs.VALID 0 255, 1)] with frames := [({ port := 0, stream := 255, bytes := [(0, 6), (1, 256)] } : Frame)] }, 0, 255, 2,
      { port := 0, stream := 255, bytes := [(0, 6), (1, 256)] },
      by refine ⟨?_, ?_, ?_, ?_, ?_, by unfold State.PortsRest; decide +kernel, ?_⟩ <;> (and_intros <;> decide +kernel)⟩,
    ⟨{ css [(CSS_Pp_STRMs.VALID 0 255, 1)] with frames := [({ port := 0, stream := 255, closed := some (0, 0, 3) } : Frame)], journal := [(0, some ({ entry0 (some (dsc [6 + 64 * 2 ^ 32, 0, 0, 0, 255])) with state := 2 } : JEntry))] },
      0, 255, 0, 0, 3, { port := 0, stream := 255, closed := some (0, 0, 3) }, (0,
      { entry0 (some (dsc [6 + 64 * 2 ^ 32, 0, 0, 0, 255])) with state := 2 }, dsc [6 + 64 * 2 ^ 32, 0, 0, 0, 255]),
      by refine ⟨?_, ?_, ?_, ?_, ?_, ?_, ?_, by unfold State.PortsRest; decide +kernel, by intro g hg o; rcases hg with rfl | rfl <;> exact guard_open (by decide +kernel) (by decide +kernel), ?_, ?_, ?_, ?_, ?_, ?_, ?_, ?_⟩ <;> decide +kernel⟩,
    ⟨{ css [(CSS_Pp_STRMs.VALID 0 255, 1)] with frames := [({ port := 0, stream := 255, closed := some (0, 0, 3) } : Frame)] }, 0, 255, 0, 0, 3,
      { port := 0, stream := 255, closed := some (0, 0, 3) }, by decide +kernel, by unfold State.PortsRest; decide +kernel,
      by and_intros <;> decide +kernel⟩⟩

theorem witness_InstanceCommandsComplete :
    (∃ (s : State) (who : Requester) (i : Nat) (v : Word), s.stopped = false ∧ i < 256 ∧ s.admits who 8 (CSS_SIi_BIND i) v = true ∧ s.bindRefused i v
      = false ∧ Instr.wellFormed (.bindWrite who i v) = true) ∧
    (∃ (s : State) (who : Requester) (i : Nat), s.stopped = false ∧ i < 256 ∧ s.resetting i = false ∧ s.admits who 8 (CSS_SIi_CTL i) 1 = true ∧
      Instr.wellFormed (.instanceReset who i) = true) ∧
    (∃ (s : State) (who : Requester) (i : Nat), s.stopped = false ∧ i < 256 ∧ s.resetting i = false ∧ i ≠ 0 ∧ s.admits who 8 (CSS_SIi_CTL i) 2 = true
      ∧ Instr.wellFormed (.instanceRemove who i) = true) ∧
    (∃ (s : State) (i : Nat) (far : FarData), s.stopped = false ∧ s.stuck = [] ∧ i < 256 ∧ s.resetting i = true ∧ s.on (CSS_SIi_STATUS.PENDING i) =
      false ∧ s.on (CSS_SIi_STATUS.REMOVING i) = false ∧ s.instFunc i = none ∧ s.cmdsOfInst i = [] ∧ (∀ j < 64, (s.queue (64 * i + j)).flying = none) ∧
      Instr.wellFormed (.resetEnd i far) = true) :=
  ⟨⟨State.reset, .text, 255, (CSS_SIi_BIND.KIND 255).put 2 ((CSS_SIi_BIND.FUNC 255).put 255 0), by decide +kernel⟩,
    ⟨st [(CSS_SIi_STATUS.GEN 255, 255)], .text, 255, by decide +kernel⟩,
    ⟨st [(CSS_SIi_STATUS.GEN 255, 255)], .text, 255, by decide +kernel⟩,
    ⟨st [(CSS_SIi_STATUS.RESETTING 255, 1), (CSS_SIi_STATUS.GEN 255, 7)], 255, [], by decide +kernel⟩⟩

theorem witness_ArbitrationCommandsComplete :
    (∃ (s : State) (pt q : Nat), s.stopped = false ∧ 272 ≤ pt ∧ s.grants.get none pt = none ∧ s.readyAt pt q = true ∧ Instr.wellFormed (.draw pt [q])
      = true) ∧
    (∃ (s : State) (pt : Nat) (qs : List Nat) (g : Grant), s.stopped = false ∧ 272 ≤ pt ∧ s.grants.get none pt = some g ∧ 1 < g.beats ∧ (∃ q ∈ qs,
      instOf q = g.inst ∧ s.readyAt pt q = true) ∧ Instr.wellFormed (.draw pt qs) = true) ∧
    (∃ (s : State) (n : Nat), s.stopped = false ∧ s.leaf ≤ n ∧ s.bucketAt ≠ n + 1 ∧ n < 2 ^ 56 ∧ Instr.wellFormed (.bucketRefill n) = true) ∧
    (∃ (s : State) (who : Requester) (i : Nat) (v : Word), s.stopped = false ∧ i < 256 ∧ s.admits who 8 (CSS_SIi_RATE i) v = true ∧
      ((CSS_SIi_RATE.BYTE_RATE i).of v ≠ 0 → 16 ≤ (CSS_SIi_RATE.BYTE_DEPTH i).of v ∧ (CSS_SIi_RATE.BYTE_RATE i).of v ≤ 4 * (CSS_SIi_RATE.BYTE_DEPTH
      i).of v) ∧ ((CSS_SIi_RATE.CMD_RATE i).of v ≠ 0 → (CSS_SIi_RATE.CMD_RATE i).of v ≤ (CSS_SIi_RATE.CMD_DEPTH i).of v) ∧ Instr.wellFormed (.rateWrite
      who i v) = true) :=
  ⟨⟨{ st [] with jobs := [{ job0 with inst := 255, queue := 16383 }] }, 417, 16383, by decide +kernel⟩,
    ⟨{ st [] with jobs := [{ job0 with inst := 255, queue := 16383 }], grants := [(417, some { inst := 255, queue := 16320, beats := 2 })] }, 417,
      [16383, 5], { inst := 255, queue := 16320, beats := 2 }, by decide +kernel⟩,
    ⟨st [], 7, by decide +kernel⟩,
    ⟨st [], .text, 255, (CSS_SIi_RATE.BYTE_RATE 255).put 64 ((CSS_SIi_RATE.BYTE_DEPTH 255).put 16 ((CSS_SIi_RATE.CMD_RATE 255).put 1
      ((CSS_SIi_RATE.CMD_DEPTH 255).put 1 0))), by decide +kernel⟩⟩

theorem witness_EngineInstructionsComplete :
    (∃ (s u : State) (l : Nat) (m : Move) (b : BitVec 32), s.issuing l .plain = some (u, m, b) ∧ (isRegister m.dest = true ∨ isOperand m.dest = true)
      ∧ m.dest ≠ 0xCA ∧ Instr.wellFormed (.socketMove l) = true) ∧
    (∃ (s u : State) (l : Nat) (m : Move) (b : BitVec 32), s.issuing l .alu = some (u, m, b) ∧ Instr.wellFormed (.aluTrigger l) = true) ∧
    (∃ (s u : State) (l : Nat) (m : Move) (b : BitVec 32), s.issuing l .mul = some (u, m, b) ∧ Instr.wellFormed (.mulTrigger l) = true) ∧
    (∃ (s u : State) (l : Nat) (m : Move) (b : BitVec 32), s.issuing l .div = some (u, m, b) ∧ Instr.wellFormed (.divTrigger l) = true) ∧
    (∃ (s u : State) (l : Nat) (m : Move) (b : BitVec 32), s.issuing l .compare = some (u, m, b) ∧ Instr.wellFormed (.compareTrigger l) = true) ∧
    (∃ (s u : State) (l : Nat) (m : Move) (b : BitVec 32), s.issuing l .guards = some (u, m, b) ∧ Instr.wellFormed (.guardsWrite l) = true) ∧
    (∃ (s u : State) (l : Nat) (m : Move) (b : BitVec 32), s.issuing l .lih = some (u, m, b) ∧ Instr.wellFormed (.lih l) = true) ∧
    (∃ (s u : State) (l : Nat) (m : Move) (b : BitVec 32), s.issuing l .lil = some (u, m, b) ∧ Instr.wellFormed (.lil l) = true) ∧
    (∃ (s u : State) (l : Nat) (m : Move) (b : BitVec 32), s.issuing l .jmp = some (u, m, b) ∧ Instr.wellFormed (.jmp l) = true) ∧
    (∃ (s u : State) (l : Nat) (m : Move) (b : BitVec 32), s.issuing l .jrel = some (u, m, b) ∧ Instr.wellFormed (.jrel l) = true) ∧
    (∃ (s u : State) (l : Nat) (m : Move) (b : BitVec 32), s.issuing l .call = some (u, m, b) ∧ Instr.wellFormed (.call l) = true) ∧
    (∃ (s u : State) (l : Nat) (m : Move) (b : BitVec 32), s.issuing l .callr = some (u, m, b) ∧ Instr.wellFormed (.callr l) = true) ∧
    (∃ (s u : State) (l : Nat) (m : Move) (b : BitVec 32), s.issuing l .wait = some (u, m, b) ∧ Instr.wellFormed (.evWait l) = true) ∧
    (∃ (s u : State) (l : Nat) (m : Move) (b : BitVec 32), s.issuing l .ret = some (u, m, b) ∧ (u.engine l).saved = none ∧ Instr.wellFormed (.evRet l)
      = true) :=
  ⟨⟨eng 0x7fffff [] id, (issued (eng 0x7fffff [] id) 0 .plain).1, 0, (issued (eng 0x7fffff [] id) 0 .plain).2.1, (issued (eng 0x7fffff [] id) 0
      .plain).2.2, issuing_issued (by decide +kernel), by and_intros <;> decide +kernel⟩,
    ⟨eng 0xa10005 [(0x40, 9)] id, (issued (eng 0xa10005 [(0x40, 9)] id) 0 .alu).1, 0, (issued (eng 0xa10005 [(0x40, 9)] id) 0 .alu).2.1, (issued (eng
      0xa10005 [(0x40, 9)] id) 0 .alu).2.2, issuing_issued (by decide +kernel), by decide +kernel⟩,
    ⟨eng 0x1110005 [(0x80, 9)] id, (issued (eng 0x1110005 [(0x80, 9)] id) 0 .mul).1, 0, (issued (eng 0x1110005 [(0x80, 9)] id) 0 .mul).2.1, (issued
      (eng 0x1110005 [(0x80, 9)] id) 0 .mul).2.2, issuing_issued (by decide +kernel), by decide +kernel⟩,
    ⟨eng 0x14b0005 [(0xA0, 9)] id, (issued (eng 0x14b0005 [(0xA0, 9)] id) 0 .div).1, 0, (issued (eng 0x14b0005 [(0xA0, 9)] id) 0 .div).2.1, (issued
      (eng 0x14b0005 [(0xA0, 9)] id) 0 .div).2.2, issuing_issued (by decide +kernel), by decide +kernel⟩,
    ⟨eng 0x17f0005 [(0xB0, 9)] id, (issued (eng 0x17f0005 [(0xB0, 9)] id) 0 .compare).1, 0, (issued (eng 0x17f0005 [(0xB0, 9)] id) 0 .compare).2.1,
      (issued (eng 0x17f0005 [(0xB0, 9)] id) 0 .compare).2.2, issuing_issued (by decide +kernel), by decide +kernel⟩,
    ⟨eng 0x1630005 [] (fun e => { e with async := [(2, some (.fetch 0))] }), (issued (eng 0x1630005 [] (fun e =>
      { e with async := [(2, some (.fetch 0))] })) 0 .guards).1, 0, (issued (eng 0x1630005 [] (fun e => { e with async := [(2, some (.fetch 0))] })) 0
      .guards).2.1, (issued (eng 0x1630005 [] (fun e => { e with async := [(2, some (.fetch 0))] })) 0 .guards).2.2, issuing_issued (by decide +kernel),
      by decide +kernel⟩,
    ⟨eng 0x1b90005 [(0xDE, 0x12345678)] id, (issued (eng 0x1b90005 [(0xDE, 0x12345678)] id) 0 .lih).1, 0, (issued (eng 0x1b90005 [(0xDE, 0x12345678)]
      id) 0 .lih).2.1, (issued (eng 0x1b90005 [(0xDE, 0x12345678)] id) 0 .lih).2.2, issuing_issued (by decide +kernel), by decide +kernel⟩,
    ⟨eng 0x1bb0005 [(0xDE, 0x12345678)] id, (issued (eng 0x1bb0005 [(0xDE, 0x12345678)] id) 0 .lil).1, 0, (issued (eng 0x1bb0005 [(0xDE, 0x12345678)]
      id) 0 .lil).2.1, (issued (eng 0x1bb0005 [(0xDE, 0x12345678)] id) 0 .lil).2.2, issuing_issued (by decide +kernel), by decide +kernel⟩,
    ⟨eng 0x81813fff [] id, (issued (eng 0x81813fff [] id) 0 .jmp).1, 0, (issued (eng 0x81813fff [] id) 0 .jmp).2.1, (issued (eng 0x81813fff [] id) 0
      .jmp).2.2, issuing_issued (by decide +kernel), by decide +kernel⟩,
    ⟨eng 0x81830000 [] id, (issued (eng 0x81830000 [] id) 0 .jrel).1, 0, (issued (eng 0x81830000 [] id) 0 .jrel).2.1, (issued (eng 0x81830000 [] id) 0
      .jrel).2.2, issuing_issued (by decide +kernel), by decide +kernel⟩,
    ⟨eng 0x1853fff [] id, (issued (eng 0x1853fff [] id) 0 .call).1, 0, (issued (eng 0x1853fff [] id) 0 .call).2.1, (issued (eng 0x1853fff [] id) 0
      .call).2.2, issuing_issued (by decide +kernel), by decide +kernel⟩,
    ⟨eng 0x1870005 [] id, (issued (eng 0x1870005 [] id) 0 .callr).1, 0, (issued (eng 0x1870005 [] id) 0 .callr).2.1, (issued (eng 0x1870005 [] id) 0
      .callr).2.2, issuing_issued (by decide +kernel), by decide +kernel⟩,
    ⟨eng 0x1910000 [] id, (issued (eng 0x1910000 [] id) 0 .wait).1, 0, (issued (eng 0x1910000 [] id) 0 .wait).2.1, (issued (eng 0x1910000 [] id) 0
      .wait).2.2, issuing_issued (by decide +kernel), by decide +kernel⟩,
    ⟨eng 0x1930000 [] (fun e => { e with inEvent := true, resume := 5 }), (issued (eng 0x1930000 [] (fun e =>
      { e with inEvent := true, resume := 5 })) 0 .ret).1, 0, (issued (eng 0x1930000 [] (fun e => { e with inEvent := true, resume := 5 })) 0 .ret).2.1,
      (issued (eng 0x1930000 [] (fun e => { e with inEvent := true, resume := 5 })) 0 .ret).2.2, issuing_issued (by decide +kernel),
      by and_intros <;> decide +kernel⟩⟩

theorem witness_EngineAccessInstructionsComplete :
    (∃ (s u : State) (l : Nat) (m : Move) (b : BitVec 32), s.issuing l .load = some (u, m, b) ∧ Instr.wellFormed (.dsLoad l) = true) ∧
    (∃ (s u : State) (l : Nat) (m : Move) (b : BitVec 32), s.issuing l .store = some (u, m, b) ∧ Instr.wellFormed (.dsStore l) = true) ∧
    (∃ (s u : State) (l : Nat) (m : Move) (b : BitVec 32), s.issuing l .ldwInc = some (u, m, b) ∧ Instr.wellFormed (.ldwInc l) = true) ∧
    (∃ (s u : State) (l : Nat) (m : Move) (b : BitVec 32), s.issuing l .stwInc = some (u, m, b) ∧ Instr.wellFormed (.stwInc l) = true) ∧
    (∃ (s u : State) (l : Nat) (m : Move) (b : BitVec 32), s.issuing l .isRd = some (u, m, b) ∧ Instr.wellFormed (.isRd l) = true) ∧
    (∃ (s u : State) (l : Nat) (m : Move) (b : BitVec 32) (far : FarData), s.issuing l .ioRd = some (u, m, b) ∧ b.toNat < 0x1000000 ∧ Instr.wellFormed
      (.ioRd l far) = true) ∧
    (∃ (s u : State) (l : Nat) (m : Move) (b : BitVec 32) (far : FarData), s.issuing l .ioRd = some (u, m, b) ∧ 0x1000000 ≤ b.toNat ∧ b.toNat <
      0x2000000 ∧ Instr.wellFormed (.ioRd l far) = true) ∧
    (∃ (s u : State) (l : Nat) (m : Move) (b : BitVec 32) (far : FarData), s.issuing l .ioRd = some (u, m, b) ∧ 0x2000000 ≤ b.toNat ∧ b.toNat <
      0x2010000 ∧ Instr.wellFormed (.ioRd l far) = true) ∧
    (∃ (s u : State) (l : Nat) (m : Move) (b : BitVec 32), s.issuing l .ioWr = some (u, m, b) ∧ (u.engine l).sock 0x100 = 0x2000004#32 ∧
      Instr.wellFormed (.ioWr l) = true) ∧
    (∃ (s u : State) (l : Nat) (m : Move) (b : BitVec 32), s.issuing l .ioWctl = some (u, m, b) ∧ Instr.wellFormed (.ioWctl l) = true) ∧
    (∃ (s u : State) (l : Nat) (m : Move) (b : BitVec 32), s.issuing l .dmGo = some (u, m, b) ∧ 0x1000000 ≤ ((u.engine l).sock 0x161).toNat ∧
      Instr.wellFormed (.dmGo l) = true) ∧
    (∃ (s u : State) (l : Nat) (m : Move) (b : BitVec 32), s.issuing l .rdTake = some (u, m, b) ∧ (s.engine l).imem ≠ [] ∧ Instr.wellFormed (.rdTake
      l) = true) ∧
    (∃ (s u : State) (l : Nat) (m : Move) (b : BitVec 32), s.issuing l .rdFetch = some (u, m, b) ∧ Instr.wellFormed (.rdFetch l) = true) ∧
    (∃ (s u : State) (l : Nat) (m : Move) (b : BitVec 32), s.issuing l .rdJnl = some (u, m, b) ∧ Instr.wellFormed (.rdJnl l) = true) ∧
    (∃ (s u : State) (l : Nat) (m : Move) (b : BitVec 32), s.issuing l .rdDone = some (u, m, b) ∧ (u.queue b.toNat).cur = none ∧ Instr.wellFormed
      (.rdDone l) = true) ∧
    (∃ (s u : State) (l : Nat) (m : Move) (b : BitVec 32) (n : Nat) (e : JEntry), s.issuing l .rdDone = some (u, m, b) ∧ (u.queue b.toNat).cur = some
      n ∧ u.entry n = some e ∧ e.out = none ∧ u.queueStopped b.toNat = false ∧ u.resetting (instOf e.queue) = false ∧ u.jobs = [] ∧ u.reports = [] ∧
      Instr.wellFormed (.rdDone l) = true) ∧
    (∃ (s u : State) (l : Nat) (m : Move) (b : BitVec 32), s.issuing l .tuGo = some (u, m, b) ∧ Instr.wellFormed (.tuGo l) = true) ∧
    (∃ (s u : State) (l : Nat) (m : Move) (b : BitVec 32), s.issuing l .extPost = some (u, m, b) ∧ Instr.wellFormed (.extPost l) = true) ∧
    (∃ (s u : State) (l : Nat) (m : Move) (b : BitVec 32), s.issuing l .extRd = some (u, m, b) ∧ Instr.wellFormed (.extRd l) = true) :=
  ⟨⟨eng 0x1d10004 [] (fun e => { e with dmem := [(4, 0x80)] }), (issued (eng 0x1d10004 [] (fun e => { e with dmem := [(4, 0x80)] })) 0 .load).1, 0,
      (issued (eng 0x1d10004 [] (fun e => { e with dmem := [(4, 0x80)] })) 0 .load).2.1, (issued (eng 0x1d10004 [] (fun e =>
      { e with dmem := [(4, 0x80)] })) 0 .load).2.2, issuing_issued (by decide +kernel), by decide +kernel⟩,
    ⟨eng 0x1ddffff [(0xE0, 4)] id, (issued (eng 0x1ddffff [(0xE0, 4)] id) 0 .store).1, 0, (issued (eng 0x1ddffff [(0xE0, 4)] id) 0 .store).2.1,
      (issued (eng 0x1ddffff [(0xE0, 4)] id) 0 .store).2.2, issuing_issued (by decide +kernel), by decide +kernel⟩,
    ⟨eng 0x1e10000 [(0xE0, 4)] (fun e => { e with dmem := [(4, 0x80)] }), (issued (eng 0x1e10000 [(0xE0, 4)] (fun e =>
      { e with dmem := [(4, 0x80)] })) 0 .ldwInc).1, 0, (issued (eng 0x1e10000 [(0xE0, 4)] (fun e => { e with dmem := [(4, 0x80)] })) 0 .ldwInc).2.1,
      (issued (eng 0x1e10000 [(0xE0, 4)] (fun e => { e with dmem := [(4, 0x80)] })) 0 .ldwInc).2.2, issuing_issued (by decide +kernel),
      by decide +kernel⟩,
    ⟨eng 0x1e30007 [(0xE0, 4)] id, (issued (eng 0x1e30007 [(0xE0, 4)] id) 0 .stwInc).1, 0, (issued (eng 0x1e30007 [(0xE0, 4)] id) 0 .stwInc).2.1,
      (issued (eng 0x1e30007 [(0xE0, 4)] id) 0 .stwInc).2.2, issuing_issued (by decide +kernel), by decide +kernel⟩,
    ⟨eng 0x2810000 [] id, (issued (eng 0x2810000 [] id) 0 .isRd).1, 0, (issued (eng 0x2810000 [] id) 0 .isRd).2.1, (issued (eng 0x2810000 [] id) 0
      .isRd).2.2, issuing_issued (by decide +kernel), by decide +kernel⟩,
    ⟨eng 0x20c0020 [(0x20, 0x1F004)] id, (issued (eng 0x20c0020 [(0x20, 0x1F004)] id) 0 .ioRd).1, 0, (issued (eng 0x20c0020 [(0x20, 0x1F004)] id) 0
      .ioRd).2.1, (issued (eng 0x20c0020 [(0x20, 0x1F004)] id) 0 .ioRd).2.2, [], issuing_issued (by decide +kernel), by and_intros <;> decide +kernel⟩,
    ⟨eng 0x20c0020 [(0x20, 0x1000000)] id, (issued (eng 0x20c0020 [(0x20, 0x1000000)] id) 0 .ioRd).1, 0, (issued (eng 0x20c0020 [(0x20, 0x1000000)]
      id) 0 .ioRd).2.1, (issued (eng 0x20c0020 [(0x20, 0x1000000)] id) 0 .ioRd).2.2, [], issuing_issued (by decide +kernel),
      by and_intros <;> decide +kernel⟩,
    ⟨eng 0x20c0020 [(0x20, 0x200FFFC)] id, (issued (eng 0x20c0020 [(0x20, 0x200FFFC)] id) 0 .ioRd).1, 0, (issued (eng 0x20c0020 [(0x20, 0x200FFFC)]
      id) 0 .ioRd).2.1, (issued (eng 0x20c0020 [(0x20, 0x200FFFC)] id) 0 .ioRd).2.2, [], issuing_issued (by decide +kernel),
      by and_intros <;> decide +kernel⟩,
    ⟨eng 0x2210055 [(0x100, 0x2000004)] id, (issued (eng 0x2210055 [(0x100, 0x2000004)] id) 0 .ioWr).1, 0, (issued (eng 0x2210055 [(0x100, 0x2000004)]
      id) 0 .ioWr).2.1, (issued (eng 0x2210055 [(0x100, 0x2000004)] id) 0 .ioWr).2.2, issuing_issued (by decide +kernel),
      by and_intros <;> decide +kernel⟩,
    ⟨eng 0x2452000 [(0x120, 7), (0x121, 0xFFFF)] id, (issued (eng 0x2452000 [(0x120, 7), (0x121, 0xFFFF)] id) 0 .ioWctl).1, 0, (issued (eng 0x2452000
      [(0x120, 7), (0x121, 0xFFFF)] id) 0 .ioWctl).2.1, (issued (eng 0x2452000 [(0x120, 7), (0x121, 0xFFFF)] id) 0 .ioWctl).2.2, issuing_issued
      (by decide +kernel), by decide +kernel⟩,
    ⟨eng 0x2d10000 [(0x160, 0x80000000), (0x161, 0x90000000), (0x162, 64)] id, (issued (eng 0x2d10000 [(0x160, 0x80000000), (0x161, 0x90000000),
      (0x162, 64)] id) 0 .dmGo).1, 0, (issued (eng 0x2d10000 [(0x160, 0x80000000), (0x161, 0x90000000), (0x162, 64)] id) 0 .dmGo).2.1, (issued (eng
      0x2d10000 [(0x160, 0x80000000), (0x161, 0x90000000), (0x162, 64)] id) 0 .dmGo).2.2, issuing_issued (by decide +kernel),
      by and_intros <;> decide +kernel⟩,
    ⟨eng 0x38201c0 [] (fun e => { e with rdNext := 0x80000000 }), (issued (eng 0x38201c0 [] (fun e => { e with rdNext := 0x80000000 })) 0 .rdTake).1,
      0, (issued (eng 0x38201c0 [] (fun e => { e with rdNext := 0x80000000 })) 0 .rdTake).2.1, (issued (eng 0x38201c0 [] (fun e =>
      { e with rdNext := 0x80000000 })) 0 .rdTake).2.2, issuing_issued (by decide +kernel), by and_intros <;> decide +kernel⟩,
    ⟨eng 0x38d0000 [] id, (issued (eng 0x38d0000 [] id) 0 .rdFetch).1, 0, (issued (eng 0x38d0000 [] id) 0 .rdFetch).2.1, (issued (eng 0x38d0000 [] id)
      0 .rdFetch).2.2, issuing_issued (by decide +kernel), by decide +kernel⟩,
    ⟨eng 0x3910000 [] id, (issued (eng 0x3910000 [] id) 0 .rdJnl).1, 0, (issued (eng 0x3910000 [] id) 0 .rdJnl).2.1, (issued (eng 0x3910000 [] id) 0
      .rdJnl).2.2, issuing_issued (by decide +kernel), by decide +kernel⟩,
    ⟨eng 0x3990000 [] id, (issued (eng 0x3990000 [] id) 0 .rdDone).1, 0, (issued (eng 0x3990000 [] id) 0 .rdDone).2.1, (issued (eng 0x3990000 [] id) 0
      .rdDone).2.2, issuing_issued (by decide +kernel), by and_intros <;> decide +kernel⟩,
    ⟨{ eng 0x3990000 [] id with queues := [(0, { cur := some 0, wRecord := 0x1000000000000000000000000000000000000000000000000 })], journal := [(0, some (entry0 (some (dsc [2]))))] },
      (issued
      ({ eng 0x3990000 [] id with queues := [(0, { cur := some 0, wRecord := 0x1000000000000000000000000000000000000000000000000 })], journal := [(0, some (entry0 (some (dsc [2]))))] }
      : State) 0 .rdDone).1, 0, (issued
      ({ eng 0x3990000 [] id with queues := [(0, { cur := some 0, wRecord := 0x1000000000000000000000000000000000000000000000000 })], journal := [(0, some (entry0 (some (dsc [2]))))] }
      : State) 0 .rdDone).2.1, (issued
      ({ eng 0x3990000 [] id with queues := [(0, { cur := some 0, wRecord := 0x1000000000000000000000000000000000000000000000000 })], journal := [(0, some (entry0 (some (dsc [2]))))] }
      : State) 0 .rdDone).2.2, 0, entry0 (some (dsc [2])), by and_intros <;> decide +kernel⟩,
    ⟨eng 0xc210000 [(0x600, 0x20), (0x608, 0x80000000), (0x609, 0x90000000), (0x60A, 64)] id, (issued (eng 0xc210000 [(0x600, 0x20), (0x608,
      0x80000000), (0x609, 0x90000000), (0x60A, 64)] id) 0 .tuGo).1, 0, (issued (eng 0xc210000 [(0x600, 0x20), (0x608, 0x80000000), (0x609, 0x90000000),
      (0x60A, 64)] id) 0 .tuGo).2.1, (issued (eng 0xc210000 [(0x600, 0x20), (0x608, 0x80000000), (0x609, 0x90000000), (0x60A, 64)] id) 0 .tuGo).2.2,
      issuing_issued (by decide +kernel), by decide +kernel⟩,
    ⟨{ (eng 0xeff0001 [] id).setF (CE_CTLl.EXT_EN 0) 1 with extCredit := [(0, 1)] }, (issued
      ({ (eng 0xeff0001 [] id).setF (CE_CTLl.EXT_EN 0) 1 with extCredit := [(0, 1)] } : State) 0 .extPost).1, 0, (issued
      ({ (eng 0xeff0001 [] id).setF (CE_CTLl.EXT_EN 0) 1 with extCredit := [(0, 1)] } : State) 0 .extPost).2.1, (issued
      ({ (eng 0xeff0001 [] id).setF (CE_CTLl.EXT_EN 0) 1 with extCredit := [(0, 1)] } : State) 0 .extPost).2.2, issuing_issued (by decide +kernel),
      by decide +kernel⟩,
    ⟨(eng 0xf05007f [] id).setF (CE_CTLl.EXT_EN 0) 1, (issued ((eng 0xf05007f [] id).setF (CE_CTLl.EXT_EN 0) 1) 0 .extRd).1, 0, (issued ((eng
      0xf05007f [] id).setF (CE_CTLl.EXT_EN 0) 1) 0 .extRd).2.1, (issued ((eng 0xf05007f [] id).setF (CE_CTLl.EXT_EN 0) 1) 0 .extRd).2.2, issuing_issued
      (by decide +kernel), by decide +kernel⟩⟩

theorem witness_EngineOperationEndsComplete :
    (∃ (s u : State) (l : Nat) (m : Move) (b : BitVec 32), s.issuing l .pop = some (u, m, b) ∧ u.timedOf l = none ∧ (u.engine l).frameWait = [] ∧
      (u.engine l).ctlWait = [] ∧ Instr.wellFormed (.popQueue l) = true) ∧
    (∃ (s u : State) (l p : Nat) (m : Move) (b : BitVec 32), s.issuing l .rxSel = some (u, m, b) ∧ p = ((u.engine l).sock 0x100).toNat / 0x20000 ∧
      Instr.wellFormed (.rxSel l) = true) ∧
    (∃ (s u : State) (l p : Nat) (m : Move) (b : BitVec 32), s.issuing l .rxBase = some (u, m, b) ∧ p = ((u.engine l).sock 0x100).toNat / 0x20000 ∧
      b.toNat % 4096 = 0 ∧ b.toNat / 4096 < 48 ∧ Instr.wellFormed (.rxBase l) = true) ∧
    (∃ (s u : State) (l p : Nat) (m : Move) (b : BitVec 32) (f : Frame), s.issuing l .rxPop = some (u, m, b) ∧ p = ((u.engine l).sock 0x100).toNat /
      0x20000 ∧ b.getLsbD 0 = true ∧ u.headFrame l p = some f ∧ u.PortsRest ∧ Instr.wellFormed (.rxPop l) = true) ∧
    (∃ (s : State) (l : Nat) (d : Divide), s.stopped = false ∧ (s.engine l).divide = some d ∧ (s.engine l).waiting = true ∧ Instr.wellFormed
      (.divideEnd l) = true) ∧
    (∃ (s : State) (l n st : Nat) (v : BitVec 32), s.stopped = false ∧ (s.engine l).async.get none n = some (.ioRead st v) ∧ 1 ≤ n ∧ n ≤ 3 ∧
      Instr.wellFormed (.ioRdEnd l n) = true) ∧
    (∃ (s : State) (l a st : Nat), s.stopped = false ∧ 0x80000000 ≤ a ∧ (s.engine l).ioWerr.getLsbD 31 = false ∧ Instr.wellFormed (.ioWriteError l a
      st) = true) ∧
    (∃ (s s1 : State) (l n st reached src dst len mode q done x c : Nat) (psn p : Bool) (ws : Table IoWindow) (m : MoveJob) (far : FarData), s.stopped
      = false ∧ 1 ≤ n ∧ n ≤ 3 ∧ (s.engine l).async.get none n = some (.move src dst len mode q ws done psn) ∧ m =
      { l := l, n := n, ws := ws, q := q, src := src, dst := dst, mode := mode, len := s.moveLen l src len } ∧ m.frame = false ∧ s.moveStop src dst q st
      = none ∧ s.moveOn m m.len far (m.len / 64 + 2) done psn = (s1, ⟨x, p, some c⟩) ∧ s1.stuck = [] ∧ Instr.wellFormed (.dmGoEnd l n st reached far) =
      true) ∧
    (∃ (s : State) (l n st src dst len mode q : Nat) (ws : Table IoWindow) (far : FarData), s.stopped = false ∧ s.stuck = [] ∧ 1 ≤ n ∧ n ≤ 3 ∧
      (s.engine l).async.get none n = some (.move src dst len mode q ws 0 false) ∧ s.queueStopped q = true ∧ 0 < s.moveLen l src len ∧ s.moveLen l src
      len = len ∧ Instr.wellFormed (.dmGoEnd l n st 0 far) = true) ∧
    (∃ (s s1 : State) (l n q k st : Nat) (far : FarData), s.stopped = false ∧ 1 ≤ n ∧ n ≤ 3 ∧ (s.takesEvents l && decide (s.boot ≥ 0xB0)) = false ∧
      (s.engine l).async.get none n = some (.fetch q) ∧ s.fetchNext q far = (s1, some st) ∧ s1.stuck = [] ∧ Instr.wellFormed (.rdFetchEnd l n k far) =
      true) ∧
    (∃ (s : State) (l n q k st path attempts mark : Nat) (e : JEntry), s.stopped = false ∧ 1 ≤ n ∧ n ≤ 3 ∧ s.queueStopped q = false ∧ (s.engine
      l).async.get none n = some (.journal q (some k) st path attempts mark) ∧ s.entry k = some e ∧ Instr.wellFormed (.rdJnlEnd l n) = true) ∧
    (∃ (s : State) (n l : Nat) (e : JEntry), s.stopped = false ∧ s.entry n = some e ∧ e.state = 4 ∧ s.recordDone e.queue n = true ∧ chainKeeps
      e.status = true ∧ Instr.wellFormed (.rdDoneEnd n l) = true) ∧
    (∃ (s : State) (l n k st : Nat) (data : BitVec 32), s.stopped = false ∧ 1 ≤ n ∧ n ≤ 3 ∧ (s.engine l).async.get none n = some (.extRead k) ∧
      s.rootUp (s.leadPort (s.f (CE_CTLl.EXT_PORT l))) = true ∧ Instr.wellFormed (.extRdEnd l n st data) = true) :=
  ⟨⟨eng 0x221000f [(0x100, 0x2000020)] (fun e => { e with timerQ := [(3, 4), (5, 6)], frameQ := [1], ctlQ := [2, 3], ioWerr := 0x80000001 }),
      (issued (eng 0x221000f [(0x100, 0x2000020)] (fun e => { e with timerQ := [(3, 4), (5, 6)], frameQ := [1], ctlQ := [2, 3], ioWerr := 0x80000001 }))
      0 .pop).1, 0, (issued (eng 0x221000f [(0x100, 0x2000020)] (fun e =>
      { e with timerQ := [(3, 4), (5, 6)], frameQ := [1], ctlQ := [2, 3], ioWerr := 0x80000001 })) 0 .pop).2.1, (issued (eng 0x221000f [(0x100,
      0x2000020)] (fun e => { e with timerQ := [(3, 4), (5, 6)], frameQ := [1], ctlQ := [2, 3], ioWerr := 0x80000001 })) 0 .pop).2.2, issuing_issued
      (by decide +kernel), by and_intros <;> decide +kernel⟩,
    ⟨eng 0x2210000 [(0x100, 0xFFF000)] id, (issued (eng 0x2210000 [(0x100, 0xFFF000)] id) 0 .rxSel).1, 0, 127, (issued (eng 0x2210000 [(0x100,
      0xFFF000)] id) 0 .rxSel).2.1, (issued (eng 0x2210000 [(0x100, 0xFFF000)] id) 0 .rxSel).2.2, issuing_issued (by decide +kernel),
      by and_intros <;> decide +kernel⟩,
    ⟨eng 0x2200020 [(0x100, 0xFFF010), (0x20, 0x2F000)] id, (issued (eng 0x2200020 [(0x100, 0xFFF010), (0x20, 0x2F000)] id) 0 .rxBase).1, 0, 127,
      (issued (eng 0x2200020 [(0x100, 0xFFF010), (0x20, 0x2F000)] id) 0 .rxBase).2.1, (issued (eng 0x2200020 [(0x100, 0xFFF010), (0x20, 0x2F000)] id) 0
      .rxBase).2.2, issuing_issued (by decide +kernel), by and_intros <;> decide +kernel⟩,
    ⟨{ eng 0x2210001 [(0x100, 0x1F008)] id with frames := [({ port := 0, stream := 1, closed := some (5, 0, 3) } : Frame)] }, (issued
      ({ eng 0x2210001 [(0x100, 0x1F008)] id with frames := [({ port := 0, stream := 1, closed := some (5, 0, 3) } : Frame)] }) 0 .rxPop).1, 0, 0,
      (issued ({ eng 0x2210001 [(0x100, 0x1F008)] id with frames := [({ port := 0, stream := 1, closed := some (5, 0, 3) } : Frame)] }) 0 .rxPop).2.1,
      (issued ({ eng 0x2210001 [(0x100, 0x1F008)] id with frames := [({ port := 0, stream := 1, closed := some (5, 0, 3) } : Frame)] }) 0 .rxPop).2.2,
      { port := 0, stream := 1, closed := some (5, 0, 3) }, issuing_issued (by decide +kernel),
      by refine ⟨?_, ?_, ?_, by unfold State.PortsRest; decide +kernel, ?_⟩ <;> decide +kernel⟩,
    ⟨{ css [] with boot := 0xF0, engines := [(0, { divide := some ⟨3, true, 0x80000000, 0xFFFFFFFF⟩, waiting := true })] }, 0, ⟨3, true, 0x80000000,
      0xFFFFFFFF⟩, by decide +kernel⟩,
    ⟨{ css [] with boot := 0xF0, engines := [(0, { async := [(3, some (.ioRead 0 77))] })] }, 0, 3, 0, 77, by decide +kernel⟩,
    ⟨{ css [] with boot := 0xF0, engines := [(0, { })] }, 0, 0x80000000, 5, by decide +kernel⟩,
    ⟨moveState [], ((moveState []).moveOn move0 64 [] 3 0 false).1, 0, 1, 0, 64, 0x80000000, 0x90000000, 64, 0, 0, 0, 64, 0, false, false, windows0,
      move0, [], by refine ⟨?_, ?_, ?_, ?_, ?_, ?_, ?_, pair_of (by decide +kernel), ?_⟩ <;> (and_intros <;> decide +kernel)⟩,
    ⟨moveState [(CSS_Qq_STATUS.STATE 0, 5)], 0, 1, 0, 0x80000000, 0x90000000, 64, 0, 0, windows0, [],
      by refine ⟨?_, ?_, ?_, ?_, ?_, ?_, ?_, ?_, ?_⟩ <;> decide +kernel⟩,
    ⟨{ css [] with boot := 0xF0, engines := [(0, { async := [(1, some (.fetch 0))], imem := [(0, some 0)] })] },
      (({ css [] with boot := 0xF0, engines := [(0, { async := [(1, some (.fetch 0))], imem := [(0, some 0)] })] } : State).fetchNext 0 []).1, 0, 1, 0,
      0, 6, [], by refine ⟨?_, ?_, ?_, ?_, ?_, pair_of (by decide +kernel), ?_⟩ <;> (and_intros <;> decide +kernel)⟩,
    ⟨{ { css [] with boot := 0xF0, engines := [(0, { async := [(1, some (.journal 0 (some 0) 2 3 1 64))] })] } with journal := [(0, some (entry0 (some (dsc [2]))))] },
      0, 1, 0, 0, 2, 3, 1, 64, entry0 (some (dsc [2])), by decide +kernel⟩,
    ⟨{ css [] with journal := [(0, some ({ entry0 (some (dsc [2])) with state := 4, out := some (0, 0, 0) } : JEntry))] }, 0, 0,
      { entry0 (some (dsc [2])) with state := 4, out := some (0, 0, 0) }, by and_intros <;> decide +kernel⟩,
    ⟨{ css [] with boot := 0xF0, engines := [(0, { async := [(1, some (.extRead 127))] })] }, 0, 1, 127, 0, 77, by decide +kernel⟩⟩

theorem witness_EngineControlCommandsComplete :
    (∃ (s : State) (l at_ n : Nat), s.stopped = false ∧ s.engineRuns l = true ∧ (s.engine l).slots = 0 ∧ (s.engine l).entering = none ∧ (s.engine
      l).inEvent = false ∧ (s.engine l).dueLine = some n ∧ n ≠ 1 ∧ n ≠ 2 ∧ n ≠ 5 ∧ Instr.wellFormed (.eventEntry l at_) = true) ∧
    (∃ (s : State) (who : Requester) (off die o l k : Nat) (v : Word), s.stopped = false ∧ engineWindow off = some (die, o, l, k) ∧ off % 4 = 0 ∧
      s.deadDies.contains die = false ∧ s.locked who 9 = false ∧ (who = .serviceEngine ∨ s.guardRefuses (5 + die) o (decide (who = .endpaper)) true = false) ∧ s.f (CE_STATUSl.STATE l) =
      2 ∧ k < 0x10000 ∧ Instr.wellFormed (.engineMemoryWrite who off 4 v) = true) ∧
    (∃ (s : State) (who : Requester) (l : Nat), s.stopped = false ∧ l < 256 ∧ s.admits who 8 (CE_CTLl l) ((CE_CTLl.RUN l).put 0 (s.reg (CE_CTLl l))) =
      true ∧ s.f (CE_STATUSl.STATE l) = 0 ∧ Instr.wellFormed (.runHalt who l) = true) ∧
    (∃ (s : State) (l : Nat), s.stopped = false ∧ s.f (CE_STATUSl.STATE l) = 1 ∧ (s.engine l).async = [] ∧ s.reqs = [] ∧ (s.engine l).runHeld = false
      ∧ Instr.wellFormed (.halted l) = true) ∧
    (∃ (s : State) (who : Requester) (l : Nat), s.stopped = false ∧ l < 256 ∧ s.admits who 8 (CE_CTLl l) ((CE_CTLl.RUN l).put 1 (s.reg (CE_CTLl l))) =
      true ∧ s.f (CE_STATUSl.STATE l) = 2 ∧ s.cmdsOfEngine l = [] ∧ Instr.wellFormed (.runStart who l) = true) ∧
    (∃ (s u : State) (l k : Nat) (m : Move), s.stopped = false ∧ l < 256 ∧ k < 272 ∧ s.mayIssue l = true ∧ k = s.f (CE_STATUSl.PHYS l) ∧ u =
      s.modEngine l (fun e => e.settleTo e.cycle) ∧ (u.engine l).pc ≤ 16383 ∧ m = moveOf ((u.engine l).word (u.engine l).pc) ∧ m.dest = 0xCC ∧ m.imm =
      true ∧ m.staticFault (decide ((u.engine l).slots ≠ 0)) = none ∧ (u.engine l).annul = false ∧ m.holds (u.engine l).guards = true ∧ (u.engine
      l).taken = none ∧ Instr.wellFormed (.haltEngine l) = true) ∧
    (∃ (s : State) (l k : Nat) (c : Instr) (cause : Nat), s.stopped = false ∧ l < 256 ∧ k < 272 ∧ k = s.f (CE_STATUSl.PHYS l) ∧ s.f (CE_PHYSk.STATE k)
      = 0 ∧ s.f (CE_PHYSk.LOGICAL k) = l ∧ (s.engine l).haltAt + 2049 < 2 ^ 56 ∧ ((c = .haltHung l ∧ cause = 6 ∧ s.f (CE_STATUSl.STATE l) = 1) ∨ (c =
      .watchdog l ∧ cause = 4 ∧ s.engineRuns l = true ∧ (s.engine l).waiting = false) ∨ (c = .engineHardwareFault k cause ∧ cause < 16)) ∧ c.wellFormed
      = true) ∧
    (∃ (s : State) (k : Nat) (pass : Bool), s.stopped = false ∧ s.selfTests.find? (fun x => decide (x.1 = k)) = some (k, none) ∧ Instr.wellFormed
      (.selfTestEnd k pass) = true) :=
  ⟨⟨{ css [] with boot := 0xF0, engines := [(0, { sockets := [(0xCA, 0x80)], pend := 0x80, waiting := true, imem := [(0, some 0)] })] }, 0, 9, 7,
      by decide +kernel⟩,
    ⟨css [(CE_STATUSl.STATE 255, 2)], .endpaper, 0x7FCFFFC, 1, 0x1FCFFFC, 255, 0xFFFC, 0x12345678, by decide +kernel⟩,
    ⟨st [], .text, 255, by decide +kernel⟩,
    ⟨st [(CE_STATUSl.STATE 255, 1)], 255, by decide +kernel⟩,
    ⟨{ st [(CE_STATUSl.STATE 255, 2), (CE_CTLl.RUN 255, 0)] with engines := [(255, { imem := [(0, some 5)], loaded := true })] }, .text, 255,
      by decide +kernel⟩,
    ⟨eng 0x1990005 [] id, (eng 0x1990005 [] id).modEngine 0 (fun e => e.settleTo e.cycle), 0, 0, moveOf ((((eng 0x1990005 [] id).modEngine 0 (fun e =>
      e.settleTo e.cycle)).engine 0).word (((eng 0x1990005 [] id).modEngine 0 (fun e => e.settleTo e.cycle)).engine 0).pc), by decide +kernel⟩,
    ⟨st [], 255, 263, .watchdog 255, 4, by decide +kernel⟩,
    ⟨{ st [] with selfTests := [(271, none)] }, 271, true, by decide +kernel⟩⟩

theorem witness_TransformCommandsComplete :
    (∃ (s s0 s1 : State) (q n : Nat) (e : JEntry) (d : Line), s.stopped = false ∧ s.nextCmd q = some (n, e, d) ∧ s.entry n = some e ∧ dOpcode d = 7 ∧
      s.jobs = [] ∧ dBhost d = false ∧ dTarget d = 0 ∧ s.engineBeat q = some s0 ∧ s0.takeTokens q 0 (!e.issued) = some s1 ∧ Instr.wellFormed
      (.transformCommand q) = true) ∧
    (∃ (s s1 s3 : State) (u id want : Nat) (j : TuJob) (raw : List Byte) (far : FarData), s.stopped = false ∧ s.jobs.find? (fun j => decide (j.id =
      id)) = some j ∧ j.unit = some u ∧ j.fail = none ∧ j.ended = none ∧ j.entry = none ∧ s.qState j.queue ≠ 2 ∧ j.srcHost = none ∧ j.dstHost = none ∧
      s.pointOpen (402 + u) j.inst = true ∧ s.pointOpen (272 + j.die) j.inst = true ∧ bitsOf j.j0 7 0 = 0x20 ∧ j.made = 0 ∧ j.ahead = 0 ∧ j.input.length
      = j.used ∧ want = j.len - j.used ∧ 0 < want ∧ want ≤ 65536 ∧ s.jobRead j far (want / 64 + 2) (j.src + j.used) want = (s1, raw, 0, false) ∧
      raw.length = want ∧ (∀ o w, (s1.incF (TU_STATUSu.BLOCKS u)).guardRefuses (3 + j.die) o false w = false) ∧ (s1.incF (TU_STATUSu.BLOCKS u)).sysWrite
      j.die j.inst false (cellsAt j.dst (sha256 (j.input ++ raw))) [] = (s3, 0) ∧ s3.stuck = [] ∧ s3.jobs.any (fun x => decide (x.id = id)) = true ∧
      Instr.wellFormed (.tuBlock u id false far) = true) ∧
    (∃ (s : State) (u id : Nat) (j : TuJob), s.stopped = false ∧ u < 16 ∧ s.jobs.find? (fun j => decide (j.id = id) && decide (j.unit = some u)) =
      some j ∧ j.rerun = false ∧ Instr.wellFormed (.tuDetection u id) = true) ∧
    (∃ (s : State) (id l n made check : Nat) (short : Bool) (j : TuJob), s.stopped = false ∧ s.jobs.find? (fun j => decide (j.id = id)) = some j ∧
      j.fail = none ∧ j.ended = some (short, check) ∧ j.socket = some (l, n) ∧ j.made = made ∧ 1 ≤ n ∧ n ≤ 3 ∧ (s.engine l).async.get none n = some
      (.transform id)) :=
  ⟨⟨cmd0 [7 + 64 * 2 ^ 32, 0, 0x2000, 0x3000, 0x20], beat0 [7 + 64 * 2 ^ 32, 0, 0x2000, 0x3000, 0x20], ((beat0 [7 + 64 * 2 ^ 32, 0, 0x2000, 0x3000,
      0x20]).takeTokens 0 0 true).getD (beat0 [7 + 64 * 2 ^ 32, 0, 0x2000, 0x3000, 0x20]), 0, 0, entry0 (some (dsc [7 + 64 * 2 ^ 32, 0, 0x2000, 0x3000,
      0x20])), dsc [7 + 64 * 2 ^ 32, 0, 0x2000, 0x3000, 0x20],
      by refine ⟨?_, ?_, ?_, ?_, ?_, ?_, ?_, some_getD (by decide +kernel), some_getD (by decide +kernel), ?_⟩ <;> decide +kernel⟩,
    ⟨jobState, jobInput.1, jobOutput.1, 15, 4, 64, job0, jobInput.2.1, [],
      by refine ⟨?_, ?_, ?_, ?_, ?_, ?_, ?_, ?_, ?_, ?_, ?_, ?_, ?_, ?_, ?_, ?_, ?_, ?_, job_input, ?_, fun o w => guard_open (by decide +kernel) (by cases w <;> decide +kernel), job_output, ?_, ?_, ?_⟩ <;> decide +kernel⟩,
    ⟨{ css [] with jobs := [({ id := 4, die := 0, inst := 0, queue := 0, socket := some (0, 1), j0 := 0x20, j1 := 0, j2 := 0, j3 := 0, src := 0x10000, srcHost := none, dst := 0x2000, dstHost := none, len := 64, unit := some 15 } : TuJob)] },
      15, 4,
      { id := 4, die := 0, inst := 0, queue := 0, socket := some (0, 1), j0 := 0x20, j1 := 0, j2 := 0, j3 := 0, src := 0x10000, srcHost := none, dst := 0x2000, dstHost := none, len := 64, unit := some 15 },
      by decide +kernel⟩,
    ⟨{ { css [] with boot := 0xF0, engines := [(0, { async := [(1, some (.transform 4))] })] } with jobs := [({ id := 4, die := 0, inst := 0, queue := 0, socket := some (0, 1), j0 := 0x20, j1 := 0, j2 := 0, j3 := 0, src := 0x10000, srcHost := none, dst := 0x2000, dstHost := none, len := 64, unit := some 15, made := 32, ended := some (false, 5) } : TuJob)] },
      4, 0, 1, 32, 5, false,
      { id := 4, die := 0, inst := 0, queue := 0, socket := some (0, 1), j0 := 0x20, j1 := 0, j2 := 0, j3 := 0, src := 0x10000, srcHost := none, dst := 0x2000, dstHost := none, len := 64, unit := some 15, made := 32, ended := some (false, 5) },
      by decide +kernel⟩⟩

theorem witness_PortLinkCommandsComplete :
    (∃ (s : State) (p gen w : Nat), s.stopped = false ∧ p < 128 ∧ s.trains p = true ∧ (s.portState p = 1 ∨ s.portState p = 2) ∧ (s.widthLeft p).isSome
      = true ∧ s.f (PRT_Pp_CFG.MODE p) = 1 ∧ (s.port p).msgs = [] ∧ Instr.wellFormed (.linkUp p gen w) = true) ∧
    (∃ (s : State) (p : Nat), s.stopped = false ∧ p < 128 ∧ s.trains p = true ∧ s.portUp p = true ∧ s.f (PRT_Pp_CFG.MODE p) = 1 ∧ s.pathsOf p = [] ∧
      s.PortsRest ∧ Instr.wellFormed (.linkDown p .surprise) = true) ∧
    (∃ (s : State) (p : Nat), s.stopped = false ∧ p < 128 ∧ s.trains p = true ∧ s.portState p = 4 ∧ s.f (PRT_Pp_CFG.MODE p) ≠ 3 ∧ Instr.wellFormed
      (.recovery p) = true) ∧
    (∃ (s : State) (p gen w : Nat), s.stopped = false ∧ p < 128 ∧ s.trains p = true ∧ s.portState p = 5 ∧ s.f (PRT_Pp_CFG.MODE p) ≠ 3 ∧ s.journal = []
      ∧ Instr.wellFormed (.recoveryEnd p gen w) = true) ∧
    (∃ (s : State) (id : Nat) (r : PortReq), s.stopped = false ∧ s.reqs.find? (fun x => decide (x.id = id)) = some r ∧ r.write = false ∧ r.freed =
      false ∧ r.leaf + 1024 * s.f PRT_CTL.CTO < 2 ^ 56) ∧
    (∃ (s : State) (p : Nat) (posted : Bool), s.stopped = false ∧ s.rootUp p = true ∧ Instr.wellFormed (.inboundUr p posted) = true) ∧
    (∃ (s : State) (p : Nat) (hdr : Option Nat), s.stopped = false ∧ s.rootUp p = true ∧ Instr.wellFormed (.errorMessage p 0 hdr) = true) ∧
    (∃ (s : State) (p : Nat), s.stopped = false ∧ p < 128 ∧ s.portState p = 7 ∧ (s.port p).since + 10 < 2 ^ 56 ∧ Instr.wellFormed (.dpcRelease p) =
      true) ∧
    (∃ (s : State) (p l : Nat), s.stopped = false ∧ p < 128 ∧ s.trains p = true ∧ (s.portState p = 1 ∨ s.portState p = 2) ∧ l < 2 ^ 56 ∧
      Instr.wellFormed (.trainingFailure p false l) = true) ∧
    (∃ (s : State) (p : Nat), s.stopped = false ∧ p < 128 ∧ s.portState p = 3 ∧ (s.port p).since < 2 ^ 55 ∧ Instr.wellFormed (.backoffEnd p) = true) ∧
    (∃ (s : State) (p : Nat), s.stopped = false ∧ p < 128 ∧ s.portState p = 3 ∧ (s.port p).since < 2 ^ 55 ∧ (s.port p).found = false ∧
      Instr.wellFormed (.backoffDetection p) = true) ∧
    (∃ (s : State) (who : Requester) (p k : Nat), s.stopped = false ∧ k = s.leadPort p ∧ s.admits who 8 (PRT_Pp_CMD p) 1 = true ∧ s.portUp k = true ∧
      s.postedEvent (.retrain k) = none ∧ Instr.wellFormed (.retrain who p) = true) ∧
    (∃ (s : State) (p : Nat) (e : LeafEvent), s.stopped = false ∧ p < 128 ∧ s.postedEvent (.retrain p) = some e ∧ e.leaf < 2 ^ 56 ∧ s.trains p = true
      ∧ s.portState p = 4 ∧ s.f (PRT_Pp_CFG.MODE p) ≠ 3 ∧ Instr.wellFormed (.retrainEvent p) = true) :=
  ⟨⟨st [(PRT_Pp_CFG.MODE 127, 1), (PRT_Pp_STATUS.STATE 127, 1)], 127, 6, 4, by decide +kernel⟩,
    ⟨st [(PRT_Pp_CFG.MODE 127, 1), (PRT_Pp_STATUS.STATE 127, 4), (PRT_Pp_STATUS.PRESENT 127, 1)], 127,
      by refine ⟨?_, ?_, ?_, ?_, ?_, ?_, by unfold State.PortsRest; decide +kernel, ?_⟩ <;> decide +kernel⟩,
    ⟨st [(PRT_Pp_CFG.MODE 127, 1), (PRT_Pp_STATUS.STATE 127, 4), (PRT_Pp_COUNTS.RETRAINS 127, 65535)], 127, by decide +kernel⟩,
    ⟨st [(PRT_Pp_CFG.MODE 127, 1), (PRT_Pp_STATUS.STATE 127, 5)], 127, 6, 1, by decide +kernel⟩,
    ⟨{ css [] with reqs := [({ req0 64 with write := false } : PortReq)] }, 5, { req0 64 with write := false }, by decide +kernel⟩,
    ⟨st [(PRT_Pp_CFG.MODE 127, 1), (PRT_Pp_STATUS.STATE 127, 4), (PRT_Pp_COUNTS.INBOUND_UR 127, 65535)], 127, true, by decide +kernel⟩,
    ⟨st [(PRT_Pp_CFG.MODE 127, 1), (PRT_Pp_STATUS.STATE 127, 4)], 127, none, by decide +kernel⟩,
    ⟨st [(PRT_Pp_CFG.MODE 127, 1), (PRT_Pp_STATUS.STATE 127, 7)], 127, by decide +kernel⟩,
    ⟨st [(PRT_Pp_CFG.MODE 127, 1), (PRT_Pp_STATUS.STATE 127, 2)], 127, 9, by decide +kernel⟩,
    ⟨st [(PRT_Pp_CFG.MODE 127, 1), (PRT_Pp_STATUS.STATE 127, 3), (PRT_Pp_STATUS.BACKOFF_K 127, 15)], 127, by decide +kernel⟩,
    ⟨st [(PRT_Pp_CFG.MODE 127, 1), (PRT_Pp_STATUS.STATE 127, 3), (PRT_Pp_STATUS.BACKOFF_K 127, 15)], 127, by decide +kernel⟩,
    ⟨st [(PRT_Pp_CFG.MODE 127, 1), (PRT_Pp_STATUS.STATE 127, 4)], .text, 127, 127, by decide +kernel⟩,
    ⟨{ st [(PRT_Pp_CFG.MODE 127, 1), (PRT_Pp_STATUS.STATE 127, 4)] with posted := [({ leaf := 9, kind := .retrain 127 } : LeafEvent)] }, 127,
      { leaf := 9, kind := .retrain 127 }, by decide +kernel⟩⟩

theorem witness_LaneAndExtensionCommandsComplete :
    (∃ (s : State) (lane errs : Nat) (check : Bool), s.stopped = false ∧ lane < 256 ∧ (s.f (PRT_Gj_LANES.DISABLED (lane / 8))).testBit (lane % 8) =
      false ∧ (check = true ∨ s.f PRT_CTL.LANE_THRESH ≠ 0 ∧ s.f PRT_CTL.LANE_THRESH ≤ errs) ∧ s.postedEvent (.laneSwap lane) = none ∧ s.on
      (PRT_Gj_LANES.SPARE_USED (lane / 8)) = false ∧ s.on (PRT_Gj_LANES.SPARE_FAILED (lane / 8)) = false ∧ s.swapPosted (lane / 8) = false ∧
      Instr.wellFormed (.laneDue lane errs check) = true) ∧
    (∃ (s : State) (lane : Nat) (e : LeafEvent), s.stopped = false ∧ lane < 256 ∧ s.postedEvent (.laneSwap lane) = some e ∧ e.leaf < 2 ^ 56 ∧ s.f
      (PRT_Pp_CFG.MODE (s.leadPort (lane / 2))) = 0 ∧ Instr.wellFormed (.laneSwap lane) = true) ∧
    (∃ (s : State) (p : Nat) (v : BitVec 32), s.stopped = false ∧ s.rootUp p = true ∧ 1 ≤ v.toNat % 32 ∧ v.toNat % 32 ≤ 16 ∧ s.extCredit.get 0 p +
      v.toNat % 32 ≤ 16 ∧ Instr.wellFormed (.creditReturn p v) = true) ∧
    (∃ (s : State) (p : Nat), s.stopped = false ∧ s.rootUp p = true ∧ Instr.wellFormed (.extensionSignal p) = true) :=
  ⟨⟨st [(PRT_CTL.LANE_THRESH, 100)], 255, 100, false, by decide +kernel⟩,
    ⟨{ st [] with posted := [({ leaf := 9, kind := .laneSwap 255 } : LeafEvent)] }, 255, { leaf := 9, kind := .laneSwap 255 }, by decide +kernel⟩,
    ⟨st [(PRT_Pp_CFG.MODE 127, 1), (PRT_Pp_STATUS.STATE 127, 4)], 127, 16, by decide +kernel⟩,
    ⟨{ st [(PRT_Pp_CFG.MODE 127, 1), (PRT_Pp_STATUS.STATE 127, 4), (CE_CTLl.EXT_EN 255, 1), (CE_CTLl.EXT_PORT 255, 127)] with engines := [(255, { imem := [(0, some 5)] })] },
      127, by decide +kernel⟩⟩

theorem witness_ModuleLinkCommandsComplete :
    (∃ (s : State) (j : Nat) (bytes : List Byte), s.stopped = false ∧ (s.linkStateOf j = 3 ∨ s.linkStateOf j = 4) ∧ flitGood bytes = false ∧ (s.blink
      j).naked = false ∧ Instr.wellFormed (.flit j bytes) = true) ∧
    (∃ (s : State) (j h : Nat) (bytes : List Byte), s.stopped = false ∧ s.linkStateOf j = 3 ∧ flitGood bytes = true ∧ h = leNat (bytes.take 8) ∧ h / 2
      ^ 37 % 8 = 3 ∧ h / 2 ^ 52 % 4096 = (s.blink j).expect ∧ (s.blink j).unacked = [] ∧ (s.blink j).told < 31 ∧ Instr.wellFormed (.flit j bytes) =
      true) ∧
    (∃ (s : State) (j ack q : Nat) (m : LinkMsg), s.stopped = false ∧ s.linkStateOf j = 3 ∧ (s.blink j).unacked = [(q, m)] ∧ q < 4096 ∧ ack < 4096 ∧
      ack ≠ q ∧ (s.blink j).resends < s.f BL_CTL.REPLAY_LIMIT ∧ Instr.wellFormed (.nak j ack) = true) ∧
    (∃ (s : State) (j : Nat), s.stopped = false ∧ s.linkStateOf j = 3 ∧ (s.blink j).unacked ≠ [] ∧ (s.blink j).resends < s.f BL_CTL.REPLAY_LIMIT ∧
      (s.blink j).ackAt + 512 < 2 ^ 64 ∧ Instr.wellFormed (.replayTimeout j) = true) ∧
    (∃ (s : State) (j m link off last : Nat) (serial : Word), s.stopped = false ∧ j < 32 ∧ (s.linkStateOf j = 1 ∨ s.linkStateOf j = 4) ∧ m =
      s.moduleNo ∧ Instr.wellFormed (.train j m serial link off last) = true) ∧
    (∃ (s : State) (j m link off last : Nat) (serial : Word), s.stopped = false ∧ j < 32 ∧ (s.linkStateOf j = 1 ∨ s.linkStateOf j = 4) ∧ m ≠
      s.moduleNo ∧ m < 8 ∧ link < 32 ∧ linkWidth (off ||| s.lanesOff j) ≠ 0 ∧ s.blinks = [] ∧ s.blWaiting = [] ∧ Instr.wellFormed (.train j m serial
      link off last) = true) ∧
    (∃ (s : State) (j : Nat), s.stopped = false ∧ j < 32 ∧ s.linkStateOf j = 1 ∧ (s.blink j).since + 512000 < 2 ^ 64 ∧ Instr.wellFormed
      (.broipTrainingTimeout j) = true) ∧
    (∃ (s : State) (j : Nat), s.stopped = false ∧ j < 32 ∧ s.linkStateOf j = 2 ∧ (∀ i < 4, s.f (PRT_Pp_CFG.MODE (4 * j + i)) = 2) ∧ (s.blink j).since
      < 2 ^ 63 ∧ Instr.wellFormed (.broipBackoffEnd j) = true) ∧
    (∃ (s : State) (j : Nat), s.stopped = false ∧ j < 32 ∧ s.linkStateOf j = 3 ∧ (∀ i < 4, s.f (PRT_Pp_CFG.MODE (4 * j + i)) = 2) ∧ (∀ k < 32, k ≠ j →
      s.linkStateOf k ≠ 3) ∧ s.blWaiting = [] ∧ (s.blink j).lastGood + 4 < 2 ^ 56 ∧ Instr.wellFormed (.linkSilence j) = true) ∧
    (∃ (s : State) (j : Nat) (c : Instr), s.stopped = false ∧ j < 32 ∧ s.linkStateOf j = 3 ∧ (((c = .retrainReq j ∨ c = .widthReq j) ∧ (s.blink
      j).asked = 0) ∨ (c = .grant j ∧ (s.blink j).asked ≠ 0)) ∧ c.wellFormed = true) ∧
    (∃ (s : State) (m k last j : Nat), s.stopped = false ∧ s.linkTo m k = some j ∧ s.linkStateOf j = 1 ∧ (s.blink j).unacked = [] ∧ (s.blink j).queue = [] ∧ Instr.wellFormed (.linkState
      m k last) = true) :=
  ⟨⟨st [(BL_Lj_STATUS.STATE 31, 3)], 31, List.replicate 256 1, by decide +kernel, by decide +kernel, flit_low _ (by decide +kernel),
      by and_intros <;> decide +kernel⟩,
    ⟨{ st [(BL_Lj_STATUS.STATE 31, 3)] with blinks := [(31, { expect := 4095, naked := true })] }, 31, leNat (flit3.take 8), flit3, by decide +kernel,
      by decide +kernel, flit3_good, by and_intros <;> decide +kernel⟩,
    ⟨{ st [(BL_Lj_STATUS.STATE 31, 3), (BL_CTL.REPLAY_LIMIT, 4)] with blinks := [(31, { next := 6, unacked := [(5, .control 2 [])] })] }, 31, 4, 5,
      .control 2 [], by decide +kernel⟩,
    ⟨{ st [(BL_Lj_STATUS.STATE 31, 3), (BL_CTL.REPLAY_LIMIT, 4)] with blinks := [(31, { next := 6, unacked := [(5, .control 2 [])], ackAt := 7 })] },
      31, by decide +kernel⟩,
    ⟨st [(BL_Lj_STATUS.STATE 31, 1)], 31, 0, 31, 0, 4095, 9, by decide +kernel⟩,
    ⟨st [(BL_Lj_STATUS.STATE 31, 4)], 31, 7, 31, 0, 4095, 9, by decide +kernel⟩,
    ⟨st [(BL_Lj_STATUS.STATE 31, 1), (BL_Lj_STATUS.BACKOFF_K 31, 15)], 31, by decide +kernel⟩,
    ⟨st [(BL_Lj_STATUS.STATE 31, 2), (BL_Lj_STATUS.BACKOFF_K 31, 15), (PRT_Pp_CFG.MODE 124, 2), (PRT_Pp_CFG.MODE 125, 2), (PRT_Pp_CFG.MODE 126, 2),
      (PRT_Pp_CFG.MODE 127, 2)], 31, by decide +kernel⟩,
    ⟨st [(BL_Lj_STATUS.STATE 31, 3), (BL_Lj_STATUS.PEER_MOD 31, 7), (PRT_Pp_CFG.MODE 124, 2), (PRT_Pp_CFG.MODE 125, 2), (PRT_Pp_CFG.MODE 126, 2),
      (PRT_Pp_CFG.MODE 127, 2)], 31, by refine ⟨?_, ?_, ?_, ?_, by (intro k hk; revert k; decide +kernel), ?_⟩ <;> (and_intros <;> decide +kernel)⟩,
    ⟨{ st [(BL_Lj_STATUS.STATE 31, 3)] with blinks := [(31, { asked := 2 })] }, 31, .grant 31, by decide +kernel⟩,
    ⟨{ st [(BL_Lj_STATUS.STATE 30, 1), (BL_Lj_STATUS.PEER_MOD 30, 7), (BL_Lj_STATUS.PEER_LINK 30, 31)] with blinks := [(30, { serial := some 9 })] },
      7, 31, 9, 30, by decide +kernel⟩⟩

theorem witness_PeerAndEvacuationCommandsComplete :
    (∃ (s : State) (m : Nat), s.stopped = false ∧ m < 8 ∧ m ≠ s.moduleNo ∧ s.f (BL_PEERm.STATE m) = 2 ∧ s.slices = [] ∧ s.tiles = [] ∧ s.blinks = [] ∧
      s.recoveries = [] ∧ s.peerSince.get 0 m + 1024 * s.f BL_CTL.LOST_TO < 2 ^ 56 ∧ Instr.wellFormed (.peerLost m) = true) ∧
    (∃ (s : State) (who : Requester) (m : Nat), s.stopped = false ∧ m < 8 ∧ m ≠ s.moduleNo ∧ s.f (BL_PEERm.STATE m) = 3 ∧ s.blWaiting = [] ∧ s.admits
      who 8 (BL_PEERm m) ((BL_PEERm.STATE m).put 0 (s.reg (BL_PEERm m))) = true ∧ s.hasRoute m = false ∧ Instr.wellFormed (.clearLost who m) = true) ∧
    (∃ (s : State) (who : Requester) (v w : Word), s.stopped = false ∧ w = BL_EVAC.GO.put 1 (BL_EVAC.OP.put 0 v) ∧ s.admits who 8 BL_EVAC w = true ∧
      s.evacRefused 0 (BL_EVAC.PEER.of v) true = false) ∧
    (∃ (s : State) (who : Requester) (v w : Word), s.stopped = false ∧ w = BL_EVAC.GO.put 1 (BL_EVAC.OP.put 1 v) ∧ s.admits who 8 BL_EVAC w = true ∧
      s.evacRefused 1 (BL_EVAC.PEER.of v) true = false) ∧
    (∃ (s : State) (l : Nat), s.stopped = false ∧ s.f BL_EVAC.STATE = 1 ∧ s.f BL_EVAC.OP = 1 ∧ s.tiles = [] ∧ l < 2 ^ 56 ∧ Instr.wellFormed
      (.evacuationCopyEnd l) = true) ∧
    (∃ s : State, s.stopped = false ∧ s.f BL_EVAC.STATE = 3 ∧ s.answersIn = true) ∧
    (∃ (s : State) (m : Nat), s.stopped = false ∧ m ≠ s.moduleNo ∧ Instr.wellFormed (.depart m) = true) :=
  ⟨⟨st [(BL_PEERm.STATE 7, 2)], 7, by decide +kernel⟩,
    ⟨st [(BL_PEERm.STATE 7, 3)], .text, 7, by decide +kernel⟩,
    ⟨st [(BL_PEERm.STATE 7, 1), (BL_EVAC.PROGRESS, 4)], .text, BL_EVAC.RATE.put 500 (BL_EVAC.PEER.put 7 0), BL_EVAC.GO.put 1 (BL_EVAC.OP.put 0
      (BL_EVAC.RATE.put 500 (BL_EVAC.PEER.put 7 0))), by decide +kernel⟩,
    ⟨{ st [(BL_PEERm.STATE 7, 1), (BL_EVAC.PROGRESS, 4)] with decoders := [(7, 1)] }, .text, BL_EVAC.RATE.put 500 (BL_EVAC.PEER.put 7 0),
      BL_EVAC.GO.put 1 (BL_EVAC.OP.put 1 (BL_EVAC.RATE.put 500 (BL_EVAC.PEER.put 7 0))), by decide +kernel⟩,
    ⟨st [(BL_EVAC.STATE, 1), (BL_EVAC.OP, 1), (BL_EVAC.PEER, 7)], 9, by and_intros <;> decide +kernel⟩,
    ⟨st [(BL_EVAC.STATE, 3), (BL_EVAC.OP, 1), (BL_EVAC.PEER, 7)], by decide +kernel⟩,
    ⟨st [], 7, by decide +kernel⟩⟩

theorem witness_WindowAndInputOutputCommandsComplete :
    (∃ (s u u0 : State) (h raw n p o : Nat) (va x : Word) (wrong : List WrongAcc), s.acting h raw .mem = some u ∧ u0.settled h = true ∧ (u0.hart h).pc
      = (s.hart h).pc ∧ iOp (instrWord raw) = 0x03 ∧ n = 2 ^ (iF3 (instrWord raw) % 4) ∧ va = (u.hart h).maskAddr (u.hart h).dataMode .load ((u.hart
      h).getX (iRs1 (instrWord raw)) + word (immI (instrWord raw))) ∧ u.InWindow u0 h n va p o false ∧ 0x10000000 ≤ o ∧ Instr.wellFormed
      (.coreWindowLoad h raw (.ok x) wrong) = true) ∧
    (∃ (s u u0 : State) (h raw n p o : Nat) (va x : Word) (wrong : List WrongAcc), s.acting h raw .mem = some u ∧ u0.settled h = true ∧ (u0.hart h).pc
      = (s.hart h).pc ∧ iOp (instrWord raw) = 0x03 ∧ n = 2 ^ (iF3 (instrWord raw) % 4) ∧ va = (u.hart h).maskAddr (u.hart h).dataMode .load ((u.hart
      h).getX (iRs1 (instrWord raw)) + word (immI (instrWord raw))) ∧ u.InWindow u0 h n va p o false ∧ o < 0x10000000 ∧ Instr.wellFormed
      (.configurationLoad h raw (.ok x) wrong) = true) ∧
    (∃ (s u u0 : State) (h raw n p o v : Nat) (va : Word) (wrong : List WrongAcc), s.acting h raw .mem = some u ∧ u0.settled h = true ∧ (u0.hart h).pc
      = (s.hart h).pc ∧ iOp (instrWord raw) = 0x23 ∧ n = 2 ^ iF3 (instrWord raw) ∧ v = ((u.hart h).getX (iRs2 (instrWord raw))).toNat % 2 ^ (8 * n) ∧ va
      = (u.hart h).maskAddr (u.hart h).dataMode .store ((u.hart h).getX (iRs1 (instrWord raw)) + word (immS (instrWord raw))) ∧ u.InWindow u0 h n va p o
      true ∧ 0x10000000 ≤ o ∧ Instr.wellFormed (.coreWindowStore h raw wrong) = true) ∧
    (∃ (s u u0 : State) (h raw n p o v : Nat) (va x : Word) (wrong : List WrongAcc), s.acting h raw .mem = some u ∧ u0.settled h = true ∧ (u0.hart
      h).pc = (s.hart h).pc ∧ iOp (instrWord raw) = 0x23 ∧ n = 2 ^ iF3 (instrWord raw) ∧ v = ((u.hart h).getX (iRs2 (instrWord raw))).toNat % 2 ^ (8 *
      n) ∧ va = (u.hart h).maskAddr (u.hart h).dataMode .store ((u.hart h).getX (iRs1 (instrWord raw)) + word (immS (instrWord raw))) ∧ u.InWindow u0 h
      n va p o true ∧ o < 0x10000000 ∧ Instr.wellFormed (.configurationStore h raw (.ok x) wrong) = true) ∧
    (∃ (s s1 : State) (m i addr n off x : Nat) (world : Bool) (e : LinkEnd) (far : FarData), s.stopped = false ∧ addr % n = 0 ∧ s.region addr = .setup
      s.moduleNo off ∧ s.setupRead (if world then .endpaper else .text) off n = (s1, some x) ∧ s1.stuck = [] ∧ Instr.wellFormed (.ioRead (.core m i)
      addr n world e far) = true) ∧
    (∃ (s : State) (m i addr n off : Nat) (v : Word) (world fits : Bool) (e : LinkEnd), s.stopped = false ∧ addr % n = 0 ∧ s.region addr = .setup
      s.moduleNo off ∧ s.setupRefuses (if world then .endpaper else .text) off = false ∧ Instr.wellFormed (.ioWrite (.core m i) addr n v world e fits) =
      true) ∧
    (∃ (s : State) (m i addr n off : Nat) (v : Word) (world fits : Bool) (e : LinkEnd), s.stopped = false ∧ addr % n = 0 ∧ s.region addr = .doorbell
      s.moduleNo off ∧ Instr.wellFormed (.ioWrite (.core m i) addr n v world e fits) = true) ∧
    (∃ (s : State) (i c addr : Nat) (v : Word) (a : IoAsk), s.stopped = false ∧ c < 192 ∧ (∀ d < 192, s.tileOfCore d = i ↔ d = c) ∧ (s.hart (2 *
      c)).io = some a ∧ a.ans = none ∧ a.addr = addr ∧ s.f (CPU_CORE_STATUSc.STATE c) < 2 ∧ (s.core c).retryDue = false ∧ Instr.wellFormed (.ioReadData
      i addr v) = true) :=
  ⟨⟨hartAt 0x00033283 [(PRT_Pp_CFG.MODE 0, 1), (PRT_Pp_STATUS.STATE 0, 4)] (x6 0xC000010000008), acted (hartAt 0x00033283 [(PRT_Pp_CFG.MODE 0, 1),
      (PRT_Pp_STATUS.STATE 0, 4)] (x6 0xC000010000008)) 0 0x00033283 .mem, ((acted (hartAt 0x00033283 [(PRT_Pp_CFG.MODE 0, 1), (PRT_Pp_STATUS.STATE 0,
      4)] (x6 0xC000010000008)) 0 0x00033283 .mem).locate 0 ((acted (hartAt 0x00033283 [(PRT_Pp_CFG.MODE 0, 1), (PRT_Pp_STATUS.STATE 0, 4)] (x6
      0xC000010000008)) 0 0x00033283 .mem).hart 0).dataMode .load 0xC000010000008 8).1, 0, 0x00033283, 8, 0, 0x10000008, 0xC000010000008, 0x8877, [],
      acting_acted (by decide +kernel),
      by refine ⟨?_, ?_, ?_, ?_, ?_, by unfold State.InWindow; exact ⟨0xC000010000008, 0x10000008, by decide +kernel⟩, ?_⟩ <;> (and_intros <;> decide +kernel)⟩,
    ⟨hartAt 0x00033283 [(PRT_Pp_CFG.MODE 0, 1), (PRT_Pp_STATUS.STATE 0, 4)] (x6 0xC000000000008), acted (hartAt 0x00033283 [(PRT_Pp_CFG.MODE 0, 1),
      (PRT_Pp_STATUS.STATE 0, 4)] (x6 0xC000000000008)) 0 0x00033283 .mem, ((acted (hartAt 0x00033283 [(PRT_Pp_CFG.MODE 0, 1), (PRT_Pp_STATUS.STATE 0,
      4)] (x6 0xC000000000008)) 0 0x00033283 .mem).locate 0 ((acted (hartAt 0x00033283 [(PRT_Pp_CFG.MODE 0, 1), (PRT_Pp_STATUS.STATE 0, 4)] (x6
      0xC000000000008)) 0 0x00033283 .mem).hart 0).dataMode .load 0xC000000000008 8).1, 0, 0x00033283, 8, 0, 8, 0xC000000000008, 0x8877, [],
      acting_acted (by decide +kernel),
      by refine ⟨?_, ?_, ?_, ?_, ?_, by unfold State.InWindow; exact ⟨0xC000000000008, 8, by decide +kernel⟩, ?_⟩ <;> (and_intros <;> decide +kernel)⟩,
    ⟨hartAt 0x00733023 [(PRT_Pp_CFG.MODE 0, 1), (PRT_Pp_STATUS.STATE 0, 4)] (x6 0xC000010000008), acted (hartAt 0x00733023 [(PRT_Pp_CFG.MODE 0, 1),
      (PRT_Pp_STATUS.STATE 0, 4)] (x6 0xC000010000008)) 0 0x00733023 .mem, ((acted (hartAt 0x00733023 [(PRT_Pp_CFG.MODE 0, 1), (PRT_Pp_STATUS.STATE 0,
      4)] (x6 0xC000010000008)) 0 0x00733023 .mem).locate 0 ((acted (hartAt 0x00733023 [(PRT_Pp_CFG.MODE 0, 1), (PRT_Pp_STATUS.STATE 0, 4)] (x6
      0xC000010000008)) 0 0x00733023 .mem).hart 0).dataMode .store 0xC000010000008 8).1, 0, 0x00733023, 8, 0, 0x10000008, 7, 0xC000010000008, [],
      acting_acted (by decide +kernel),
      by refine ⟨?_, ?_, ?_, ?_, ?_, ?_, by unfold State.InWindow; exact ⟨0xC000010000008, 0x10000008, by decide +kernel⟩, ?_⟩ <;> (and_intros <;> decide +kernel)⟩,
    ⟨hartAt 0x00733023 [(PRT_Pp_CFG.MODE 0, 1), (PRT_Pp_STATUS.STATE 0, 4)] (x6 0xC000000000008), acted (hartAt 0x00733023 [(PRT_Pp_CFG.MODE 0, 1),
      (PRT_Pp_STATUS.STATE 0, 4)] (x6 0xC000000000008)) 0 0x00733023 .mem, ((acted (hartAt 0x00733023 [(PRT_Pp_CFG.MODE 0, 1), (PRT_Pp_STATUS.STATE 0,
      4)] (x6 0xC000000000008)) 0 0x00733023 .mem).locate 0 ((acted (hartAt 0x00733023 [(PRT_Pp_CFG.MODE 0, 1), (PRT_Pp_STATUS.STATE 0, 4)] (x6
      0xC000000000008)) 0 0x00733023 .mem).hart 0).dataMode .store 0xC000000000008 8).1, 0, 0x00733023, 8, 0, 8, 7, 0xC000000000008, 0, [], acting_acted
      (by decide +kernel),
      by refine ⟨?_, ?_, ?_, ?_, ?_, ?_, by unfold State.InWindow; exact ⟨0xC000000000008, 8, by decide +kernel⟩, ?_⟩ <;> (and_intros <;> decide +kernel)⟩,
    ⟨st [(TB_COUNT.COUNT, 77)], ((st [(TB_COUNT.COUNT, 77)]).setupRead .text 16 8).1, 7, 215, 0xe000000000010, 8, 16, 77, false, .fails, [],
      by and_intros <;> decide +kernel⟩,
    ⟨st [], 7, 215, 0xe000020000018, 8, 0x20000018, 3, false, true, .fails, by decide +kernel⟩,
    ⟨st [], 7, 215, 0xd000000000007, 1, 7, 3, false, true, .fails, by decide +kernel⟩,
    ⟨{ st [] with harts := [(0, { io := some { addr := 5, size := 1, write := false } })] }, 0, 0, 5, 77, { addr := 5, size := 1, write := false },
      by decide +kernel⟩⟩

theorem witness_EndpointResetCommandsComplete :
    (∃ (s : State) (n i : Nat), s.stopped = false ∧ 1 ≤ n ∧ n < 256 ∧ (s.group s.activeGroup).named n = true ∧ s.instanceOf n = some i ∧ s.resetting i
      = false ∧ Instr.wellFormed (.functionLevelReset s.activeGroup n) = true) ∧
    (∃ (s : State) (g : Nat), s.stopped = false ∧ Instr.wellFormed (.pf0Flr g) = true) ∧
    (∃ (s : State) (g : Nat) (en : Bool), s.stopped = false ∧ (∀ i < 256, s.instFunc i = none) ∧ Instr.wellFormed (.vfEnableCleared g en) = true) ∧
    (∃ (s : State) (g n : Nat), s.stopped = false ∧ (∀ i < 256, s.instFunc i = none) ∧ Instr.wellFormed (.numvfsLowered g n) = true) ∧
    (∃ (s : State) (g n : Nat), s.stopped = false ∧ (∀ i < 256, s.instFunc i = none) ∧ Instr.wellFormed (.busMasterEnableSet g n) = true) ∧
    (∃ (s : State) (g : Nat) (perst cold : Bool), s.stopped = false ∧ s.portUp (groupLead g) = false ∧ (s.group g).vfEn = false ∧ Instr.wellFormed
      (.conventionalReset g perst cold) = true) ∧
    (∃ (s : State) (n : Nat), s.stopped = false ∧ (s.vf s.activeGroup n).bme = true ∧ Instr.wellFormed (.busMasterEnableCleared s.activeGroup n) =
      true) ∧
    (∃ (s : State) (g : Nat), s.stopped = false ∧ (s.group g).perst = true ∧ Instr.wellFormed (.perstDeassertion g) = true) :=
  ⟨⟨{ st [(CSS_SIi_BIND.KIND 7, 2), (CSS_SIi_BIND.FUNC 7, 255)] with ep := [(0, { vfEn := true, numVfs := 255 })] }, 255, 7, by decide +kernel⟩,
    ⟨{ st [] with ep := [(1, { vfEn := true, numVfs := 255, dstate := 3, pmeEn := true })] }, 1, by decide +kernel⟩,
    ⟨{ st [] with ep := [(0, { vfEn := true, numVfs := 3 })] }, 1, true, by decide +kernel⟩,
    ⟨{ st [] with ep := [(0, { vfEn := true, numVfs := 3 })] }, 0, 255, by decide +kernel⟩,
    ⟨{ st [] with ep := [(0, { vfEn := true, numVfs := 3 })] }, 0, 255, by decide +kernel⟩,
    ⟨{ st [] with ep := [(1, { numVfs := 9 })] }, 1, true, true, by decide +kernel⟩,
    ⟨{ st [] with vfs := [(255, { bme := true })] }, 255, by decide +kernel⟩,
    ⟨{ st [] with ep := [(1, { perst := true, dstate := 2, wake := true })] }, 1, by decide +kernel⟩⟩

theorem witness_EndpointStateCommandsComplete :
    (∃ (s : State) (g : Nat) (pmeEn : Bool), s.stopped = false ∧ Instr.wellFormed (.d3hotEntry g pmeEn) = true) ∧
    (∃ (s : State) (g : Nat) (pmeEn clear : Bool), s.stopped = false ∧ (s.group g).dstate = 3 ∧ (∀ i < 256, s.instFunc i = none) ∧ Instr.wellFormed
      (.d0Return g pmeEn clear) = true) ∧
    (∃ (s : State) (who : Requester) (frame : Bool) (a : Nat) (c : Instr), s.stopped = false ∧ a = s.activeGroup ∧ (s.group a).pmeEn = true ∧ (s.group
      a).dstate = 3 ∧ ((c = .wakeEvent frame ∧ s.wakeDue frame = true) ∨ (c = .aepWake who ∧ s.admits who 8 AEP_CMD 2 = true)) ∧ c.wellFormed = true) ∧
    (∃ (s : State) (a : Nat), s.stopped = false ∧ a = s.activeGroup ∧ (s.group a).pmeStatus = true ∧ (s.group a).dstate = 3 ∧ (s.group a).pmeAt +
      100000 < 2 ^ 56) ∧
    (∃ (s : State) (g l : Nat), s.stopped = false ∧ s.groupL0 g = true ∧ l < 2 ^ 56 ∧ (s.group g).aspm % 2 = 1 ∧ Instr.wellFormed (.l0sEntry g l
      false) = true) ∧
    (∃ (s : State) (g l : Nat), s.stopped = false ∧ s.groupL0 g = true ∧ l < 2 ^ 56 ∧ ((s.group g).aspm / 2 % 2 = 1 ∨ (s.group g).dstate = 3) ∧
      Instr.wellFormed (.l1Entry g l) = true) ∧
    (∃ s : State, s.stopped = false ∧ s.forerunner = true) ∧
    (∃ (s : State) (g : Nat) (v : Bool), s.stopped = false ∧ Instr.wellFormed (.interruptDisable g v) = true) ∧
    (∃ (s : State) (who : Requester) (f a : Nat) (c : Instr), s.stopped = false ∧ a = s.activeGroup ∧ s.standby = true ∧ s.groupL0 (1 - a) = true ∧ (∀
      i < 256, s.instFunc i = none) ∧ s.leaf + 2 < 2 ^ 56 ∧ f + 2 < 2 ^ 56 ∧ ((c = .failover f false ∧ (s.group a).perst = false ∧ s.portUp (groupLead
      a) = false ∧ s.leaf ≤ f) ∨ (c = .switchGroups who ∧ s.groupL0 a = true ∧ s.admits who 8 AEP_CMD 1 = true ∧ (∀ n < 255, s.on (AEP_VFn_STATUS.FLR (n
      + 1)) = false) ∧ f = s.leaf)) ∧ c.wellFormed = true) ∧
    (∃ (s : State) (q : Nat) (ring : Bool), s.stopped = false ∧ (s.instFunc (instOf q)).isSome = true ∧ s.hostTries.get 0 (instOf q) + 1 ≤ s.f
      AEP_CTL.HRETRY ∧ Instr.wellFormed (.hostCompletionTimeout q ring) = true) :=
  ⟨⟨st [], 0, true, by decide +kernel⟩,
    ⟨{ st [] with ep := [(1, { dstate := 3, pmeStatus := true })] }, 1, true, true, by decide +kernel⟩,
    ⟨{ st [] with ep := [(0, { dstate := 3, pmeEn := true })] }, .text, false, 0, .aepWake .text,
      by refine ⟨?_, ?_, ?_, ?_, .inr (by decide +kernel), ?_⟩ <;> decide +kernel⟩,
    ⟨{ st [] with ep := [(0, { dstate := 3, pmeStatus := true })] }, 0, by decide +kernel⟩,
    ⟨{ st [(PRT_Pp_CFG.MODE 64, 3), (PRT_Pp_STATUS.STATE 64, 4)] with ep := [(1, { aspm := 1 })] }, 1, 9, by decide +kernel⟩,
    ⟨{ st [(PRT_Pp_CFG.MODE 64, 3), (PRT_Pp_STATUS.STATE 64, 4)] with ep := [(1, { dstate := 3 })] }, 1, 9, by decide +kernel⟩,
    ⟨{ st [(AEP_STATUS.MODE, 1)] with intxPend := 5, intxOn := true }, by decide +kernel⟩,
    ⟨{ st [(AEP_STATUS.MODE, 1)] with intxPend := 5, intxOn := true }, 0, true, by decide +kernel⟩,
    ⟨{ st [(PRT_Pp_CFG.MODE 64, 3), (PRT_Pp_STATUS.STATE 64, 4)] with standby := true }, .text, 9, 0, .failover 9 false,
      by refine ⟨?_, ?_, ?_, ?_, ?_, ?_, ?_, .inl (by decide +kernel), ?_⟩ <;> decide +kernel⟩,
    ⟨st [(CSS_SIi_BIND.KIND 7, 2), (CSS_SIi_BIND.FUNC 7, 255), (AEP_CTL.HRETRY, 3)], 511, true, by decide +kernel⟩⟩

theorem witness_EndpaperCommandsComplete :
    (∃ (s : State) (h : Nat), s.stopped = false ∧ (s.hart h).world = true ∧ (s.hart h).run ≠ .debug ∧ (s.core (coreOf h)).takeover = none ∧
      Instr.wellFormed (.endpaperHang h) = true) ∧
    (∃ (s s1 : State) (h l : Nat), s.stopped = false ∧ s.f (ENDP_HARTn_STATUS.STATE h) = 4 ∧ (s.seFor (coreOf h / 48)).isSome = true ∧ ((s.untilLeaf
      l).writeArea h).measureCode = (s1, some true) ∧ s1.svc.restarts.get [] h = [] ∧ 2 ≤ s1.f ENDP_CTL.RESTART_LIMIT ∧ s1.f (ENDP_HARTn_STATUS.RESTARTS
      h) < 2 ^ 32 - 1 ∧ Instr.wellFormed (.restartMeasured h l) = true) ∧
    (∃ (s : State) (h r : Nat) (out : Option Word), s.stopped = false ∧ s.on (ENDP_KSn_CTL.BUSY h) = true ∧ s.svc.ksWait.get none h = some (r, out) ∧
      r < 8 ∧ Instr.wellFormed (.keyServiceResult h) = true) ∧
    (∃ (s : State) (works : Bool), s.off = false ∧ s.svc.keySe ≠ none ∧ works = true ∧ s.svc.out.contains 1 = false) ∧
    (∃ (s : State) (works : Bool), s.off = false ∧ s.svc.keySe ≠ none ∧ (works = false ∨ s.svc.out.contains 1 = true)) :=
  ⟨⟨{ st [] with harts := [(383, { world := true, run := .running })] }, 383, by decide +kernel⟩,
    ⟨measured, ((measured.untilLeaf 9).writeArea 383).measureCode.1, 383, 9,
      by refine ⟨?_, ?_, ?_, pair_of (by decide +kernel), ?_⟩ <;> (and_intros <;> decide +kernel)⟩,
    ⟨{ st [(ENDP_KSn_CTL.BUSY 383, 1)] with svc := { ksWait := [(383, some (7, some 77))] } }, 383, 7, some 77, by decide +kernel⟩,
    ⟨st [], true, by decide +kernel⟩,
    ⟨st [], false, by decide +kernel⟩⟩

theorem leNat_byte (b : List Byte) (j : Nat) (h : j < b.length) : leNat b / 2 ^ (8 * j) % 256 = b[j].toNat := by
  induction b generalizing j with
  | nil => simp at h
  | cons x b ih =>
    have hx := x.isLt
    cases j with
    | zero => simp [leNat]; omega
    | succ j =>
      have h8 : 2 ^ (8 * (j + 1)) = 256 * 2 ^ (8 * j) := by rw [show 8 * (j + 1) = 8 + 8 * j by omega, Nat.pow_add]
      rw [leNat, h8, ← Nat.div_div_eq_div_mul, show (x.toNat + 256 * leNat b) / 256 = leNat b by omega]
      simpa using ih j (by simpa using h)

theorem leNat_lt (b : List Byte) : leNat b < 2 ^ (8 * b.length) := by
  induction b with
  | nil => decide
  | cons x b ih =>
    have hx := x.isLt
    have h8 : 2 ^ (8 * (x :: b).length) = 256 * 2 ^ (8 * b.length) := by
      rw [List.length_cons, show 8 * (b.length + 1) = 8 + 8 * b.length by omega, Nat.pow_add]
    rw [leNat, h8]; omega

theorem lineByte_lineBytes (b : List Byte) (h : b.length ≤ 64) : (List.range b.length).map (fun j => lineByte (lineBytes b) j) = b := by
  refine List.ext_getElem (by simp) (fun j h1 h2 => ?_)
  have hb := leNat_byte b j h2
  have hl : leNat b < 2 ^ 512 := lt_of_lt_of_le (leNat_lt b) (Nat.pow_le_pow_right (by decide) (by omega))
  apply BitVec.eq_of_toNat_eq
  simp [lineByte, lineBytes, Nat.shiftRight_eq_div_pow, Nat.mod_eq_of_lt hl, hb]

theorem seRead_copy {s : State} {a len : Nat} {d : Line} {q : Bool} (hp : s.populated a = true) (hg : s.guardRefuses 0 a true false = false)
    (hc : s.curCopies.get none (copyKey 4 (a / 64) true) = some (d, q)) (h0 : len ≠ 0) (hl : len ≤ 64 - a % 64) :
    (s.seRead a len).2 = some ((List.range len).map (fun j => lineByte d (a % 64 + j)), q) := by
  have h2 : len / 64 + 2 = (len / 64 + 1) + 1 := rfl
  have hm : min (64 - a % 64) len = len := by omega
  rw [State.seRead, h2]
  simp [State.seLines, State.readCur, State.takeCopy, hp, hg, hc, h0, hm]

theorem blob0_ok : blob0.length = 24 ∧ keyUnwrap (home []).kek blob0 = some (List.replicate 16 0) :=
  keyUnwrap_wrap (by simp [State.kek, beBytes]) 2 (by decide) (by simp)

theorem asked_kek (s : State) (arg0 : Word) (op : Nat) (a1 : Word)
    (h : (List.range 6).map (fun k => (asked s arg0 op a1).reg (ENDP_MEAS_IMAGEk k)) = (List.range 6).map (fun k => (home []).reg (ENDP_MEAS_IMAGEk k)))
    (hd : (asked s arg0 op a1).reg ENDP_DEBUG = (home []).reg ENDP_DEBUG) : (asked s arg0 op a1).kek = (home []).kek := by
  rw [State.kek, State.kek, h, hd]

theorem blob_read : ((asked blobState 0xFF 2 0x2000).seRead 0x2000 24).2 = some (blob0, false) := by
  rw [seRead_copy (d := lineBytes blob0) (q := false) (by decide +kernel) (by decide +kernel) rfl (by decide) (by decide)]
  have h := lineByte_lineBytes blob0 (by rw [blob0_ok.1]; decide)
  rw [blob0_ok.1] at h
  simpa using h

theorem entryOf_handle {s s' : State} {i : Nat} (hk : s.keys = s'.keys) (hh : s.handleKey = s'.handleKey)
    (h : let e := s.keys.get {} i
      let x := BitVec.ofNat 64 (e.inst * 2 ^ 40 + e.epoch * 2 ^ 24 + i * 2 ^ 12)
      wbits x 23 12 = i ∧ wbits x 63 48 = 0 ∧ wbits x 11 0 = 0 ∧ e.valid = true ∧ e.epoch = wbits x 39 24 ∧ e.inst = wbits x 47 40) :
    s.entryOf (s'.handleOf i) = some i := by
  simp only at h
  obtain ⟨h1, h2, h3, h4, h5, h6⟩ := h
  unfold State.entryOf State.handleOf
  simp only [← hk, ← hh, Equiv.symm_apply_apply, h1]
  rw [if_pos ⟨h2, h3, h4, h5, h6⟩]

theorem witness_KeyRequestCommandsComplete :
    (∃ (s : State) (who : Requester) (h : Nat) (arg0 : Word) (u : Nat → Word → State) (i : _), s.stopped = false ∧ h < 384 ∧ who ≠ .text ∧ s.on
      (ENDP_KSn_CTL.BUSY h) = false ∧ s.svc.keySe.isSome = true ∧ (∀ op a1, u op a1 = ((s.setF (ENDP_KSn_OP.OP h) op).setReg (ENDP_KSn_ARG0 h)
      arg0).setReg (ENDP_KSn_ARG1 h) a1) ∧ wbits arg0 9 8 < 2 ∧ (List.range 4096).find? (fun j => !(s.keys.get {} j).valid) = some i ∧ Instr.wellFormed
      (.generateKey who h arg0) = true) ∧
    (∃ (s : State) (who : Requester) (h : Nat) (arg0 arg1 : Word) (u : Nat → Word → State) (i s1 blob key : _), s.stopped = false ∧ h < 384 ∧ who ≠
      .text ∧ s.on (ENDP_KSn_CTL.BUSY h) = false ∧ s.svc.keySe.isSome = true ∧ (∀ op a1, u op a1 = ((s.setF (ENDP_KSn_OP.OP h) op).setReg (ENDP_KSn_ARG0
      h) arg0).setReg (ENDP_KSn_ARG1 h) a1) ∧ (u 2 arg1).seRead arg1.toNat (keyLen (wbits arg0 9 8) + 8) = (s1, some (blob, false)) ∧ keyUnwrap (u 2
      arg1).kek blob = some key ∧ weakPair (wbits arg0 9 8) key = false ∧ (List.range 4096).find? (fun j => !(s1.keys.get {} j).valid) = some i ∧
      Instr.wellFormed (.importKey who h arg0 arg1) = true) ∧
    (∃ (s : State) (who : Requester) (h : Nat) (arg0 arg1 : Word) (u : Nat → Word → State) (i blob : _), s.stopped = false ∧ h < 384 ∧ who ≠ .text ∧
      s.on (ENDP_KSn_CTL.BUSY h) = false ∧ s.svc.keySe.isSome = true ∧ (∀ op a1, u op a1 = ((s.setF (ENDP_KSn_OP.OP h) op).setReg (ENDP_KSn_ARG0 h)
      arg0).setReg (ENDP_KSn_ARG1 h) a1) ∧ (u 3 arg1).entryOf arg0 = some i ∧ blob = keyWrap (u 3 arg1).kek (s.keys.get {} i).key ∧ Instr.wellFormed
      (.exportKey who h arg0 arg1) = true) ∧
    (∃ (s : State) (who : Requester) (h : Nat) (arg0 : Word) (u : Nat → Word → State) (i : _), s.stopped = false ∧ h < 384 ∧ who ≠ .text ∧ s.on
      (ENDP_KSn_CTL.BUSY h) = false ∧ s.svc.keySe.isSome = true ∧ (∀ op a1, u op a1 = ((s.setF (ENDP_KSn_OP.OP h) op).setReg (ENDP_KSn_ARG0 h)
      arg0).setReg (ENDP_KSn_ARG1 h) a1) ∧ (u 4 0).entryOf arg0 = some i ∧ Instr.wellFormed (.revokeKey who h arg0) = true) :=
  ⟨⟨st [], .endpaper, 383, 0x1FF, asked (st []) 0x1FF, 0, by refine ⟨?_, ?_, ?_, ?_, ?_, fun _ _ => rfl, ?_⟩ <;> decide +kernel⟩,
    ⟨blobState, .endpaper, 383, 0xFF, 0x2000, asked blobState 0xFF, 0, ((asked blobState 0xFF 2 0x2000).seRead 0x2000 24).1, blob0, List.replicate 16
      0,
      by refine ⟨?_, ?_, ?_, ?_, ?_, fun _ _ => rfl, pair_of blob_read, (congrArg (keyUnwrap · blob0) (asked_kek _ _ _ _ (by decide +kernel) (by decide +kernel))).trans blob0_ok.2, ?_⟩ <;> (and_intros <;> decide +kernel)⟩,
    ⟨keyState, .endpaper, 383, keyState.handleOf 5, 0x2000, asked keyState (keyState.handleOf 5), 5, _,
      by refine ⟨?_, ?_, ?_, ?_, ?_, fun _ _ => rfl, entryOf_handle (by rfl) (by rfl) (by decide +kernel), rfl, ?_⟩ <;> decide +kernel⟩,
    ⟨keyState, .endpaper, 383, keyState.handleOf 5, asked keyState (keyState.handleOf 5), 5,
      by refine ⟨?_, ?_, ?_, ?_, ?_, fun _ _ => rfl, entryOf_handle (by rfl) (by rfl) (by decide +kernel), ?_⟩ <;> decide +kernel⟩⟩

theorem witness_HeadbandCommandsComplete :
    (∃ (s : State) (l : Nat), s.off = false ∧ s.hb.closed < l ∧ l < 2 ^ 56 ∧ s.hb.started = false ∧ Instr.wellFormed (.leafClose l) = true) ∧
    (∃ (s : State) (l : Nat) (r : Reservation), s.off = false ∧ s.hb.closed < l ∧ l < 2 ^ 56 ∧ s.hb.started = true ∧ s.hb.frozen = false ∧ s.hb.queue
      = [r] ∧ s.hb.granted = [] ∧ s.hb.drop = [] ∧ r.rail < 12 ∧ r.leaf ≤ l ∧ 1 ≤ r.cls ∧ r.cls ≤ 5 ∧ r.up = true ∧ (∀ n u, r.what ≠ .level n u) ∧
      r.amount ≤ 4 * s.f (HB_RAILr.STEP_MAX r.rail) ∧ s.f (HB_RAILr.RESERVED r.rail) + r.amount ≤ s.f (HB_RAILr.IMAX r.rail) ∧ Instr.wellFormed
      (.leafClose l) = true) ∧
    (∃ (s : State) (k : Nat), s.off = false ∧ k < 4 ∧ s.hb.started = true ∧ s.count < s.hb.closed * 256 ∧ s.hb.heldAt.get 0 k ≠ s.hb.closed ∧ s.f
      (HB_LINKk_STATUS.HELD k) + 1 < 2 ^ 32 ∧ Instr.wellFormed (.hold k) = true) ∧
    (∃ s : State, s.off = false) :=
  ⟨⟨st [], 9, by decide +kernel⟩,
    ⟨{ st [(HB_RAILr.STEP_MAX 11, 100), (HB_RAILr.IMAX 11, 500), (HB_RAILr.RESERVED 11, 100)] with hb := { started := true, closed := 8, queue := [{ rail := 11, up := true, amount := 400, cls := 5, leaf := 9, what := .wake 191 }] } },
      9, { rail := 11, up := true, amount := 400, cls := 5, leaf := 9, what := .wake 191 },
      by refine ⟨?_, ?_, ?_, ?_, ?_, ?_, ?_, ?_, ?_, ?_, ?_, ?_, ?_, by (intro n u h; cases h), ?_⟩ <;> (and_intros <;> decide +kernel)⟩,
    ⟨{ st [] with hb := { started := true, closed := 8, granted := [{ rail := 9, up := true, amount := 4, cls := 5, leaf := 8, what := .wake 191 }] } },
      3, by decide +kernel⟩,
    ⟨st [], by decide +kernel⟩⟩

theorem witness_SleepCommandsComplete :
    (∃ (s : State) (c : Nat), s.stopped = false ∧ c < 192 ∧ 2 ≤ s.cs c ∧ s.stepTaken (.wake c) = none ∧ (∀ r ∈ s.hb.granted, r.what ≠ .wake c) ∧
      Instr.wellFormed (.wake c) = true) ∧
    (∃ (s : State) (g : Reservation) (c : _), s.stopped = false ∧ s.hb.frozen = false ∧ s.hb.granted = [g] ∧ s.turnOf g.leaf 3 = true ∧ g.leaf * 256 +
      32 < 2 ^ 64 ∧ g.what = .wake c) ∧
    (∃ (s : State) (g : Reservation) (n : _), s.stopped = false ∧ s.hb.frozen = false ∧ s.hb.granted = [g] ∧ s.turnOf g.leaf 3 = true ∧ g.leaf * 256 +
      32 < 2 ^ 64 ∧ g.what = .level n true ∧ n < 24 ∧ 1 ≤ s.f (HB_QSTATUSn.LEVEL n) ∧ s.f (HB_QSTATUSn.LEVEL n) ≤ 16) ∧
    (∃ (s : State) (c : Nat), s.stopped = false ∧ c < 192 ∧ s.cs c = 1 ∧ s.f HB_CTL.PARK_IDLE ≠ 0 ∧ s.coreDeadline c = none ∧ s.hb.csSince.get 0 c +
      s.f HB_CTL.PARK_IDLE < 2 ^ 56 ∧ s.hb.queue = [] ∧ Instr.wellFormed (.park c) = true) ∧
    (∃ (s : State) (c : Nat), s.stopped = false ∧ c < 192 ∧ s.cs c = 2 ∧ s.f HB_CTL.GATE_IDLE ≠ 0 ∧ s.coreDeadline c = none ∧ s.stepTaken (.wake c) =
      none ∧ (∀ r ∈ s.hb.granted, r.what ≠ .wake c) ∧ Instr.wellFormed (.gate c) = true) ∧
    (∃ (s : State) (c at_ : Nat), s.stopped = false ∧ c < 192 ∧ 2 ≤ s.cs c ∧ s.stepTaken (.wake c) = some at_ ∧ at_ + wakeUnits (s.cs c) < 2 ^ 64 ∧
      Instr.wellFormed (.wakeComplete c) = true) :=
  ⟨⟨(st []).setCs 191 2, 191, by decide +kernel⟩,
    ⟨{ st [] with hb := { granted := [{ rail := 3, up := true, amount := 14, cls := 3, leaf := 9, what := .wake 191 }] } },
      { rail := 3, up := true, amount := 14, cls := 3, leaf := 9, what := .wake 191 }, 191, by decide +kernel⟩,
    ⟨{ st [(HB_QSTATUSn.LEVEL 23, 16)] with hb := { granted := [{ rail := 3, up := true, amount := 4, cls := 3, leaf := 9, what := .level 23 true }] } },
      { rail := 3, up := true, amount := 4, cls := 3, leaf := 9, what := .level 23 true }, 23, by decide +kernel⟩,
    ⟨(st [(HB_CTL.PARK_IDLE, 9)]).setCs 191 1, 191, by decide +kernel⟩,
    ⟨(st [(HB_CTL.GATE_IDLE, 9)]).setCs 191 2, 191, by decide +kernel⟩,
    ⟨{ ((st []).setCs 191 3) with hb := { taken := [(.wake 191, 99)] } }, 191, 99, by decide +kernel⟩⟩

theorem witness_ThermalCommandsComplete :
    (∃ (s : State) (g n t : Nat), s.stopped = false ∧ g * 1024 < 2 ^ 56 ∧ n < 24 ∧ t < 256 ∧ s.stepPosted (.level n true) = false ∧ s.stepPosted
      (.level n false) = false ∧ s.f HB_THERM.THROTTLE ≤ t ∧ s.f (HB_QSTATUSn.LEVEL n) < 16 ∧ s.awake n ≠ 0 ∧ Instr.wellFormed (.levelAdjust g n t) =
      true) ∧
    (∃ (s : State) (g n t : Nat), s.stopped = false ∧ g * 1024 < 2 ^ 56 ∧ n < 24 ∧ t < 256 ∧ s.stepPosted (.level n true) = false ∧ s.stepPosted
      (.level n false) = false ∧ t + s.f HB_THERM.HYST ≤ s.f HB_THERM.THROTTLE ∧ t < s.f HB_THERM.THROTTLE ∧ s.f (HB_QSTATUSn.LEVEL n) ≠ 0 ∧ s.f
      (HB_QSTATUSn.LEVEL n) ≤ 16 ∧ s.awake n = 0 ∧ Instr.wellFormed (.levelAdjust g n t) = true) ∧
    (∃ (s : State) (n : Nat), s.stopped = false ∧ n < 24 ∧ s.hb.emergency.contains n = false ∧ s.awake n ≠ 0 ∧ s.f (HB_QSTATUSn.LEVEL n) ≤ 16 ∧
      Instr.wellFormed (.thermalEmergency n) = true) ∧
    (∃ s : State, s.off = false) ∧
    (∃ (s : State) (d c mv : Nat), s.stopped = false ∧ d < 24 ∧ c < 2 ^ 64 ∧ s.f (HB_QSTATUSn.DROOPS d) + 1 < 2 ^ 16 ∧ s.hb.droops.get {} d = {} ∧
      s.life.get 0 (64 * (0x7300 + 8 * d)) + 1 < 2 ^ 64 ∧ Instr.wellFormed (.droop d c mv) = true) ∧
    (∃ (s : State) (d : Nat), s.stopped = false ∧ Instr.wellFormed (.droopStretchEnd d) = true) ∧
    (∃ (s : State) (g d : Nat) (r : DroopRun), s.off = false ∧ g * 1024 < 2 ^ 56 ∧ s.hb.droops = [(d, r)] ∧ s.logQueue.length < 1024 ∧
      Instr.wellFormed (.droopSummary g) = true) ∧
    (∃ (s : State) (t : Nat), s.off = false ∧ 85 ≤ t ∧ s.hb.cold = true ∧ s.life.get 0 (64 * 0x18 + 32) + 1 < 2 ^ 16 ∧ Instr.wellFormed (.thermalCycle
      t) = true) ∧
    (∃ (s : State) (t : Nat), s.off = false ∧ t ≤ 45 ∧ Instr.wellFormed (.thermalCycle t) = true) :=
  ⟨⟨st [(HB_THERM.THROTTLE, 255), (HB_QSTATUSn.LEVEL 23, 15)], 7, 23, 255, by decide +kernel⟩,
    ⟨(List.range 8).foldl (fun a k => a.setCs (184 + k) 2) (st [(HB_THERM.THROTTLE, 95), (HB_THERM.HYST, 5), (HB_QSTATUSn.LEVEL 23, 16)]), 7, 23, 90,
      by decide +kernel⟩,
    ⟨st [(HB_QSTATUSn.LEVEL 23, 14)], 23, by decide +kernel⟩,
    ⟨st [], by decide +kernel⟩,
    ⟨st [], 23, 99, 40, by decide +kernel⟩,
    ⟨st [], 23, by decide +kernel⟩,
    ⟨{ st [] with hb := { droops := [(23, { firings := 2, first := 3, last := 9, deepest := 40 })] } }, 7, 23,
      { firings := 2, first := 3, last := 9, deepest := 40 }, by decide +kernel⟩,
    ⟨st [], 85, by decide +kernel⟩,
    ⟨st [], 45, by decide +kernel⟩⟩

theorem witness_SettingsCommandsComplete :
    (∃ (s : State) (who : Requester) (size o : Nat), s.off = false ∧ s.locked who 15 = false ∧ s.on COL_STATUS.STORE = false ∧ 24 ≤ o ∧ o + size ≤
      0x7FFFC ∧ o % size = 0 ∧ size = 8) ∧
    (∃ (s : State) (who : Requester) (size o : Nat), s.off = false ∧ s.locked who 15 = false ∧ s.on COL_STATUS.STORE = false ∧ 24 ≤ o ∧ o + size ≤
      0x7FFFC ∧ o % size = 0 ∧ size = 4) ∧
    (∃ (s : State) (who : Requester), s.off = false ∧ s.on COL_STATUS.STORE = false ∧ s.admits who 8 COL_CMD (COL_CMD.STORE.put 1 0) = true) ∧
    (∃ (s : State) (k seq : Nat), s.off = false ∧ s.col.target = some k ∧ k < 2 ∧ s.svc.owed = [] ∧ seq = s.newestSlot.elim 1 (fun w => w.2.2 + 1)) ∧
    (∃ (s : State) (who : Requester), s.off = false ∧ s.on COL_STATUS.STORE = false ∧ s.admits who 8 COL_CMD (COL_CMD.DISCARD.put 1 0) = true) :=
  ⟨⟨st [], .text, 8, 0x7FFF0, by decide +kernel⟩,
    ⟨{ st [] with col := { work := [(0xFFFE, 0x123456789)] } }, .text, 4, 0x7FFF4, by decide +kernel⟩,
    ⟨st [], .text, by decide +kernel⟩,
    ⟨{ st [(COL_STATUS.COPY1, 2)] with col := { target := some 1, work := [(0xFFFE, 0x123456789)] } }, 1, 1, by decide +kernel⟩,
    ⟨st [], .text, by decide +kernel⟩⟩

theorem witness_RecordCommandsComplete :
    (∃ (s : State) (who : Requester), s.off = false ∧ s.admits who 8 COL_CMD (COL_CMD.COMMIT.put 1 0) = true) ∧
    (∃ (s : State) (l h : Nat), s.off = false ∧ l < 2 ^ 56 ∧ h = (s.newerHalf 0x40000).elim 0 (fun n => 1 - n) ∧ l % 1048576 = 0 ∧ s.leaf ≤ l ∧
      s.turnOf l 7 = true) ∧
    (∃ (s : State) (l h : Nat) (e : LeafEvent), s.off = false ∧ l < 2 ^ 56 ∧ h = (s.newerHalf 0x40000).elim 0 (fun n => 1 - n) ∧ l % 1048576 ≠ 0 ∧
      s.posted = [e] ∧ e.kind = .lifetimeCommit ∧ e.leaf < 2 ^ 56) ∧
    (∃ (s : State) (h : Nat), s.off = false ∧ s.col.half = some h ∧ s.f (copyField s.colCopy) ≠ 2) ∧
    (∃ (s : State) (base : Nat), s.off = false ∧ s.f (copyField s.colCopy) ≠ 2 ∧ base = 0x20000 + (s.newerHalf 0x20000).elim 0 (fun h => 1 - h) *
      0x10000) ∧
    (∃ (s : State) (c : Nat), s.off = false ∧ c < 2 ∧ s.f (copyField c) ≠ 2 ∧ Instr.wellFormed (.colophonCopyFailure c) = true) ∧
    (∃ (s : State) (c : Nat), s.off = false ∧ c < 2 ∧ s.f (copyField c) = 1 ∧ Table.wf (fun _ => 0) s.col.mram = true ∧ (∀ e ∈ s.col.mram, e.1 < 2 ^
      21) ∧ Instr.wellFormed (.colophonRebuilt c) = true) ∧
    (∃ (s : State) (r : LogRecord) (rest : List LogRecord), s.off = false ∧ s.logQueue = r :: rest ∧ s.f (copyField s.colCopy) ≠ 2) ∧
    (∃ (s : State) (g n drift mv temp gain : Nat), s.off = false ∧ g * 1024 < 2 ^ 56 ∧ n < 216 ∧ stressGain mv temp = (gain, true) ∧ Instr.wellFormed
      (.agingMeasure g [(n, drift, mv, temp)]) = true) ∧
    (∃ (s : State) (who : Requester) (v : Word), s.stopped = false ∧ s.admits who 8 SVC_LOCK v = true) :=
  ⟨⟨st [], .text, by decide +kernel⟩,
    ⟨st [], 1048576, 0, by decide +kernel⟩,
    ⟨{ st [] with posted := [{ leaf := 9, kind := .lifetimeCommit }] }, 9, 0, { leaf := 9, kind := .lifetimeCommit }, by decide +kernel⟩,
    ⟨{ st [(COL_STATUS.LIFE, 1)] with col := { half := some 1 } }, 1, by decide +kernel⟩,
    ⟨st [], 0x20000, by decide +kernel⟩,
    ⟨st [], 1, by decide +kernel⟩,
    ⟨{ st [(COL_STATUS.COPY1, 1)] with col := { mram := [(5, 77), (2 ^ 20 + 7, 9)] } }, 1, by decide +kernel⟩,
    ⟨{ st [(COL_LOG_STATUS.NEXT, 65535)] with logQueue := [rec0] }, rec0, [], by decide +kernel⟩,
    ⟨st [], 7, 215, 3, 800, 85, 16384, by decide +kernel⟩,
    ⟨st [], .text, 0x8001, by decide +kernel⟩⟩

theorem witness_RegisterAndEdgeCommandsComplete :
    (∃ (s : State) (who : Requester) (k : Nat) (v : Word) (fits : Bool) (d : RegDesc), s.stopped = false ∧ k ∈ [HB_CTL, HB_THERM, COL_CTL,
      CPU_RAS_CTL, MESH_CTL, CSS_CTL, PRT_CTL, BL_CTL] ∧ findReg k = some (d, []) ∧ s.admits who 8 k v = true ∧ Instr.wellFormed (.registerWrite who 8 k
      v fits) = true) ∧
    (∃ (s : State) (who : Requester) (size o : Nat) (v : Word) (fits : Bool), s.stopped = false ∧ o < 0x80000 ∧ Instr.wellFormed (.registerWrite who
      size (15 * 0x10000000 + 0x100000 + o) v fits) = true) ∧
    (∃ (s : State) (g : Nat), s.stopped = false ∧ g * 1024 < 2 ^ 56 ∧ Instr.wellFormed (.gatheringEdge g) = true) ∧
    (∃ (s : State) (l n : Nat), s.stopped = false ∧ n < 2 ^ 56 ∧ s.leaf ≤ n ∧ (s.engine l).tick ≠ 0 ∧ n % (s.engine l).tick = 0 ∧ (s.untilLeaf
      n).takesEvents l = false ∧ Instr.wellFormed (.tick l n) = true) ∧
    (∃ s : State, s.off = false ∧ s.mainPg = true) :=
  ⟨⟨st [], .text, HB_CTL, HB_CTL.PARK_IDLE.put 9 ((st []).reg HB_CTL), true, ((findReg HB_CTL).get (by decide +kernel)).1,
      by and_intros <;> decide +kernel⟩,
    ⟨st [], .text, 8, 0x7FFF8, 77, true, by decide +kernel⟩,
    ⟨st [(CPU_CORE_STATUSc.FAILS 191, 3)], 7, by decide +kernel⟩,
    ⟨{ st [] with engines := [(255, { tick := 100, imem := [(0, some 5)] })] }, 255, 600, by decide +kernel⟩,
    ⟨{ st [] with mainPg := true }, by decide +kernel⟩⟩

theorem witness_BootCommandsComplete :
    (∃ (mid se copies : Nat) (bad : Bool), se % 4 = 3 ∧ Instr.wellFormed (.coldReset mid se bad copies) = true) ∧
    (∃ (mid se copies : Nat) (bad : Bool), se % 4 ≠ 3 ∧ bad = true ∧ Instr.wellFormed (.coldReset mid se bad copies) = true) ∧
    (∃ (mid se copies : Nat) (bad : Bool), se % 4 ≠ 3 ∧ bad = false ∧ copies % 4 = 3 ∧ Instr.wellFormed (.coldReset mid se bad copies) = true) ∧
    (∃ (mid se copies : Nat) (bad : Bool), se % 4 ≠ 3 ∧ bad = false ∧ copies % 4 ≠ 3 ∧ Instr.wellFormed (.coldReset mid se bad copies) = true) ∧
    (∃ (s : State) (dead : _), s.stopped = false ∧ s.boot = 0x0040 ∧ s.mainPg = false ∧ Instr.wellFormed (.mainPgRise true dead) = true) ∧
    (∃ s : State, s.stopped = false ∧ s.boot = 0x0040 ∧ s.mainPg = false ∧ (s.diesReached 6 [4]).length = 6 ∧ Instr.wellFormed (.mainPgRise false [])
      = true) ∧
    (∃ (s : State) (a : Option (List Byte)) (l : _), s.stopped = false ∧ s.boot = 0x0060 ∧ a = some l ∧ l.length = s.imageLen false ∧ ((s.setting
      0x88).getLsbD 0 = false ∨ sha384 l = s.expected false) ∧ s.released = false) ∧
    (∃ s : State, s.stopped = false ∧ s.boot = 0x0070 ∧ Instr.wellFormed (.ddrTrainingDone []) = true) ∧
    (∃ (s : State) (r : SlotReport), s.stopped = false ∧ s.boot = 0x0070 ∧ r.chan < 16 ∧ 1 ≤ r.count ∧ r.fits = true ∧ r.trained = true ∧
      Instr.wellFormed (.ddrTrainingDone [r]) = true) ∧
    (∃ (s : State) (l : Nat) (ks : List Nat) (k : Nat), s.stopped = false ∧ s.boot = 0x0080 ∧ s.svc.staged = [] ∧ Instr.wellFormed (.fillDone l ks) =
      true ∧ k < 16 ∧ s.fills k = true ∧ (s.f SCR_FILL_STATUS.DONE).testBit k = false ∧ k ∉ ks) ∧
    (∃ (s : State) (l : Nat) (ks : List Nat), s.stopped = false ∧ s.boot = 0x0080 ∧ s.svc.staged = [] ∧ Instr.wellFormed (.fillDone l ks) = true ∧ (∀
      k < 16, s.fills k = true → (s.f SCR_FILL_STATUS.DONE).testBit k = true ∨ k ∈ ks) ∧ s.populated s.loadBase.toNat = false) ∧
    (∃ (s : State) (l : Nat) (ks : List Nat), s.stopped = false ∧ s.boot = 0x0080 ∧ s.svc.staged = [] ∧ Instr.wellFormed (.fillDone l ks) = true ∧ (∀
      k < 16, s.fills k = true → (s.f SCR_FILL_STATUS.DONE).testBit k = true ∨ k ∈ ks) ∧ s.populated s.loadBase.toNat = true ∧ s.populated
      (s.loadBase.toNat - 1) = true ∧ s.released = false) :=
  ⟨⟨7, 3, 0, false, by decide +kernel⟩,
    ⟨7, 1, 0, true, by decide +kernel⟩,
    ⟨7, 1, 3, false, by decide +kernel⟩,
    ⟨7, 1, 1, false, by decide +kernel⟩,
    ⟨{ st [] with boot := 0x40, mainPg := false }, [4], by decide +kernel⟩,
    ⟨{ st [] with boot := 0x40, mainPg := false }, by decide +kernel⟩,
    ⟨{ st [] with boot := 0x60, released := false, col := { image := [(0x89, 0x100000010000)] } }, some (List.replicate 4096 1), List.replicate 4096
      1, by decide +kernel, by decide +kernel, rfl, List.length_replicate.trans (by decide +kernel), by and_intros <;> decide +kernel⟩,
    ⟨{ st [] with boot := 0x70 }, by decide +kernel⟩,
    ⟨{ st [] with boot := 0x70 }, slot0, by decide +kernel⟩,
    ⟨{ mem [(MC_CHk_STATUS.CAP 0, 16), (MC_CHk_STATUS.STATE 0, 2)] with boot := 0x80 }, 9, [], 0, by decide +kernel⟩,
    ⟨{ st [] with boot := 0x80 }, 9, [15], by decide +kernel⟩,
    ⟨{ mem [(MC_CHk_STATUS.CAP 0, 16), (MC_CHk_STATUS.STATE 0, 2)] with boot := 0x80, released := false }, 9, [0], by decide +kernel⟩⟩

theorem witness_ReleaseAndWarmResetCommandsComplete :
    (∃ s : State, s.stopped = false ∧ s.f TB_STATUS.STATE ≠ 0 ∧ s.boot = 0x00C0) ∧
    (∃ s : State, s.stopped = false ∧ s.f TB_STATUS.STATE ≠ 0 ∧ s.boot = 0x00C1) ∧
    (∃ s : State, s.stopped = false ∧ s.boot = 0x00F0 ∧ s.released = true ∧ s.svc.warmAt = none ∧ s.svc.resetAt = none) ∧
    (∃ (s : State) (l x : Nat), s.stopped = false ∧ s.svc.warmAt = some x ∧ x + 1001 ≤ l ∧ s.on COL_STATUS.STORE = false ∧ s.heldReqs = [] ∧
      s.svc.lostLater = [] ∧ (∀ i < 256, s.resetting i = false) ∧ s.channels = []) :=
  ⟨⟨{ mem [(TB_STATUS.STATE, 1)] with boot := 0xC0 }, by decide +kernel⟩,
    ⟨{ mem [(TB_STATUS.STATE, 2)] with boot := 0xC1 }, by decide +kernel⟩,
    ⟨{ mem [] with boot := 0xF0, released := true }, by decide +kernel⟩,
    ⟨{ mem [] with boot := 0xF0, svc := { warmAt := some 9 }, journal := [(0, some (entry0 none))] }, 1010, 9, by and_intros <;> decide +kernel⟩⟩

theorem witness_ServiceAccessCommandsComplete :
    (∃ (s : State) (p tag : Nat), s.Serves p 1 ∧ Instr.wellFormed (.info p tag []) = true ∧ Instr.wellFormed (.resetCold p tag) = true) ∧
    (∃ (s : State) (p tag : Nat), s.Serves p 1 ∧ Instr.wellFormed (.info p tag []) = true ∧ s.svc.resetAt = none ∧ Instr.wellFormed (.resetWarm p tag)
      = true) ∧
    (∃ (s : State) (p tag : Nat), s.off = false ∧ (s.portSe p).isSome = true ∧ Instr.wellFormed (.info p tag [.read (s.wires p).address]) = true) ∧
    (∃ (s : State) (p tag bits : Nat) (found : WireFound), s.off = false ∧ Instr.wellFormed (.info p tag [.tapReset, .scanDr 32 bits found]) = true) ∧
    (∃ (s s1 : State) (p tag a size m k v : Nat), s.Serves p 5 ∧ s.sysBad a size = false ∧ s.on ENDP_DEBUG.TEXT_INV = true ∧ s.region a = .setup m k ∧
      s.setupRead .text k size = (s1, some v) ∧ s1.svc = s.svc ∧ Instr.wellFormed (.sysRead p tag a size) = true) ∧
    (∃ (s s1 : State) (p tag a size : Nat) (d : Line), s.Serves p 5 ∧ s.sysBad a size = false ∧ s.on ENDP_DEBUG.TEXT_INV = true ∧ s.region a = .dram ∧
      s.guardRefuses 0 a false false = false ∧ s1.svc = s.svc ∧ s.readCur (4 + p) (a / 64) = (s1, some (d, false)) ∧ Instr.wellFormed (.sysRead p tag a
      size) = true) ∧
    (∃ (s u : State) (p tag a size m k : Nat) (v : Word) (fits : Bool), s.Serves p 5 ∧ s.sysBad a size = false ∧ s.on ENDP_DEBUG.TEXT_INV = true ∧
      s.region a = .setup m k ∧ s.sysLocked k = false ∧ u = s.setupWrite .text size k v fits ∧ u.svc = s.svc ∧ Instr.wellFormed (.sysWrite p tag a size
      v fits) = true) ∧
    (∃ (s : State) (p tag n : Nat), s.Serves p 3 ∧ n < 65536 ∧ Instr.wellFormed (.logRead p tag n) = true) ∧
    (∃ (s : State) (p tag n : Nat) (e : JEntry), s.Serves p 10 ∧ n < 262144 ∧ s.deadDies = [] ∧ s.f CSS_JOURNAL.COPY0 = 0 ∧ s.entry n = some e ∧
      Instr.wellFormed (.journalRead p tag n) = true) ∧
    (∃ (s : State) (p tag a v : Nat), s.Serves p 5 ∧ s.dmBusy = false ∧ Instr.wellFormed (.dmi p tag a none) = true ∧ (s.svc.dm.get 0 0x10).getLsbD 0
      = true ∧ (a = 4 ∨ a = 5) ∧ Instr.wellFormed (.dmi p tag a (some v)) = true) :=
  ⟨⟨served [], 1, 9, by unfold State.Serves; decide +kernel, by decide +kernel⟩,
    ⟨served [], 1, 9, by unfold State.Serves; decide +kernel, by decide +kernel⟩,
    ⟨served [], 1, 9, by decide +kernel⟩,
    ⟨served [], 1, 9, 0x29624987, {}, by decide +kernel⟩,
    ⟨served [], ((served []).setupRead .text HB_CTL 8).1, 1, 9, 0xE000000000000 + HB_CTL, 8, 0, HB_CTL, ((served []).setupRead .text HB_CTL 8).2.getD
      0, by (unfold State.Serves; decide +kernel),
      by refine ⟨?_, ?_, ?_, pair_of (some_getD (by decide +kernel)), ?_⟩ <;> (and_intros <;> decide +kernel)⟩,
    ⟨{ served [] with curCopies := [(0x1005, some (0x77, false))] }, (({ served [] with curCopies := [(0x1005, some (0x77, false))] } : State).readCur
      (4 + 1) (0x2038 / 64)).1, 1, 9, 0x2038, 8, 0x77, by unfold State.Serves; decide +kernel,
      by refine ⟨?_, ?_, ?_, ?_, ?_, pair_of (by decide +kernel), ?_⟩ <;> decide +kernel⟩,
    ⟨served [], (served []).setupWrite .text 8 HB_CTL 5 true, 1, 9, 0xE000000000000 + HB_CTL, 8, 0, HB_CTL, 5, true,
      by (unfold State.Serves; decide +kernel), by and_intros <;> decide +kernel⟩,
    ⟨served [], 1, 9, 65535, by (unfold State.Serves; decide +kernel), by and_intros <;> decide +kernel⟩,
    ⟨{ served [] with journal := [(262143, some (entry0 none))] }, 1, 9, 262143, entry0 none, by (unfold State.Serves; decide +kernel),
      by and_intros <;> decide +kernel⟩,
    ⟨{ served [] with svc := { dm := [(0x10, 1)] } }, 1, 9, 5, 77, by unfold State.Serves; decide +kernel, by and_intros <;> decide +kernel⟩⟩

theorem witness_ServiceUnitCommandsComplete :
    (∃ (s : State) (p tag c : Nat), s.Serves p 13 ∧ s.moveRefused c = false ∧ Instr.wellFormed (.moveCore p tag c) = true) ∧
    (∃ (s : State) (p tag c : Nat), s.Serves p 13 ∧ s.moveRefused c = true ∧ Instr.wellFormed (.moveCore p tag c) = true) ∧
    (∃ (s : State) (p tag loc d : Nat), s.Serves p 13 ∧ s.unitOf loc = some (.colophon d) ∧ s.deadDies = [] ∧ d < 2 ∧ s.f (copyField d) = 0 ∧
      Instr.wellFormed (.retire p tag loc) = true) ∧
    (∃ (s : State) (p tag loc d : Nat), s.Serves p 13 ∧ s.unitOf loc = some (.colophon d) ∧ s.deadDies = [] ∧ d < 2 ∧ s.f (copyField d) ≠ 0 ∧
      Instr.wellFormed (.retire p tag loc) = true) ∧
    (∃ (s : State) (p tag loc n : Nat), s.Serves p 5 ∧ s.unitOf loc = some (.lane n) ∧ s.deadDies = [] ∧ n < 256 ∧ (s.f (PRT_Gj_LANES.DISABLED (n /
      8))).testBit (n % 8) = true ∧ Instr.wellFormed (.requalify p tag loc true) = true) ∧
    (∃ (s : State) (p tag loc r : Nat), s.Serves p 5 ∧ s.unitOf loc = some (.router r) ∧ s.svc.tests = [] ∧ Instr.wellFormed (.loopback p tag loc 0) =
      true) ∧
    (∃ (s : State) (loc r errors checked : Nat) (test : LoopTest), s.off = false ∧ s.unitOf loc = some (.router r) ∧ s.unitOf (test.loc.word 5) = some
      (.router r) ∧ s.svc.tests = [test] ∧ test.state = 0 ∧ test.saved = [] ∧ test.spare = none ∧ test.until_ < 2 ^ 56 ∧ Instr.wellFormed (.loopbackEnd
      loc errors checked) = true) ∧
    (∃ (s : State) (p tag loc : Nat) (u : SvcUnit) (test : LoopTest), s.Serves p 5 ∧ s.unitOf loc = some u ∧ s.unitAbsent u = false ∧ s.testOf u =
      some test ∧ Instr.wellFormed (.loopResult p tag loc) = true) ∧
    (∃ (s : State) (p tag loc n : Nat) (resp : List Byte), s.Serves p 10 ∧ s.unitOf loc = some (.lane n) ∧ s.deadDies = [] ∧ s.trains (s.leadPort (n /
      2)) = true ∧ s.portState (s.leadPort (n / 2)) = 4 ∧ Instr.wellFormed (.margin p tag loc resp) = true) ∧
    (∃ (s s1 : State) (p tag : Nat) (l : List Byte), s.Serves p 1 ∧ s.drawBytes 4 = (l, s1) ∧ Instr.wellFormed (.debugChallenge p tag) = true) ∧
    (∃ (s : State) (p tag : Nat), s.Serves p 3 ∧ s.svc.nonce.isSome = true ∧ Instr.wellFormed (.debugUnlock p tag false) = true) ∧
    (∃ (s : State) (p tag : Nat), s.Serves p 3 ∧ s.svc.nonce.isSome = true ∧ s.on COL_STATUS.STORE = false ∧ Instr.wellFormed (.debugUnlock p tag
      true) = true) :=
  ⟨⟨served [], 1, 9, 191, by (unfold State.Serves; decide +kernel), by and_intros <;> decide +kernel⟩,
    ⟨served [(CPU_CORE_STATUSc.STATE 191, 3)], 1, 9, 191, by (unfold State.Serves; decide +kernel), by and_intros <;> decide +kernel⟩,
    ⟨served [], 1, 9, loc5 5 9 0 281, 1, by (unfold State.Serves; decide +kernel), by and_intros <;> decide +kernel⟩,
    ⟨served [(COL_STATUS.COPY1, 2)], 1, 9, loc5 5 9 0 281, 1, by (unfold State.Serves; decide +kernel), by and_intros <;> decide +kernel⟩,
    ⟨served [(PRT_Gj_LANES.DISABLED 31, 0x80)], 1, 9, ({ die := 5, quire := 9, tile := 0, unit := 63, array := 1 } : Loc).word 6, 255,
      by unfold State.Serves; decide +kernel, by and_intros <;> decide +kernel⟩,
    ⟨served [], 1, 9, loc5 3 5 8 9, 215, by (unfold State.Serves; decide +kernel), by and_intros <;> decide +kernel⟩,
    ⟨{ served [] with svc := { tests := [test0] } }, loc5 3 5 8 9, 215, 3, 77, test0, by decide +kernel⟩,
    ⟨{ served [] with svc := { tests := [test0] } }, 1, 9, loc5 3 5 8 9, .router 215, test0, by (unfold State.Serves; decide +kernel),
      by and_intros <;> decide +kernel⟩,
    ⟨served [(PRT_Pp_CFG.MODE 127, 1), (PRT_Pp_STATUS.STATE 127, 4)], 1, 9, ({ die := 5, quire := 9, tile := 0, unit := 63, array := 1 } : Loc).word
      6, 255, [1, 2, 3, 4], by (unfold State.Serves; decide +kernel), by and_intros <;> decide +kernel⟩,
    ⟨served [], ((served []).drawBytes 4).2, 1, 9, ((served []).drawBytes 4).1, by (unfold State.Serves; decide +kernel), rfl, by decide +kernel⟩,
    ⟨{ served [] with svc := { nonce := some 5 } }, 1, 9, by unfold State.Serves; decide +kernel, by and_intros <;> decide +kernel⟩,
    ⟨{ served [] with svc := { nonce := some 5 } }, 1, 9, by (unfold State.Serves; decide +kernel), by and_intros <;> decide +kernel⟩⟩

theorem witness_StepRunsTheFrontCommand :
    (∃ (s : State) (c : Instr) (rest : List Instr), s.pending = c :: rest) ∧
    (∃ s : State, s.pending = [] ∧ s.off = true) ∧
    (∃ s : State, s.pending = [] ∧ s.off = false) :=
  ⟨⟨{ State.reset with pending := [.inputLost (.edges true), .etodGapTimeout] }, .inputLost (.edges true), [.etodGapTimeout], by decide +kernel⟩,
    ⟨{ State.reset with off := true }, by decide +kernel⟩,
    ⟨State.reset, by decide +kernel⟩⟩

theorem witness_RegisterWritesAreJudged :
    (∃ (s : State) (who : Requester) (c : Nat) (v : Word), s.stopped = false ∧ c < 192 ∧ s.lostCore c = true ∧ s.admits who 8 (CPU_SPEC_CTLc c) v =
      true) ∧
    (∃ (s : State) (size k : Nat) (d : RegDesc) (is : List Nat), s.stopped = false ∧ k % 8 = 0 ∧ inWindow k = false ∧ findReg k = some (d, is) ∧
      s.unitGone k = true) ∧
    (∃ (s : State) (size k : Nat) (d : RegDesc) (is : List Nat), s.stopped = false ∧ k % 8 = 0 ∧ inWindow k = false ∧ findReg k = some (d, is) ∧
      s.unitGone k = false ∧ size ≠ 8) ∧
    (∃ (s : State) (who : Requester) (size k : Nat) (d : RegDesc) (is : List Nat), s.stopped = false ∧ k % 8 = 0 ∧ inWindow k = false ∧ findReg k =
      some (d, is) ∧ s.unitGone k = false ∧ size = 8 ∧ endpaperOnly k = true ∧ who = .text) ∧
    (∃ (s : State) (who : Requester) (size k : Nat) (d : RegDesc) (is : List Nat), s.stopped = false ∧ k % 8 = 0 ∧ inWindow k = false ∧ findReg k =
      some (d, is) ∧ s.unitGone k = false ∧ size = 8 ∧ endpaperOnly k = false ∧ s.locked who d.block = true ∧ d.fields.all (fun f => decide (f.acc = .rw)) = true ∧ d.fields ≠
      []) ∧
    (∃ (s : State) (who : Requester) (size k : Nat) (v : Word) (d : RegDesc) (is : List Nat), s.stopped = false ∧ k % 8 = 0 ∧ inWindow k = false ∧
      findReg k = some (d, is) ∧ s.unitGone k = false ∧ size = 8 ∧ (endpaperOnly k = false ∨ who ≠ .text) ∧ s.locked who d.block = false ∧ reservedIn d.fields v = true) :=
  ⟨⟨st [(CPU_CORE_STATUSc.STATE 191, 3)], .text, 191, 0, by decide +kernel⟩,
    ⟨{ st [] with deadDies := [1] }, 8, PRT_Pp_CFG 127, ((findReg (PRT_Pp_CFG 127)).get (by decide +kernel)).1, [127], by decide +kernel⟩,
    ⟨{ st [] with deadDies := [1] }, 4, PRT_Pp_CFG 63, ((findReg (PRT_Pp_CFG 63)).get (by decide +kernel)).1, [63], by decide +kernel⟩,
    ⟨st [], .text, 8, ENDP_CTL, ((findReg ENDP_CTL).get (by decide +kernel)).1, [], by decide +kernel⟩,
    ⟨{ st [(TB_COUNT.COUNT, 512)] with lockFrom := [(HB_CTL / 0x10000000, 1)] }, .text, 8, HB_CTL, ((findReg HB_CTL).get (by decide +kernel)).1, [],
      by decide +kernel⟩,
    ⟨st [], .text, 8, TB_CTL, TB_CTL.SRC.put 7 0, ((findReg TB_CTL).get (by decide +kernel)).1, [], by decide +kernel⟩⟩

theorem witness_AbsentOffsetsReadZeroAndIgnoreWrites :
    ∃ (s : State) (k : Nat), s.stopped = false ∧ s.ListsRegisters ∧ k < 17 * 0x10000000 ∧ findReg (k / 8 * 8) = none ∧ inWindow k = false :=
  ⟨State.reset, 0x10FFFFFFF, by decide +kernel, by (unfold State.ListsRegisters; decide +kernel), by and_intros <;> decide +kernel⟩

theorem witness_MisalignedAtomicsTrap :
    ∃ (s : State) (h n raw cause : Nat) (c : Instr) (k : InstrClass) (kinds : List Nat) (va : Word) (wrong : List WrongAcc), ((c = .lr h raw wrong ∧ k
    = .lr ∧ cause = 4 ∧ kinds = [0]) ∨ (c = .sc h raw wrong ∧ k = .sc ∧ cause = 6 ∧ kinds = [1]) ∨ (c = .amo h raw wrong ∧ k = .amo ∧ cause = 6 ∧
    kinds = [0, 1])) ∧ s.ActsEither h raw k wrong (fun u => u.settled h = true ∧ u.AtomicAt h n raw kinds va) ∧ va.toNat % n ≠ 0 :=
  ⟨lrAt id, 0, 8, 0x100332AF, 4, .lr 0 0x100332AF [.load 0x2000], .lr, [0], 0x2001, [.load 0x2000], by decide +kernel, ⟨⟨acted (lrAt id) 0
    0x100332AF .lr, acting_acted (by decide +kernel), by (unfold State.AtomicAt; decide +kernel)⟩, ⟨acted ((lrAt id).strayed 0 .lr [.load 0x2000]) 0
    0x100332AF .lr, acting_acted (by decide +kernel), by (unfold State.AtomicAt; decide +kernel)⟩⟩, by decide +kernel⟩

theorem witness_ThermalCyclesAreCounted :
    (∃ (s : State) (t : Nat), s.off = false ∧ 85 ≤ t ∧ s.hb.cold = true) ∧
    (∃ (s : State) (t : Nat), s.off = false ∧ t ≤ 45) ∧
    (∃ (s : State) (t : Nat), s.off = false ∧ 45 < t ∧ (t < 85 ∨ s.hb.cold = false)) :=
  ⟨⟨State.reset, 85, by decide +kernel⟩,
    ⟨State.reset, 45, by decide +kernel⟩,
    ⟨State.reset, 84, by decide +kernel⟩⟩

theorem witness_StoppedModuleHoldsStill :
    (∃ s : State, s.off = true ∧ s.stopped = true ∧ s.mainEn = false ∧ s.mainPg = false ∧ (∀ c ∈ s.pending, ∀ mid se bad copies, c ≠ .coldReset mid se
      bad copies)) ∧
    (∃ (s : State) (c : Instr), s.stopped = true ∧ onVkeep c = false) :=
  ⟨⟨{ State.reset with stopped := true, off := true, pending := [.inputLost (.edges true), .etodGapTimeout, .slewComplete] },
      by refine ⟨?_, ?_, ?_, ?_, by simp⟩ <;> decide +kernel⟩,
    ⟨{ st [] with stopped := true }, .agwWait 0 0, by decide +kernel⟩⟩

theorem witness_LeafCloseKeepsTheBudgets :
    ∃ (s : State) (l : Nat), s.off = false ∧ s.hb.closed < l ∧ l < 2 ^ 56 ∧ s.hb.started = true ∧ s.hb.frozen = false ∧ (∀ x ∈ s.hb.granted, x.leaf ≤
    s.hb.closed) :=
  ⟨railState, 9, by decide +kernel⟩

theorem witness_TimePowerAndStoreCommandsFrame :
    (∃ (s t : State) (cmd : Instr), cmd.wellFormed = true ∧ exec cmd s = .next t ∧ ((∃ bytes, cmd = .etodMessage bytes) ∨ cmd = .etodGapTimeout ∨ cmd
      = .etodFramingError ∨ (∃ t distA distB a b, cmd = .emarkEdge t distA distB a b) ∨ cmd = .pendingMessageExpiry ∨ (∃ second, cmd = .emarkMissCheck
      second) ∨ (∃ b n ppb, cmd = .inputQualified b n ppb) ∨ (∃ l, cmd = .inputLost l) ∨ (∃ t, cmd = .holdLimit t) ∨ cmd = .slewComplete ∨ (∃ who v, cmd
      = .substituteEntry who v) ∨ (∃ who v, cmd = .substituteExit who v) ∨ (∃ who v, cmd = .acceptStep who v) ∨ (∃ g dies, cmd = .replicaCheck g dies))
      ∧ (∀ n distA distB a b, cmd ≠ .emarkEdge n distA distB a b)) ∧
    (∃ (s t : State) (cmd : Instr), cmd.wellFormed = true ∧ exec cmd s = .next t ∧ ((∃ c, cmd = .wake c) ∨ (∃ l, cmd = .leafClose l) ∨ (∃ k, cmd =
      .hold k) ∨ cmd = .currentStep ∨ cmd = .hbRestart ∨ cmd = .hbRestartEnd ∨ (∃ c, cmd = .park c) ∨ (∃ g n t, cmd = .levelAdjust g n t) ∨ (∃ n, cmd =
      .thermalEmergency n) ∨ (∃ d t mv, cmd = .droop d t mv) ∨ (∃ d, cmd = .droopStretchEnd d) ∨ (∃ g, cmd = .droopSummary g) ∨ (∃ t, cmd =
      .thermalCycle t) ∨ (∃ c, cmd = .wakeComplete c))) ∧
    (∃ (s t : State) (cmd : Instr), cmd.wellFormed = true ∧ exec cmd s = .next t ∧ ((∃ who size o v, cmd = .colWorkWrite who size o v) ∨ (∃ who, cmd =
      .storeSettings who) ∨ (∃ fails, cmd = .storeEnd fails) ∨ (∃ who, cmd = .discardSettings who) ∨ (∃ who, cmd = .commitLifetime who) ∨ (∃ l, cmd =
      .lifetimeCommit l) ∨ cmd = .lifetimeCommitEnd ∨ cmd = .repairRecordWrite ∨ (∃ c, cmd = .colophonCopyFailure c) ∨ (∃ c, cmd = .colophonRebuilt c) ∨
      cmd = .eventLogRecord ∨ (∃ g ms, cmd = .agingMeasure g ms) ∨ (∃ who v, cmd = .svcLock who v) ∨ (∃ h, cmd = .keyServiceResult h) ∨ (∃ works, cmd =
      .keyServiceTakeover works))) :=
  ⟨⟨State.reset, _, .inputLost (.edges true), by decide +kernel, rfl, by simp, by simp⟩,
    ⟨{ State.reset with hb := { started := true } }, _, .hbRestart, by decide +kernel, rfl, by simp⟩,
    ⟨State.reset, _, .colophonCopyFailure 1, by decide +kernel, rfl, by simp⟩⟩

theorem witness_LinkCommandsFrame :
    (∃ (s t : State) (cmd : Instr), cmd.wellFormed = true ∧ exec cmd s = .next t ∧ ((∃ g pmeEn, cmd = .d3hotEntry g pmeEn) ∨ (∃ frame, cmd =
      .wakeEvent frame) ∨ cmd = .pmeRepeat ∨ (∃ g l flit, cmd = .l0sEntry g l flit) ∨ (∃ g l, cmd = .l1Entry g l) ∨ (∃ v, cmd = .intxPendClear v) ∨ (∃ g
      v, cmd = .interruptDisable g v) ∨ (∃ g, cmd = .perstDeassertion g) ∨ (∃ g n, cmd = .busMasterEnableCleared g n))) ∧
    (∃ (s t : State) (cmd : Instr), cmd.wellFormed = true ∧ exec cmd s = .next t ∧ ((∃ p posted, cmd = .inboundUr p posted) ∨ (∃ j bytes, cmd = .flit
      j bytes) ∨ (∃ j ack, cmd = .nak j ack) ∨ (∃ j, cmd = .replayTimeout j) ∨ (∃ j m serial link off last, cmd = .train j m serial link off last) ∨ (∃
      j, cmd = .broipTrainingTimeout j) ∨ (∃ j, cmd = .broipBackoffEnd j) ∨ (∃ j, cmd = .linkSilence j) ∨ (∃ j, cmd = .retrainReq j) ∨ (∃ j, cmd =
      .widthReq j) ∨ (∃ j, cmd = .grant j) ∨ (∃ m k last, cmd = .linkState m k last) ∨ (∃ who m, cmd = .clearLost who m) ∨ (∃ m, cmd = .depart m))) ∧
    (∃ s t : State, exec .evacuationHandoverEnd s = .next t) ∧
    (∃ (s t : State) (cmd : Instr), cmd.wellFormed = true ∧ exec cmd s = .next t ∧ ((∃ id, cmd = .completionTimeout id) ∨ (∃ p, cmd = .dpcRelease p) ∨
      (∃ p found l, cmd = .trainingFailure p found l) ∨ (∃ p, cmd = .backoffEnd p) ∨ (∃ p, cmd = .backoffDetection p) ∨ (∃ who p, cmd = .retrain who p)
      ∨ (∃ p v, cmd = .creditReturn p v))) :=
  ⟨⟨State.reset, _, .d3hotEntry 0 true, by decide +kernel, rfl, by simp⟩,
    ⟨State.reset, _, .depart 7, by decide +kernel, rfl, by simp⟩,
    ⟨State.reset, _, rfl⟩,
    ⟨State.reset, _, .backoffEnd 127, by decide +kernel, rfl, by simp⟩⟩

theorem witness_ChannelAndCoreCommandsFrame :
    (∃ (s t : State) (cmd : Instr), cmd.wellFormed = true ∧ exec cmd s = .next t ∧ ((∃ l, cmd = .divideEnd l) ∨ (∃ l n, cmd = .ioRdEnd l n) ∨ (∃ l a
      st, cmd = .ioWriteError l a st) ∨ (∃ l n, cmd = .rdJnlEnd l n) ∨ (∃ l n st data, cmd = .extRdEnd l n st data) ∨ (∃ p, cmd = .extensionSignal p) ∨
      (∃ who off size v, cmd = .engineMemoryWrite who off size v) ∨ (∃ l n, cmd = .tick l n))) ∧
    (∃ (s t : State) (cmd : Instr), cmd.wellFormed = true ∧ exec cmd s = .next t ∧ ((∃ off, cmd = .shortDoorbell off) ∨ (∃ q, cmd = .commandAccepted
      q) ∨ (∃ c, cmd = .journalAlone c) ∨ (∃ c, cmd = .journalRebuilt c) ∨ (∃ port ok, cmd = .pathRecoveryRead port ok) ∨ (∃ who k t p v, cmd =
      .pathWrite who k t p v) ∨ (∃ q, cmd = .streamReceive q) ∨ (∃ q, cmd = .fenceCommand q) ∨ (∃ who q, cmd = .queuePause who q) ∨ (∃ q, cmd = .quiet
      q) ∨ (∃ who q, cmd = .queueUnpause who q) ∨ (∃ p st off data psn, cmd = .streamDataWrite p st off data psn) ∨ (∃ p st v len relaxed, cmd =
      .streamClosingWrite p st v len relaxed) ∨ (∃ p st, cmd = .frameWaitTimeout p st) ∨ (∃ who k v, cmd = .bindWrite who k v) ∨ (∃ n, cmd =
      .bucketRefill n) ∨ (∃ who k v, cmd = .rateWrite who k v))) ∧
    (∃ (s t : State) (cmd : Instr), cmd.wellFormed = true ∧ (∀ n, (s.tile n).held = []) ∧ exec cmd s = .next t ∧ ((∃ c, cmd = .retrySuccess c) ∨ (∃ c
      k, cmd = .keepScrub c k) ∨ (∃ h, cmd = .hang h) ∨ (∃ c, cmd = .clockFailure c) ∨ (∃ c l, cmd = .powerFailure c l) ∨ (∃ c, cmd = .keepIslandSupply
      c) ∨ (∃ who v, cmd = .cpuSpareCmdGo who v) ∨ (∃ h file id, cmd = .msi h file id) ∨ ((∀ c < 192, (s.core c).retryDue = false) ∧ ∃ t addr v, cmd =
      .ioReadData t addr v) ∨ (∃ m t line, cmd = .evn m t line) ∨ ((∀ n < 216, ∀ x ∈ (s.slice n).txns, x.landed = []) ∧ ∃ m u line, cmd = .wbInFlight m
      u line))) ∧
    (∃ (s t : State) (cmd : Instr), cmd.wellFormed = true ∧ (∀ k < 16, (s.chan k).half = none) ∧ exec cmd s = .next t ∧ ((∃ who k, cmd = .offline who
      k) ∨ (∃ who k, cmd = .online who k) ∨ (∃ k, cmd = .channelSafe k) ∨ (∃ k count type gib ranks density stack rate x4, cmd = .powerGood k count type
      gib ranks density stack rate x4) ∨ (∃ k, cmd = .channelTrained k) ∨ (∃ k, cmd = .selfRefreshEntry k) ∨ (∃ who e floor, cmd = .floorWrite who e
      floor) ∨ (∃ g, cmd = .weightEffect g) ∨ (∃ k, cmd = .lapWarn k) ∨ (∃ who g v, cmd = .mgLock who g v) ∨ (∃ who v, cmd = .l3SliceCmdGo who v) ∨ (∃
      n, cmd = .handoffEnd n))) :=
  ⟨⟨State.reset, _, .extensionSignal 127, by decide +kernel, rfl, by simp⟩,
    ⟨State.reset, _, .journalAlone 1, by decide +kernel, rfl, by simp⟩,
    ⟨State.reset, _, .evn 7 215 0x80, by decide +kernel, fun _ => rfl, rfl, by simp⟩,
    ⟨State.reset, _, .lapWarn 15, by decide +kernel, by decide +kernel, rfl, by simp⟩⟩

theorem witness_RegisterInstructionsFrame :
    ∃ (s u : State) (h raw w : Nat) (a b v : Word), s.acting h raw .int = some u ∧ u.settled h = true ∧ (u.hart h).pc = (s.hart h).pc ∧ w = instrWord
    raw ∧ a = (u.hart h).getX (iRs1 w) ∧ b = (u.hart h).getX (iRs2 w) ∧ ((iOp w = 0x13 ∧ aluImm w a = some v) ∨ (iOp w = 0x1B ∧ aluImmW w a = some v)
    ∨ (iOp w = 0x33 ∧ rvAluOp (iF7 w) (iF3 w) a b = some v) ∨ (iOp w = 0x3B ∧ rvAluOpW (iF7 w) (iF3 w) (iRs2 w) a b = some v) ∨ (iOp w = 0x37 ∧ v =
    word (immU w)) ∨ (iOp w = 0x17 ∧ v = (u.hart h).pc + word (immU w))) :=
  ⟨hartAt 0x00730033 [] (x6 9), acted (hartAt 0x00730033 [] (x6 9)) 0 0x00730033 .int, 0, 0x00730033, instrWord 0x00730033, 9, 7, 16, acting_acted
    (by decide +kernel), by and_intros <;> decide +kernel⟩

theorem witness_MemoryKeepsItsForm :
    ∃ (s t : State) (cmd : Instr), cmd.wellFormed = true ∧ Memory.wf s.dram = true ∧ exec cmd s = .next t ∧ ((∃ m t line world resolved noL3 err, cmd
    = .rds m t line world resolved noL3 err) ∨ (∃ m t line world noL3 err, cmd = .rdown m t line world noL3 err) ∨ (∃ m t line world, cmd = .upg m t
    line world) ∨ (∃ m t line world, cmd = .zero m t line world) ∨ (∃ m die line err, cmd = .rdcur m die line err) ∨ (∃ m die line d psn, cmd =
    .wrfull m die line d psn) ∨ (∃ m die line d mask psn err, cmd = .wrpart m die line d mask psn err) ∨ (∃ m t line d psn keeps world, cmd = .wb m t
    line d psn keeps world) ∨ (∃ m t line world, cmd = .cmoClean m t line world) ∨ (∃ m t line world, cmd = .cmoFlush m t line world) ∨ (∃ m t line
    world, cmd = .cmoInvalidate m t line world) ∨ (∃ m u t line atHome, cmd = .doneResponse m u t line atHome) ∨ (∃ m u line, cmd = .notHeld m u line)
    ∨ (∃ k copied, cmd = .channelFailure k copied) ∨ (∃ k, cmd = .resilverEnd k) ∨ (∃ k n lines half errs, cmd = .scrubBurst k n lines half errs) ∨ (∃
    k g lines half errs, cmd = .scrubWake k g lines half errs) ∨ (∃ k resource lines time, cmd = .softRepair k resource lines time) ∨ (∃ k, cmd =
    .softRepairEnd k) ∨ (∃ who copy, cmd = .rawRead who copy) ∨ (∃ who copy, cmd = .rawWrite who copy) ∨ (∃ err, cmd = .rawAccessEnd err)) :=
  ⟨{ State.reset with dram := [(64, 7)] }, _, .zero 0 0 1 false, by decide +kernel, by decide +kernel, rfl, by simp⟩

end Sys2Proof.Tests
end

namespace Sys2Proof.Machine

open Sys2Proof

/-! ### What a trap's bookkeeping leaves of a hart

Counters, triggers, predictors, reservations and the core's sleep state move when an exception is taken and when an instruction ends; the
integer registers, the mode, the world and the CSRs that tell of the trap do not. -/

/-- The stored CSRs that tell of a trap: xcause and xepc of M-, HS- and VS-mode and of Endpaper's M-mode, and dcsr. -/
def trapKeys : List Nat := [0x342, 0x341, 0x142, 0x141, 0x242, 0x241, 0x1342, 0x1341, 0x7B0]

/-- A hart with the integer registers, the mode, the world and the trap CSRs of another. -/
structure Hart.KeepsTrap (t u : Hart) : Prop where
  x : t.x = u.x
  priv : t.priv = u.priv
  world : t.world = u.world
  csr : ∀ k ∈ trapKeys, ∀ d, t.csr.get d k = u.csr.get d k

theorem Hart.KeepsTrap.refl (t : Hart) : t.KeepsTrap t := ⟨rfl, rfl, rfl, fun _ _ _ => rfl⟩

theorem Hart.KeepsTrap.trans {a b c : Hart} (hab : a.KeepsTrap b) (hbc : b.KeepsTrap c) : a.KeepsTrap c :=
  ⟨hab.x.trans hbc.x, hab.priv.trans hbc.priv, hab.world.trans hbc.world, fun k hk d => (hab.csr k hk d).trans (hbc.csr k hk d)⟩

theorem Hart.KeepsTrap.csrIn_eq {t u : Hart} (hk : t.KeepsTrap u) {world : Bool} {a : Nat} (ha : csrKey world a ∈ trapKeys) :
    t.csrIn world a = u.csrIn world a := hk.csr _ ha _

/-- A fold whose every step keeps these keeps them. -/
theorem Hart.keepsTrap_foldl {β : Type} (g : Hart → β → Hart) (l : List β) (hg : ∀ t, ∀ b ∈ l, (g t b).KeepsTrap t) (t : Hart) :
    (l.foldl g t).KeepsTrap t := by
  induction l generalizing t with
  | nil => exact .refl t
  | cons b l ih =>
    have hrest : ∀ u, ∀ c ∈ l, (g u c).KeepsTrap u := fun u c hc => hg u c (List.mem_cons_of_mem b hc)
    exact (ih hrest (g t b)).trans (hg t b List.mem_cons_self)

/-! ### Writes of CSRs -/

@[simp] theorem csrKey_false (a : Nat) : csrKey false a = a := rfl

theorem csrKey_cases (world : Bool) (a : Nat) : csrKey world a = a ∨ csrKey world a = a + 0x1000 := by
  unfold csrKey
  split
  · exact .inr rfl
  · exact .inl rfl

theorem Hart.setCsrIn_keepsTrap (t : Hart) {world : Bool} {a : Nat} (v : Word) (ha : csrKey world a ∉ trapKeys) :
    (t.setCsrIn world a v).KeepsTrap t :=
  ⟨rfl, rfl, rfl, fun _ hk d => Table.get_set_other' _ d _ _ (ne_of_mem_of_not_mem hk ha)⟩

/-- A CSR outside the trap CSRs in either bank is written. -/
theorem Hart.wr_keepsTrap (t : Hart) {a : Nat} (v : Word) (ha : a ∉ trapKeys) (ha' : a + 0x1000 ∉ trapKeys) : (t.wr a v).KeepsTrap t := by
  apply t.setCsrIn_keepsTrap v
  rcases csrKey_cases t.world a with h | h <;> rwa [h]

/-- The triggers lie above every trap CSR. -/
theorem not_mem_trapKeys_of_le {k : Nat} (h : 0x2000 ≤ k) : k ∉ trapKeys := by
  simp only [trapKeys, List.mem_cons, List.not_mem_nil, or_false]
  omega

/-- mhpmevent3 to 31 and mhpmcounter3 to 31 are no trap CSRs. -/
theorem counterKeys_not_mem_trapKeys {i : Nat} (hi : i < 29) : 0x323 + i ∉ trapKeys ∧ 0xB03 + i ∉ trapKeys := by
  simp only [trapKeys, List.mem_cons, List.not_mem_nil, or_false]
  omega

theorem Hart.addCounter_keepsTrap (t : Hart) {i : Nat} (n : Nat) (hi : i < 29) : (t.addCounter i n).KeepsTrap t := by
  obtain ⟨hev, hcnt⟩ := counterKeys_not_mem_trapKeys hi
  have hcounted := t.setCsrIn_keepsTrap (world := false) (t.csrIn false (0xB03 + i) + BitVec.ofNat 64 n) hcnt
  unfold Hart.addCounter
  dsimp only
  split
  · exact ((Hart.setCsrIn_keepsTrap _ _ (by decide)).trans (Hart.setCsrIn_keepsTrap _ (world := false) _ hev)).trans hcounted
  · exact hcounted

theorem Hart.count_keepsTrap (t : Hart) (ev n : Nat) : (t.count ev n).KeepsTrap t := by
  apply Hart.keepsTrap_foldl
  intro t i hi
  split
  · exact t.addCounter_keepsTrap n (List.mem_range.mp hi)
  · exact .refl t

theorem Hart.icount_keepsTrap (t was : Hart) : (t.icount was).KeepsTrap t := by
  apply Hart.keepsTrap_foldl
  intro t i _
  dsimp only
  split
  · apply t.wr_keepsTrap <;> exact not_mem_trapKeys_of_le (by unfold trigKey; omega)
  · exact .refl t

/-! ### The state around the hart -/

@[simp] theorem State.hart_modHart_same (s : State) (h : Nat) (g : Hart → Hart) : (s.modHart h g).hart h = g (s.hart h) := by
  simp [State.hart, State.modHart]

/-- A state in which hart `h` keeps these, and memory, the tiles and the hart's tile are those of another. -/
structure State.KeepsTrap (t s : State) (h : Nat) : Prop where
  hart : (t.hart h).KeepsTrap (s.hart h)
  dram : t.dram = s.dram
  tiles : t.tiles = s.tiles
  tile : t.tileOfHart h = s.tileOfHart h

theorem State.KeepsTrap.refl (s : State) (h : Nat) : s.KeepsTrap s h := ⟨.refl _, rfl, rfl, rfl⟩

theorem State.KeepsTrap.trans {a b c : State} {h : Nat} (hab : a.KeepsTrap b h) (hbc : b.KeepsTrap c h) : a.KeepsTrap c h :=
  ⟨hab.hart.trans hbc.hart, hab.dram.trans hbc.dram, hab.tiles.trans hbc.tiles, hab.tile.trans hbc.tile⟩

/-- A hart is settled where dcsr, the tiles and its tile are as in a state in which it is. -/
theorem State.settled_of_eq {t s : State} {h : Nat} (hs : s.settled h = true) (htiles : t.tiles = s.tiles)
    (htile : t.tileOfHart h = s.tileOfHart h) (hd : (t.hart h).csrIn false 0x7B0 = (s.hart h).csrIn false 0x7B0) : t.settled h = true := by
  unfold State.settled State.tile at *
  rwa [htiles, htile, hd]

theorem State.modHart_settled {s : State} {h : Nat} {g : Hart → Hart} (hs : s.settled h = true)
    (hg : (g (s.hart h)).csrIn false 0x7B0 = (s.hart h).csrIn false 0x7B0) : (s.modHart h g).settled h = true :=
  State.settled_of_eq hs rfl rfl (by rwa [State.hart_modHart_same])

theorem State.KeepsTrap.settled {t s : State} {h : Nat} (hk : t.KeepsTrap s h) (hs : s.settled h = true) : t.settled h = true :=
  State.settled_of_eq hs hk.tiles hk.tile (hk.hart.csrIn_eq (by decide))

theorem State.modHart_keepsTrap (s : State) (h : Nat) {g : Hart → Hart} (hg : (g (s.hart h)).KeepsTrap (s.hart h)) :
    (s.modHart h g).KeepsTrap s h := ⟨by rwa [State.hart_modHart_same], rfl, rfl, rfl⟩

theorem State.modCore_keepsTrap (s : State) (h c : Nat) (g : Core → Core) : (s.modCore c g).KeepsTrap s h := ⟨.refl _, rfl, rfl, rfl⟩

theorem State.setF_keepsTrap (s : State) (h : Nat) {fld : Fld} (v : Nat)
    (hf : (s.setF fld v).f (CPU_CORE_STATUSc.TILE (coreOf h)) = s.f (CPU_CORE_STATUSc.TILE (coreOf h))) : (s.setF fld v).KeepsTrap s h :=
  ⟨.refl _, rfl, rfl, congrArg (9 * (coreOf h / 8) + ·) hf⟩

theorem State.setF_other_keepsTrap (s : State) (h : Nat) {fld : Fld} (v : Nat) (hf : CPU_CORE_STATUSc (coreOf h) ≠ fld.key) :
    (s.setF fld v).KeepsTrap s h := s.setF_keepsTrap h v (s.f_setF_other fld (CPU_CORE_STATUSc.TILE (coreOf h)) v hf)

theorem State.event_keepsTrap (s : State) (h ev n : Nat) : (s.event h ev n).KeepsTrap s h := by
  unfold State.event
  split
  · exact s.modHart_keepsTrap h (Hart.count_keepsTrap _ ev n)
  · exact .refl s h

theorem State.KeepsTrap.ite {t s : State} {h : Nat} (c : Prop) [Decidable c] (ht : t.KeepsTrap s h) :
    (if c then t else s).KeepsTrap s h := by
  split
  · exact ht
  · exact .refl s h

theorem State.scrub_keepsTrap (s : State) (h mask : Nat) : (s.scrub h mask).KeepsTrap s h := by
  have hras (u : State) : (u.modHart h (fun t => { t with ras := [] })).KeepsTrap u h :=
    u.modHart_keepsTrap h ⟨rfl, rfl, rfl, fun _ _ _ => rfl⟩
  have hmdp (u : State) : (u.modHart h (fun t => { t with mdp := [] })).KeepsTrap u h :=
    u.modHart_keepsTrap h ⟨rfl, rfl, rfl, fun _ _ _ => rfl⟩
  unfold State.scrub
  refine (State.event_keepsTrap _ h 0x30 1).trans ((hmdp _).trans ?_)
  exact (State.KeepsTrap.ite _ (State.modCore_keepsTrap _ h _ _)).trans
    ((State.KeepsTrap.ite _ (hras _)).trans (State.KeepsTrap.ite _ (State.modCore_keepsTrap _ h _ _)))

theorem State.setCs_keepsTrap (s : State) (h v : Nat) : (s.setCs (coreOf h) v).KeepsTrap s h := by
  have hf : CPU_CORE_STATUSc (coreOf h) ≠ (HB_QSTATUSn.CS (coreOf h / 8)).key := by
    show 2 * 0x10000000 + 0x1000 + coreOf h * 0x8 ≠ 1 * 0x10000000 + 0x400 + coreOf h / 8 * 0x8
    omega
  obtain ⟨hhart, hdram, htiles, htile⟩ := s.setF_other_keepsTrap h (fld := HB_QSTATUSn.CS (coreOf h / 8)) _ hf
  exact ⟨hhart, hdram, htiles, htile⟩

theorem State.idleCore_keepsTrap (s : State) (h : Nat) : (s.idleCore (coreOf h)).KeepsTrap s h := by
  unfold State.idleCore
  dsimp only
  split
  · exact s.setCs_keepsTrap h 0
  · split
    · exact s.setCs_keepsTrap h 1
    · exact .refl s h

/-- No answer is held back in the tile of a settled hart. -/
theorem State.freeHeld_of_settled {s : State} {h : Nat} (hs : s.settled h = true) : s.freeHeld h = s := by
  simp only [State.settled, Bool.and_eq_true] at hs
  simp [State.freeHeld, State.freeTile, hs.1]

/-- What a trap does beside the CSRs keeps them. -/
theorem State.trapped_keepsTrap {s : State} {h : Nat} (lvl : Nat) (hs : s.settled h = true) : (s.trapped h lvl).KeepsTrap s h := by
  unfold State.trapped
  dsimp only
  generalize hm : s.modHart h _ = s1
  have h1 : s1.KeepsTrap s h := hm ▸ s.modHart_keepsTrap h ⟨rfl, rfl, rfl, fun _ _ _ => rfl⟩
  rw [State.freeHeld_of_settled (h1.settled hs)]
  exact (State.idleCore_keepsTrap _ h).trans (.trans (State.KeepsTrap.ite _ (s1.scrub_keepsTrap h 5)) h1)

/-- What ends an instruction keeps them. -/
theorem State.ended_keepsTrap {s : State} {h : Nat} (w : Nat) (k : InstrClass) (was : Hart) (hs : s.settled h = true) :
    (s.ended h w k was).KeepsTrap s h := by
  unfold State.ended
  dsimp only
  generalize hm : s.modHart h _ = s1
  have h1 : s1.KeepsTrap s h := by
    obtain ⟨hx, hp, hw, hc⟩ := Hart.icount_keepsTrap (s.hart h) was
    exact hm ▸ s.modHart_keepsTrap h ⟨hx, hp, hw, hc⟩
  have hs1 := h1.settled hs
  have hstep : ((s1.hart h).csrIn false 0x7B0).getLsbD 2 = false := by simpa [State.settled] using (Bool.and_eq_true_iff.mp hs1).2
  rw [State.freeHeld_of_settled hs1, hstep]
  exact h1

/-! ### Trap entry -/

theorem Hart.excLevel_cases (t : Hart) (cause : Nat) : t.excLevel cause = 0 ∨ t.excLevel cause = 1 ∨ t.excLevel cause = 2 := by
  unfold Hart.excLevel
  split
  · exact .inl rfl
  · split
    · exact .inr (.inr rfl)
    · exact .inr (.inl rfl)

theorem Hart.excLevel_of_world {t : Hart} (cause : Nat) (hw : t.world = true) : t.excLevel cause = 0 := by simp [Hart.excLevel, hw]

/-- The hart as the trap of an exception leaves it, at the level that takes the exception. -/
def Hart.trapAt (t : Hart) (lvl cause : Nat) (tval tval2 : Word) (gva : Bool) : Hart :=
  if lvl = 0 then t.trapM false cause tval tval2 gva
  else if lvl = 1 then t.trapHS false cause tval tval2 gva
  else t.trapVS false cause tval

/-- No CSR but dcsr is stored where dcsr is. -/
theorem dcsr_ne_csrKey (world : Bool) {a : Nat} (ha : 0x7B0 ≠ a) (ha' : 0x7B0 ≠ a + 0x1000) : 0x7B0 ≠ csrKey world a := by
  rcases csrKey_cases world a with h | h <;> rwa [h]

@[simp] theorem Hart.wr_x (t : Hart) (a : Nat) (v : Word) : (t.wr a v).x = t.x := rfl

theorem Hart.trapAt_x (t : Hart) (lvl cause : Nat) (tval tval2 : Word) (gva : Bool) : (t.trapAt lvl cause tval tval2 gva).x = t.x := by
  unfold Hart.trapAt
  split
  · cases hw : t.world <;> simp [Hart.trapM, hw]
  · split <;> simp [Hart.trapHS, Hart.trapVS]

theorem Hart.trapAt_dcsr (t : Hart) (lvl cause : Nat) (tval tval2 : Word) (gva : Bool) :
    (t.trapAt lvl cause tval tval2 gva).csrIn false 0x7B0 = t.csrIn false 0x7B0 := by
  unfold Hart.trapAt
  split
  · cases hw : t.world <;> simp [Hart.trapM, hw, Hart.csrIn, Hart.wr, Hart.setCsrIn, Table.get_set_other', dcsr_ne_csrKey]
  · split <;> simp [Hart.trapHS, Hart.trapVS, Hart.csrIn, Hart.wr, Hart.setCsrIn, Table.get_set_other', dcsr_ne_csrKey]

/-- Trap entry in the text world shows the cause and the pc at the level that takes the exception. -/
theorem Hart.trapAt_text {t : Hart} {lvl : Nat} (cause : Nat) (tval tval2 : Word) (gva : Bool) (hw : t.world = false)
    (hl : lvl = 0 ∨ lvl = 1 ∨ lvl = 2) :
    (t.trapAt lvl cause tval tval2 gva).csrIn false ([0x342, 0x142, 0x242].getD lvl 0) = BitVec.ofNat 64 cause ∧
      (t.trapAt lvl cause tval tval2 gva).csrIn false ([0x341, 0x141, 0x241].getD lvl 0) = t.pc := by
  rcases hl with rfl | rfl | rfl <;>
    simp [Hart.trapAt, Hart.trapM, Hart.trapHS, Hart.trapVS, Hart.csrIn, Hart.wr, Hart.setCsrIn, hw, causeWord, Table.get_set_other']

/-- Trap entry in Endpaper goes to its M-mode, whose CSRs show the cause and the pc. -/
theorem Hart.trapM_endpaper {t : Hart} (cause : Nat) (tval tval2 : Word) (gva : Bool) (hw : t.world = true) :
    (t.trapM false cause tval tval2 gva).priv = 3 ∧ (t.trapM false cause tval tval2 gva).csrIn true 0x342 = BitVec.ofNat 64 cause ∧
      (t.trapM false cause tval tval2 gva).csrIn true 0x341 = t.pc := by
  have k1 : csrKey true 0x341 = 0x1341 := by decide
  have k2 : csrKey true 0x342 = 0x1342 := by decide
  have k3 : csrKey true 0x343 = 0x1343 := by decide
  simp [Hart.trapM, Hart.csrIn, Hart.wr, Hart.setCsrIn, hw, causeWord, Table.get_set_other', k1, k2, k3]

/-! ### An exception is taken -/

/-- `t` is `u` once hart `h` has taken an exception of cause `cause`: in the text world at the level that takes it, in Endpaper U-mode in M-mode,
and in Endpaper M-mode as a crash (R84, R479). -/
structure State.TakesException (t u : State) (h cause : Nat) : Prop where
  text : (u.hart h).world = false → (t.hart h).x = (u.hart h).x ∧ t.dram = u.dram ∧
    (t.hart h).csrIn false ([0x342, 0x142, 0x242].getD ((u.hart h).excLevel cause) 0) = BitVec.ofNat 64 cause ∧
    (t.hart h).csrIn false ([0x341, 0x141, 0x241].getD ((u.hart h).excLevel cause) 0) = (u.hart h).pc
  user : (u.hart h).world = true → (u.hart h).priv ≠ 3 → (t.hart h).x = (u.hart h).x ∧ (t.hart h).priv = 3 ∧
    (t.hart h).csrIn true 0x342 = BitVec.ofNat 64 cause ∧ (t.hart h).csrIn true 0x341 = (u.hart h).pc
  crash : (u.hart h).world = true → (u.hart h).priv = 3 → (t.hart h).world = false ∧ (t.hart h).getX 11 = 2 ∧
    (t.hart h).getX 12 = BitVec.ofNat 64 cause

/-- xcause and xepc of every level are trap CSRs. -/
theorem causeKeys_mem_trapKeys {lvl : Nat} (hl : lvl = 0 ∨ lvl = 1 ∨ lvl = 2) :
    csrKey false ([0x342, 0x142, 0x242].getD lvl 0) ∈ trapKeys ∧ csrKey false ([0x341, 0x141, 0x241].getD lvl 0) ∈ trapKeys := by
  rcases hl with rfl | rfl | rfl <;> decide

/-- What keeps the trap's marks keeps that the exception was taken. -/
theorem State.TakesException.of_keepsTrap {v t u : State} {h cause : Nat} (hk : v.KeepsTrap t h) (ht : t.TakesException u h cause) :
    v.TakesException u h cause := by
  obtain ⟨htext, huser, hcrash⟩ := ht
  refine ⟨fun hw => ?_, fun hw hp => ?_, fun hw hp => ?_⟩
  · obtain ⟨hcause, hepc⟩ := causeKeys_mem_trapKeys ((u.hart h).excLevel_cases cause)
    rw [hk.hart.x, hk.dram, hk.hart.csrIn_eq hcause, hk.hart.csrIn_eq hepc]
    exact htext hw
  · rw [hk.hart.x, hk.hart.priv, hk.hart.csrIn_eq (by decide), hk.hart.csrIn_eq (by decide)]
    exact huser hw hp
  · have hx (r : Nat) : (v.hart h).getX r = (t.hart h).getX r := by simp only [Hart.getX, hk.hart.x]
    rw [hk.hart.world, hx, hx]
    exact hcrash hw hp

/-- Trap entry at the level that takes the exception takes it, but for a crash. -/
theorem State.modHart_trapAt_takesException (s : State) (h cause : Nat) (tval tval2 : Word) (gva : Bool)
    (hc : ¬((s.hart h).world = true ∧ (s.hart h).priv = 3)) :
    (s.modHart h (fun t => t.trapAt ((s.hart h).excLevel cause) cause tval tval2 gva)).TakesException s h cause := by
  refine ⟨fun hw => ?_, fun hw _ => ?_, fun hw hp => absurd ⟨hw, hp⟩ hc⟩ <;> rw [State.hart_modHart_same, Hart.trapAt_x]
  · exact ⟨rfl, rfl, Hart.trapAt_text cause tval tval2 gva hw ((s.hart h).excLevel_cases cause)⟩
  · rw [Hart.excLevel_of_world cause hw]
    exact ⟨rfl, Hart.trapM_endpaper cause tval tval2 gva hw⟩

/-- A return to the text world leaves the hart settled. -/
theorem State.toText_settled {s : State} {h : Nat} (hs : s.settled h = true) :
    (s.toText h).settled h = true ∧ ((s.toText h).hart h).world = false := by
  unfold State.toText
  generalize hm : s.modHart h _ = s1
  have hs1 : s1.settled h = true := hm ▸ State.modHart_settled hs rfl
  have hw1 : (s1.hart h).world = false := by rw [← hm, State.hart_modHart_same]
  have hk := s1.scrub_keepsTrap h 0
  rw [State.freeHeld_of_settled hs1]
  exact ⟨hk.settled hs1, hk.hart.world.trans hw1⟩

/-- No register of the Endpaper's harts and key services is a core's status. -/
theorem endpaperKeys_ne_coreStatus (h : Nat) :
    CPU_CORE_STATUSc (coreOf h) ≠ ENDP_HARTn_STATUS h ∧ CPU_CORE_STATUSc (coreOf h) ≠ ENDP_KSn_CTL h := by
  unfold CPU_CORE_STATUSc ENDP_HARTn_STATUS ENDP_KSn_CTL coreOf
  omega

/-- The flag of a crash shares no bit with the tile of any core, wherever a hart's number puts the register of its core. -/
theorem State.raiseCrash_keepsTrap (s : State) (h : Nat) : (s.raise ENDP_ALARM.CRASH).KeepsTrap s h := by
  apply s.setF_keepsTrap h 1
  by_cases hk : CPU_CORE_STATUSc (coreOf h) = ENDP_ALARM
  · exact s.f_setF_apart ENDP_ALARM.CRASH (CPU_CORE_STATUSc.TILE (coreOf h)) 1 (by decide) rfl hk rfl
  · exact s.f_setF_other ENDP_ALARM.CRASH (CPU_CORE_STATUSc.TILE (coreOf h)) 1 hk

/-- The hart in the text world after a crash of cause `cause`: a0 to a3 tell of it (R481). -/
def Hart.crashed (t : Hart) (cause : Nat) : Hart :=
  { (((t.setX 10 0xFFFFFFFFFFFFFFF0).setX 11 2).setX 12 (BitVec.ofNat 64 cause)).setX 13 0 with enterLeaf := 0, skipLeaves := 0 }

theorem State.leaveFailed_of_crash (s : State) (h cause : Nat) : s.leaveFailed h 2 cause =
    (((((s.toText h).modHart h (fun t => t.crashed cause)).setF (ENDP_HARTn_STATUS.LAST_CAUSE h) 2).setF (ENDP_HARTn_STATUS.STATE h) 4).setF
      (ENDP_KSn_CTL.BUSY h) 0).raise ENDP_ALARM.CRASH := rfl

@[simp] theorem Hart.setX_world (t : Hart) (r : Nat) (v : Word) : (t.setX r v).world = t.world := by
  unfold Hart.setX
  split <;> rfl

@[simp] theorem Hart.setX_csr (t : Hart) (r : Nat) (v : Word) : (t.setX r v).csr = t.csr := by
  unfold Hart.setX
  split <;> rfl

theorem Hart.getX_setX_same (t : Hart) {r : Nat} (v : Word) (hr : r ≠ 0) : (t.setX r v).getX r = v := by
  simp [Hart.getX, Hart.setX, hr]

theorem Hart.getX_setX_other (t : Hart) {r r' : Nat} (v : Word) (hr : r' ≠ r) : (t.setX r v).getX r' = t.getX r' := by
  unfold Hart.getX Hart.setX
  split
  · rfl
  · split
    · rfl
    · exact Table.get_set_other 0 t.x v hr

theorem Hart.crashed_world (t : Hart) (cause : Nat) : (t.crashed cause).world = t.world := by simp [Hart.crashed]

theorem Hart.crashed_csrIn (t : Hart) (cause : Nat) (world : Bool) (a : Nat) : (t.crashed cause).csrIn world a = t.csrIn world a := by
  simp [Hart.crashed, Hart.csrIn]

/-- a1 tells of a crash, and a2 of its cause. -/
theorem Hart.crashed_getX (t : Hart) (cause : Nat) : (t.crashed cause).getX 11 = 2 ∧ (t.crashed cause).getX 12 = BitVec.ofNat 64 cause := by
  constructor
  · calc (t.crashed cause).getX 11
      _ = (((t.setX 10 0xFFFFFFFFFFFFFFF0).setX 11 2).setX 12 (BitVec.ofNat 64 cause)).getX 11 := Hart.getX_setX_other _ _ (by decide)
      _ = ((t.setX 10 0xFFFFFFFFFFFFFFF0).setX 11 2).getX 11 := Hart.getX_setX_other _ _ (by decide)
      _ = 2 := Hart.getX_setX_same _ _ (by decide)
  · calc (t.crashed cause).getX 12
      _ = (((t.setX 10 0xFFFFFFFFFFFFFFF0).setX 11 2).setX 12 (BitVec.ofNat 64 cause)).getX 12 := Hart.getX_setX_other _ _ (by decide)
      _ = BitVec.ofNat 64 cause := Hart.getX_setX_same _ _ (by decide)

/-- A crash shows its cause in a2, and leaves the hart settled (R479, R481). -/
theorem State.leaveFailed_crash {s : State} {h : Nat} (cause : Nat) (hs : s.settled h = true) :
    (s.leaveFailed h 2 cause).settled h = true ∧ ((s.leaveFailed h 2 cause).hart h).world = false ∧
      ((s.leaveFailed h 2 cause).hart h).getX 11 = 2 ∧ ((s.leaveFailed h 2 cause).hart h).getX 12 = BitVec.ofNat 64 cause := by
  obtain ⟨hset, hworld⟩ := State.toText_settled hs
  obtain ⟨hstatus, hks⟩ := endpaperKeys_ne_coreStatus h
  rw [State.leaveFailed_of_crash]
  generalize hm : (s.toText h).modHart h _ = s1
  have hhart : s1.hart h = ((s.toText h).hart h).crashed cause := by rw [← hm, State.hart_modHart_same]
  have hset1 : s1.settled h = true := hm ▸ State.modHart_settled hset (Hart.crashed_csrIn ..)
  obtain ⟨h11, h12⟩ := Hart.crashed_getX ((s.toText h).hart h) cause
  have hk := ((State.raiseCrash_keepsTrap _ h).trans (State.setF_other_keepsTrap _ h 0 (fld := ENDP_KSn_CTL.BUSY h) hks)).trans
    ((State.setF_other_keepsTrap _ h 4 (fld := ENDP_HARTn_STATUS.STATE h) hstatus).trans
      (State.setF_other_keepsTrap s1 h 2 (fld := ENDP_HARTn_STATUS.LAST_CAUSE h) hstatus))
  refine ⟨hk.settled hset1, ?_, ?_, ?_⟩
  · rw [hk.hart.world, hhart, Hart.crashed_world, hworld]
  · rwa [Hart.getX, hk.hart.x, hhart, ← Hart.getX]
  · rwa [Hart.getX, hk.hart.x, hhart, ← Hart.getX]

/-- An exception is taken, and leaves the hart settled. -/
theorem State.exception_takesException {s : State} {h : Nat} (cause : Nat) (tval tval2 : Word) (hs : s.settled h = true) :
    (s.exception h cause tval tval2).settled h = true ∧ (s.exception h cause tval tval2).TakesException s h cause := by
  by_cases hc : (s.hart h).world = true ∧ (s.hart h).priv = 3
  · obtain ⟨hset, hcrash⟩ := State.leaveFailed_crash cause hs
    simp only [State.exception, if_pos hc]
    exact ⟨hset, fun hw => by simp [hw] at hc, fun _ hp => absurd hc.2 hp, fun _ _ => hcrash⟩
  · simp only [State.exception, if_neg hc]
    generalize hgva : ((s.hart h).virt && _) = gva
    have htrap := s.modHart_trapAt_takesException h cause tval tval2 gva hc
    have hset : (s.modHart h (fun t => t.trapAt ((s.hart h).excLevel cause) cause tval tval2 gva)).settled h = true :=
      State.modHart_settled hs (Hart.trapAt_dcsr ..)
    have hk := State.trapped_keepsTrap ((s.hart h).excLevel cause) hset
    exact ⟨hk.settled hset, htrap.of_keepsTrap hk⟩

/-- What a memory exception adds to the exception of its cause, xstatus.GVA, touches no trap CSR. -/
theorem State.memFaultIn_keepsTrap (s : State) (h : Nat) (m : AccMode) (f : MemFault) (hf : f.tinst = 0) :
    (s.memFaultIn h m f).KeepsTrap (s.exception h f.cause f.tval f.gpa) h := by
  simp only [State.memFaultIn, State.memFault, if_pos hf]
  split
  · apply State.modHart_keepsTrap
    split
    · exact Hart.wr_keepsTrap _ _ (by decide) (by decide)
    · split
      · exact Hart.wr_keepsTrap _ _ (by decide) (by decide)
      · exact .refl _
  · exact .refl _ h

/-- An instruction that ends in a memory exception ends with the exception taken. -/
theorem State.ended_memFaultIn_takesException {u : State} {h : Nat} (m : AccMode) (f : MemFault) (hf : f.tinst = 0) (w : Nat) (k : InstrClass)
    (was : Hart) (hu : u.settled h = true) : ((u.memFaultIn h m f).ended h w k was).TakesException u h f.cause := by
  obtain ⟨hset, htakes⟩ := State.exception_takesException f.cause f.tval f.gpa hu
  have hk := u.memFaultIn_keepsTrap h m f hf
  exact (htakes.of_keepsTrap hk).of_keepsTrap (State.ended_keepsTrap w k was (hk.settled hset))

/-! ### LR, SC and AMO at a misaligned address -/

/-- Pointer masking tells loads from stores by nothing. -/
theorem Hart.maskAddr_load (t : Hart) (m : AccMode) (va : Word) : t.maskAddr m .load va = t.maskAddr m .store va := by
  simp [Hart.maskAddr]

/-- A misaligned atomic access that no trigger stops ends the instruction with its misaligned cause, before any translation (R84). -/
theorem State.atomicPlace_misaligned {u : State} {h n : Nat} {a : MemAcc} {kinds : List Nat} {va0 va : Word} (misaligned io : Nat)
    (k : State → Nat × Nat × Word → State × Bool) (hva : va = (u.hart h).maskAddr (u.hart h).dataMode a va0)
    (htrig : u.dataTrigger h kinds va = none) (hmis : va.toNat % n ≠ 0) :
    u.atomicPlace h a misaligned io kinds va0 n k = u.memStop h { cause := misaligned, tval := va } := by
  subst hva
  simp only [State.atomicPlace, htrig, if_pos hmis]

section Misaligned

variable {u : State} {h n raw : Nat} {va : Word}

theorem State.loadReserved_misaligned (hat : u.AtomicAt h n raw [0] va) (hmis : va.toNat % n ≠ 0) (len : Nat) :
    u.loadReserved h (instrWord raw) len = u.memStop h { cause := 4, tval := va } := by
  obtain ⟨rfl, hva, htrig⟩ := hat
  unfold State.loadReserved
  exact State.atomicPlace_misaligned 4 7 _ (hva.trans (Hart.maskAddr_load _ _ _).symm) htrig hmis

theorem State.storeConditional_misaligned (hat : u.AtomicAt h n raw [1] va) (hmis : va.toNat % n ≠ 0) (len : Nat) :
    u.storeConditional h (instrWord raw) len = u.memStop h { cause := 6, tval := va } := by
  obtain ⟨rfl, hva, htrig⟩ := hat
  unfold State.storeConditional
  exact State.atomicPlace_misaligned 6 7 _ hva htrig hmis

theorem State.amoAccess_misaligned (hat : u.AtomicAt h n raw [0, 1] va) (hmis : va.toNat % n ≠ 0) (len : Nat) :
    u.amoAccess h (instrWord raw) len = u.memStop h { cause := 6, tval := va } := by
  obtain ⟨rfl, hva, htrig⟩ := hat
  unfold State.amoAccess
  exact State.atomicPlace_misaligned 6 7 _ hva htrig hmis

end Misaligned

/-! ### The command -/

/-- A hart that acts executes. -/
theorem State.runs_of_acting {s u : State} {h raw : Nat} {k : InstrClass} (ha : s.acting h raw k = some u) : s.runs h = true := by
  unfold State.acting at ha
  dsimp only at ha
  split at ha
  · rename_i hc
    exact hc.2.1
  · cases ha

/-- A hart that executes owes no atomic instruction: its core neither waits for it with a retry nor is failed. -/
theorem State.owesAtomic_of_runs {s : State} {h : Nat} (w : Nat) (hr : s.runs h = true) : s.owesAtomic h w = false := by
  simp only [State.runs, Bool.and_eq_true, decide_eq_true_eq, Bool.not_eq_true'] at hr
  obtain ⟨⟨⟨_, hstate⟩, _⟩, hdue⟩ := hr
  have hfailed : ¬s.f (CPU_CORE_STATUSc.STATE (coreOf h)) = 2 := by omega
  simp [State.owesAtomic, hdue, hfailed]

theorem State.atomicRun_of_acting {s u : State} {h raw : Nat} {k : InstrClass} (wrong : List WrongAcc) (act : State → Nat → Nat → State × Bool)
    (ha : s.acting h raw k = some u) : s.atomicRun h raw k wrong act = s.hartRun h raw k wrong act := by
  simp [State.atomicRun, State.owesAtomic_of_runs _ (State.runs_of_acting ha)]

/-- An instruction with a wrong path is executed before the path or behind it. -/
theorem State.hartRun_cases (s : State) (h raw : Nat) (k : InstrClass) (wrong : List WrongAcc) (act : State → Nat → Nat → State × Bool) :
    s.hartRun h raw k wrong act = s.hartInstr h raw k act ∨ s.hartRun h raw k wrong act = (s.strayed h k wrong).hartInstr h raw k act := by
  unfold State.hartRun State.shadowed
  dsimp only
  split
  · exact .inl rfl
  · split
    · exact .inl rfl
    · exact .inr rfl

/-- An instruction that completes or traps wherever it may act ends. -/
theorem State.hartRun_of_actsEither {s : State} {h raw : Nat} {k : InstrClass} {wrong : List WrongAcc} {P : State → Prop}
    {act : State → Nat → Nat → State × Bool} {done : State → State} (he : s.ActsEither h raw k wrong P)
    (hact : ∀ u, P u → act u (instrWord raw) (instrLen raw) = (done u, true)) :
    ∃ u was, s.mayAct h raw k wrong u ∧ P u ∧ s.hartRun h raw k wrong act = (done u).ended h (instrWord raw) k was := by
  have acts {a u : State} (ha : a.acting h raw k = some u) (hu : P u) :
      ∃ was, a.hartInstr h raw k act = (done u).ended h (instrWord raw) k was :=
    ⟨_, by rw [(State.hartInstr_of_acting act ha).2, hact u hu, if_pos rfl]⟩
  obtain ⟨⟨u, ha, hu⟩, v, hb, hv⟩ := he
  rcases s.hartRun_cases h raw k wrong act with hr | hr <;> rw [hr]
  · obtain ⟨was, hend⟩ := acts ha hu
    exact ⟨u, was, .inl ha, hu, hend⟩
  · obtain ⟨was, hend⟩ := acts hb hv
    exact ⟨v, was, .inr hb, hv, hend⟩

theorem State.running_of_acting {s u : State} {h raw : Nat} {k : InstrClass} (ha : s.acting h raw k = some u) (t : State) :
    s.running t = t := by
  simp [State.running, (State.hartInstr_of_acting (fun a _ _ => (a, true)) ha).1]

section TakesException

variable {s : State} {h raw cause : Nat} {va : Word} {k : InstrClass} {wrong : List WrongAcc} {P : State → Prop}
  {act : State → Nat → Nat → State × Bool}

/-- An instruction that comes to a memory exception wherever it may act, in a settled hart, takes the exception. -/
theorem State.hartRun_takesException (he : s.ActsEither h raw k wrong (fun u => u.settled h = true ∧ P u))
    (hact : ∀ u, P u → act u (instrWord raw) (instrLen raw) = u.memStop h { cause := cause, tval := va }) :
    ∃ u, s.mayAct h raw k wrong u ∧ (s.running (s.hartRun h raw k wrong act)).TakesException u h cause := by
  obtain ⟨v, ha, _⟩ := he.1
  obtain ⟨u, was, hmay, ⟨hset, _⟩, hrun⟩ := State.hartRun_of_actsEither he (fun u hu => hact u hu.2)
  rw [State.running_of_acting ha, hrun]
  exact ⟨u, hmay, State.ended_memFaultIn_takesException _ { cause := cause, tval := va } rfl _ _ was hset⟩

/-- So does an SC, an AMO or a compare-and-swap. -/
theorem State.atomicRun_takesException (he : s.ActsEither h raw k wrong (fun u => u.settled h = true ∧ P u))
    (hact : ∀ u, P u → act u (instrWord raw) (instrLen raw) = u.memStop h { cause := cause, tval := va }) :
    ∃ u, s.mayAct h raw k wrong u ∧ (s.running (s.atomicRun h raw k wrong act)).TakesException u h cause := by
  obtain ⟨v, ha, _⟩ := he.1
  rw [State.atomicRun_of_acting wrong act ha]
  exact State.hartRun_takesException he hact

end TakesException

/-- Settles O52: the misaligned access ends in a memory exception before it is translated, and neither the exception's bookkeeping nor the
instruction's end touches what tells of the trap. -/
theorem misalignedAtomicsTrap : Obligations.MisalignedAtomicsTrap := by
  unfold Obligations.MisalignedAtomicsTrap
  intro s h n raw cause c k kinds va wrong hc he hmis
  have htrap : ∃ u t, s.mayAct h raw k wrong u ∧ exec c s = .next t ∧ t.TakesException u h cause := by
    rcases hc with ⟨rfl, rfl, rfl, rfl⟩ | ⟨rfl, rfl, rfl, rfl⟩ | ⟨rfl, rfl, rfl, rfl⟩
    · obtain ⟨u, hmay, htakes⟩ := State.hartRun_takesException (act := fun a w len => a.loadReserved h w len) he
        (fun _ hat => State.loadReserved_misaligned hat hmis _)
      exact ⟨u, _, hmay, rfl, htakes⟩
    · obtain ⟨u, hmay, htakes⟩ := State.atomicRun_takesException (act := fun a w len => a.storeConditional h w len) he
        (fun _ hat => State.storeConditional_misaligned hat hmis _)
      exact ⟨u, _, hmay, rfl, htakes⟩
    · obtain ⟨u, hmay, htakes⟩ := State.atomicRun_takesException (act := fun a w len => a.amoAccess h w len) he
        (fun _ hat => State.amoAccess_misaligned hat hmis _)
      exact ⟨u, _, hmay, rfl, htakes⟩
  obtain ⟨u, t, hmay, hexec, htext, huser, hcrash⟩ := htrap
  exact ⟨u, t, hmay, hexec, htext, huser, hcrash⟩

end Sys2Proof.Machine

namespace Sys2Proof.Machine

open Sys2Proof

/-! ### The count of thermal cycles (R522) -/

theorem State.onKeep_of_on {s : State} (hon : s.off = false) (s' : State) : s.onKeep s' = s' := by
  simp [State.onKeep, hon]

/-- From 85 °C, with a cycle due, the count goes up by one, saturating at 16 bits, and no cycle is due any more. -/
theorem State.thermalCycle_of_hot {s : State} {t : Nat} (hhot : 85 ≤ t) (hdue : s.hb.cold = true) :
    s.thermalCycle t = { s with
      life := s.life.set 0 (64 * 0x18 + 32) (min (s.life.get 0 (64 * 0x18 + 32) + 1) (2 ^ 16 - 1)),
      hb := { s.hb with cold := false } } :=
  if_pos ⟨hhot, hdue⟩

theorem State.thermalCycle_of_cold {s : State} {t : Nat} (hcold : t ≤ 45) :
    s.thermalCycle t = { s with hb := { s.hb with cold := true } } := by
  have hnot : ¬ (85 ≤ t ∧ s.hb.cold = true) := by omega
  exact (if_neg hnot).trans (if_pos hcold)

/-- Above 45 °C, a reading below 85 °C or one with no cycle due changes nothing. -/
theorem State.thermalCycle_of_warm {s : State} {t : Nat} (hwarm : 45 < t) (hno : t < 85 ∨ s.hb.cold = false) :
    s.thermalCycle t = s := by
  have hnot : ¬ (85 ≤ t ∧ s.hb.cold = true) := by
    rintro ⟨hhot, hdue⟩
    rcases hno with hlow | hdone
    · omega
    · simp [hdue] at hdone
  exact (if_neg hnot).trans (if_neg (by omega))

theorem exec_thermalCycle {s : State} (hon : s.off = false) (t : Nat) : exec (.thermalCycle t) s = .next (s.thermalCycle t) :=
  congrArg Host.Outcome.next (State.onKeep_of_on hon _)

/-- Settles O53: a cycle is due from power-on, and a reading falls into one of the three ranges that R522 gives. -/
theorem thermalCyclesAreCounted : Obligations.ThermalCyclesAreCounted := by
  unfold Obligations.ThermalCyclesAreCounted
  refine ⟨rfl, fun s t hon => ?_⟩
  rw [exec_thermalCycle hon]
  exact ⟨fun hhot hdue => congrArg _ (State.thermalCycle_of_hot hhot hdue),
    fun hcold => congrArg _ (State.thermalCycle_of_cold hcold),
    fun hwarm hno => congrArg _ (State.thermalCycle_of_warm hwarm hno)⟩

end Sys2Proof.Machine


namespace Sys2Proof.Machine

open Sys2Proof

/-! ### Offsets that no register occupies (R529) -/

theorem findIn_isSome_of_mem {ds : List RegDesc} {d : RegDesc} {k : Nat} (hd : d ∈ ds) (hk : (d.indices k).isSome = true) :
    (findIn ds k).isSome = true := by
  induction ds with
  | nil => cases hd
  | cons e ds ih =>
    unfold findIn
    split
    · rfl
    · next hnone =>
      rcases List.mem_cons.mp hd with rfl | hd
      · simp [hnone] at hk
      · exact ih hd

theorem RegDesc.indices_isSome_of_array {d : RegDesc} {n dist k : Nat} (hdims : d.dims = [(0, n, dist)]) (hlo : d.off ≤ k)
    (hhi : k < d.off + dist * n) (hstep : (k - d.off) % dist = 0) : (d.indices k).isSome = true := by
  have hindex : (k - d.off) / dist < n := Nat.div_lt_of_lt_mul (by omega)
  simp [RegDesc.indices, hlo, hdims, indicesAt, hindex, hstep]

/-- Every offset of an array of registers is a register's. -/
theorem findReg_isSome_of_array {b off n dist k : Nat} (hd : ∃ d ∈ regDescsOf b, d.off = off ∧ d.dims = [(0, n, dist)])
    (hb : k / 0x10000000 = b) (hlo : off ≤ k) (hhi : k < off + dist * n) (hstep : (k - off) % dist = 0) : (findReg k).isSome = true := by
  obtain ⟨d, hmem, rfl, hdims⟩ := hd
  subst hb
  exact findIn_isSome_of_mem hmem (RegDesc.indices_isSome_of_array hdims hlo hhi hstep)

theorem findReg_isSome_of_dirStatus {k : Nat} (haligned : k % 8 = 0) (hlo : L3_DIR_STATUSs 0 ≤ k) (hhi : k < L3_DIR_STATUSs 216) :
    (findReg k).isSome = true := by
  simp only [L3_DIR_STATUSs] at hlo hhi
  exact findReg_isSome_of_array (b := 3) (off := 3 * 0x10000000 + 0x2000) (n := 216) (dist := 8) (by decide)
    (by omega) (by omega) (by omega) (by omega)

theorem findReg_isSome_of_specCtl {k : Nat} (haligned : k % 8 = 0) (hlo : CPU_SPEC_CTLc 0 ≤ k) (hhi : k < CPU_SPEC_CTLc 192) :
    (findReg k).isSome = true := by
  simp only [CPU_SPEC_CTLc] at hlo hhi
  exact findReg_isSome_of_array (b := 2) (off := 2 * 0x10000000 + 0x2000) (n := 192) (dist := 8) (by decide)
    (by omega) (by omega) (by omega) (by omega)

theorem Table.get_of_unlisted {α : Type} (d : α) {t : Table α} {k : Nat} (hk : ∀ e ∈ t, e.1 ≠ k) : Table.get d t k = d := by
  induction t with
  | nil => rfl
  | cons e t ih =>
    obtain ⟨hne, hrest⟩ := List.forall_mem_cons.mp hk
    exact (if_neg hne).trans (ih hrest)

theorem resetOf_of_absent {k : Nat} (hk : findReg k = none) : resetOf k = 0 := by simp [resetOf, hk]

theorem State.reg_of_absent {s : State} {k : Nat} (hl : s.ListsRegisters) (hk : findReg k = none) : s.reg k = 0 := by
  have hunlisted : ∀ e ∈ s.regs, e.1 ≠ k := by
    rintro e he rfl
    simpa [hk] using hl e he
  exact (Table.get_of_unlisted _ hunlisted).trans (resetOf_of_absent hk)

/-- The registers that a read computes lie at registers' offsets, so none of them is read at an absent one. -/
theorem State.regRead_of_absent {s : State} (who : Requester) {k : Nat} (hl : s.ListsRegisters) (haligned : k % 8 = 0) (hk : findReg k = none) :
    s.regRead who k = 0 := by
  have hdir : ¬ (L3_DIR_STATUSs 0 ≤ k ∧ k < L3_DIR_STATUSs 216) := fun ⟨hlo, hhi⟩ => by
    simpa [hk] using findReg_isSome_of_dirStatus haligned hlo hhi
  have hspec : ¬ (CPU_SPEC_CTLc 0 ≤ k ∧ k < CPU_SPEC_CTLc 192) := fun ⟨hlo, hhi⟩ => by
    simpa [hk] using findReg_isSome_of_specCtl haligned hlo hhi
  unfold State.regRead
  rw [if_neg hdir, if_neg hspec, State.reg_of_absent hl hk, ite_self]

/-! ### Offsets outside the windows (R540) -/

/-- Outside the windows: not in the keep window, not in the Colophon's, not in engine memory. -/
theorem inWindow_eq_false_iff (k : Nat) :
    inWindow k = false ↔
      ¬ (k / 0x10000000 = 2 ∧ 0x100000 ≤ k % 0x10000000 ∧ k % 0x10000000 < 0x100000 + 192 * 0x8000) ∧
      ¬ (k / 0x10000000 = 15 ∧ 0x100000 ≤ k % 0x10000000) ∧
      ¬ (k / 0x10000000 = 9 ∧ 0x4000000 ≤ k % 0x10000000 ∧ k % 0x10000000 < 0x8000000) := by
  simp only [inWindow, readOnlyWindow, Bool.or_eq_false_iff, decide_eq_false_iff_not]
  omega

/-- Windows begin and end at words. -/
theorem inWindow_word {k : Nat} (hk : inWindow k = false) : inWindow (k / 8 * 8) = false := by
  rw [inWindow_eq_false_iff] at hk ⊢
  omega

section Absent

variable {s : State} {k : Nat}

theorem State.unitGone_of_absent (hk : findReg (k / 8 * 8) = none) (hwin : inWindow k = false) : s.unitGone k = false := by
  obtain ⟨-, -, hengine⟩ := (inWindow_eq_false_iff k).mp hwin
  have hdie : unitDie k = none := (if_neg hengine).trans (by rw [hk]; rfl)
  simp [State.unitGone, hdie]

theorem State.setupWord_of_absent (who : Requester) (hl : s.ListsRegisters) (haligned : k % 8 = 0) (hk : findReg k = none)
    (hwin : inWindow k = false) : s.setupWord who k = (s, 0) := by
  obtain ⟨hkeep, hcol, -⟩ := (inWindow_eq_false_iff k).mp hwin
  unfold State.setupWord
  rw [if_neg hkeep, if_neg hcol, State.regRead_of_absent who hl haligned hk]

theorem State.setupRead_of_absent (who : Requester) (size : Nat) (hl : s.ListsRegisters) (hk : findReg (k / 8 * 8) = none)
    (hwin : inWindow k = false) : s.setupRead who k size = (s, some 0) := by
  obtain ⟨-, -, hengine⟩ := (inWindow_eq_false_iff k).mp hwin
  have hword := State.setupWord_of_absent who hl (Nat.mul_mod_left (k / 8) 8) hk (inWindow_word hwin)
  simp [State.setupRead, hengine, State.unitGone_of_absent hk hwin, hword]

theorem State.written_of_absent (who : Requester) (size : Nat) (v : Word) (act : State → State) (hk : findReg k = none) :
    s.written who size k v act = s := by
  simp [State.written, hk]

theorem State.setupWrite_of_absent (who : Requester) (size : Nat) (v : Word) (fits : Bool) (hk : findReg (k / 8 * 8) = none)
    (hwin : inWindow k = false) : s.setupWrite who size k v fits = s := by
  obtain ⟨-, hcol, hengine⟩ := (inWindow_eq_false_iff k).mp hwin
  have hwork : ¬ (k / 0x10000000 = 15 ∧ 0x100000 ≤ k % 0x10000000 ∧ k % 0x10000000 < 0x180000) := fun hin => hcol ⟨hin.1, hin.2.1⟩
  unfold State.setupWrite
  rw [if_neg hengine, if_neg hwork, State.written_of_absent who size v _ hk, ite_self]

end Absent

theorem exec_registerWrite {s : State} (hrun : s.stopped = false) (who : Requester) (size k : Nat) (v : Word) (fits : Bool) :
    exec (.registerWrite who size k v fits) s = .next (s.setupWrite who size k v fits) :=
  congrArg Host.Outcome.next (if_neg (by simp [hrun]))

/-- Settles O51: outside the windows both accesses reach the register table alone, which has nothing at an absent offset. -/
theorem absentOffsetsReadZeroAndIgnoreWrites : Obligations.AbsentOffsetsReadZeroAndIgnoreWrites := by
  unfold Obligations.AbsentOffsetsReadZeroAndIgnoreWrites
  intro s who size k v fits hrun hl _ hk hwin
  rw [exec_registerWrite hrun, State.setupWrite_of_absent who size v fits hk hwin]
  exact ⟨rfl, State.setupRead_of_absent who size hl hk hwin⟩

end Sys2Proof.Machine
